-- ==== Sys2Proof/Word.lean ====
section
/-! DEFINITION. The word types of the device: a register or scalar value is 64 bits (R6, R55), a
byte 8 bits, a local physical address 48 bits (R15), a tile descriptor 128 bits (R282). -/

namespace Sys2Proof

/-- A register-space register, a scalar register, or one 64-bit word of data. -/
abbrev Word := BitVec 64

/-- One byte. -/
abbrev Byte := BitVec 8

/-- A local physical address held as bits, as a program counter is. -/
abbrev Addr := BitVec 48

/-- A 32-bit value: an accumulator element or a binary32 encoding. -/
abbrev W32 := BitVec 32

end Sys2Proof
end

