-- ==== Sys2Proof/Syntax.lean ====
section
/-! DEFINITION. The commands of the block: one constructor per row of the opcode table.  A command
is an event at the device's boundary or inside it (a pin edge, a timer's end, a register write, a
packet or message received, an instruction of a core's sequencer), with the operands the row's rule
needs.  `core`, `ctx`, `port`, `part`, `die`, `ctl` name a unit by its number; `word` is an
instruction word; `value` is the 64-bit value of a register write. -/

namespace Sys2Proof

/-- A fault that a start-up self-test phase found: the UNIT code of Table: Vendor section, the die
code and the number of the unit (R433). -/
structure FoundFault where
  unit : Nat
  die : Nat
  inst : Nat
  deriving DecidableEq, Repr

/-- Who makes a request at a tier controller (R202, R203): a task context of a core, an Erg port for another
device, the collective or checkpoint engine of a hub, or the control node through a Caravan port. -/
inductive Agent where
  | core (core ctx : Nat)
  | erg (port : Nat)
  | coll (hub : Nat)
  | ckpt (hub : Nat)
  | control (port : Nat)
  deriving DecidableEq, Repr

/-- A request at a tier controller (R203): its local physical address, the bytes it writes or, with `add` the
code of its element type, adds (none for a read of the line), whether a codeword of those bytes is
uncorrectable, the partition it belongs to (8 for none) and its requester. -/
structure TierReq where
  addr : Nat
  data : Option (List Byte)
  add : Option Nat
  bad : Bool
  part : Nat
  agent : Agent
  deriving DecidableEq, Repr

/-- An Erg packet (R217, R218): the header fields and the payload words with their poison marks,
four to a flit. -/
structure Packet where
  ty : Nat
  tc : Nat
  mc : Bool
  dst : Nat
  src : Nat
  tag : Nat
  job : Nat
  addr : Nat
  timeLo : Nat
  token : Nat
  tokV : Bool
  first : Bool
  last : Bool
  srcCore : Nat
  status : Nat
  w3 : Word
  payload : List (Word × Bool)
  deriving DecidableEq, Repr

/-- An Erg or Caravan frame as it crosses the lanes (R216, R325): the 20-bit frame header and 16 flits of 320 bits. -/
structure Frame where
  head : BitVec 20
  flits : List (BitVec 320)
  deriving DecidableEq, Repr

/-- A frame as a port's receiver takes it (R221): nothing where the flits are uncorrectable; `fixed` says that the
receiver corrected symbols of it. -/
structure FrameArrival where
  frame : Option Frame
  fixed : Bool
  deriving DecidableEq, Repr

/-- An agent of a core that can wait for a slot (R179): the issue head of a context, a stream, a gather engine. -/
inductive SlotAgent where
  | head (ctx : Nat)
  | stream (n : Nat)
  | gather (n : Nat)
  deriving DecidableEq, Repr

/-- One access of a port to a scratchpad (R172): the byte written, none for a read, and the bits of the codeword that
are found in error. -/
structure PortAccess where
  write : Option Byte
  upset : BitVec 80
  deriving DecidableEq, Repr

/-- A core's request to the Sprue cache (R193): the byte address, whether a miss may allocate, the bits of the codeword
that are found in error, and the way whose tag parity fails. -/
structure CacheReq where
  addr : Nat
  noalloc : Bool
  upset : BitVec 80
  tag : Option Nat
  deriving DecidableEq, Repr

/-- A Caravan message (R326). -/
structure CMsg where
  ty : Nat
  tag : Nat
  session : Nat
  addr : Nat
  part : Nat
  status : Nat
  w3 : Word
  payload : List (Word × Bool)
  timeLo : Nat
  deriving DecidableEq, Repr

/-- A command of the block. -/
inductive Instr where
  /-- RST_N_ASSERT (R428). Assertion of RST_N holds every domain except AON and restarts start-up at stage RESET. -/
  | rstNAssert
  /-- RST_N_DEASSERT (R429). Release of RST_N samples STRAP[7:0] and starts the strap delay of stage CRYSTAL. -/
  | rstNDeassert (straps : BitVec 8)
  /-- PWRGOOD_FALL (R409). A fall of PWRGOOD holds every domain except AON as a cold reset within 1 µs and makes tier content undefined. -/
  | pwrgoodFall
  /-- PWRGOOD_RISE (R408). PWRGOOD rising with every rail within tolerance lets the device restart as after RST_N deasserts. -/
  | pwrgoodRise
  /-- RAIL_UNDERVOLTAGE (R409). A rail of groups 2 to 5 below 90% of nominal for 1 µs acts as a fall of PWRGOOD and is recorded in PWR_STATUS. -/
  | railUndervoltage (rail : Nat)
  /-- STRAP_DELAY_EXPIRY (R385). End of the strap delay starts the count of reference edges over 8,192 oscillator cycles. -/
  | strapDelayExpiry
  /-- REFERENCE_CHECK_DONE (R385). End of the reference count changes the reference over to the crystal, or sets XTAL_FAIL and leads to the Cairn state. -/
  | referenceCheckDone (count : Nat)
  /-- CRYSTAL_MONITOR_TICK (R386). Each millisecond the crystal is compared with the oscillator, and on failure every reference changes over to the oscillator. -/
  | crystalMonitorTick (count : Nat)
  /-- PLL_LOCK (R390). A PLL reaching lock switches its domains back from the reference and starts the upward divider ramp. -/
  | pllLock (die pll : Nat)
  /-- DIVIDER_RAMP_DWELL (R390). Expiry of one DWELL_US moves a ramping domain to its next divider. -/
  | dividerRampDwell (die dom : Nat)
  /-- PLL_LOSS_OF_LOCK (R391). A PLL losing lock gates its outputs at once and makes one relock attempt. -/
  | pllLossOfLock (die pll : Nat)
  /-- PLL_RELOCK_TIMEOUT (R391). A PLL that has not relocked within 100 µs stays off until a cold reset. -/
  | pllRelockTimeout (die pll : Nat)
  /-- CLK_DOM_GO (R389). Writing GO of CLK_DOM changes the CORE or SEQ clock of a die, or sets REJECT. -/
  | clkDomGo (die dom : Nat) (value : Word)
  /-- CLK_OUT_WRITE (R398). A write of CLK_OUT sets the CLKOUT source and divisor, or refuses the setting with REJECT. -/
  | clkOutWrite (value : Word)
  /-- CROSSING_TIMEOUT (R397). A crossing whose sending clock stopped counts out CRS_TIMEOUT, drops its transfers and aborts affected pours. -/
  | crossingTimeout (die dFrom dTo index : Nat) (pours : List (Nat × Nat))
  /-- CROSSING_RESUME (R397). After the sending clock has run 64 receiving cycles, the crossing resets both sides and resumes. -/
  | crossingResume (die dFrom dTo index : Nat)
  /-- DOZE_ENTRY (R401). An idle unit enters the deepest doze state whose wake time plus guard fits before its event. -/
  | dozeEntry (unit : Nat)
  /-- DOZE_WAKE_START (R401). At the scheduled 20 ns boundary a dozing unit begins to wake so that it is awake by event minus guard. -/
  | dozeWakeStart (unit : Nat)
  /-- WAKE_COMPLETE (R399). A waking unit becomes awake, and a core leaving DZ4 is scrubbed with tokens EMPTY and the default calendar. -/
  | wakeComplete (unit : Nat)
  /-- PWR_HZ_WRITE (R402). A horizon write sets a unit's event time and is evaluated at once against its doze state. -/
  | pwrHzWrite (unit : Nat) (value : Word)
  /-- WAKE_REQUEST (R403). A request reaching a dozing unit begins its wake at once, clears its horizon and counts an early wake. -/
  | wakeRequest (unit : Nat)
  /-- HORIZON_EXPIRY (R401). When a horizon's event time passes, the horizon is cleared. -/
  | horizonExpiry (unit : Nat)
  /-- PORT_WAKE_LOCK_TIMEOUT (R405). An Erg port without lock 40 µs after its wake goes DOWN. -/
  | portWakeLockTimeout (port : Nat)
  /-- ROM_STAGE_COMPLETE (R428). With MGMT and TIME running, ROM and STRAPS measured and the Caravan ports trained, start-up enters IMAGE_WAIT. -/
  | romStageComplete
  /-- BOOT_IMG_DATA_WRITE (R431). A write stores 8 image bytes at BOOT_IMG_PTR.OFFSET and advances it, or is ignored with REJECT. -/
  | bootImgDataWrite (value : Word)
  /-- BOOT_CTRL_GO (R431). GO in IMAGE_WAIT starts VERIFY on the image buffer. -/
  | bootCtrlGo
  /-- IMAGE_WAIT_TIMEOUT (R431). No GO within 600 s of IMAGE_WAIT sends the device to CAIRN with BOOT_CAUSE 7. -/
  | imageWaitTimeout
  /-- VERIFY_COMPLETE (R413). The boot ROM finishes the image checks and either measures HEADER and CODE and starts SELFTEST or enters CAIRN. -/
  | verifyComplete
  /-- SELFTEST_PHASE_COMPLETE (R432). A start-up self-test phase ends and the next phase starts, or start-up ends in READY or CAIRN. -/
  | selftestPhaseComplete (found : List FoundFault)
  /-- BOOT_CTRL_RESTART (R440). RESTART with KEY 0xC3 in CAIRN acts as an assertion and release of RST_N. -/
  | bootCtrlRestart (value : Word) (straps : BitVec 8)
  /-- CTL_RESET_WARM (R436). WARM with KEY 0xA5 requests a warm reset that keeps image, chain, session and tier content. -/
  | ctlResetWarm (value : Word)
  /-- SMBUS_BLOCK_READ (R441). A Block Read returns a snapshot of the telemetry value its command byte selects, with PEC. -/
  | smbusBlockRead (addr : BitVec 7) (command : Byte)
  /-- SMBUS_SCL_TIMEOUT (R457). SCL held low for more than 25 ms makes the device release both lines and reset its interface. -/
  | smbusSclTimeout
  /-- JTAG_EXTEST (R455). EXTEST makes the boundary cells drive and observe the pins while RST_N is low or in CAIRN. -/
  | jtagExtest (cells : BitVec 18)
  /-- JTAG_SAMPLE_PRELOAD (R455). SAMPLE/PRELOAD captures and loads the boundary cells without affecting the pins. -/
  | jtagSamplePreload (cells : BitVec 18)
  /-- JTAG_CLAMP (R455). CLAMP holds the pins from the boundary cells with BYPASS selected. -/
  | jtagClamp
  /-- JTAG_HIGHZ (R455). HIGHZ releases every output that has a cell to high impedance. -/
  | jtagHighz
  /-- JTAG_BYPASS (R455). BYPASS, and every other opcode, selects the one-bit bypass path. -/
  | jtagBypass
  /-- THERMAL_SENSOR_READ (R463). Every 10 µs the junction sensors are compared with the trip level. -/
  | thermalSensorRead (readings : List (Nat × Nat))
  /-- NOP (R266). NOP has no effect. -/
  | nop (core ctx : Nat) (word : Word)
  /-- BR (R266). BR branches by 8 × IMM when its guard is true. -/
  | br (core ctx : Nat) (word : Word)
  /-- JAL (R266). JAL links PC + 8 into g[RD] and branches by 8 × IMM. -/
  | jal (core ctx : Nat) (word : Word)
  /-- JALR (R266). JALR jumps to g[RS1] + IMM and links PC + 8 into g[RD]. -/
  | jalr (core ctx : Nat) (word : Word)
  /-- TRAP (R276). TRAP with a true guard aborts the pour with TRAP and records IMM[15:0]. -/
  | trap (core ctx : Nat) (word : Word)
  /-- URESUME (R267). URESUME ends the current update kernel and starts the next sweep. -/
  | uresume (core ctx : Nat) (word : Word)
  /-- ALU (R263). ALU writes g[RD] from g[RS1] and g[RS2] under the function FN selects. -/
  | alu (core ctx : Nat) (word : Word)
  /-- ALUI (R263). ALUI writes g[RD] from g[RS1] and the sign-extended IMM under FN. -/
  | alui (core ctx : Nat) (word : Word)
  /-- MOVI (R264). MOVI writes IMM into the low or high half of g[RD]. -/
  | movi (core ctx : Nat) (word : Word)
  /-- CMP (R265). CMP writes a predicate from a comparison of registers or of a register with IMM. -/
  | cmp (core ctx : Nat) (word : Word)
  /-- PSET (R265). PSET writes a predicate from a logical function of two predicates. -/
  | pset (core ctx : Nat) (word : Word)
  /-- LD (R268). LD loads 1, 2, 4 or 8 bytes from g[RS1] + IMM into g[RD]. -/
  | ld (core ctx : Nat) (word : Word)
  /-- ST (R268). ST stores the low bytes of g[RS2] at g[RS1] + IMM. -/
  | st (core ctx : Nat) (word : Word)
  /-- TOKSYNC_WAIT_FULL (R270). TOKSYNC WAIT_FULL issues once its token is FULL and changes no token. -/
  | toksyncWaitFull (core ctx : Nat) (word : Word)
  /-- TOKSYNC_WAIT_EMPTY (R270). TOKSYNC WAIT_EMPTY issues once its token is EMPTY and changes no token. -/
  | toksyncWaitEmpty (core ctx : Nat) (word : Word)
  /-- TOKSYNC_RELEASE (R270). TOKSYNC RELEASE issues when its token is FULL and returns it to EMPTY without a read. -/
  | toksyncRelease (core ctx : Nat) (word : Word)
  /-- WAITALL (R271). WAITALL completes when every earlier tensor instruction of its context has completed. -/
  | waitall (core ctx : Nat) (word : Word)
  /-- YIELD (R272). YIELD at the head of the active queue selects a new active context by the scan of R62. -/
  | yield (core ctx : Nat) (word : Word)
  /-- COMMIT (R273). COMMIT moves its context to COMMITTING, after which the sequencer fetches nothing more. -/
  | commit (core ctx : Nat) (word : Word)
  /-- VQUERY (R274). VQUERY writes g[RD] with a binding, argument or stamp value that FN selects. -/
  | vquery (core ctx : Nat) (word : Word)
  /-- STREAM (R181). STREAM starts a checked stream program in a stream context. -/
  | stream (core ctx : Nat) (word : Word)
  /-- STREAM_STOP (R181). STREAM_STOP ends a stream early, letting the tiles already begun complete. -/
  | streamStop (core ctx : Nat) (word : Word)
  /-- MMA (R287). MMA drives one or both arrays through a product into the named accumulator sets. -/
  | mma (core ctx : Nat) (word : Word)
  /-- MMA_CONV (R288). MMA_CONV runs a product whose A operand the convolution address generator gathers. -/
  | mmaConv (core ctx : Nat) (word : Word)
  /-- DRAIN (R289). DRAIN applies bias, shift and conversion to a set and writes the output slot or KV pages. -/
  | drain (core ctx : Nat) (word : Word)
  /-- SPILL (R289). SPILL writes a set's accumulators raw with its NONFINITE bit. -/
  | spill (core ctx : Nat) (word : Word)
  /-- ACCLD (R289). ACCLD restores a spilled image into a set bit for bit. -/
  | accld (core ctx : Nat) (word : Word)
  /-- ASSAY (R118). ASSAY opens an assay window that recomputes and compares records from the core's ring. -/
  | assay (core ctx : Nat) (word : Word)
  /-- VEW (R291). VEW computes an element-wise function and converts it into the destination. -/
  | vew (core ctx : Nat) (word : Word)
  /-- VRED (R292). VRED writes one binary32 dot, sum or max per row. -/
  | vred (core ctx : Nat) (word : Word)
  /-- VROT (R293). VROT rotates element pairs and converts them, possibly into KV pages. -/
  | vrot (core ctx : Nat) (word : Word)
  /-- UPDATE (R154). UPDATE checks and starts an update program over one logical part. -/
  | update (core ctx : Nat) (word : Word)
  /-- UPDATE_SWEEP_COMPLETE (R154). A finished sweep runs its CALL kernel, or at END returns the context to its saved address. -/
  | updateSweepComplete (core ctx : Nat)
  /-- ATTN_FWD (R124). ATTN_FWD computes one score block, its online softmax and the value product for one query block. -/
  | attnFwd (core ctx : Nat) (word : Word)
  /-- ATTN_NORM (R127). ATTN_NORM normalises the set by recip(lrow), drains the output and writes the saved statistics. -/
  | attnNorm (core ctx : Nat) (word : Word)
  /-- ATTN_BWD_P (R130). ATTN_BWD_P rebuilds the probabilities of a score block from the saved statistics. -/
  | attnBwdP (core ctx : Nat) (word : Word)
  /-- ATTN_BWD_DS (R131). ATTN_BWD_DS writes dS from P, dP and Δ. -/
  | attnBwdDs (core ctx : Nat) (word : Word)
  /-- ATTN_MERGE (R139). ATTN_MERGE folds members' partials in member order and with LAST writes the output. -/
  | attnMerge (core ctx : Nat) (word : Word)
  /-- GATHER (R189). GATHER starts an index or bitmap gather on a gather engine. -/
  | gather (core ctx : Nat) (word : Word)
  /-- GATHER_STOP (R297). GATHER_STOP ends the gather of an engine the pour holds. -/
  | gatherStop (core ctx : Nat) (word : Word)
  /-- FILL (R175). FILL writes a repeated 64-bit pattern over a region. -/
  | fill (core ctx : Nat) (word : Word)
  /-- COPY (R175). COPY copies a range within the scratchpad as if read wholly before writing. -/
  | copy (core ctx : Nat) (word : Word)
  /-- SCRUB (R175). SCRUB rewrites every word of a range with fresh check bits. -/
  | scrub (core ctx : Nat) (word : Word)
  /-- POWER_DOWN (R177). POWER_DOWN turns bank quads off once earlier accesses to them complete. -/
  | powerDown (core ctx : Nat) (word : Word)
  /-- POWER_UP (R177). POWER_UP turns bank quads on and names a completion slot. -/
  | powerUp (core ctx : Nat) (word : Word)
  /-- QUAD_READY (R177). Powered-up quads become ready and the POWER_UP completion token goes FULL. -/
  | quadReady (core mask : Nat)
  /-- CALENDAR_LOAD (R171). CALENDAR_LOAD checks a bank calendar and writes it to the store not in force. -/
  | calendarLoad (core ctx : Nat) (word : Word)
  /-- BANK_CALENDAR_ACTIVATE (R171). A loaded bank calendar becomes active at the first entry-0 boundary at or after its offset. -/
  | bankCalendarActivate (core : Nat)
  /-- DSET (R282). DSET writes a tile descriptor from two scalar registers. -/
  | dset (core ctx : Nat) (word : Word)
  /-- FWR_WR (R299). FWR with FN 0 sends the slot's payload as WR packets. -/
  | fwrWr (core ctx : Nat) (word : Word)
  /-- FWR_MCAST_WR (R299). FWR with FN 1 sends the payload as MCAST_WR to a group. -/
  | fwrMcastWr (core ctx : Nat) (word : Word)
  /-- FWR_RED_WR (R299). FWR with FN 2 sends the payload as RED_WR leaves of a reduction group. -/
  | fwrRedWr (core ctx : Nat) (word : Word)
  /-- FRD (R299). FRD reads a remote region into a slot. -/
  | frd (core ctx : Nat) (word : Word)
  /-- FATOM (R299). FATOM sends one ATOMIC_ADD of 32 bytes, optionally returning the old unit. -/
  | fatom (core ctx : Nat) (word : Word)
  /-- TENSOR_ISSUE (R59). The issue stage issues the active queue head once all conditions of R59 hold, moving its tokens. -/
  | tensorIssue (core : Nat)
  /-- CONTEXT_SWITCH (R62). A head blocked for SWITCH_WAIT cycles, or a sync wait or context exit, selects a new active context. -/
  | contextSwitch (core : Nat)
  /-- TENSOR_COMPLETE (R59). A tensor instruction completes and releases the accumulator sets it held. -/
  | tensorComplete (core index : Nat)
  /-- TOKEN_FILL_COMPLETE (R58). When every write of a producer is acknowledged, its slot token goes from FILLING to FULL. -/
  | tokenFillComplete (core token : Nat)
  /-- TOKEN_DRAIN_COMPLETE (R58). When the releasing reader's last read completes, its slot token goes from DRAINING to EMPTY. -/
  | tokenDrainComplete (core token : Nat)
  /-- POUR_DISPATCH (R308). The dispatcher sends the next pour once its counter, link, context, resource and record-room waits are met. -/
  | pourDispatch (part : Nat)
  /-- BARRIER_PASS (R308). A BARRIER is passed when its counter wait is met and every earlier pour has committed. -/
  | barrierPass (part : Nat)
  /-- POUR_START (R30). At pour start the commit unit resolves every binding and claims every output slot at once. -/
  | pourStart (core ctx : Nat)
  /-- COMMIT_REQUEST (R65). Once every instruction, stream and acknowledgement of a committing pour is done, the core sends its commit request. -/
  | commitRequest (core ctx : Nat)
  /-- COMMIT_ACCEPT (R32). The commit unit checks the base version and commits, replays or aborts the pour's outputs. -/
  | commitAccept (core ctx : Nat)
  /-- POUR_ABORT (R64). An aborting pour's queue entries, units, streams and tokens are stopped and reset while others run on. -/
  | pourAbort (core ctx : Nat)
  /-- POUR_QUIET (R25). A killed or aborted pour becomes quiet, its slots return and its context becomes IDLE. -/
  | pourQuiet (core ctx : Nat)
  /-- POUR_TIME_WATCHDOG (R22). A pour still running W after its start aborts with POUR_TIME. -/
  | pourTimeWatchdog (core ctx : Nat)
  /-- SLOT_WATCHDOG_EXPIRY (R179). A slot wait reaching 2^WDOG_LOG2 cycles aborts the agent's pour with SLOT_WAIT. -/
  | slotWatchdogExpiry (core : Nat) (agent : SlotAgent)
  /-- STREAM_TILE_BEGIN (R185). A stream begins its next tile once its slot and depth conditions allow. -/
  | streamTileBegin (core stream : Nat)
  /-- STREAM_END (R181). A stream ends when its program has reached END and every begun tile is complete. -/
  | streamEnd (core stream : Nat)
  /-- GATHER_REQUEST (R190). A gather engine issues a row-line request while fewer than 64 are outstanding. -/
  | gatherRequest (core engine : Nat)
  /-- GATHER_END (R189). A gather ends, making its last slot FULL. -/
  | gatherEnd (core engine : Nat)
  /-- SCRATCHPAD_PORT_ACCESS (R172). A pending access is performed in the first cycle its port owns the quad. -/
  | scratchpadPortAccess (core port offset : Nat) (access : PortAccess)
  /-- SCRATCHPAD_SCRUB_COMPLETE (R176). The reset or release scrub ends, the default calendar comes into force and the cores accept pours. -/
  | scratchpadScrubComplete (core : Nat)
  /-- SPM_POWER_WRITE (R178). A write of SPM_POWER while QUIET turns quads on or off, and is ignored otherwise. -/
  | spmPowerWrite (core : Nat) (value : Word)
  /-- CACHE_LOOKUP (R193). A core's request looks up the Sprue cache in its bank's turn. -/
  | cacheLookup (die core : Nat) (req : CacheReq)
  /-- CACHE_FILL (R191). A line from the controllers fills the cache and is delivered to its requesters. -/
  | cacheFill (die addr part : Nat)
  /-- CACHE_INV_ALL (R195). Writing INV_ALL drops every line of the die's cache. -/
  | cacheInvAll (die : Nat) (value : Word)
  /-- CORE_CTRL_SEQ_INV (R67). Writing SEQ_INV drops every line of both sequencer caches. -/
  | coreCtrlSeqInv (core : Nat) (value : Word)
  /-- ARR_CTRL_INJECT_PARITY (R93). Writing INJECT_PARITY on a fenced core corrupts one parity bit at the next step into the targeted set. -/
  | arrCtrlInjectParity (core : Nat) (value : Word)
  /-- NUM_LSCALE_WRITE (R120). A write of NUM_LSCALE sets the partition's loss-scale state, clears C and is mirrored to every core. -/
  | numLscaleWrite (core : Nat) (value : Word)
  /-- TIER_REQUEST_ARRIVAL (R203). A request reaching a controller joins its source queue, or is held at a protected page. -/
  | tierRequestArrival (ctl channel source : Nat) (req : TierReq)
  /-- TIER_SLOT (R204). In each slot each channel serves at most one request under the calendar entry and applies its REF mark. -/
  | tierSlot (ctl channel : Nat) (busy : List Nat) (result : Nat)
  /-- REFRESH_DEBT_TICK (R208). The refresh debt of a channel rises by one, and at 8 forces a refresh of the next bank. -/
  | refreshDebtTick (ctl channel : Nat)
  /-- STACK_TEMP_READ (R209). Every 100 µs the stack temperature is read and the refresh rate set. -/
  | stackTempRead (ctl temp : Nat)
  /-- STACK_TEMP_LOST (R209). A stack unreadable for 1 ms is run at 4× and sets TIER_ERR.TEMP_LOST. -/
  | stackTempLost (ctl : Nat)
  /-- TIER_CAL_ARM (R206). ARM checks the inactive calendar store and arms a switch at TIER_CAL_AT, or sets BAD. -/
  | tierCalArm (ctl : Nat) (value : Word)
  /-- TIER_CAL_ACTIVATE (R206). An armed tier calendar becomes active at its boundary. -/
  | tierCalActivate (ctl : Nat)
  /-- TIER_TRAINING_LOSS (R210). A stack interface losing training starts one retraining of 100 µs. -/
  | tierTrainingLoss (ctl : Nat)
  /-- TIER_RETRAIN_TIMEOUT (R210). A retraining that fails within 100 µs faults the controller. -/
  | tierRetrainTimeout (ctl : Nat)
  /-- TIER_PPR_GO (R211). Writing GO starts a soft post-package repair of one row. -/
  | tierPprGo (ctl : Nat) (value : Word)
  /-- TIER_PPR_COMPLETE (R211). The repair ends and sets DONE or FAIL. -/
  | tierPprComplete (ctl : Nat) (ok : Bool)
  /-- D2D_FRAME_RECEIVE (R13). A die-to-die link frame is checked by CRC and a failed frame is replayed. -/
  | d2dFrameReceive (link dir : Nat) (ok : Bool)
  /-- D2D_LANE_LOCK_LOSS (R13). Loss of lane lock on a die-to-die link is a link fault. -/
  | d2dLaneLockLoss (link : Nat)
  /-- FAB_NODE_WRITE (R213). A write of FAB_NODE sets the node identifier and enables or leaves disabled packet traffic. -/
  | fabNodeWrite (value : Word)
  /-- ERG_FRAME_SEND (R236). In each frame slot a port places flits by its calendar entry and priority order. -/
  | ergFrameSend (port : Nat)
  /-- ERG_FRAME_RECEIVE (R221). A received data frame is checked and accepted in order, or discarded and a retry requested. -/
  | ergFrameReceive (port : Nat) (arrival : FrameArrival)
  /-- ERG_RETRY_REQUEST (R221). A received retry request makes the sender resend go-back-N from the named frame. -/
  | ergRetryRequest (port seq : Nat)
  /-- LINK (R222). A LINK packet returns credits per class to the sender. -/
  | link (port : Nat) (credits : List Nat)
  /-- ERG_LANE_LOCK_LOSS (R223). A lane losing lock takes its port DOWN and loses its replay buffer. -/
  | ergLaneLockLoss (port : Nat)
  /-- ERG_ACK_STALL (R223). Frames outstanding with no ACK progress for 10 µs take the port DOWN. -/
  | ergAckStall (port : Nat)
  /-- PORT_CTRL_DISABLE (R223). Setting DISABLE holds the port DOWN. -/
  | portCtrlDisable (port : Nat)
  /-- PORT_CTRL_RETRAIN (R223). Writing RETRAIN trains a DOWN port. -/
  | portCtrlRetrain (port : Nat)
  /-- PORT_TRAINING_COMPLETE (R223). Training ends with the port UP and PORT_PEER showing the partner, or DOWN with cause 5. -/
  | portTrainingComplete (port : Nat) (ok : Bool) (rtt : Nat)
  /-- PACKET_FORWARD (R225). A transit packet takes the port its DST and class select, or is dropped or answered UNREACHABLE. -/
  | packetForward (port : Nat) (pkt : Packet)
  /-- RD (R228). An RD is checked and returns RLEN flits of codewords. -/
  | rd (port : Nat) (pkt : Packet)
  /-- WR (R228). A WR is checked and performed in 32-byte units, filling a slot when TOKV is set. -/
  | wr (port : Nat) (pkt : Packet)
  /-- ATOMIC_ADD (R229). An ATOMIC_ADD adds its payload into a 32-byte unit as an indivisible read-merge-write. -/
  | atomicAdd (port : Nat) (pkt : Packet)
  /-- MCAST_WR (R248). An MCAST_WR is replicated to the ports of its group and performed locally where set. -/
  | mcastWr (port : Nat) (pkt : Packet)
  /-- RED_WR (R244). A RED_WR delivers a chunk of a reduction partial to the group's engine staging. -/
  | redWr (port : Nat) (pkt : Packet)
  /-- REDUCTION_COMBINE (R244). An engine combines a node's chunk once both children are present and forwards it or sends the root result. -/
  | reductionCombine (hub group chunk : Nat)
  /-- RED_RES (R477). A RED_RES is matched to its group and written as FANOUT copies. -/
  | redRes (port : Nat) (pkt : Packet)
  /-- COLL_SIBLING_TIMEOUT (R247). A child chunk held TIMEOUT_US without its sibling fails the reduction. -/
  | collSiblingTimeout (hub group chunk : Nat)
  /-- MCAST_LAG_TIMEOUT (R249). A window blocked LAG_US by the same members drops those members. -/
  | mcastLagTimeout (group : Nat)
  /-- MCAST_RESEND (R249). 2 × LIFETIME_US after the drop, unacknowledged packets are resent to dropped members as unicast WR. -/
  | mcastResend (group : Nat)
  /-- COMMIT_NOTICE (R234). A COMMIT_NOTICE adds 1 to a notice counter of the target partition. -/
  | commitNotice (port : Nat) (pkt : Packet)
  /-- RELEASE (R40). A QUENCH RELEASE makes PENDING slots of stamp at most s CURRENT and updates the loss-scale state. -/
  | release (port : Nat) (pkt : Packet)
  /-- DISCARD (R40). A QUENCH DISCARD frees PENDING slots of stamp at least s and updates the loss-scale state. -/
  | discard (port : Nat) (pkt : Packet)
  /-- BEACON (R252). A beacon from the parent port corrects the time base by slew, step or half rate. -/
  | beacon (port : Nat) (pkt : Packet)
  /-- BEACON_SEND (R251). Every PERIOD_US a locked or master device sends a BEACON on each child port. -/
  | beaconSend (port : Nat)
  /-- BEACON_TIMEOUT (R253). No beacon for 10 periods puts the device in HOLDOVER. -/
  | beaconTimeout
  /-- TIME_SET (R255). A write of TIME_SET moves the time base forward or is ignored with SET_REJECT. -/
  | timeSet (value : Word)
  /-- RD_RSP (R233). A read response completes a read, aborting the pour on a non-OK status or poison. -/
  | rdRsp (port : Nat) (pkt : Packet)
  /-- WR_ACK (R233). A write acknowledgement completes a write and may fill a completion slot. -/
  | wrAck (port : Nat) (pkt : Packet)
  /-- ATOMIC_RSP (R229). An atomic response completes an ATOMIC_ADD and returns old values when asked. -/
  | atomicRsp (port : Nat) (pkt : Packet)
  /-- NOTICE_ACK (R234). A notice acknowledgement completes a notice, raising NOTICE_FAILED on a refusal. -/
  | noticeAck (port : Nat) (pkt : Packet)
  /-- QUENCH_ACK (R235). A quench acknowledgement is counted by status and the last expected one raises QUENCH_DONE. -/
  | quenchAck (port : Nat) (pkt : Packet)
  /-- FAB_QSEND_GO (R235). Writing GO sends a QUENCH to a node or group and applies it locally where included. -/
  | fabQsendGo (hub : Nat) (value : Word)
  /-- QUENCH_ACK_TIMEOUT (R235). TIMEOUT_US passing before all acks end the quench. -/
  | quenchAckTimeout (hub : Nat)
  /-- REQUEST_TIMEOUT (R232). A request with no response after TIMEOUT_US is treated as failed. -/
  | requestTimeout (tag : Nat)
  /-- PORT_CAL_ARM (R237). ARM checks the inactive port calendar store and arms a switch, or sets BAD. -/
  | portCalArm (port : Nat) (value : Word)
  /-- PORT_CAL_ACTIVATE (R237). An armed port calendar becomes active at its boundary. -/
  | portCalActivate (port : Nat)
  /-- CARAVAN_FRAME_RECEIVE (R325). A received Caravan frame is checked and accepted in order, or discarded and a retry requested. -/
  | caravanFrameReceive (port : Nat) (frame : Option Frame)
  /-- CARAVAN_RETRY_REQUEST (R325). A Caravan retry request makes the sender resend go-back-N. -/
  | caravanRetryRequest (port seq : Nat)
  /-- CARAVAN_LANE_LOCK_LOSS (R325). A Caravan lane losing lock takes its port DOWN. -/
  | caravanLaneLockLoss (port : Nat)
  /-- CARAVAN_ACK_STALL (R325). No ACK progress for 100 µs takes a Caravan port DOWN. -/
  | caravanAckStall (port : Nat)
  /-- CARAVAN_TRAINING_COMPLETE (R325). A Caravan port finishes training and comes UP. -/
  | caravanTrainingComplete (port : Nat) (ok : Bool) (rtt : Nat)
  /-- CTL_PORT_DISABLE (R343). Setting DISABLE holds a non-active Caravan port DOWN. -/
  | ctlPortDisable (port : Nat) (value : Word)
  /-- CTL_PORT_RETRAIN (R343). Writing RETRAIN trains a DOWN Caravan port. -/
  | ctlPortRetrain (port : Nat)
  /-- REG_RD (R330). REG_RD reads a register and answers REG_RSP. -/
  | regRd (port tag session offset : Nat)
  /-- REG_WR (R330). REG_WR writes a register and is acknowledged once the router applies it. -/
  | regWr (port tag session offset : Nat) (value : Word)
  /-- MEM_RD (R330). MEM_RD reads memory, locally or forwarded as an Erg RD. -/
  | memRd (port tag session part addr rlen : Nat)
  /-- MEM_WR (R330). MEM_WR writes memory, locally or forwarded as an Erg WR. -/
  | memWr (port tag session part addr : Nat) (data : List (Word × Bool))
  /-- CARAVAN_FORWARD_TIMEOUT (R330). A forwarded request without Erg response in TIMEOUT_US is answered TIMEOUT. -/
  | caravanForwardTimeout (tag : Nat)
  /-- HEARTBEAT (R337). An accepted HEARTBEAT restarts the heartbeat timer and sets the active port. -/
  | heartbeat (port tag session : Nat)
  /-- HEARTBEAT_TIMEOUT (R338). Expiry of the heartbeat timer makes the device ORPHAN. -/
  | heartbeatTimeout
  /-- RELINQUISH (R338). An accepted RELINQUISH is acknowledged and makes the device ORPHAN. -/
  | relinquish (port tag session : Nat)
  /-- ADOPT_HELLO (R340). ADOPT_HELLO makes a new signed challenge and answers ADOPT_CHALLENGE. -/
  | adoptHello (port tag : Nat)
  /-- ADOPT_GET (R340). ADOPT_GET reads units of the challenge quote. -/
  | adoptGet (port tag offset rlen : Nat)
  /-- ADOPT_PUT (R340). ADOPT_PUT writes units of the adoption token into the token buffer. -/
  | adoptPut (port tag offset : Nat) (data : List (Word × Bool))
  /-- ADOPT_COMMIT (R340). ADOPT_COMMIT checks the challenge and token and on success adopts the device. -/
  | adoptCommit (port tag length : Nat)
  /-- CHALLENGE_EXPIRY (R340). A challenge expires ADOPT_WINDOW_S seconds after it was made. -/
  | challengeExpiry
  /-- CTL_RUN_RESUME (R339). RESUME in ADOPTED releases dispatch after adoption. -/
  | ctlRunResume (value : Word)
  /-- RECORD_WRITE (R331). The device writes a completion or event record into its queue, or drops it for lack of room. -/
  | recordWrite (queue : Nat)
  /-- RECORD_WRITE_ACK (R331). An acknowledged record write advances TAIL, a failed one is retried or dropped with WRITE_ERR. -/
  | recordWriteAck (queue : Nat) (ok : Bool)
  /-- RECORD (R333). A RECORD message carrying the record is sent on the active port once it is UP. -/
  | record (queue : Nat)
  /-- RECORD_SEND_EXPIRY (R333). A RECORD not sendable within 1 ms of its acknowledgement is not sent. -/
  | recordSendExpiry (queue : Nat)
  /-- CQ_PTR_HEAD_WRITE (R336). Advancing a queue HEAD consumes records and may release ALERT_N. -/
  | cqPtrHeadWrite (queue : Nat) (value : Word)
  /-- PART_ACTIVATE (R302). ACTIVATE checks the masks and queue and makes a FREE partition ACTIVE, or sets BAD. -/
  | partActivate (part : Nat) (value : Word)
  /-- PART_RELEASE (R321). RELEASE makes an ACTIVE partition RELEASING, stops dispatch, kills pours and discards PENDING slots. -/
  | partRelease (part : Nat) (value : Word)
  /-- PART_RELEASE_COMPLETE (R321). Once every pour is quiet, scratchpads are scrubbed, lines dropped, registers reset and the partition FREE. -/
  | partReleaseComplete (part : Nat)
  /-- PART_RESUME (R307). RESUME restarts a halted ring where it stopped. -/
  | partResume (part : Nat) (value : Word)
  /-- RING_TAIL_WRITE (R311). The dispatch doorbell moves TAIL forward, or is ignored with TAIL_REJECT. -/
  | ringTailWrite (part : Nat) (value : Word)
  /-- PREEMPT_GO (R313). An accepted GO stops dispatch and kills the pours of the named cores. -/
  | preemptGo (part : Nat) (value : Word)
  /-- PREEMPT_COMPLETE (R313). Once every killed pour is quiet, pours to NEWPOS are skipped, HEAD set and dispatch resumed. -/
  | preemptComplete (part : Nat)
  /-- TUYERE_REFILL (R319). Every 64 ns a tuyere's credit rises by RATE × UNIT up to BURST. -/
  | tuyereRefill (part path : Nat)
  /-- FLT_FENCE_WRITE (R355). A fence write fences cores FAULT or TEST, or starts an unfence. -/
  | fltFenceWrite (index : Nat) (value : Word)
  /-- UNFENCE_COMPLETE (R356). A FAULT core is unfenced once its scrub and cache drop are done. -/
  | unfenceComplete (core : Nat)
  /-- FLT_ST_GO (R349). GO queues one self-test request, or sets REJECT. -/
  | fltStGo (value : Word)
  /-- FLT_ST_CANCEL (R349). CANCEL ends the queued or running self-test request. -/
  | fltStCancel (value : Word)
  /-- SELFTEST_REQUEST_START (R349). A queued request starts once every named core is fenced TEST. -/
  | selftestRequestStart
  /-- RUNTIME_SELFTEST_PHASE_DONE (R350). A SRAM, PARITY or ARRAY phase ends and the next runs, or the test scrubs and finishes. -/
  | runtimeSelftestPhaseDone (failed : List Nat)
  /-- XCHECK_ROUND_COMPLETE (R352). A cross-check round compares spills, calls a referee on a difference and marks failed cores; `faults` are the errors of the arrays: core, array, byte of its spill, and the bits of that byte in error. -/
  | xcheckRoundComplete (faults : List (Nat × Nat × Nat × Nat))
  /-- HEALTH_MONITOR_TICK (R353). Every millisecond the monitor decays H, adds weighted events and temperature, and updates risk. -/
  | healthMonitorTick
  /-- FLT_HM_CTRL_WRITE (R354). A write that makes THRESH zero disarms the monitor, and one that makes it non-zero arms it. -/
  | fltHmCtrlWrite (value : Word)
  /-- FLT_REPORT (R364). A driver report counts an input-10 event and writes a CPER record. -/
  | fltReport (value : Word)
  /-- CE_SUMMARY_PERIOD (R361). Each CE_PERIOD_MS a summary record is written per structure whose corrected count rose. -/
  | ceSummaryPeriod
  /-- FLT_CPER_HEAD_WRITE (R478). Advancing FLT_CPER_HEAD marks CPER records as read. -/
  | fltCperHeadWrite (value : Word)
  /-- FLT_STATE_CLEAR (R358). CLEAR with KEY 0x5A clears the replacement mark in MRAM. -/
  | fltStateClear (value : Word)
  /-- FLT_DIG_GO (R359). GO starts a digest job over the digest list. -/
  | fltDigGo (value : Word)
  /-- DIGEST_COMPLETE (R359). A digest job ends with the SHAKE256 digest or with ERR. -/
  | digestComplete
  /-- CKPT_GO (R365). GO opens a checkpoint epoch, setting page protection in one operation, or is refused. -/
  | ckptGo (value : Word)
  /-- CKPT_PAGE_READ_START (R369). An engine starts reading the next page by waiting order and epoch index when buffer room allows. -/
  | ckptPageReadStart (hub page : Nat)
  /-- CKPT_PAGE_COPY_DONE (R368). A page's copy read completes, its protection clears and held writes proceed in order. -/
  | ckptPageCopyDone (hub page : Nat)
  /-- CKPT_COPY0_COMPLETE (R371). The final header write of store 0 is acknowledged and the relay starts when NCOPY2 is 1. -/
  | ckptCopy0Complete
  /-- CKPT_RELAY_COMPLETE (R372). Store 1's final header write is acknowledged and the relay ends. -/
  | ckptRelayComplete
  /-- CKPT_CANCEL (R373). CANCEL ends the running epoch, relay or fill and clears every protection bit. -/
  | ckptCancel (value : Word)
  /-- CKPT_FILL_GO (R376). FILL_GO starts restoring one copy into a partition, or is refused. -/
  | ckptFillGo (value : Word)
  /-- CKPT_FILL_COMPLETE (R376). A fill ends after every page and digest check, or with a failure cause. -/
  | ckptFillComplete
  /-- CKPT_VFIX (R377). VFIX frees WRITING and PENDING slots and zeroes holds in a partition's version table. -/
  | ckptVfix (value : Word)
  /-- CKPT_PSTATE_SET (R377). SET writes C, L and the highest closed stamp of a partition and clears its poison marks. -/
  | ckptPstateSet (value : Word)
  /-- EXTEND_DEV (R421). SEC_OP EXTEND_DEV extends the device chain with a driver entry. -/
  | extendDev (value : Word)
  /-- EXTEND_PART (R421). SEC_OP EXTEND_PART extends a partition chain with a driver entry. -/
  | extendPart (value : Word)
  /-- QUOTE_DEV (R422). SEC_OP QUOTE_DEV starts a signed device quote over SEC_DATA. -/
  | quoteDev (value : Word)
  /-- QUOTE_PART (R422). SEC_OP QUOTE_PART starts a signed partition quote over SEC_DATA. -/
  | quotePart (value : Word)
  /-- AUTH_SET (R424). SEC_OP AUTH_SET fills an authority slot. -/
  | authSet (value : Word)
  /-- AUTH_CLEAR (R424). SEC_OP AUTH_CLEAR empties an authority slot unless it is the last filled. -/
  | authClear (value : Word)
  /-- SIGNATURE_COMPLETE (R416). The signing engine writes the next index record, computes the signature and releases it. -/
  | signatureComplete
  /-- SEC_SVN_RAISE (R414). A write of RAISE raises MIN_SVN in MRAM within bounds, or sets REJECT. -/
  | secSvnRaise (value : Word)
  /-- SEC_SVN_SET_DISABLE0 (R414). SET_DISABLE0 sets DISABLE0 in MRAM. -/
  | secSvnSetDisable0 (value : Word)
  /-- TRC_MARK (R471). A write of TRC_MARK makes a MARK trace record carrying the value. -/
  | trcMark (value : Word)
  /-- TRACE_RECORD_WRITE (R470). A trace record leaves the FIFO and is written into the ring, or dropped. -/
  | traceRecordWrite
  /-- REGISTER_WRITE (R6). A write of a register without a row of its own sets RW fields and clears W1C bits under the access codes. -/
  | registerWrite (offset : Nat) (value : Word)
  /-- RAIL_RECOVERY (R409). Once every rail is back within tolerance with PWRGOOD high, the device leaves the undervoltage hold and restarts as after RST_N deasserts. -/
  | railRecovery
  /-- CRYSTAL_EDGE_LOSS (R386). No crystal edge for 4 always-on cycles is a crystal failure that changes every reference over to the oscillator and raises XTAL_FAIL. -/
  | crystalEdgeLoss
  /-- PLL_LOCK_TIMEOUT (R428). A PLL that fails to lock when first started or retuned is a PLL-lock failure, which ends start-up in CAIRN. -/
  | pllLockTimeout (die pll : Nat)
  /-- LOGIC_FAULT (R357). An internal logic fault detected in a tier controller, cache bank, hub engine or router, or in the commit unit, is a shared-structure fault that puts the device in DRAIN. -/
  | logicFault (kind index : Nat)
  /-- TEST_LOGIC_RESET (R455). Assertion of TRST_N, or a TMS sequence, puts the test access port in test-logic reset with BYPASS in force. -/
  | testLogicReset
  /-- CARAVAN_FRAME_SEND (R325). In each 25.6 ns frame slot a Caravan port sends a frame of responses, records, resent frames or idle units, carrying its ACK. -/
  | caravanFrameSend (port : Nat)
  deriving DecidableEq, Repr

end Sys2Proof
end

