-- ==== Sys2Proof/Decode.lean ====
section
/-! DEFINITION. Words to commands.  The opcode table gives its rows no bits (every row's list of
fields is empty), so no word spells a command: the decoder answers none for every word (log entry
5).  The instruction words of a core's sequencer are operands of the instruction rows and are taken
apart in `Machine/Operands.lean`. -/

namespace Sys2Proof

/-- The command that a word spells by the table's bits: none, since no row gives bits. -/
def decodeTableWord (_nbits _w : Nat) : Option Instr := none

end Sys2Proof
end

