-- ==== Sys2Proof/Machine/Bits.lean ====
section
/-! DEFINITION. Bit fields, sign extension and byte order, each decided once: a field [hi:lo] of a
64-bit word as a number, a word with one field replaced, and words as byte lists with the low byte
first (the order the spec states wherever it stores a word, R268, R431, R359). -/

namespace Sys2Proof.Machine

/-- Bits [hi:lo] of a number. -/
def bitsOf (n hi lo : Nat) : Nat := (n >>> lo) % 2 ^ (hi + 1 - lo)

/-- Field [hi:lo] of a 64-bit word, as a number. -/
def wfld (w : Word) (hi lo : Nat) : Nat := bitsOf w.toNat hi lo

/-- Bit `i` of a 64-bit word. -/
def wbit (w : Word) (i : Nat) : Bool := wfld w i i = 1

/-- The word `w` with field [hi:lo] replaced by `v` (taken modulo the field's width). -/
def wput (w : Word) (hi lo v : Nat) : Word :=
  BitVec.ofNat 64 (w.toNat - (wfld w hi lo) <<< lo + (v % 2 ^ (hi + 1 - lo)) <<< lo)

/-- One as a number, for a flag field. -/
def b2n (b : Bool) : Nat := if b then 1 else 0

/-- The signed value of an `n`-bit number. -/
def signedOf (n v : Nat) : Int :=
  let m := v % 2 ^ n
  if 2 * m < 2 ^ n then (m : Int) else (m : Int) - (2 ^ n : Nat)

/-- The number that an integer makes modulo 2^n. -/
def wrapTo (n : Nat) (i : Int) : Nat := (i % ((2 ^ n : Nat) : Int)).toNat

/-- `k` bytes of a number, low byte first. -/
def bytesLE : Nat → Nat → List Byte
  | 0, _ => []
  | k + 1, v => BitVec.ofNat 8 v :: bytesLE k (v / 256)

/-- The number that a byte list makes, low byte first. -/
def ofBytesLE : List Byte → Nat
  | [] => 0
  | b :: bs => b.toNat + 256 * ofBytesLE bs

/-- A list cut into groups of `n` (the last may be shorter); `fuel` bounds the number of groups. -/
def chunks {α : Type} (n : Nat) : Nat → List α → List (List α)
  | 0, _ => []
  | _ + 1, [] => []
  | fuel + 1, x :: xs => (x :: xs).take n :: chunks n fuel ((x :: xs).drop n)

/-- The positions at which bit `i` of `n` is 1, for `i` below `k`. -/
def bitList (k n : Nat) : List Nat := (List.range k).filter (fun i => n.testBit i)

/-- The number whose 1 bits are at the positions of a list. -/
def ofBitList (l : List Nat) : Nat := (l.map (fun i => 2 ^ i)).foldl (· ||| ·) 0

/-- Round `a` down to a multiple of `n`. -/
def alignDown (a n : Nat) : Nat := a - a % n

end Sys2Proof.Machine
end

