-- ==== Sys2Proof/Machine/Keccak.lean ====
section
/-! DEFINITION. SHAKE256 of FIPS 202, which the spec names for every digest (R370, R359, R413–R422).
The state is one number of 1,600 bits with byte j at bits 8 j, so a message block is absorbed by one
XOR and the digest is read off its low bits; the five planes of 320 bits are worked on whole. -/

namespace Sys2Proof.Machine

/-- A number of `n` bits rotated left by `k`. -/
def rotN (n v k : Nat) : Nat := (v <<< k) % 2 ^ n ||| v >>> (n - k)

/-- Plane `y` of the state: the lanes (0, y) to (4, y). -/
def planeAt (a y : Nat) : Nat := (a >>> (320 * y)) % 2 ^ 320

/-- Join five planes. -/
def ofPlanes (f : Nat → Nat) : Nat := (List.range 5).foldl (fun n y => n ||| f y <<< (320 * y)) 0

/-- A plane whose five lanes are all `m`. -/
def fiveLanes (m : Nat) : Nat := (List.range 5).foldl (fun n x => n ||| m <<< (64 * x)) 0

/-- θ: every plane takes the parity of the columns at x − 1 and, one bit later, at x + 1. -/
def kTheta (a : Nat) : Nat :=
  let par := (List.range 5).foldl (fun n y => n ^^^ planeAt a y) 0
  let ahead := rotN 320 par 256
  let late := ((ahead <<< 1) &&& fiveLanes (2 ^ 64 - 2)) ||| ((ahead >>> 63) &&& fiveLanes 1)
  let mix := rotN 320 par 64 ^^^ late
  ofPlanes (fun y => planeAt a y ^^^ mix)

/-- ρ and π as the one walk of FIPS 202 from (1, 0): at step `n` the lane met is rotated by the
triangular number of n + 1 and laid down at the next place of the walk. -/
def kWalk (a : Nat) : Nat → Nat → Nat → Nat → Nat → Nat
  | 0, _, _, _, out => out
  | left + 1, n, x, y, out =>
    let v := (a >>> (64 * (x + 5 * y))) % 2 ^ 64
    let y' := (2 * x + 3 * y) % 5
    kWalk a left (n + 1) y y'
      (out ||| rotN 64 v ((n + 1) * (n + 2) / 2 % 64) <<< (64 * (y + 5 * y')))

/-- χ: in each plane, lane x takes the lanes x + 2 where x + 1 is clear. -/
def kChi (a : Nat) : Nat :=
  ofPlanes (fun y =>
    let p := planeAt a y
    p ^^^ ((rotN 320 p 256 ^^^ (2 ^ 320 - 1)) &&& rotN 320 p 192))

/-- The next state of the 8-bit register that makes the round constants. -/
def lfsr8 (r : Nat) : Nat := if r < 128 then 2 * r else (2 * r) ^^^ 0x171

/-- The constant of one round, bit 2^j − 1 from the j-th state of the register, and the register after it. -/
def roundBits : Nat → Nat → Nat → Nat → Nat × Nat
  | 0, _, r, acc => (acc, r)
  | left + 1, j, r, acc => roundBits left (j + 1) (lfsr8 r) (acc + (r % 2) <<< (2 ^ j - 1))

/-- `k` rounds from register state `r`. -/
def kRounds : Nat → Nat → Nat → Nat
  | 0, _, a => a
  | k + 1, r, a =>
    let rc := roundBits 7 0 r 0
    let t := kTheta a
    kRounds k rc.2 (kChi (kWalk t 24 0 1 0 (t % 2 ^ 64)) ^^^ rc.1)

/-- The permutation of 24 rounds. -/
def kPermute (a : Nat) : Nat := kRounds 24 1 a

/-- The message with SHAKE's suffix 1111 and the padding 10…01, as numbers of up to 136 bytes. -/
def shakeBlocks (m : List (BitVec 8)) : List Nat :=
  let cut := chunks 136 (m.length / 136 + 1) m
  let whole := (cut.take (m.length / 136)).map ofBytesLE
  let rest := ofBytesLE (m.drop (m.length / 136 * 136))
  whole ++ [rest + 0x1F <<< (8 * (m.length % 136)) ^^^ 0x80 <<< 1080]

/-- The first 32 bytes of SHAKE256 of a message, byte 0 in the low bits of the result. -/
def shake256 (m : List (BitVec 8)) : BitVec 256 :=
  BitVec.ofNat 256 ((shakeBlocks m).foldl (fun a b => kPermute (a ^^^ b)) 0)

/-- A digest as 32 bytes. -/
def digestBytes (d : BitVec 256) : List (BitVec 8) := bytesLE 32 d.toNat

end Sys2Proof.Machine
end

