-- ==== Sys2Proof/Config.lean ====
section
/-! DEFINITION. What one SX4160 fixes and the values the spec leaves open.  Every constant below
has no body: nothing can be proved of its value.  `free…` values are applied to the state's counter
of free values, so each use is a fresh one (log entry 1). -/

namespace Sys2Proof.Config

/-- A free 64-bit value: the `i`-th word of the `n`-th use. -/
opaque freeWord : Nat → Nat → BitVec 64

/-- A free byte. -/
opaque freeByte : Nat → Nat → BitVec 8

/-- A free truth value. -/
opaque freeBool : Nat → Nat → Bool

/-- Output of M's entropy source, conditioned by SHAKE256 (R422, R432). -/
opaque entropy : Nat → BitVec 256

/-- SHAKE256 digest of the mask ROM of this device (R420, entry ROM). -/
opaque romDigest : BitVec 256

/-- The XMSSMT-SHAKE_40/4_256 check of an image signature under the ROM key of a slot (R413,
RFC 8391): slot, signed bytes, signature bytes. -/
opaque imageSigOk : Nat → List (BitVec 8) → List (BitVec 8) → Bool

/-- The XMSS-SHAKE_20_256 check of an adoption token under a public key (R423, RFC 8391): key
bytes, signed bytes, signature bytes. -/
opaque tokenSigOk : List (BitVec 8) → List (BitVec 8) → List (BitVec 8) → Bool

/-- The XMSS-SHAKE_20_256 signature of the device key with an index over a message, after its first
4 bytes, which carry the index (R416, RFC 8391). -/
opaque deviceSig : Nat → List (BitVec 8) → List (BitVec 8)

/-- Does an index record written to MRAM read back valid (R416)? -/
opaque indexRecordOk : Nat → Bool

/-- The element format of the persistent tensor of a buffer identifier, code 0 to 7 once reduced modulo
8: the update block names none (log entry 27). -/
opaque tensorFmt : Nat → Nat

/-- Where the E8M0 scales of a block-scaled persistent tensor stand: their offset from the version's base, the scale
pitch, and whether its products take it as B, whose stored rows are columns; none for a tensor that is not
block-scaled (R97, log entry 27). -/
opaque tensorScale : Nat → Option (Nat × Nat × Bool)

/-- The accumulator of array 1 after a DUAL_BACKWARD product whose shared dY block is block-scaled: the spec
places its scales along array 0's K and states none for array 1 (R84, R97).  It is a function of the formats and
the element codes of the A row and the dY column, the scale codes of the column's block row by row, and the
accumulator before; the second part tells that it became NaN or infinite (log entry 32). -/
opaque dualAcc : List Nat → List Nat → List Nat → BitVec 32 → BitVec 32 × Bool

/-- Byte `i` of the 64-byte header of an assay record, whose layout the spec does not give, as a function of what
the header names (R117, log entry 38). -/
opaque assayHeader : List Nat → Nat → BitVec 8

/-- A / B where the spec states no quotient: a nonzero number over zero, and infinity over infinity, as
binary32 patterns (log entry 87). -/
opaque divCorner : BitVec 32 → BitVec 32 → BitVec 32

/-- 1 / √A of a zero A, of which the spec states no value (log entry 87). -/
opaque rsqrtZero : BitVec 32 → BitVec 32

end Sys2Proof.Config
end

