-- ==== Sys2Proof/Machine/Maps.lean ====
section
/-! DEFINITION. Finite maps as plain data.  `SMap` is the canonical sparse map of memories and
registers: keys strictly rising, and no entry equal to what an unlisted key reads as, so equal maps
are equal data.  `KMap` holds the units of the device (cores, ports, queues) by number, keys
strictly rising; an unlisted key reads as the unit at reset. -/

namespace Sys2Proof.Machine

/-- Canonical sparse map. -/
abbrev SMap (α : Type) := List (Nat × α)

/-- Read key `k`; `d` is what `k` reads as when it is not listed. -/
def smGet {α : Type} (d : α) : SMap α → Nat → α
  | [], _ => d
  | (a, v) :: t, k => if k = a then v else if k < a then d else smGet d t k

/-- Write `v` at `k`, where `d` is what `k` reads as when it is not listed: writing `d` removes the
entry. -/
def smSet {α : Type} [DecidableEq α] (d : α) : SMap α → Nat → α → SMap α
  | [], k, v => if v = d then [] else [(k, v)]
  | (a, x) :: t, k, v =>
    if k = a then (if v = d then t else (k, v) :: t)
    else if k < a then (if v = d then (a, x) :: t else (k, v) :: (a, x) :: t)
    else (a, x) :: smSet d t k v

/-- Every key of the map is above `b`, the keys rise strictly, and no entry equals its default. -/
def smWfAbove {α : Type} [DecidableEq α] (dflt : Nat → α) : Option Nat → SMap α → Bool
  | _, [] => true
  | b, (a, v) :: t =>
    (match b with | none => true | some b => decide (b < a)) && decide (v ≠ dflt a) &&
      smWfAbove dflt (some a) t

/-- The canonical form of a sparse map whose unlisted keys read as `dflt`. -/
def smWf {α : Type} [DecidableEq α] (dflt : Nat → α) (m : SMap α) : Bool := smWfAbove dflt none m

/-- Keep the entries whose key passes `p`. -/
def smKeep {α : Type} (p : Nat → Bool) : SMap α → SMap α
  | [] => []
  | (a, v) :: t => if p a then (a, v) :: smKeep p t else smKeep p t

/-- Map of numbered units. -/
abbrev KMap (α : Type) := List (Nat × α)

/-- The unit numbered `k`; `d` where it is not listed. -/
def kGet {α : Type} (d : α) : KMap α → Nat → α
  | [], _ => d
  | (a, v) :: t, k => if k = a then v else if k < a then d else kGet d t k

/-- Replace the unit numbered `k`. -/
def kSet {α : Type} : KMap α → Nat → α → KMap α
  | [], k, v => [(k, v)]
  | (a, x) :: t, k, v =>
    if k = a then (k, v) :: t
    else if k < a then (k, v) :: (a, x) :: t
    else (a, x) :: kSet t k v

/-- Strictly rising keys. -/
def kWfAbove {α : Type} : Option Nat → KMap α → Bool
  | _, [] => true
  | b, (a, _) :: t =>
    (match b with | none => true | some b => decide (b < a)) && kWfAbove (some a) t

/-- The form every unit map keeps. -/
def kWf {α : Type} (m : KMap α) : Bool := kWfAbove none m

end Sys2Proof.Machine
end

