-- ==== Sys2Proof/Machine/Num.lean ====
section
/-! DEFINITION. The numerics (R73–R78, R94–R104, R123, R157): exact values, the element formats,
the one rounding to binary32, correctly rounded functions, conversion to the stored formats, block
scales, and Philox4x32-10. -/

namespace Sys2Proof.Machine

/-! ### Exact values -/

/-- An exact value: NaN, an infinity, or (−1)^neg × m × 2^e. -/
inductive FV where
  | nan
  | inf (neg : Bool)
  | fin (neg : Bool) (m : Nat) (e : Int)
  deriving DecidableEq, Repr

def FV.zero : FV := .fin false 0 0

/-- 2^e as a power with exponent `k − lo`, used when `lo ≤ k`. -/
def pow2 (d : Int) : Nat := 2 ^ d.toNat

/-- Mantissas of two finite values over their lesser exponent. -/
def alignFV (n1 : Bool) (m1 : Nat) (e1 : Int) (n2 : Bool) (m2 : Nat) (e2 : Int) : Int × Int × Int :=
  let e := min e1 e2
  let a : Int := (m1 * pow2 (e1 - e) : Nat)
  let b : Int := (m2 * pow2 (e2 - e) : Nat)
  (if n1 then -a else a, if n2 then -b else b, e)

/-- The finite value of an integer times 2^e; zero is +0. -/
def FV.ofInt (i e : Int) : FV := .fin (decide (i < 0)) i.natAbs e

/-- Exact sum; infinities of both signs give NaN (R74). -/
def FV.add : FV → FV → FV
  | .nan, _ => .nan
  | _, .nan => .nan
  | .inf a, .inf b => if a = b then .inf a else .nan
  | .inf a, .fin _ _ _ => .inf a
  | .fin _ _ _, .inf b => .inf b
  | .fin n1 m1 e1, .fin n2 m2 e2 =>
    let (a, b, e) := alignFV n1 m1 e1 n2 m2 e2
    FV.ofInt (a + b) e

/-- Exact product; infinity times zero gives NaN (R74). -/
def FV.mul : FV → FV → FV
  | .nan, _ => .nan
  | _, .nan => .nan
  | .inf a, .inf b => .inf (a != b)
  | .inf a, .fin b m _ => if m = 0 then .nan else .inf (a != b)
  | .fin a m _, .inf b => if m = 0 then .nan else .inf (a != b)
  | .fin a m e, .fin b k f => .fin (a != b) (m * k) (e + f)

def FV.neg : FV → FV
  | .nan => .nan
  | .inf a => .inf (!a)
  | .fin a m e => .fin (!a) m e

def FV.abs : FV → FV
  | .nan => .nan
  | .inf _ => .inf false
  | .fin _ m e => .fin false m e

def FV.sub (a b : FV) : FV := a.add b.neg

/-- Exact sum of a list. -/
def FV.sum (l : List FV) : FV := l.foldl FV.add FV.zero

/-- Exact multiplication by 2^k. -/
def FV.scale (k : Int) : FV → FV
  | .fin n m e => .fin n m (e + k)
  | v => v

def FV.isNan : FV → Bool
  | .nan => true
  | _ => false

def FV.isZero : FV → Bool
  | .fin _ 0 _ => true
  | _ => false

/-- Is the value NaN or infinite? -/
def FV.special : FV → Bool
  | .fin _ _ _ => false
  | _ => true

/-- a < b for values that are not NaN. -/
def FV.lt : FV → FV → Bool
  | .nan, _ => false
  | _, .nan => false
  | .inf a, .inf b => a && !b
  | .inf a, .fin _ _ _ => a
  | .fin _ _ _, .inf b => !b
  | .fin n1 m1 e1, .fin n2 m2 e2 =>
    let (a, b, _) := alignFV n1 m1 e1 n2 m2 e2
    decide (a < b)

/-- a ≤ b for values that are not NaN. -/
def FV.le (a b : FV) : Bool := !a.isNan && !b.isNan && !FV.lt b a

/-- ⌊log2 |v|⌋ of a finite non-zero value. -/
def FV.log2 : FV → Option Int
  | .fin _ m e => if m = 0 then none else some ((Nat.log2 m : Int) + e)
  | _ => none

/-- A finite integer value. -/
def FV.int (i : Int) : FV := FV.ofInt i 0

/-! ### Element formats (R94) -/

/-- A value with `eb` exponent bits and `mb` mantissa bits, every code finite. -/
def fvFin (eb mb bias bits : Nat) : FV :=
  let m := bitsOf bits (mb - 1) 0
  let e := bitsOf bits (mb + eb - 1) mb
  let neg := bits.testBit (eb + mb)
  if e = 0 then .fin neg m (1 - (bias : Int) - mb)
  else .fin neg (m + 2 ^ mb) ((e : Int) - bias - mb)

/-- As `fvFin`, with the greatest exponent field for infinities and NaNs. -/
def fvIeee (eb mb bias bits : Nat) : FV :=
  if bitsOf bits (mb + eb - 1) mb = 2 ^ eb - 1 then
    if bitsOf bits (mb - 1) 0 = 0 then .inf (bits.testBit (eb + mb)) else .nan
  else fvFin eb mb bias bits

/-- Bits of an element of format `f`. -/
def fmtBits (f : Nat) : Nat :=
  if f = 0 ∨ f = 1 then 16 else if f = 2 ∨ f = 3 ∨ f = 6 then 8 else if f = 4 then 6
  else if f = 5 ∨ f = 7 then 4 else 32

/-- Exact value of an element (R94). -/
def fvOf (f bits : Nat) : FV :=
  if f = 0 then fvIeee 8 7 127 bits
  else if f = 1 then fvIeee 5 10 15 bits
  else if f = 2 then (if bitsOf bits 6 0 = 0x7F then .nan else fvFin 4 3 7 bits)
  else if f = 3 then fvIeee 5 2 15 bits
  else if f = 4 then fvFin 3 2 3 bits
  else if f = 5 then fvFin 2 1 1 bits
  else if f = 6 then FV.int (signedOf 8 bits)
  else if f = 7 then FV.int (signedOf 4 bits)
  else if f = 8 then fvIeee 8 23 127 bits
  else FV.int (signedOf 32 bits)

/-- Value of a binary32 encoding. -/
def fv32 (w : W32) : FV := fvOf 8 w.toNat

/-- Value of an INT32. -/
def fvInt32 (w : W32) : FV := fvOf 9 w.toNat

/-- Is a format code an integer element format? -/
def fmtInt (f : Nat) : Bool := f = 6 || f = 7 || f = 9

/-- Depth k of a format in a cube cell (R69). -/
def fmtK (f : Nat) : Nat := if f = 0 ∨ f = 1 then 2 else if f = 5 ∨ f = 7 then 8 else 4

/-- May a format be block-scaled (R69)? -/
def fmtScalable (f : Nat) : Bool := f = 2 || f = 3 || f = 4 || f = 5

/-- A legal pairing of operand formats (R69). -/
def fmtPair (a b : Nat) : Bool :=
  decide (a < 8) && decide (b < 8) && decide (fmtK a = fmtK b) && (fmtInt a == fmtInt b)

/-- Value of an E8M0 scale (R95). -/
def fvScale (e : Nat) : FV := if e = 0xFF then .nan else .fin false 1 ((e : Int) - 127)

/-! ### Rounding to binary32 (R73, R74, R157) -/

def nan32 : W32 := 0x7FC00000

def inf32 (neg : Bool) : W32 := if neg then 0xFF800000 else 0x7F800000

/-- Shift right by `d` with round to nearest, ties to even; `sticky` tells that the value lies
strictly between m and m + 1 units. -/
def rneShift (m d : Nat) (sticky : Bool) : Nat :=
  let n := m >>> d
  let r := m % 2 ^ d
  let up := decide (2 ^ d < 2 * r) || (decide (0 < d) && decide (2 * r = 2 ^ d) && (sticky || n % 2 = 1))
  if up then n + 1 else n

/-- A magnitude m × 2^e, plus less than one unit when `sticky`, rounded once to binary32 by
round-to-nearest-even: below 2^−126 it is +0, overflow gives the infinity. -/
def rne32Of (neg : Bool) (m : Nat) (e : Int) (sticky : Bool) : W32 :=
  if m = 0 then 0
  else
    let q := max ((Nat.log2 m : Int) + e - 23) (-149)
    let n := if q ≤ e then m * pow2 (e - q) else rneShift m (q - e).toNat sticky
    if (Nat.log2 n : Int) + q < -126 then 0
    else
      let bits := ((q + 149).toNat) * 2 ^ 23 + n
      if 0x7F800000 ≤ bits then inf32 neg
      else BitVec.ofNat 32 (bits + b2n neg * 2 ^ 31)

/-- rne32 of an exact value. -/
def rne32 : FV → W32
  | .nan => nan32
  | .inf a => inf32 a
  | .fin n m e => rne32Of n m e false

/-! ### Correctly rounded functions (R123, R157) -/

/-- Integer square root by bits, from bit `k − 1` down: the greatest r with r² ≤ n that extends
`acc`. -/
def isqrtBits (n : Nat) : Nat → Nat → Nat
  | 0, acc => acc
  | k + 1, acc =>
    let r := acc + 2 ^ k
    isqrtBits n k (if r * r ≤ n then r else acc)

/-- ⌊√n⌋. -/
def isqrt (n : Nat) : Nat := isqrtBits n (Nat.log2 n / 2 + 1) 0

/-- A / B correctly rounded; 0 / 0 is NaN (R157).  A nonzero number over zero and ∞ / ∞, of which the
spec states no quotient, give the free `Config.divCorner` (log entry 87). -/
def f32div (a b : W32) : W32 :=
  match fv32 a, fv32 b with
  | .nan, _ => nan32
  | _, .nan => nan32
  | .inf _, .inf _ => Config.divCorner a b
  | .inf x, .fin y k _ => if k = 0 then Config.divCorner a b else inf32 (x != y)
  | .fin _ _ _, .inf _ => 0
  | .fin x m e, .fin y k f =>
    if k = 0 then (if m = 0 then nan32 else Config.divCorner a b)
    else
      let t := m * 2 ^ 320
      rne32Of (x != y) (t / k) (e - f - 320) (decide (t % k ≠ 0))

/-- √A correctly rounded; the root of a negative value is NaN (R157). -/
def f32sqrt (a : W32) : W32 :=
  match fv32 a with
  | .nan => nan32
  | .inf x => if x then nan32 else inf32 false
  | .fin x m e =>
    if m = 0 then 0
    else if x then nan32
    else
      let odd := decide (e % 2 ≠ 0)
      let t := (if odd then 2 * m else m) * 2 ^ 320
      let e' := (if odd then e - 1 else e) - 320
      let r := isqrt t
      rne32Of false r (e' / 2) (decide (r * r ≠ t))

/-- 1 / √A correctly rounded (R157); of a negative value, NaN; of a zero, of which the spec states no
value, the free `Config.rsqrtZero` (log entry 87). -/
def f32rsqrt (a : W32) : W32 :=
  match fv32 a with
  | .nan => nan32
  | .inf x => if x then nan32 else 0
  | .fin x m e =>
    if m = 0 then Config.rsqrtZero a
    else if x then nan32
    else
      let odd := decide (e % 2 ≠ 0)
      let t := if odd then 2 * m else m
      let e' := if odd then e - 1 else e
      let r := isqrt (2 ^ 400 / t)
      rne32Of false r (-200 - e' / 2) (decide (r * r * t ≠ 2 ^ 400))

/-- recip(x) (R123): of a zero, +0. -/
def recip32 (a : W32) : W32 :=
  match fv32 a with
  | .nan => nan32
  | .inf _ => 0
  | .fin x m e => if m = 0 then 0 else rne32Of x (2 ^ 320 / m) (-320 - e) (decide (2 ^ 320 % m ≠ 0))

/-- Fixed-point product of 2^(2^−i) over the 1 bits of a fraction of `k` bits, most significant
first; `rt` is 2^(2^−i) with 256 fraction bits. -/
def exp2Frac : Nat → Nat → Nat → Nat → Nat
  | 0, _, _, acc => acc
  | k + 1, f, rt, acc =>
    let rt' := isqrt (rt * 2 ^ 256)
    exp2Frac k f rt' (if f.testBit k then acc * rt' / 2 ^ 256 else acc)

/-- exp2(x) correctly rounded (R123).  The fixed-point result lies below 2^f by less than 2^−245,
which decides every rounding to binary32. -/
def exp2f32 (a : W32) : W32 :=
  match fv32 a with
  | .nan => nan32
  | .inf x => if x then 0 else inf32 false
  | .fin x m e =>
    let k := (-e).toNat
    let v : Int := if e < 0 then (m : Int) else (m * pow2 e : Nat)
    let s : Int := if x then -v else v
    let n := if e < 0 then s / (2 ^ k : Nat) else s
    let f := if e < 0 then (s % ((2 ^ k : Nat) : Int)).toNat else 0
    if 128 ≤ n then inf32 false
    else if n < -200 then 0
    else if f = 0 then rne32Of false 1 n false
    else rne32Of false (exp2Frac k f (2 ^ 257) (2 ^ 256)) (n - 256) true

/-- `k` fraction bits of log2 of a value in [1, 2) with 256 fraction bits, and whether the value
that remains is exactly 1. -/
def log2Frac : Nat → Nat → Nat → Nat × Bool
  | 0, m, acc => (acc, decide (m = 2 ^ 256))
  | k + 1, m, acc =>
    let s := m * m / 2 ^ 256
    if 2 ^ 257 ≤ s then log2Frac k (s / 2) (2 * acc + 1) else log2Frac k s (2 * acc)

/-- Maximum of two values, NaN if either is NaN (R156, MAX). -/
def f32max (a b : W32) : W32 :=
  if (fv32 a).isNan || (fv32 b).isNan then nan32 else if (fv32 a).lt (fv32 b) then b else a

/-- Minimum of two values, NaN if either is NaN. -/
def f32min (a b : W32) : W32 :=
  if (fv32 a).isNan || (fv32 b).isNan then nan32 else if (fv32 b).lt (fv32 a) then b else a

/-! ### Conversion to stored formats (R99–R102) -/

/-- Mantissa bits, bias and largest finite code of a floating format. -/
def fmtShape (f : Nat) : Nat × Nat × Nat :=
  if f = 0 then (7, 127, 0x7F7F) else if f = 1 then (10, 15, 0x7BFF) else if f = 2 then (3, 7, 0x7E)
  else if f = 3 then (2, 15, 0x7B) else if f = 4 then (2, 3, 0x1F) else (1, 1, 0x7)

/-- Canonical NaN of a format, +0 where there is none (R100). -/
def fmtNan (f : Nat) : Nat :=
  if f = 0 then 0x7FC0 else if f = 1 then 0x7E00 else if f = 2 then 0x7F else if f = 3 then 0x7E else 0

/-- The multiplier after rounding m × 2^e to the quantum 2^q: RNE, or SR with a 16-bit draw. -/
def roundQ (m : Nat) (e q : Int) (draw : Option Nat) (sticky : Bool) : Nat :=
  if q ≤ e then m * pow2 (e - q)
  else
    let d := (q - e).toNat
    match draw with
    | none => rneShift m d sticky
    | some r => if 2 ^ 16 ≤ (m % 2 ^ d) * 2 ^ 16 / 2 ^ d + r then m / 2 ^ d + 1 else m / 2 ^ d

/-- Conversion of an exact value to an element format: its bits and its overflow flag. -/
def convFv (f : Nat) (draw : Option Nat) (sticky : Bool) (v : FV) : Nat × Bool :=
  if fmtInt f then
    let n := fmtBits f
    let hi : Int := 2 ^ (n - 1) - 1
    let lo : Int := -(2 ^ (n - 1))
    match v with
    | .nan => (0, true)
    | .inf neg => (wrapTo n (if neg then lo else hi), true)
    | .fin neg m e =>
      let k : Int := roundQ m e 0 draw sticky
      let i := if neg then -k else k
      if hi < i then (wrapTo n hi, true) else if i < lo then (wrapTo n lo, true) else (wrapTo n i, false)
  else
    let (mb, bias, top) := fmtShape f
    let sgn := fun (neg : Bool) => b2n neg * 2 ^ (fmtBits f - 1)
    match v with
    | .nan => (fmtNan f, true)
    | .inf neg => (top + sgn neg, true)
    | .fin neg m e =>
      if m = 0 then (sgn neg, false)
      else
        let emin : Int := 1 - (bias : Int)
        let q := max ((Nat.log2 m : Int) + e) emin - mb
        let code := (q - (emin - mb)).toNat * 2 ^ mb + roundQ m e q draw sticky
        if top < code then (top + sgn neg, true) else (code + sgn neg, false)

/-- Conversion of a binary32 value (R98). -/
def conv32 (f : Nat) (draw : Option Nat) (w : W32) : Nat × Bool := convFv f draw false (fv32 w)

/-- log2_fp16(x) of a positive finite x (R123). -/
def log2fp16 (w : W32) : Nat :=
  match fv32 w with
  | .fin false m e =>
    let l := Nat.log2 m
    let (fr, one) := log2Frac 60 (m * 2 ^ (256 - l)) 0
    let t : Int := ((l : Int) + e) * 2 ^ 60 + fr
    if one then (convFv 1 none false (FV.ofInt t (-60))).1
    else if t < 0 then (convFv 1 none true (.fin true (t.natAbs - 1) (-60))).1
    else (convFv 1 none true (.fin false t.toNat (-60))).1
  | _ => 0x7E00

/-- rup_bf16(x): the least BF16 value not less than x, as binary32 (R123). -/
def rupBf16 (w : W32) : W32 :=
  let n := w.toNat
  if (fv32 w).isNan then nan32
  else if n % 2 ^ 16 = 0 then w
  else if n.testBit 31 then BitVec.ofNat 32 (n - n % 2 ^ 16)
  else BitVec.ofNat 32 (n - n % 2 ^ 16 + 2 ^ 16)

/-- A BF16 encoding as binary32. -/
def widenBf16 (b : Nat) : W32 := BitVec.ofNat 32 (b * 2 ^ 16)

/-- An element widened to binary32 (exact for every format of 16 bits or fewer, but for values below
2^−126, which a BF16 subnormal keeps as it is). -/
def widen (f bits : Nat) : FV := fvOf f bits

/-! ### INT32 accumulation (R75) -/

/-- Saturate to INT32; `true` when the value changed. -/
def satInt32 (i : Int) : W32 × Bool :=
  if 2147483647 < i then (0x7FFFFFFF, true)
  else if i < -2147483648 then (0x80000000, true)
  else (BitVec.ofNat 32 (wrapTo 32 i), false)

/-- Integer value of an exact integer. -/
def FV.toInt : FV → Int
  | .fin n m e => let k : Int := (m * pow2 e : Nat); if n then -k else k
  | _ => 0

/-- An integer divided by 2^k, to nearest, ties to even. -/
def intShiftRne (i : Int) (k : Nat) : Int :=
  let r : Int := rneShift i.natAbs k false
  if i < 0 then -r else r

/-! ### Philox4x32-10 (R104) -/

/-- One round. -/
def philoxRound (c : Nat × Nat × Nat × Nat) (k0 k1 : Nat) : Nat × Nat × Nat × Nat :=
  let (c0, c1, c2, c3) := c
  let p0 := 0xD2511F53 * c0
  let p1 := 0xCD9E8D57 * c2
  ((p1 / 2 ^ 32) ^^^ c1 ^^^ k0, p1 % 2 ^ 32, (p0 / 2 ^ 32) ^^^ c3 ^^^ k1, p0 % 2 ^ 32)

/-- Rounds with the key increments before each but the first. -/
def philoxRounds : Nat → Nat × Nat × Nat × Nat → Nat → Nat → Nat × Nat × Nat × Nat
  | 0, c, _, _ => c
  | n + 1, c, k0, k1 =>
    philoxRounds n (philoxRound c k0 k1) ((k0 + 0x9E3779B9) % 2 ^ 32) ((k1 + 0xBB67AE85) % 2 ^ 32)

def philox (c0 c1 c2 c3 k0 k1 : Nat) : Nat × Nat × Nat × Nat := philoxRounds 10 (c0, c1, c2, c3) k0 k1

/-- Draw `j` of a call. -/
def philoxDraw (o : Nat × Nat × Nat × Nat) (j : Nat) : Nat :=
  let (a, b, c, d) := o
  let w := if j / 2 = 0 then a else if j / 2 = 1 then b else if j / 2 = 2 then c else d
  if j % 2 = 0 then w % 2 ^ 16 else w / 2 ^ 16

/-- The stochastic-rounding draw of element `e` of a tensor (R104, R105). -/
def srDraw (seed : Word) (tensor stamp e : Nat) : Nat :=
  let b := e / 8
  philoxDraw (philox (b % 2 ^ 32) (bitsOf b 44 32) tensor stamp (wfld seed 31 0) (wfld seed 63 32)) (e % 8)

/-- The assay selection draw (R116). -/
def assayDraw (seed : Word) (seq core stamp : Nat) : Nat :=
  philoxDraw (philox seq (2 * 2 ^ 29) core stamp (wfld seed 31 0) (wfld seed 63 32)) 0

end Sys2Proof.Machine
end

