-- ==== Sys2Proof/Machine/RegMap.lean ====
section
/-! DEFINITION. The register map: one row per register of the spec's register tables (block
bases R17; layouts R66, R93, R120, R143, R167, R195, R212, R239, R256, R322, R323, R343, R364,
R382, R412, R427, R443, R473), its reset domain (R7), its fields with their access codes (R6) and
reset values.  `rNAME` gives a register's offset from the register-space base, `fNAME_FIELD` the
place of a field.  The rows are written from the spec's tables. -/

namespace Sys2Proof.Machine

/-- Access code of a register field (R6, Table: Access codes). -/
inductive Acc where
  | ro | rw | w1c | rws | wo
  deriving DecidableEq, Repr

/-- Reset domain of a register (R7, Table: Reset domains). -/
inductive RDom where
  | cold | warm | part
  deriving DecidableEq, Repr

/-- Which index of a register names the partition or the core that owns it; `none` for a
register held once. -/
inductive Own where
  | none
  | part (i : Nat)
  | core (i : Nat)
  deriving DecidableEq, Repr

/-- One field: bits [hi:lo], its access code and its reset value.  Bits in no field are reserved:
they read zero (R6). -/
structure FRow where
  hi : Nat
  lo : Nat
  acc : Acc
  reset : Nat
  deriving DecidableEq, Repr

/-- One register of the map: the offset of its first element, the (count, stride) of each index in
falling order of stride, its reset domain, its owner, whether it is held once per device and seen
in both hubs' blocks, and its fields. -/
structure RegRow where
  name : String
  base : Nat
  dims : List (Nat × Nat)
  dom : RDom
  own : Own
  once : Bool
  fields : List FRow
  deriving DecidableEq, Repr

/-- The place of a field in its register. -/
structure Fld where
  hi : Nat
  lo : Nat
  deriving DecidableEq, Repr

/-- Offset of the block of tier controller `n`: 0–23 the tier-1 stacks S0–S23, 24–31 the tier-2
stacks T0–T7 (R212). -/
def tierBase (n : Nat) : Nat :=
  if n < 24 then 0x110000 + (n / 6) * 0x100000 + (n % 6) * 0x2000
  else 0x2200000 + ((n - 24) / 4) * 0x400000 + ((n - 24) % 4) * 0x2000

/-! ### Registers of the chapter 03 (core sequencer) -/

/-- Offset of CORE_ID (R67). -/
def rCORE_ID (c : Nat) : Nat := 0x1000000 + c * 0x10000

/-- Offset of CORE_CTRL (R67). -/
def rCORE_CTRL (c : Nat) : Nat := 0x1000008 + c * 0x10000

/-- Offset of CORE_STATUS (R67). -/
def rCORE_STATUS (c : Nat) : Nat := 0x1000010 + c * 0x10000

/-- Offset of ADDR_ERR (R67). -/
def rADDR_ERR (c : Nat) : Nat := 0x1000018 + c * 0x10000

/-- Offset of ADDR_ERR_TIME (R67). -/
def rADDR_ERR_TIME (c : Nat) : Nat := 0x1000020 + c * 0x10000

/-- Offset of CTX_STATE_n (R67). -/
def rCTX_STATE (c n : Nat) : Nat := 0x1000100 + c * 0x10000 + n * 0x20

/-- Offset of CTX_PC_n (R67). -/
def rCTX_PC (c n : Nat) : Nat := 0x1000108 + c * 0x10000 + n * 0x20

/-- Offset of CTX_RES_n (R67). -/
def rCTX_RES (c n : Nat) : Nat := 0x1000110 + c * 0x10000 + n * 0x20

/-- Offset of TOKEN_STATE_i (R67). -/
def rTOKEN_STATE (c i : Nat) : Nat := 0x1000800 + c * 0x10000 + i * 0x8

def fCORE_ID_COL : Fld := ⟨18, 16⟩
def fCORE_ID_ROW : Fld := ⟨14, 12⟩
def fCORE_ID_DIE : Fld := ⟨9, 8⟩
def fCORE_ID_GLOBAL_CORE : Fld := ⟨7, 0⟩
def fCORE_CTRL_SEQ_INV : Fld := ⟨16, 16⟩
def fCORE_CTRL_SWITCH_WAIT : Fld := ⟨15, 0⟩
def fCORE_STATUS_DOZE : Fld := ⟨10, 8⟩
def fCORE_STATUS_OCCUPIED : Fld := ⟨7, 4⟩
def fCORE_STATUS_ACTIVE : Fld := ⟨3, 2⟩
def fCORE_STATUS_FENCED : Fld := ⟨1, 1⟩
def fCORE_STATUS_QUIET : Fld := ⟨0, 0⟩
def fADDR_ERR_AGENT : Fld := ⟨63, 61⟩
def fADDR_ERR_CONTEXT : Fld := ⟨60, 59⟩
def fADDR_ERR_RESERVED_RANGE : Fld := ⟨49, 49⟩
def fADDR_ERR_VALID : Fld := ⟨48, 48⟩
def fADDR_ERR_ADDR : Fld := ⟨47, 0⟩
def fADDR_ERR_TIME_TIME : Fld := ⟨63, 0⟩
def fCTX_STATE_RING_POS : Fld := ⟨63, 32⟩
def fCTX_STATE_LAST_ABORT : Fld := ⟨15, 8⟩
def fCTX_STATE_STATE : Fld := ⟨2, 0⟩
def fCTX_PC_PC : Fld := ⟨47, 0⟩
def fCTX_RES_TOKEN_LAST : Fld := ⟨63, 54⟩
def fCTX_RES_TOKEN_FIRST : Fld := ⟨53, 44⟩
def fCTX_RES_GATHER : Fld := ⟨17, 16⟩
def fCTX_RES_ACC1 : Fld := ⟨15, 12⟩
def fCTX_RES_ACC0 : Fld := ⟨11, 8⟩
def fCTX_RES_STREAM : Fld := ⟨7, 0⟩
def fTOKEN_STATE_TOKENS : Fld := ⟨63, 0⟩

/-- Rows of the register tables of chapter 03. -/
def regRows03a : List RegRow := [
  ⟨"CORE_ID", 0x1000000, [(160, 0x10000)], .cold, .none, false,
    [⟨18, 16, .ro, 0⟩, ⟨14, 12, .ro, 0⟩, ⟨9, 8, .ro, 0⟩, ⟨7, 0, .ro, 0⟩]⟩,
  ⟨"CORE_CTRL", 0x1000008, [(160, 0x10000)], .warm, .none, false,
    [⟨16, 16, .wo, 0⟩, ⟨15, 0, .rw, 8⟩]⟩,
  ⟨"CORE_STATUS", 0x1000010, [(160, 0x10000)], .warm, .none, false,
    [⟨10, 8, .ro, 0⟩, ⟨7, 4, .ro, 0⟩, ⟨3, 2, .ro, 0⟩, ⟨1, 1, .ro, 0⟩, ⟨0, 0, .ro, 1⟩]⟩,
  ⟨"ADDR_ERR", 0x1000018, [(160, 0x10000)], .warm, .none, false,
    [⟨63, 61, .ro, 0⟩, ⟨60, 59, .ro, 0⟩, ⟨49, 49, .ro, 0⟩, ⟨48, 48, .w1c, 0⟩, ⟨47, 0, .ro, 0⟩]⟩,
  ⟨"ADDR_ERR_TIME", 0x1000020, [(160, 0x10000)], .warm, .none, false,
    [⟨63, 0, .ro, 0⟩]⟩,
  ⟨"CTX_STATE", 0x1000100, [(160, 0x10000), (4, 0x20)], .part, .core 0, false,
    [⟨63, 32, .ro, 0⟩, ⟨15, 8, .ro, 0⟩, ⟨2, 0, .ro, 0⟩]⟩,
  ⟨"CTX_PC", 0x1000108, [(160, 0x10000), (4, 0x20)], .part, .core 0, false,
    [⟨47, 0, .ro, 0⟩]⟩,
  ⟨"CTX_RES", 0x1000110, [(160, 0x10000), (4, 0x20)], .part, .core 0, false,
    [⟨63, 54, .ro, 0⟩, ⟨53, 44, .ro, 0⟩, ⟨17, 16, .ro, 0⟩, ⟨15, 12, .ro, 0⟩, ⟨11, 8, .ro, 0⟩, ⟨7, 0, .ro, 0⟩]⟩,
  ⟨"TOKEN_STATE", 0x1000800, [(160, 0x10000), (32, 0x8)], .warm, .none, false,
    [⟨63, 0, .ro, 0⟩]⟩]

/-! ### Registers of the chapter 04 (arrays) -/

/-- Offset of ARR_CAP (R93). -/
def rARR_CAP (c : Nat) : Nat := 0x1001000 + c * 0x10000

/-- Offset of ARR_CTRL (R93). -/
def rARR_CTRL (c : Nat) : Nat := 0x1001008 + c * 0x10000

/-- Offset of ARR_STATUS_a (R93). -/
def rARR_STATUS (c a : Nat) : Nat := 0x1001010 + c * 0x10000 + a * 0x8

/-- Offset of ARR_ERR (R93). -/
def rARR_ERR (c : Nat) : Nat := 0x1001020 + c * 0x10000

/-- Offset of ARR_LAST_INST_a (R93). -/
def rARR_LAST_INST (c a : Nat) : Nat := 0x1001030 + c * 0x10000 + a * 0x8

def fARR_CAP_MODES : Fld := ⟨39, 32⟩
def fARR_CAP_ACC_SETS : Fld := ⟨31, 28⟩
def fARR_CAP_K4 : Fld := ⟨27, 24⟩
def fARR_CAP_K8 : Fld := ⟨23, 20⟩
def fARR_CAP_K16 : Fld := ⟨19, 16⟩
def fARR_CAP_COLS : Fld := ⟨15, 8⟩
def fARR_CAP_ROWS : Fld := ⟨7, 0⟩
def fARR_CTRL_INJECT_SET : Fld := ⟨9, 8⟩
def fARR_CTRL_INJECT_ARRAY : Fld := ⟨4, 4⟩
def fARR_CTRL_INJECT_PARITY : Fld := ⟨0, 0⟩
def fARR_STATUS_NONFINITE : Fld := ⟨15, 12⟩
def fARR_STATUS_HELD : Fld := ⟨11, 8⟩
def fARR_STATUS_MODE : Fld := ⟨4, 2⟩
def fARR_STATUS_DRAINING : Fld := ⟨1, 1⟩
def fARR_STATUS_BUSY : Fld := ⟨0, 0⟩
def fARR_ERR_ERR_SET : Fld := ⟨35, 34⟩
def fARR_ERR_ERR_ARRAY : Fld := ⟨33, 33⟩
def fARR_ERR_ERR_ROW : Fld := ⟨32, 27⟩
def fARR_ERR_ERR_COL : Fld := ⟨26, 19⟩
def fARR_ERR_FEEDER_UE : Fld := ⟨3, 3⟩
def fARR_ERR_FEEDER_CE : Fld := ⟨2, 2⟩
def fARR_ERR_ACC_PARITY1 : Fld := ⟨1, 1⟩
def fARR_ERR_ACC_PARITY0 : Fld := ⟨0, 0⟩
def fARR_LAST_INST_INST : Fld := ⟨63, 0⟩

/-- Rows of the register tables of chapter 04. -/
def regRows04a : List RegRow := [
  ⟨"ARR_CAP", 0x1001000, [(160, 0x10000)], .cold, .none, false,
    [⟨39, 32, .ro, 0x1F⟩, ⟨31, 28, .ro, 4⟩, ⟨27, 24, .ro, 8⟩, ⟨23, 20, .ro, 4⟩, ⟨19, 16, .ro, 2⟩, ⟨15, 8, .ro, 0x40⟩, ⟨7, 0, .ro, 0x10⟩]⟩,
  ⟨"ARR_CTRL", 0x1001008, [(160, 0x10000)], .warm, .none, false,
    [⟨9, 8, .rw, 0⟩, ⟨4, 4, .rw, 0⟩, ⟨0, 0, .wo, 0⟩]⟩,
  ⟨"ARR_STATUS", 0x1001010, [(160, 0x10000), (2, 0x8)], .warm, .none, false,
    [⟨15, 12, .ro, 0⟩, ⟨11, 8, .ro, 0⟩, ⟨4, 2, .ro, 0⟩, ⟨1, 1, .ro, 0⟩, ⟨0, 0, .ro, 0⟩]⟩,
  ⟨"ARR_ERR", 0x1001020, [(160, 0x10000)], .warm, .none, false,
    [⟨35, 34, .ro, 0⟩, ⟨33, 33, .ro, 0⟩, ⟨32, 27, .ro, 0⟩, ⟨26, 19, .ro, 0⟩, ⟨3, 3, .w1c, 0⟩, ⟨2, 2, .w1c, 0⟩, ⟨1, 1, .w1c, 0⟩, ⟨0, 0, .w1c, 0⟩]⟩,
  ⟨"ARR_LAST_INST", 0x1001030, [(160, 0x10000), (2, 0x8)], .warm, .none, false,
    [⟨63, 0, .ro, 0⟩]⟩]

/-! ### Registers of the chapter 05 (numerics and assay) -/

/-- Offset of NUM_SEED (R120). -/
def rNUM_SEED (c : Nat) : Nat := 0x1002000 + c * 0x10000

/-- Offset of NUM_LSCALE (R120). -/
def rNUM_LSCALE (c : Nat) : Nat := 0x1002008 + c * 0x10000

/-- Offset of NUM_CTX_n (R120). -/
def rNUM_CTX (c n : Nat) : Nat := 0x1002010 + c * 0x10000 + n * 0x8

/-- Offset of NUM_OVF_n (R120). -/
def rNUM_OVF (c n : Nat) : Nat := 0x1002040 + c * 0x10000 + n * 0x8

/-- Offset of NUM_UPD (R120). -/
def rNUM_UPD (c : Nat) : Nat := 0x1002060 + c * 0x10000

/-- Offset of NUM_REPEAT_INFO (R120). -/
def rNUM_REPEAT_INFO (c : Nat) : Nat := 0x1002080 + c * 0x10000

/-- Offset of NUM_REPEAT_TIME (R120). -/
def rNUM_REPEAT_TIME (c : Nat) : Nat := 0x1002088 + c * 0x10000

/-- Offset of ASSAY_CTRL (R120). -/
def rASSAY_CTRL (c : Nat) : Nat := 0x1002100 + c * 0x10000

/-- Offset of ASSAY_SEED (R120). -/
def rASSAY_SEED (c : Nat) : Nat := 0x1002108 + c * 0x10000

/-- Offset of ASSAY_RING_BASE (R120). -/
def rASSAY_RING_BASE (c : Nat) : Nat := 0x1002110 + c * 0x10000

/-- Offset of ASSAY_RING_SIZE (R120). -/
def rASSAY_RING_SIZE (c : Nat) : Nat := 0x1002118 + c * 0x10000

/-- Offset of ASSAY_RING_PTR (R120). -/
def rASSAY_RING_PTR (c : Nat) : Nat := 0x1002120 + c * 0x10000

/-- Offset of ASSAY_TOL_f (R120). -/
def rASSAY_TOL (c f : Nat) : Nat := 0x1002140 + c * 0x10000 + f * 0x8

/-- Offset of ASSAY_STATUS (R120). -/
def rASSAY_STATUS (c : Nat) : Nat := 0x1002180 + c * 0x10000

def fNUM_SEED_SEED : Fld := ⟨63, 0⟩
def fNUM_LSCALE_RAISE : Fld := ⟨63, 48⟩
def fNUM_LSCALE_CLEAN : Fld := ⟨47, 32⟩
def fNUM_LSCALE_CEILING : Fld := ⟨9, 9⟩
def fNUM_LSCALE_FLOOR : Fld := ⟨8, 8⟩
def fNUM_LSCALE_L : Fld := ⟨7, 0⟩
def fNUM_CTX_L_POUR : Fld := ⟨7, 0⟩
def fNUM_OVF_OVF : Fld := ⟨63, 0⟩
def fNUM_UPD_HEADROOM : Fld := ⟨2, 0⟩
def fNUM_REPEAT_INFO_RING_POS : Fld := ⟨63, 32⟩
def fNUM_REPEAT_INFO_CONTEXT : Fld := ⟨17, 16⟩
def fNUM_REPEAT_INFO_FORMAT : Fld := ⟨15, 12⟩
def fNUM_REPEAT_INFO_NEXT_FORMAT : Fld := ⟨11, 8⟩
def fNUM_REPEAT_INFO_GROUP : Fld := ⟨7, 2⟩
def fNUM_REPEAT_INFO_VALID : Fld := ⟨0, 0⟩
def fNUM_REPEAT_TIME_TIME : Fld := ⟨63, 0⟩
def fASSAY_CTRL_PARTNER : Fld := ⟨31, 24⟩
def fASSAY_CTRL_ENABLE : Fld := ⟨16, 16⟩
def fASSAY_CTRL_RATE : Fld := ⟨15, 0⟩
def fASSAY_SEED_SEED : Fld := ⟨63, 0⟩
def fASSAY_RING_BASE_BASE : Fld := ⟨47, 8⟩
def fASSAY_RING_SIZE_SIZE : Fld := ⟨23, 0⟩
def fASSAY_RING_PTR_HEAD : Fld := ⟨63, 32⟩
def fASSAY_RING_PTR_TAIL : Fld := ⟨31, 0⟩
def fASSAY_TOL_TOL : Fld := ⟨7, 0⟩
def fASSAY_STATUS_LAST_SRC : Fld := ⟨47, 40⟩
def fASSAY_STATUS_BAD_PARTNER : Fld := ⟨2, 2⟩
def fASSAY_STATUS_MISMATCH : Fld := ⟨1, 1⟩
def fASSAY_STATUS_WINDOW : Fld := ⟨0, 0⟩

/-- Rows of the register tables of chapter 05. -/
def regRows05a : List RegRow := [
  ⟨"NUM_SEED", 0x1002000, [(160, 0x10000)], .part, .core 0, false,
    [⟨63, 0, .rw, 0⟩]⟩,
  ⟨"NUM_LSCALE", 0x1002008, [(160, 0x10000)], .part, .core 0, false,
    [⟨63, 48, .rw, 0x400⟩, ⟨47, 32, .ro, 0⟩, ⟨9, 9, .w1c, 0⟩, ⟨8, 8, .w1c, 0⟩, ⟨7, 0, .rw, 0⟩]⟩,
  ⟨"NUM_CTX", 0x1002010, [(160, 0x10000), (4, 0x8)], .part, .core 0, false,
    [⟨7, 0, .ro, 0⟩]⟩,
  ⟨"NUM_OVF", 0x1002040, [(160, 0x10000), (4, 0x8)], .part, .core 0, false,
    [⟨63, 0, .ro, 0⟩]⟩,
  ⟨"NUM_UPD", 0x1002060, [(160, 0x10000)], .part, .core 0, false,
    [⟨2, 0, .rw, 2⟩]⟩,
  ⟨"NUM_REPEAT_INFO", 0x1002080, [(160, 0x10000)], .warm, .none, false,
    [⟨63, 32, .ro, 0⟩, ⟨17, 16, .ro, 0⟩, ⟨15, 12, .ro, 0⟩, ⟨11, 8, .ro, 0⟩, ⟨7, 2, .ro, 0⟩, ⟨0, 0, .w1c, 0⟩]⟩,
  ⟨"NUM_REPEAT_TIME", 0x1002088, [(160, 0x10000)], .warm, .none, false,
    [⟨63, 0, .ro, 0⟩]⟩,
  ⟨"ASSAY_CTRL", 0x1002100, [(160, 0x10000)], .part, .core 0, false,
    [⟨31, 24, .rw, 0⟩, ⟨16, 16, .rw, 0⟩, ⟨15, 0, .rw, 0⟩]⟩,
  ⟨"ASSAY_SEED", 0x1002108, [(160, 0x10000)], .part, .core 0, false,
    [⟨63, 0, .rw, 0⟩]⟩,
  ⟨"ASSAY_RING_BASE", 0x1002110, [(160, 0x10000)], .part, .core 0, false,
    [⟨47, 8, .rw, 0⟩]⟩,
  ⟨"ASSAY_RING_SIZE", 0x1002118, [(160, 0x10000)], .part, .core 0, false,
    [⟨23, 0, .rw, 0⟩]⟩,
  ⟨"ASSAY_RING_PTR", 0x1002120, [(160, 0x10000)], .part, .core 0, false,
    [⟨63, 32, .ro, 0⟩, ⟨31, 0, .ro, 0⟩]⟩]

/-- Rows of the register tables of chapter 05. -/
def regRows05b : List RegRow := [
  ⟨"ASSAY_TOL", 0x1002140, [(160, 0x10000), (8, 0x8)], .part, .core 0, false,
    [⟨7, 0, .rw, 0x10⟩]⟩,
  ⟨"ASSAY_STATUS", 0x1002180, [(160, 0x10000)], .warm, .none, false,
    [⟨47, 40, .ro, 0⟩, ⟨2, 2, .ro, 0⟩, ⟨1, 1, .w1c, 0⟩, ⟨0, 0, .ro, 0⟩]⟩]

/-! ### Registers of the chapter 06 (attention) -/

/-- Offset of ATT_CAP (R143). -/
def rATT_CAP (c : Nat) : Nat := 0x1003000 + c * 0x10000

/-- Offset of ATT_STATUS (R143). -/
def rATT_STATUS (c : Nat) : Nat := 0x1003008 + c * 0x10000

/-- Offset of ATT_LIMIT_INFO (R143). -/
def rATT_LIMIT_INFO (c : Nat) : Nat := 0x1003010 + c * 0x10000

/-- Offset of ATT_LIMIT_CAUSE (R143). -/
def rATT_LIMIT_CAUSE (c : Nat) : Nat := 0x1003018 + c * 0x10000

/-- Offset of ATT_LIMIT_TIME (R143). -/
def rATT_LIMIT_TIME (c : Nat) : Nat := 0x1003020 + c * 0x10000

/-- Offset of ATT_PTE_ERR (R143). -/
def rATT_PTE_ERR (c : Nat) : Nat := 0x1003028 + c * 0x10000

def fATT_CAP_LOG2_MAX_POS : Fld := ⟨23, 16⟩
def fATT_CAP_LOG2_PAGE : Fld := ⟨15, 8⟩
def fATT_CAP_WIDTHS : Fld := ⟨7, 0⟩
def fATT_STATUS_OP : Fld := ⟨7, 5⟩
def fATT_STATUS_PASS2 : Fld := ⟨4, 4⟩
def fATT_STATUS_BUSY : Fld := ⟨0, 0⟩
def fATT_LIMIT_INFO_RING_POS : Fld := ⟨63, 32⟩
def fATT_LIMIT_INFO_POSITION : Fld := ⟨31, 0⟩
def fATT_LIMIT_CAUSE_CONTEXT : Fld := ⟨6, 5⟩
def fATT_LIMIT_CAUSE_SOURCE : Fld := ⟨4, 2⟩
def fATT_LIMIT_CAUSE_VALID : Fld := ⟨0, 0⟩
def fATT_LIMIT_TIME_TIME : Fld := ⟨63, 0⟩
def fATT_PTE_ERR_PAGE : Fld := ⟨63, 52⟩
def fATT_PTE_ERR_HEAD : Fld := ⟨51, 44⟩
def fATT_PTE_ERR_CONTEXT : Fld := ⟨37, 36⟩
def fATT_PTE_ERR_BAD_BASE : Fld := ⟨1, 1⟩
def fATT_PTE_ERR_VALID : Fld := ⟨0, 0⟩

/-- Rows of the register tables of chapter 06. -/
def regRows06a : List RegRow := [
  ⟨"ATT_CAP", 0x1003000, [(160, 0x10000)], .cold, .none, false,
    [⟨23, 16, .ro, 0x14⟩, ⟨15, 8, .ro, 8⟩, ⟨7, 0, .ro, 0xFF⟩]⟩,
  ⟨"ATT_STATUS", 0x1003008, [(160, 0x10000)], .warm, .none, false,
    [⟨7, 5, .ro, 0⟩, ⟨4, 4, .ro, 0⟩, ⟨0, 0, .ro, 0⟩]⟩,
  ⟨"ATT_LIMIT_INFO", 0x1003010, [(160, 0x10000)], .warm, .none, false,
    [⟨63, 32, .ro, 0⟩, ⟨31, 0, .ro, 0⟩]⟩,
  ⟨"ATT_LIMIT_CAUSE", 0x1003018, [(160, 0x10000)], .warm, .none, false,
    [⟨6, 5, .ro, 0⟩, ⟨4, 2, .ro, 0⟩, ⟨0, 0, .w1c, 0⟩]⟩,
  ⟨"ATT_LIMIT_TIME", 0x1003020, [(160, 0x10000)], .warm, .none, false,
    [⟨63, 0, .ro, 0⟩]⟩,
  ⟨"ATT_PTE_ERR", 0x1003028, [(160, 0x10000)], .warm, .none, false,
    [⟨63, 52, .ro, 0⟩, ⟨51, 44, .ro, 0⟩, ⟨37, 36, .ro, 0⟩, ⟨1, 1, .ro, 0⟩, ⟨0, 0, .w1c, 0⟩]⟩]

/-! ### Registers of the chapter 07 (update engine) -/

/-- Offset of UPD_CAP (R167). -/
def rUPD_CAP (c : Nat) : Nat := 0x1004000 + c * 0x10000

/-- Offset of UPD_STATUS (R167). -/
def rUPD_STATUS (c : Nat) : Nat := 0x1004008 + c * 0x10000

/-- Offset of UPD_LAST (R167). -/
def rUPD_LAST (c : Nat) : Nat := 0x1004010 + c * 0x10000

/-- Offset of UPD_NORM (R167). -/
def rUPD_NORM (c : Nat) : Nat := 0x1004018 + c * 0x10000

/-- Offset of UPD_ERR (R167). -/
def rUPD_ERR (c : Nat) : Nat := 0x1004020 + c * 0x10000

def fUPD_CAP_KERNELS : Fld := ⟨39, 36⟩
def fUPD_CAP_STATES : Fld := ⟨35, 32⟩
def fUPD_CAP_STRIP : Fld := ⟨31, 20⟩
def fUPD_CAP_XREGS : Fld := ⟨15, 8⟩
def fUPD_CAP_MAX_OPS : Fld := ⟨7, 0⟩
def fUPD_STATUS_OP_INDEX : Fld := ⟨20, 16⟩
def fUPD_STATUS_SWEEP : Fld := ⟨13, 10⟩
def fUPD_STATUS_CONTEXT : Fld := ⟨9, 8⟩
def fUPD_STATUS_IN_KERNEL : Fld := ⟨2, 2⟩
def fUPD_STATUS_TOUCH : Fld := ⟨1, 1⟩
def fUPD_STATUS_BUSY : Fld := ⟨0, 0⟩
def fUPD_LAST_M : Fld := ⟨47, 32⟩
def fUPD_LAST_U_APPLIED : Fld := ⟨23, 16⟩
def fUPD_LAST_U_NEXT : Fld := ⟨15, 8⟩
def fUPD_LAST_SAT : Fld := ⟨0, 0⟩
def fUPD_NORM_F : Fld := ⟨63, 32⟩
def fUPD_NORM_S : Fld := ⟨31, 0⟩
def fUPD_ERR_OP_INDEX : Fld := ⟨12, 8⟩
def fUPD_ERR_CAUSE : Fld := ⟨7, 4⟩
def fUPD_ERR_VALID : Fld := ⟨0, 0⟩

/-- Rows of the register tables of chapter 07. -/
def regRows07a : List RegRow := [
  ⟨"UPD_CAP", 0x1004000, [(160, 0x10000)], .cold, .none, false,
    [⟨39, 36, .ro, 8⟩, ⟨35, 32, .ro, 4⟩, ⟨31, 20, .ro, 0x200⟩, ⟨15, 8, .ro, 0x10⟩, ⟨7, 0, .ro, 0x20⟩]⟩,
  ⟨"UPD_STATUS", 0x1004008, [(160, 0x10000)], .warm, .none, false,
    [⟨20, 16, .ro, 0⟩, ⟨13, 10, .ro, 0⟩, ⟨9, 8, .ro, 0⟩, ⟨2, 2, .ro, 0⟩, ⟨1, 1, .ro, 0⟩, ⟨0, 0, .ro, 0⟩]⟩,
  ⟨"UPD_LAST", 0x1004010, [(160, 0x10000)], .warm, .none, false,
    [⟨47, 32, .ro, 0x8000⟩, ⟨23, 16, .ro, 0⟩, ⟨15, 8, .ro, 0⟩, ⟨0, 0, .ro, 0⟩]⟩,
  ⟨"UPD_NORM", 0x1004018, [(160, 0x10000)], .warm, .none, false,
    [⟨63, 32, .ro, 0⟩, ⟨31, 0, .ro, 0⟩]⟩,
  ⟨"UPD_ERR", 0x1004020, [(160, 0x10000)], .warm, .none, false,
    [⟨12, 8, .ro, 0⟩, ⟨7, 4, .ro, 0⟩, ⟨0, 0, .w1c, 0⟩]⟩]

/-! ### Registers of the chapter 08 (scratchpad, streams, cache) -/

/-- Offset of SPM_CAP (R195). -/
def rSPM_CAP (c : Nat) : Nat := 0x1005000 + c * 0x10000

/-- Offset of SPM_CTRL (R195). -/
def rSPM_CTRL (c : Nat) : Nat := 0x1005008 + c * 0x10000

/-- Offset of SPM_POWER (R195). -/
def rSPM_POWER (c : Nat) : Nat := 0x1005010 + c * 0x10000

/-- Offset of SPM_ERR (R195). -/
def rSPM_ERR (c : Nat) : Nat := 0x1005018 + c * 0x10000

/-- Offset of SPM_OFF_LOG (R195). -/
def rSPM_OFF_LOG (c : Nat) : Nat := 0x1005020 + c * 0x10000

/-- Offset of SPM_OFF_TIME (R195). -/
def rSPM_OFF_TIME (c : Nat) : Nat := 0x1005028 + c * 0x10000

/-- Offset of SPM_WAIT_INFO (R195). -/
def rSPM_WAIT_INFO (c : Nat) : Nat := 0x1005030 + c * 0x10000

/-- Offset of SPM_WAIT_TIME (R195). -/
def rSPM_WAIT_TIME (c : Nat) : Nat := 0x1005038 + c * 0x10000

/-- Offset of STR_CTX_n (R195). -/
def rSTR_CTX (c n : Nat) : Nat := 0x1006000 + c * 0x10000 + n * 0x8

/-- Offset of STR_ERR (R195). -/
def rSTR_ERR (c : Nat) : Nat := 0x1006040 + c * 0x10000

/-- Offset of GATH_g (R195). -/
def rGATH (c g : Nat) : Nat := 0x1006080 + c * 0x10000 + g * 0x8

/-- Offset of CACHE_CAP (R195). -/
def rCACHE_CAP (d : Nat) : Nat := 0x100000 + d * 0x100000

/-- Offset of CACHE_CTRL (R195). -/
def rCACHE_CTRL (d : Nat) : Nat := 0x100008 + d * 0x100000

/-- Offset of CACHE_WAYS_p (R195). -/
def rCACHE_WAYS (d p : Nat) : Nat := 0x100040 + d * 0x100000 + p * 0x8

/-- Offset of CACHE_ERR (R195). -/
def rCACHE_ERR (d : Nat) : Nat := 0x100080 + d * 0x100000

def fSPM_CAP_BANKS : Fld := ⟨31, 24⟩
def fSPM_CAP_QUADS : Fld := ⟨23, 16⟩
def fSPM_CAP_BANK_KIB : Fld := ⟨15, 0⟩
def fSPM_CTRL_DEFAULT : Fld := ⟨9, 9⟩
def fSPM_CTRL_CAL_ACTIVE : Fld := ⟨8, 8⟩
def fSPM_CTRL_WDOG_LOG2 : Fld := ⟨4, 0⟩
def fSPM_POWER_READY : Fld := ⟨31, 16⟩
def fSPM_POWER_ON : Fld := ⟨15, 0⟩
def fSPM_ERR_ADDR : Fld := ⟨39, 16⟩
def fSPM_ERR_EXT_UE : Fld := ⟨2, 2⟩
def fSPM_ERR_UE : Fld := ⟨1, 1⟩
def fSPM_ERR_CE : Fld := ⟨0, 0⟩
def fSPM_OFF_LOG_SRC_NODE : Fld := ⟨63, 48⟩
def fSPM_OFF_LOG_ADDR : Fld := ⟨39, 16⟩
def fSPM_OFF_LOG_PORT : Fld := ⟨15, 12⟩
def fSPM_OFF_LOG_VALID : Fld := ⟨0, 0⟩
def fSPM_OFF_TIME_TIME : Fld := ⟨63, 0⟩
def fSPM_WAIT_INFO_RING_POS : Fld := ⟨63, 32⟩
def fSPM_WAIT_INFO_TOKEN : Fld := ⟨31, 22⟩
def fSPM_WAIT_INFO_CONTEXT : Fld := ⟨21, 20⟩
def fSPM_WAIT_INFO_AGENT : Fld := ⟨19, 17⟩
def fSPM_WAIT_INFO_UNIT : Fld := ⟨16, 14⟩
def fSPM_WAIT_INFO_STATE : Fld := ⟨13, 12⟩
def fSPM_WAIT_INFO_VALID : Fld := ⟨0, 0⟩
def fSPM_WAIT_TIME_TIME : Fld := ⟨63, 0⟩
def fSTR_CTX_TILES : Fld := ⟨63, 32⟩
def fSTR_CTX_OP_INDEX : Fld := ⟨15, 12⟩
def fSTR_CTX_DEPTH : Fld := ⟨11, 8⟩
def fSTR_CTX_CONTEXT : Fld := ⟨7, 6⟩
def fSTR_CTX_STORE : Fld := ⟨5, 5⟩
def fSTR_CTX_NOALLOC : Fld := ⟨4, 4⟩
def fSTR_CTX_ACTIVE : Fld := ⟨0, 0⟩
def fSTR_ERR_OP_INDEX : Fld := ⟨15, 12⟩
def fSTR_ERR_STREAM : Fld := ⟨11, 9⟩
def fSTR_ERR_CAUSE : Fld := ⟨7, 4⟩
def fSTR_ERR_VALID : Fld := ⟨0, 0⟩
def fGATH_ROWS_DONE : Fld := ⟨63, 32⟩
def fGATH_OUTSTANDING : Fld := ⟨15, 8⟩
def fGATH_CONTEXT : Fld := ⟨7, 6⟩
def fGATH_MODE : Fld := ⟨5, 4⟩
def fGATH_STORE : Fld := ⟨3, 3⟩
def fGATH_ACTIVE : Fld := ⟨0, 0⟩
def fCACHE_CAP_BANKS : Fld := ⟨31, 24⟩
def fCACHE_CAP_SETS : Fld := ⟨23, 12⟩
def fCACHE_CAP_WAYS : Fld := ⟨11, 4⟩
def fCACHE_CAP_LOG2_LINE : Fld := ⟨3, 0⟩
def fCACHE_CTRL_BYPASS : Fld := ⟨1, 1⟩
def fCACHE_CTRL_INV_ALL : Fld := ⟨0, 0⟩
def fCACHE_WAYS_WAYS : Fld := ⟨15, 0⟩
def fCACHE_ERR_BANK : Fld := ⟨63, 57⟩
def fCACHE_ERR_SET : Fld := ⟨56, 48⟩
def fCACHE_ERR_WAY : Fld := ⟨47, 44⟩
def fCACHE_ERR_BANK_FAULT : Fld := ⟨3, 3⟩
def fCACHE_ERR_TAG_ERR : Fld := ⟨2, 2⟩
def fCACHE_ERR_DATA_UE : Fld := ⟨1, 1⟩
def fCACHE_ERR_DATA_CE : Fld := ⟨0, 0⟩

/-- Rows of the register tables of chapter 08. -/
def regRows08a : List RegRow := [
  ⟨"SPM_CAP", 0x1005000, [(160, 0x10000)], .cold, .none, false,
    [⟨31, 24, .ro, 0x40⟩, ⟨23, 16, .ro, 0x10⟩, ⟨15, 0, .ro, 0x100⟩]⟩,
  ⟨"SPM_CTRL", 0x1005008, [(160, 0x10000)], .warm, .none, false,
    [⟨9, 9, .ro, 1⟩, ⟨8, 8, .ro, 0⟩, ⟨4, 0, .rw, 0x14⟩]⟩,
  ⟨"SPM_POWER", 0x1005010, [(160, 0x10000)], .warm, .none, false,
    [⟨31, 16, .ro, 0xFFFF⟩, ⟨15, 0, .rw, 0xFFFF⟩]⟩,
  ⟨"SPM_ERR", 0x1005018, [(160, 0x10000)], .warm, .none, false,
    [⟨39, 16, .ro, 0⟩, ⟨2, 2, .w1c, 0⟩, ⟨1, 1, .w1c, 0⟩, ⟨0, 0, .w1c, 0⟩]⟩,
  ⟨"SPM_OFF_LOG", 0x1005020, [(160, 0x10000)], .warm, .none, false,
    [⟨63, 48, .ro, 0⟩, ⟨39, 16, .ro, 0⟩, ⟨15, 12, .ro, 0⟩, ⟨0, 0, .w1c, 0⟩]⟩,
  ⟨"SPM_OFF_TIME", 0x1005028, [(160, 0x10000)], .warm, .none, false,
    [⟨63, 0, .ro, 0⟩]⟩,
  ⟨"SPM_WAIT_INFO", 0x1005030, [(160, 0x10000)], .warm, .none, false,
    [⟨63, 32, .ro, 0⟩, ⟨31, 22, .ro, 0⟩, ⟨21, 20, .ro, 0⟩, ⟨19, 17, .ro, 0⟩, ⟨16, 14, .ro, 0⟩, ⟨13, 12, .ro, 0⟩, ⟨0, 0, .w1c, 0⟩]⟩,
  ⟨"SPM_WAIT_TIME", 0x1005038, [(160, 0x10000)], .warm, .none, false,
    [⟨63, 0, .ro, 0⟩]⟩,
  ⟨"STR_CTX", 0x1006000, [(160, 0x10000), (8, 0x8)], .warm, .none, false,
    [⟨63, 32, .ro, 0⟩, ⟨15, 12, .ro, 0⟩, ⟨11, 8, .ro, 0⟩, ⟨7, 6, .ro, 0⟩, ⟨5, 5, .ro, 0⟩, ⟨4, 4, .ro, 0⟩, ⟨0, 0, .ro, 0⟩]⟩,
  ⟨"STR_ERR", 0x1006040, [(160, 0x10000)], .warm, .none, false,
    [⟨15, 12, .ro, 0⟩, ⟨11, 9, .ro, 0⟩, ⟨7, 4, .ro, 0⟩, ⟨0, 0, .w1c, 0⟩]⟩,
  ⟨"GATH", 0x1006080, [(160, 0x10000), (2, 0x8)], .warm, .none, false,
    [⟨63, 32, .ro, 0⟩, ⟨15, 8, .ro, 0⟩, ⟨7, 6, .ro, 0⟩, ⟨5, 4, .ro, 0⟩, ⟨3, 3, .ro, 0⟩, ⟨0, 0, .ro, 0⟩]⟩,
  ⟨"CACHE_CAP", 0x100000, [(4, 0x100000)], .cold, .none, false,
    [⟨31, 24, .ro, 0x60⟩, ⟨23, 12, .ro, 0x200⟩, ⟨11, 4, .ro, 0x10⟩, ⟨3, 0, .ro, 8⟩]⟩]

/-- Rows of the register tables of chapter 08. -/
def regRows08b : List RegRow := [
  ⟨"CACHE_CTRL", 0x100008, [(4, 0x100000)], .warm, .none, false,
    [⟨1, 1, .rw, 0⟩, ⟨0, 0, .wo, 0⟩]⟩,
  ⟨"CACHE_WAYS", 0x100040, [(4, 0x100000), (8, 0x8)], .part, .part 1, false,
    [⟨15, 0, .rw, 0xFFFF⟩]⟩,
  ⟨"CACHE_ERR", 0x100080, [(4, 0x100000)], .warm, .none, false,
    [⟨63, 57, .ro, 0⟩, ⟨56, 48, .ro, 0⟩, ⟨47, 44, .ro, 0⟩, ⟨3, 3, .ro, 0⟩, ⟨2, 2, .w1c, 0⟩, ⟨1, 1, .w1c, 0⟩, ⟨0, 0, .w1c, 0⟩]⟩]

/-! ### Registers of the chapter 09 (tier controllers) -/

/-- Offset of TIER_CAP (R212). -/
def rTIER_CAP (n : Nat) : Nat := tierBase n + 0x0

/-- Offset of TIER_CTRL (R212). -/
def rTIER_CTRL (n : Nat) : Nat := tierBase n + 0x8

/-- Offset of TIER_CAL_CTRL (R212). -/
def rTIER_CAL_CTRL (n : Nat) : Nat := tierBase n + 0x10

/-- Offset of TIER_CAL_AT (R212). -/
def rTIER_CAL_AT (n : Nat) : Nat := tierBase n + 0x18

/-- Offset of TIER_CAL_LEN_s (R212). -/
def rTIER_CAL_LEN (n s : Nat) : Nat := tierBase n + 0x20 + s * 0x8

/-- Offset of TIER_CAL_s_i (R212). -/
def rTIER_CAL (n s i : Nat) : Nat := tierBase n + 0x1000 + s * 0x800 + i * 0x8

/-- Offset of TIER_TEMP (R212). -/
def rTIER_TEMP (n : Nat) : Nat := tierBase n + 0x40

/-- Offset of TIER_ERR (R212). -/
def rTIER_ERR (n : Nat) : Nat := tierBase n + 0x48

/-- Offset of TIER_ERR_ADDR (R212). -/
def rTIER_ERR_ADDR (n : Nat) : Nat := tierBase n + 0x50

/-- Offset of TIER_OVR_LOG (R212). -/
def rTIER_OVR_LOG (n : Nat) : Nat := tierBase n + 0x58

/-- Offset of TIER_OVR_TIME (R212). -/
def rTIER_OVR_TIME (n : Nat) : Nat := tierBase n + 0x60

/-- Offset of TIER_PPR (R212). -/
def rTIER_PPR (n : Nat) : Nat := tierBase n + 0x68

def fTIER_CAP_RATE_MBPS : Fld := ⟨63, 48⟩
def fTIER_CAP_RFC_SLOTS : Fld := ⟨47, 40⟩
def fTIER_CAP_SLOT_CYCLES : Fld := ⟨39, 32⟩
def fTIER_CAP_BANKS : Fld := ⟨31, 24⟩
def fTIER_CAP_CHANNELS : Fld := ⟨23, 16⟩
def fTIER_CAP_GIB : Fld := ⟨15, 4⟩
def fTIER_CAP_KIND : Fld := ⟨3, 0⟩
def fTIER_CTRL_HOLDOFF : Fld := ⟨19, 4⟩
def fTIER_CTRL_RETRIES : Fld := ⟨1, 0⟩
def fTIER_CAL_CTRL_BAD : Fld := ⟨7, 7⟩
def fTIER_CAL_CTRL_PENDING : Fld := ⟨6, 6⟩
def fTIER_CAL_CTRL_ACTIVE : Fld := ⟨5, 4⟩
def fTIER_CAL_CTRL_NEXT : Fld := ⟨1, 1⟩
def fTIER_CAL_CTRL_ARM : Fld := ⟨0, 0⟩
def fTIER_CAL_AT_AT : Fld := ⟨63, 0⟩
def fTIER_CAL_LEN_SKEW : Fld := ⟨25, 16⟩
def fTIER_CAL_LEN_F_M1 : Fld := ⟨9, 0⟩
def fTIER_CAL_ENTRIES : Fld := ⟨63, 0⟩
def fTIER_TEMP_DEBT_MAX : Fld := ⟨23, 16⟩
def fTIER_TEMP_RATE : Fld := ⟨9, 8⟩
def fTIER_TEMP_TEMP : Fld := ⟨7, 0⟩
def fTIER_ERR_CHANNEL : Fld := ⟨63, 58⟩
def fTIER_ERR_FAULT : Fld := ⟨7, 7⟩
def fTIER_ERR_TEMP_LOST : Fld := ⟨6, 6⟩
def fTIER_ERR_RESEND : Fld := ⟨5, 5⟩
def fTIER_ERR_REREAD : Fld := ⟨4, 4⟩
def fTIER_ERR_POISON : Fld := ⟨3, 3⟩
def fTIER_ERR_ONDIE_UE : Fld := ⟨2, 2⟩
def fTIER_ERR_ONDIE_CE : Fld := ⟨1, 1⟩
def fTIER_ERR_ADDR_ADDR : Fld := ⟨47, 0⟩
def fTIER_OVR_LOG_CHANNEL : Fld := ⟨63, 58⟩
def fTIER_OVR_LOG_BANK : Fld := ⟨57, 52⟩
def fTIER_OVR_LOG_SRC : Fld := ⟨51, 48⟩
def fTIER_OVR_LOG_CAUSE : Fld := ⟨47, 44⟩
def fTIER_OVR_LOG_VALID : Fld := ⟨0, 0⟩
def fTIER_OVR_TIME_TIME : Fld := ⟨63, 0⟩
def fTIER_PPR_CHANNEL : Fld := ⟨63, 58⟩
def fTIER_PPR_BANK : Fld := ⟨57, 52⟩
def fTIER_PPR_ROW : Fld := ⟨51, 36⟩
def fTIER_PPR_FAIL : Fld := ⟨2, 2⟩
def fTIER_PPR_DONE : Fld := ⟨1, 1⟩
def fTIER_PPR_GO : Fld := ⟨0, 0⟩

/-- Rows of the register tables of chapter 09. -/
def regRows09a : List RegRow := [
  ⟨"TIER_CAP", 0x110000, [(4, 0x100000), (6, 0x2000)], .cold, .none, false,
    [⟨63, 48, .ro, 0⟩, ⟨47, 40, .ro, 0⟩, ⟨39, 32, .ro, 0⟩, ⟨31, 24, .ro, 0⟩, ⟨23, 16, .ro, 0⟩, ⟨15, 4, .ro, 0x40⟩, ⟨3, 0, .ro, 0⟩]⟩,
  ⟨"TIER_CAP", 0x2200000, [(2, 0x400000), (4, 0x2000)], .cold, .none, false,
    [⟨63, 48, .ro, 0⟩, ⟨47, 40, .ro, 0⟩, ⟨39, 32, .ro, 0⟩, ⟨31, 24, .ro, 0⟩, ⟨23, 16, .ro, 0⟩, ⟨15, 4, .ro, 0x40⟩, ⟨3, 0, .ro, 0⟩]⟩,
  ⟨"TIER_CTRL", 0x110008, [(4, 0x100000), (6, 0x2000)], .warm, .none, false,
    [⟨19, 4, .rw, 0x3E8⟩, ⟨1, 0, .rw, 3⟩]⟩,
  ⟨"TIER_CTRL", 0x2200008, [(2, 0x400000), (4, 0x2000)], .warm, .none, false,
    [⟨19, 4, .rw, 0x3E8⟩, ⟨1, 0, .rw, 3⟩]⟩,
  ⟨"TIER_CAL_CTRL", 0x110010, [(4, 0x100000), (6, 0x2000)], .warm, .none, false,
    [⟨7, 7, .w1c, 0⟩, ⟨6, 6, .ro, 0⟩, ⟨5, 4, .ro, 0⟩, ⟨1, 1, .rw, 0⟩, ⟨0, 0, .wo, 0⟩]⟩,
  ⟨"TIER_CAL_CTRL", 0x2200010, [(2, 0x400000), (4, 0x2000)], .warm, .none, false,
    [⟨7, 7, .w1c, 0⟩, ⟨6, 6, .ro, 0⟩, ⟨5, 4, .ro, 0⟩, ⟨1, 1, .rw, 0⟩, ⟨0, 0, .wo, 0⟩]⟩,
  ⟨"TIER_CAL_AT", 0x110018, [(4, 0x100000), (6, 0x2000)], .warm, .none, false,
    [⟨63, 0, .rw, 0⟩]⟩,
  ⟨"TIER_CAL_AT", 0x2200018, [(2, 0x400000), (4, 0x2000)], .warm, .none, false,
    [⟨63, 0, .rw, 0⟩]⟩,
  ⟨"TIER_CAL_LEN", 0x110020, [(4, 0x100000), (6, 0x2000), (2, 0x8)], .warm, .none, false,
    [⟨25, 16, .rw, 0⟩, ⟨9, 0, .rw, 0⟩]⟩,
  ⟨"TIER_CAL_LEN", 0x2200020, [(2, 0x400000), (4, 0x2000), (2, 0x8)], .warm, .none, false,
    [⟨25, 16, .rw, 0⟩, ⟨9, 0, .rw, 0⟩]⟩,
  ⟨"TIER_CAL", 0x111000, [(4, 0x100000), (6, 0x2000), (2, 0x800), (256, 0x8)], .warm, .none, false,
    [⟨63, 0, .rw, 0⟩]⟩,
  ⟨"TIER_CAL", 0x2201000, [(2, 0x400000), (4, 0x2000), (2, 0x800), (256, 0x8)], .warm, .none, false,
    [⟨63, 0, .rw, 0⟩]⟩]

/-- Rows of the register tables of chapter 09. -/
def regRows09b : List RegRow := [
  ⟨"TIER_TEMP", 0x110040, [(4, 0x100000), (6, 0x2000)], .warm, .none, false,
    [⟨23, 16, .ro, 0⟩, ⟨9, 8, .ro, 0⟩, ⟨7, 0, .ro, 0⟩]⟩,
  ⟨"TIER_TEMP", 0x2200040, [(2, 0x400000), (4, 0x2000)], .warm, .none, false,
    [⟨23, 16, .ro, 0⟩, ⟨9, 8, .ro, 0⟩, ⟨7, 0, .ro, 0⟩]⟩,
  ⟨"TIER_ERR", 0x110048, [(4, 0x100000), (6, 0x2000)], .warm, .none, false,
    [⟨63, 58, .ro, 0⟩, ⟨7, 7, .ro, 0⟩, ⟨6, 6, .w1c, 0⟩, ⟨5, 5, .w1c, 0⟩, ⟨4, 4, .w1c, 0⟩, ⟨3, 3, .w1c, 0⟩, ⟨2, 2, .w1c, 0⟩, ⟨1, 1, .w1c, 0⟩]⟩,
  ⟨"TIER_ERR", 0x2200048, [(2, 0x400000), (4, 0x2000)], .warm, .none, false,
    [⟨63, 58, .ro, 0⟩, ⟨7, 7, .ro, 0⟩, ⟨6, 6, .w1c, 0⟩, ⟨5, 5, .w1c, 0⟩, ⟨4, 4, .w1c, 0⟩, ⟨3, 3, .w1c, 0⟩, ⟨2, 2, .w1c, 0⟩, ⟨1, 1, .w1c, 0⟩]⟩,
  ⟨"TIER_ERR_ADDR", 0x110050, [(4, 0x100000), (6, 0x2000)], .warm, .none, false,
    [⟨47, 0, .ro, 0⟩]⟩,
  ⟨"TIER_ERR_ADDR", 0x2200050, [(2, 0x400000), (4, 0x2000)], .warm, .none, false,
    [⟨47, 0, .ro, 0⟩]⟩,
  ⟨"TIER_OVR_LOG", 0x110058, [(4, 0x100000), (6, 0x2000)], .warm, .none, false,
    [⟨63, 58, .ro, 0⟩, ⟨57, 52, .ro, 0⟩, ⟨51, 48, .ro, 0⟩, ⟨47, 44, .ro, 0⟩, ⟨0, 0, .w1c, 0⟩]⟩,
  ⟨"TIER_OVR_LOG", 0x2200058, [(2, 0x400000), (4, 0x2000)], .warm, .none, false,
    [⟨63, 58, .ro, 0⟩, ⟨57, 52, .ro, 0⟩, ⟨51, 48, .ro, 0⟩, ⟨47, 44, .ro, 0⟩, ⟨0, 0, .w1c, 0⟩]⟩,
  ⟨"TIER_OVR_TIME", 0x110060, [(4, 0x100000), (6, 0x2000)], .warm, .none, false,
    [⟨63, 0, .ro, 0⟩]⟩,
  ⟨"TIER_OVR_TIME", 0x2200060, [(2, 0x400000), (4, 0x2000)], .warm, .none, false,
    [⟨63, 0, .ro, 0⟩]⟩,
  ⟨"TIER_PPR", 0x110068, [(4, 0x100000), (6, 0x2000)], .warm, .none, false,
    [⟨63, 58, .rw, 0⟩, ⟨57, 52, .rw, 0⟩, ⟨51, 36, .rw, 0⟩, ⟨2, 2, .w1c, 0⟩, ⟨1, 1, .w1c, 0⟩, ⟨0, 0, .wo, 0⟩]⟩,
  ⟨"TIER_PPR", 0x2200068, [(2, 0x400000), (4, 0x2000)], .warm, .none, false,
    [⟨63, 58, .rw, 0⟩, ⟨57, 52, .rw, 0⟩, ⟨51, 36, .rw, 0⟩, ⟨2, 2, .w1c, 0⟩, ⟨1, 1, .w1c, 0⟩, ⟨0, 0, .wo, 0⟩]⟩]

/-! ### Registers of the chapter 10 (Erg fabric) -/

/-- Offset of FAB_CAP (R239). -/
def rFAB_CAP (h : Nat) : Nat := 0x2000000 + h * 0x400000

/-- Offset of FAB_NODE (R239). -/
def rFAB_NODE : Nat := 0x2000008

/-- Offset of FAB_CTRL (R239). -/
def rFAB_CTRL : Nat := 0x2000010

/-- Offset of FAB_ACC_p (R239). -/
def rFAB_ACC (p : Nat) : Nat := 0x2000040 + p * 0x8

/-- Offset of FAB_REJ_LOG (R239). -/
def rFAB_REJ_LOG (h : Nat) : Nat := 0x2000080 + h * 0x400000

/-- Offset of FAB_REJ_ADDR (R239). -/
def rFAB_REJ_ADDR (h : Nat) : Nat := 0x2000088 + h * 0x400000

/-- Offset of FAB_REJ_TIME (R239). -/
def rFAB_REJ_TIME (h : Nat) : Nat := 0x2000090 + h * 0x400000

/-- Offset of FAB_QSEND (R239). -/
def rFAB_QSEND (h : Nat) : Nat := 0x2000100 + h * 0x400000

/-- Offset of FAB_QSTATUS (R239). -/
def rFAB_QSTATUS (h : Nat) : Nat := 0x2000108 + h * 0x400000

/-- Offset of FAB_QCOUNT (R239). -/
def rFAB_QCOUNT (h : Nat) : Nat := 0x2000110 + h * 0x400000

/-- Offset of ROUTE_n (R239). -/
def rROUTE (n : Nat) : Nat := 0x2080000 + n * 0x8

/-- Offset of PORT_CTRL (R239). -/
def rPORT_CTRL (q : Nat) : Nat := 0x2010000 + (q / 6) * 0x400000 + (q % 6) * 0x1000

/-- Offset of PORT_STATUS (R239). -/
def rPORT_STATUS (q : Nat) : Nat := 0x2010008 + (q / 6) * 0x400000 + (q % 6) * 0x1000

/-- Offset of PORT_PEER (R239). -/
def rPORT_PEER (q : Nat) : Nat := 0x2010010 + (q / 6) * 0x400000 + (q % 6) * 0x1000

/-- Offset of PORT_CAL_CTRL (R239). -/
def rPORT_CAL_CTRL (q : Nat) : Nat := 0x2010018 + (q / 6) * 0x400000 + (q % 6) * 0x1000

/-- Offset of PORT_CAL_AT (R239). -/
def rPORT_CAL_AT (q : Nat) : Nat := 0x2010020 + (q / 6) * 0x400000 + (q % 6) * 0x1000

/-- Offset of PORT_CAL_s_i (R239). -/
def rPORT_CAL (q s i : Nat) : Nat := 0x2010400 + (q / 6) * 0x400000 + (q % 6) * 0x1000 + s * 0x100 + i * 0x8

def fFAB_CAP_NODES : Fld := ⟨63, 48⟩
def fFAB_CAP_CLASSES : Fld := ⟨39, 32⟩
def fFAB_CAP_PORTS : Fld := ⟨31, 24⟩
def fFAB_CAP_LANES : Fld := ⟨23, 16⟩
def fFAB_CAP_CREDITS : Fld := ⟨15, 0⟩
def fFAB_NODE_VALID : Fld := ⟨16, 16⟩
def fFAB_NODE_NODE : Fld := ⟨15, 0⟩
def fFAB_CTRL_TIMEOUT_US : Fld := ⟨47, 32⟩
def fFAB_CTRL_LIFETIME_US : Fld := ⟨31, 16⟩
def fFAB_ACC_JOB : Fld := ⟨63, 48⟩
def fFAB_ACC_SRC_HI : Fld := ⟨47, 34⟩
def fFAB_ACC_SRC_LO : Fld := ⟨33, 20⟩
def fFAB_ACC_QUENCH : Fld := ⟨5, 5⟩
def fFAB_ACC_NOTICE : Fld := ⟨4, 4⟩
def fFAB_ACC_ATOMIC : Fld := ⟨3, 3⟩
def fFAB_ACC_SPM_WRITE : Fld := ⟨2, 2⟩
def fFAB_ACC_WRITE : Fld := ⟨1, 1⟩
def fFAB_ACC_READ : Fld := ⟨0, 0⟩
def fFAB_REJ_LOG_SRC_NODE : Fld := ⟨63, 48⟩
def fFAB_REJ_LOG_TYPE : Fld := ⟨47, 42⟩
def fFAB_REJ_LOG_STATUS : Fld := ⟨41, 38⟩
def fFAB_REJ_LOG_VALID : Fld := ⟨0, 0⟩
def fFAB_REJ_ADDR_ADDR : Fld := ⟨47, 0⟩
def fFAB_REJ_TIME_TIME : Fld := ⟨63, 0⟩
def fFAB_QSEND_STAMP : Fld := ⟨63, 32⟩
def fFAB_QSEND_DST : Fld := ⟨31, 16⟩
def fFAB_QSEND_MC : Fld := ⟨15, 15⟩
def fFAB_QSEND_PART : Fld := ⟨14, 12⟩
def fFAB_QSEND_ACTION : Fld := ⟨11, 10⟩
def fFAB_QSEND_GO : Fld := ⟨0, 0⟩
def fFAB_QSTATUS_EXPECTED : Fld := ⟨63, 48⟩
def fFAB_QSTATUS_OK : Fld := ⟨47, 32⟩
def fFAB_QSTATUS_TIMED_OUT : Fld := ⟨1, 1⟩
def fFAB_QSTATUS_BUSY : Fld := ⟨0, 0⟩
def fFAB_QCOUNT_CLOSED : Fld := ⟨63, 48⟩
def fFAB_QCOUNT_POISONED : Fld := ⟨47, 32⟩
def fFAB_QCOUNT_FAILED : Fld := ⟨31, 16⟩
def fROUTE_PORTS : Fld := ⟨39, 0⟩
def fPORT_CTRL_LOOPBACK : Fld := ⟨2, 2⟩
def fPORT_CTRL_DISABLE : Fld := ⟨1, 1⟩
def fPORT_CTRL_RETRAIN : Fld := ⟨0, 0⟩
def fPORT_STATUS_LANES_LOCKED : Fld := ⟨63, 56⟩
def fPORT_STATUS_RTT : Fld := ⟨35, 24⟩
def fPORT_STATUS_DOWN_CAUSE : Fld := ⟨7, 4⟩
def fPORT_STATUS_DOWN_EVENT : Fld := ⟨3, 3⟩
def fPORT_STATUS_STATE : Fld := ⟨1, 0⟩
def fPORT_PEER_NODE : Fld := ⟨63, 48⟩
def fPORT_PEER_PORT : Fld := ⟨47, 44⟩
def fPORT_PEER_VALID : Fld := ⟨0, 0⟩
def fPORT_CAL_CTRL_F1_M1 : Fld := ⟨63, 55⟩
def fPORT_CAL_CTRL_F0_M1 : Fld := ⟨54, 46⟩
def fPORT_CAL_CTRL_BAD : Fld := ⟨7, 7⟩
def fPORT_CAL_CTRL_PENDING : Fld := ⟨6, 6⟩
def fPORT_CAL_CTRL_ACTIVE : Fld := ⟨5, 4⟩
def fPORT_CAL_CTRL_NEXT : Fld := ⟨1, 1⟩
def fPORT_CAL_CTRL_ARM : Fld := ⟨0, 0⟩
def fPORT_CAL_AT_AT : Fld := ⟨63, 0⟩
def fPORT_CAL_ENTRIES : Fld := ⟨63, 0⟩

/-- Rows of the register tables of chapter 10. -/
def regRows10a : List RegRow := [
  ⟨"FAB_CAP", 0x2000000, [(2, 0x400000)], .cold, .none, false,
    [⟨63, 48, .ro, 0x4000⟩, ⟨39, 32, .ro, 8⟩, ⟨31, 24, .ro, 6⟩, ⟨23, 16, .ro, 8⟩, ⟨15, 0, .ro, 0x400⟩]⟩,
  ⟨"FAB_NODE", 0x2000008, [], .warm, .none, true,
    [⟨16, 16, .rw, 0⟩, ⟨15, 0, .rw, 0⟩]⟩,
  ⟨"FAB_CTRL", 0x2000010, [], .warm, .none, true,
    [⟨47, 32, .rw, 0x1F4⟩, ⟨31, 16, .rw, 0xC8⟩]⟩,
  ⟨"FAB_ACC", 0x2000040, [(8, 0x8)], .part, .part 0, true,
    [⟨63, 48, .rw, 0⟩, ⟨47, 34, .rw, 0⟩, ⟨33, 20, .rw, 0⟩, ⟨5, 5, .rw, 0⟩, ⟨4, 4, .rw, 0⟩, ⟨3, 3, .rw, 0⟩, ⟨2, 2, .rw, 0⟩, ⟨1, 1, .rw, 0⟩, ⟨0, 0, .rw, 0⟩]⟩,
  ⟨"FAB_REJ_LOG", 0x2000080, [(2, 0x400000)], .warm, .none, false,
    [⟨63, 48, .ro, 0⟩, ⟨47, 42, .ro, 0⟩, ⟨41, 38, .ro, 0⟩, ⟨0, 0, .w1c, 0⟩]⟩,
  ⟨"FAB_REJ_ADDR", 0x2000088, [(2, 0x400000)], .warm, .none, false,
    [⟨47, 0, .ro, 0⟩]⟩,
  ⟨"FAB_REJ_TIME", 0x2000090, [(2, 0x400000)], .warm, .none, false,
    [⟨63, 0, .ro, 0⟩]⟩,
  ⟨"FAB_QSEND", 0x2000100, [(2, 0x400000)], .warm, .none, false,
    [⟨63, 32, .rw, 0⟩, ⟨31, 16, .rw, 0⟩, ⟨15, 15, .rw, 0⟩, ⟨14, 12, .rw, 0⟩, ⟨11, 10, .rw, 0⟩, ⟨0, 0, .wo, 0⟩]⟩,
  ⟨"FAB_QSTATUS", 0x2000108, [(2, 0x400000)], .warm, .none, false,
    [⟨63, 48, .ro, 0⟩, ⟨47, 32, .ro, 0⟩, ⟨1, 1, .ro, 0⟩, ⟨0, 0, .ro, 0⟩]⟩,
  ⟨"FAB_QCOUNT", 0x2000110, [(2, 0x400000)], .warm, .none, false,
    [⟨63, 48, .ro, 0⟩, ⟨47, 32, .ro, 0⟩, ⟨31, 16, .ro, 0⟩]⟩,
  ⟨"ROUTE", 0x2080000, [(16384, 0x8)], .warm, .none, true,
    [⟨39, 0, .rw, 0xFFFFFFFFFF⟩]⟩,
  ⟨"PORT_CTRL", 0x2010000, [(2, 0x400000), (6, 0x1000)], .warm, .none, false,
    [⟨2, 2, .rw, 0⟩, ⟨1, 1, .rw, 0⟩, ⟨0, 0, .wo, 0⟩]⟩]

/-- Rows of the register tables of chapter 10. -/
def regRows10b : List RegRow := [
  ⟨"PORT_STATUS", 0x2010008, [(2, 0x400000), (6, 0x1000)], .warm, .none, false,
    [⟨63, 56, .ro, 0⟩, ⟨35, 24, .ro, 0⟩, ⟨7, 4, .ro, 0⟩, ⟨3, 3, .w1c, 0⟩, ⟨1, 0, .ro, 0⟩]⟩,
  ⟨"PORT_PEER", 0x2010010, [(2, 0x400000), (6, 0x1000)], .warm, .none, false,
    [⟨63, 48, .ro, 0⟩, ⟨47, 44, .ro, 0⟩, ⟨0, 0, .ro, 0⟩]⟩,
  ⟨"PORT_CAL_CTRL", 0x2010018, [(2, 0x400000), (6, 0x1000)], .warm, .none, false,
    [⟨63, 55, .rw, 0⟩, ⟨54, 46, .rw, 0⟩, ⟨7, 7, .w1c, 0⟩, ⟨6, 6, .ro, 0⟩, ⟨5, 4, .ro, 0⟩, ⟨1, 1, .rw, 0⟩, ⟨0, 0, .wo, 0⟩]⟩,
  ⟨"PORT_CAL_AT", 0x2010020, [(2, 0x400000), (6, 0x1000)], .warm, .none, false,
    [⟨63, 0, .rw, 0⟩]⟩,
  ⟨"PORT_CAL", 0x2010400, [(2, 0x400000), (6, 0x1000), (2, 0x100), (32, 0x8)], .warm, .none, false,
    [⟨63, 0, .rw, 0x8888888888888888⟩]⟩]

/-! ### Registers of the chapter 11 (time and collectives) -/

/-- Offset of TIME_NOW (R255). -/
def rTIME_NOW : Nat := 0x50000

/-- Offset of TIME_CTRL (R255). -/
def rTIME_CTRL : Nat := 0x50008

/-- Offset of TIME_SET (R255). -/
def rTIME_SET : Nat := 0x50010

/-- Offset of TIME_STATUS (R255). -/
def rTIME_STATUS : Nat := 0x50018

/-- Offset of TIME_PDLY_k (R255). -/
def rTIME_PDLY (k : Nat) : Nat := 0x50100 + k * 0x8

/-- Offset of COLL_CAP (R256). -/
def rCOLL_CAP (h : Nat) : Nat := 0x2100000 + h * 0x400000

/-- Offset of COLL_TABLE (R256). -/
def rCOLL_TABLE : Nat := 0x2100008

/-- Offset of COLL_CTRL (R256). -/
def rCOLL_CTRL : Nat := 0x2100010

/-- Offset of COLL_ERR (R256). -/
def rCOLL_ERR (h : Nat) : Nat := 0x2100018 + h * 0x400000

/-- Offset of MCAST_DROP_LOG (R256). -/
def rMCAST_DROP_LOG (h : Nat) : Nat := 0x2100020 + h * 0x400000

/-- Offset of MCAST_DROP_TIME (R256). -/
def rMCAST_DROP_TIME (h : Nat) : Nat := 0x2100028 + h * 0x400000

/-- Offset of MCAST_PORTS_g (R256). -/
def rMCAST_PORTS (g : Nat) : Nat := 0x2110000 + g * 0x10

/-- Offset of MCAST_LIST_g (R256). -/
def rMCAST_LIST (g : Nat) : Nat := 0x2110008 + g * 0x10

def fTIME_NOW_NOW : Fld := ⟨63, 0⟩
def fTIME_CTRL_PERIOD_US : Fld := ⟨63, 48⟩
def fTIME_CTRL_STEP_NS : Fld := ⟨47, 32⟩
def fTIME_CTRL_CHILDREN : Fld := ⟨31, 20⟩
def fTIME_CTRL_PARENT : Fld := ⟨19, 16⟩
def fTIME_CTRL_MASTER : Fld := ⟨0, 0⟩
def fTIME_SET_VALUE : Fld := ⟨63, 0⟩
def fTIME_STATUS_OFFSET : Fld := ⟨63, 32⟩
def fTIME_STATUS_SET_REJECT : Fld := ⟨4, 4⟩
def fTIME_STATUS_STEP : Fld := ⟨3, 3⟩
def fTIME_STATUS_HOLDOVER_EVENT : Fld := ⟨2, 2⟩
def fTIME_STATUS_STATE : Fld := ⟨1, 0⟩
def fTIME_PDLY_ASYM : Fld := ⟨31, 16⟩
def fTIME_PDLY_DELAY : Fld := ⟨15, 0⟩
def fCOLL_CAP_ENGINES : Fld := ⟨39, 32⟩
def fCOLL_CAP_MCAST_GROUPS : Fld := ⟨31, 16⟩
def fCOLL_CAP_GROUPS : Fld := ⟨15, 8⟩
def fCOLL_CAP_STAGE_MIB : Fld := ⟨7, 0⟩
def fCOLL_TABLE_BASE : Fld := ⟨47, 14⟩
def fCOLL_CTRL_LAG_US : Fld := ⟨47, 32⟩
def fCOLL_CTRL_TIMEOUT_US : Fld := ⟨15, 0⟩
def fCOLL_ERR_GROUP : Fld := ⟨63, 56⟩
def fCOLL_ERR_MEMBER : Fld := ⟨55, 36⟩
def fCOLL_ERR_CAUSE : Fld := ⟨7, 4⟩
def fCOLL_ERR_VALID : Fld := ⟨0, 0⟩
def fMCAST_DROP_LOG_NODE : Fld := ⟨63, 48⟩
def fMCAST_DROP_LOG_GROUP : Fld := ⟨47, 36⟩
def fMCAST_DROP_LOG_VALID : Fld := ⟨0, 0⟩
def fMCAST_DROP_TIME_TIME : Fld := ⟨63, 0⟩
def fMCAST_PORTS_LOCAL : Fld := ⟨12, 12⟩
def fMCAST_PORTS_PORTS : Fld := ⟨11, 0⟩
def fMCAST_LIST_COUNT : Fld := ⟨63, 48⟩
def fMCAST_LIST_BASE : Fld := ⟨47, 0⟩

/-- Rows of the register tables of chapter 11. -/
def regRows11a : List RegRow := [
  ⟨"TIME_NOW", 0x50000, [], .cold, .none, false,
    [⟨63, 0, .ro, 0⟩]⟩,
  ⟨"TIME_CTRL", 0x50008, [], .warm, .none, false,
    [⟨63, 48, .rw, 0x64⟩, ⟨47, 32, .rw, 0x3E8⟩, ⟨31, 20, .rw, 0⟩, ⟨19, 16, .rw, 0xF⟩, ⟨0, 0, .rw, 0⟩]⟩,
  ⟨"TIME_SET", 0x50010, [], .warm, .none, false,
    [⟨63, 0, .wo, 0⟩]⟩,
  ⟨"TIME_STATUS", 0x50018, [], .warm, .none, false,
    [⟨63, 32, .ro, 0⟩, ⟨4, 4, .w1c, 0⟩, ⟨3, 3, .w1c, 0⟩, ⟨2, 2, .w1c, 0⟩, ⟨1, 0, .ro, 0⟩]⟩,
  ⟨"TIME_PDLY", 0x50100, [(12, 0x8)], .warm, .none, false,
    [⟨31, 16, .rw, 0⟩, ⟨15, 0, .ro, 0⟩]⟩,
  ⟨"COLL_CAP", 0x2100000, [(2, 0x400000)], .cold, .none, false,
    [⟨39, 32, .ro, 8⟩, ⟨31, 16, .ro, 0x1000⟩, ⟨15, 8, .ro, 0x80⟩, ⟨7, 0, .ro, 8⟩]⟩,
  ⟨"COLL_TABLE", 0x2100008, [], .warm, .none, true,
    [⟨47, 14, .rw, 0⟩]⟩,
  ⟨"COLL_CTRL", 0x2100010, [], .warm, .none, true,
    [⟨47, 32, .rw, 0x14⟩, ⟨15, 0, .rw, 0x3E8⟩]⟩,
  ⟨"COLL_ERR", 0x2100018, [(2, 0x400000)], .warm, .none, false,
    [⟨63, 56, .ro, 0⟩, ⟨55, 36, .ro, 0⟩, ⟨7, 4, .ro, 0⟩, ⟨0, 0, .w1c, 0⟩]⟩,
  ⟨"MCAST_DROP_LOG", 0x2100020, [(2, 0x400000)], .warm, .none, false,
    [⟨63, 48, .ro, 0⟩, ⟨47, 36, .ro, 0⟩, ⟨0, 0, .w1c, 0⟩]⟩,
  ⟨"MCAST_DROP_TIME", 0x2100028, [(2, 0x400000)], .warm, .none, false,
    [⟨63, 0, .ro, 0⟩]⟩,
  ⟨"MCAST_PORTS", 0x2110000, [(4096, 0x10)], .warm, .none, true,
    [⟨12, 12, .rw, 0⟩, ⟨11, 0, .rw, 0⟩]⟩]

/-- Rows of the register tables of chapter 11. -/
def regRows11b : List RegRow := [
  ⟨"MCAST_LIST", 0x2110008, [(4096, 0x10)], .warm, .none, true,
    [⟨63, 48, .rw, 0⟩, ⟨47, 0, .rw, 0⟩]⟩]

/-! ### Registers of the chapter 14 (partitions and tuyeres) -/

/-- Offset of PART_CTRL (R322). -/
def rPART_CTRL (p : Nat) : Nat := 0x3000000 + p * 0x10000

/-- Offset of PART_CORES_i (R322). -/
def rPART_CORES (p i : Nat) : Nat := 0x3000008 + p * 0x10000 + i * 0x8

/-- Offset of PART_STACKS (R322). -/
def rPART_STACKS (p : Nat) : Nat := 0x3000020 + p * 0x10000

/-- Offset of PART_VTABLE (R322). -/
def rPART_VTABLE (p : Nat) : Nat := 0x3000028 + p * 0x10000

/-- Offset of PART_VCOUNT (R322). -/
def rPART_VCOUNT (p : Nat) : Nat := 0x3000030 + p * 0x10000

/-- Offset of RING_BASE (R322). -/
def rRING_BASE (p : Nat) : Nat := 0x3000040 + p * 0x10000

/-- Offset of RING_TAIL (R322). -/
def rRING_TAIL (p : Nat) : Nat := 0x3000048 + p * 0x10000

/-- Offset of RING_STATUS (R322). -/
def rRING_STATUS (p : Nat) : Nat := 0x3000050 + p * 0x10000

/-- Offset of PREEMPT_MASK_i (R322). -/
def rPREEMPT_MASK (p i : Nat) : Nat := 0x3000060 + p * 0x10000 + i * 0x8

/-- Offset of PREEMPT (R322). -/
def rPREEMPT (p : Nat) : Nat := 0x3000078 + p * 0x10000

/-- Offset of PREEMPT_RESULT (R322). -/
def rPREEMPT_RESULT (p : Nat) : Nat := 0x3000080 + p * 0x10000

/-- Offset of NOTICE_CTR_k (R322). -/
def rNOTICE_CTR (p k : Nat) : Nat := 0x3000100 + p * 0x10000 + k * 0x8

/-- Offset of PART_TUY_k (R322). -/
def rPART_TUY (p k : Nat) : Nat := 0x3000200 + p * 0x10000 + k * 0x8

/-- Offset of RES_HITS (R322). -/
def rRES_HITS (p : Nat) : Nat := 0x3000300 + p * 0x10000

/-- Offset of RES_MISSES (R322). -/
def rRES_MISSES (p : Nat) : Nat := 0x3000308 + p * 0x10000

/-- Offset of RES_c_r_KEY (R322). -/
def rRES_KEY (p c r : Nat) : Nat := 0x3001000 + p * 0x10000 + c * 0x100 + r * 0x10

/-- Offset of RES_c_r_VER (R322). -/
def rRES_VER (p c r : Nat) : Nat := 0x3001008 + p * 0x10000 + c * 0x100 + r * 0x10

/-- Offset of TUY_CAP (R323). -/
def rTUY_CAP (d : Nat) : Nat := 0x120000 + d * 0x100000

/-- Offset of TUY_p_k (R323). -/
def rTUY (d p k : Nat) : Nat := 0x120100 + d * 0x100000 + p * 0x40 + k * 0x8

def fPART_CTRL_BAD : Fld := ⟨7, 7⟩
def fPART_CTRL_STATE : Fld := ⟨5, 4⟩
def fPART_CTRL_RESUME : Fld := ⟨2, 2⟩
def fPART_CTRL_RELEASE : Fld := ⟨1, 1⟩
def fPART_CTRL_ACTIVATE : Fld := ⟨0, 0⟩
def fPART_CORES_CORES : Fld := ⟨63, 0⟩
def fPART_STACKS_T2_SHARED : Fld := ⟨39, 32⟩
def fPART_STACKS_T2 : Fld := ⟨31, 24⟩
def fPART_STACKS_T1 : Fld := ⟨23, 0⟩
def fPART_VTABLE_BASE : Fld := ⟨47, 6⟩
def fPART_VCOUNT_COUNT : Fld := ⟨31, 0⟩
def fRING_BASE_BASE : Fld := ⟨47, 12⟩
def fRING_BASE_LOG2_SIZE : Fld := ⟨4, 0⟩
def fRING_TAIL_TAIL : Fld := ⟨31, 0⟩
def fRING_STATUS_HEAD : Fld := ⟨63, 32⟩
def fRING_STATUS_POUR_IDX : Fld := ⟨31, 20⟩
def fRING_STATUS_CAUSE : Fld := ⟨7, 4⟩
def fRING_STATUS_TAIL_REJECT : Fld := ⟨1, 1⟩
def fRING_STATUS_HALTED : Fld := ⟨0, 0⟩
def fPREEMPT_MASK_CORES : Fld := ⟨63, 0⟩
def fPREEMPT_NEWPOS : Fld := ⟨63, 32⟩
def fPREEMPT_ALL : Fld := ⟨3, 3⟩
def fPREEMPT_REJECT : Fld := ⟨2, 2⟩
def fPREEMPT_BUSY : Fld := ⟨1, 1⟩
def fPREEMPT_GO : Fld := ⟨0, 0⟩
def fPREEMPT_RESULT_DURATION_NS : Fld := ⟨63, 32⟩
def fPREEMPT_RESULT_KILLED : Fld := ⟨31, 16⟩
def fPREEMPT_RESULT_COMMITTED : Fld := ⟨15, 0⟩
def fNOTICE_CTR_VALUE : Fld := ⟨31, 0⟩
def fPART_TUY_ENABLE : Fld := ⟨32, 32⟩
def fPART_TUY_RATE : Fld := ⟨24, 16⟩
def fPART_TUY_BURST : Fld := ⟨15, 0⟩
def fRES_HITS_OVF : Fld := ⟨48, 48⟩
def fRES_HITS_COUNT : Fld := ⟨47, 0⟩
def fRES_MISSES_OVF : Fld := ⟨48, 48⟩
def fRES_MISSES_COUNT : Fld := ⟨47, 0⟩
def fRES_KEY_BUFFER_ID : Fld := ⟨63, 32⟩
def fRES_KEY_OFFSET : Fld := ⟨23, 0⟩
def fRES_VER_VALID : Fld := ⟨63, 63⟩
def fRES_VER_VERSION : Fld := ⟨47, 0⟩
def fTUY_CAP_REFILL_NS : Fld := ⟨15, 8⟩
def fTUY_CAP_PATHS : Fld := ⟨7, 0⟩
def fTUY_ENABLE : Fld := ⟨32, 32⟩
def fTUY_RATE : Fld := ⟨24, 16⟩
def fTUY_BURST : Fld := ⟨15, 0⟩

/-- Rows of the register tables of chapter 14. -/
def regRows14a : List RegRow := [
  ⟨"PART_CTRL", 0x3000000, [(8, 0x10000)], .warm, .none, false,
    [⟨7, 7, .w1c, 0⟩, ⟨5, 4, .ro, 0⟩, ⟨2, 2, .wo, 0⟩, ⟨1, 1, .wo, 0⟩, ⟨0, 0, .wo, 0⟩]⟩,
  ⟨"PART_CORES", 0x3000008, [(8, 0x10000), (3, 0x8)], .warm, .none, false,
    [⟨63, 0, .rw, 0⟩]⟩,
  ⟨"PART_STACKS", 0x3000020, [(8, 0x10000)], .warm, .none, false,
    [⟨39, 32, .rw, 0⟩, ⟨31, 24, .rw, 0⟩, ⟨23, 0, .rw, 0⟩]⟩,
  ⟨"PART_VTABLE", 0x3000028, [(8, 0x10000)], .part, .part 0, false,
    [⟨47, 6, .rw, 0⟩]⟩,
  ⟨"PART_VCOUNT", 0x3000030, [(8, 0x10000)], .part, .part 0, false,
    [⟨31, 0, .rw, 0⟩]⟩,
  ⟨"RING_BASE", 0x3000040, [(8, 0x10000)], .part, .part 0, false,
    [⟨47, 12, .rw, 0⟩, ⟨4, 0, .rw, 5⟩]⟩,
  ⟨"RING_TAIL", 0x3000048, [(8, 0x10000)], .part, .part 0, false,
    [⟨31, 0, .rw, 0⟩]⟩,
  ⟨"RING_STATUS", 0x3000050, [(8, 0x10000)], .part, .part 0, false,
    [⟨63, 32, .ro, 0⟩, ⟨31, 20, .ro, 0⟩, ⟨7, 4, .ro, 0⟩, ⟨1, 1, .w1c, 0⟩, ⟨0, 0, .ro, 0⟩]⟩,
  ⟨"PREEMPT_MASK", 0x3000060, [(8, 0x10000), (3, 0x8)], .part, .part 0, false,
    [⟨63, 0, .rw, 0⟩]⟩,
  ⟨"PREEMPT", 0x3000078, [(8, 0x10000)], .part, .part 0, false,
    [⟨63, 32, .rw, 0⟩, ⟨3, 3, .rw, 0⟩, ⟨2, 2, .w1c, 0⟩, ⟨1, 1, .ro, 0⟩, ⟨0, 0, .wo, 0⟩]⟩,
  ⟨"PREEMPT_RESULT", 0x3000080, [(8, 0x10000)], .part, .part 0, false,
    [⟨63, 32, .ro, 0⟩, ⟨31, 16, .ro, 0⟩, ⟨15, 0, .ro, 0⟩]⟩,
  ⟨"NOTICE_CTR", 0x3000100, [(8, 0x10000), (16, 0x8)], .part, .part 0, false,
    [⟨31, 0, .rw, 0⟩]⟩]

/-- Rows of the register tables of chapter 14. -/
def regRows14b : List RegRow := [
  ⟨"PART_TUY", 0x3000200, [(8, 0x10000), (6, 0x8)], .part, .part 0, false,
    [⟨32, 32, .rw, 0⟩, ⟨24, 16, .rw, 0⟩, ⟨15, 0, .rw, 1⟩]⟩,
  ⟨"RES_HITS", 0x3000300, [(8, 0x10000)], .part, .part 0, false,
    [⟨48, 48, .w1c, 0⟩, ⟨47, 0, .rw, 0⟩]⟩,
  ⟨"RES_MISSES", 0x3000308, [(8, 0x10000)], .part, .part 0, false,
    [⟨48, 48, .w1c, 0⟩, ⟨47, 0, .rw, 0⟩]⟩,
  ⟨"RES_KEY", 0x3001000, [(8, 0x10000), (160, 0x100), (16, 0x10)], .part, .part 0, false,
    [⟨63, 32, .rw, 0⟩, ⟨23, 0, .rw, 0⟩]⟩,
  ⟨"RES_VER", 0x3001008, [(8, 0x10000), (160, 0x100), (16, 0x10)], .part, .part 0, false,
    [⟨63, 63, .rw, 0⟩, ⟨47, 0, .rw, 0⟩]⟩,
  ⟨"TUY_CAP", 0x120000, [(4, 0x100000)], .cold, .none, false,
    [⟨15, 8, .ro, 0x40⟩, ⟨7, 0, .ro, 4⟩]⟩,
  ⟨"TUY", 0x120100, [(4, 0x100000), (8, 0x40), (4, 0x8)], .part, .part 1, false,
    [⟨32, 32, .rw, 0⟩, ⟨24, 16, .rw, 0⟩, ⟨15, 0, .rw, 1⟩]⟩]

/-! ### Registers of the chapter 15 (Caravan control) -/

/-- Offset of CTL_CAP (R343). -/
def rCTL_CAP : Nat := 0x70000

/-- Offset of CTL_STATE (R343). -/
def rCTL_STATE : Nat := 0x70008

/-- Offset of CTL_SESSION (R343). -/
def rCTL_SESSION : Nat := 0x70010

/-- Offset of CTL_HB (R343). -/
def rCTL_HB : Nat := 0x70018

/-- Offset of CTL_ORPHAN_TIME (R343). -/
def rCTL_ORPHAN_TIME : Nat := 0x70020

/-- Offset of CTL_RUN (R343). -/
def rCTL_RUN : Nat := 0x70028

/-- Offset of CTL_RESET (R343). -/
def rCTL_RESET : Nat := 0x70030

/-- Offset of CTL_PORT_k (R343). -/
def rCTL_PORT (k : Nat) : Nat := 0x70040 + k * 0x8

/-- Offset of CQ_CFG_q (R343). -/
def rCQ_CFG (q : Nat) : Nat := 0x70100 + q * 0x20

/-- Offset of CQ_PTR_q (R343). -/
def rCQ_PTR (q : Nat) : Nat := 0x70108 + q * 0x20

/-- Offset of CQ_STATUS_q (R343). -/
def rCQ_STATUS (q : Nat) : Nat := 0x70110 + q * 0x20

def fCTL_CAP_TOKEN_KIB : Fld := ⟨23, 16⟩
def fCTL_CAP_OUTSTANDING : Fld := ⟨15, 8⟩
def fCTL_CAP_QUEUES : Fld := ⟨7, 4⟩
def fCTL_CAP_PORTS : Fld := ⟨3, 0⟩
def fCTL_STATE_ORPHAN_CAUSE : Fld := ⟨9, 8⟩
def fCTL_STATE_ACTIVE_PORT : Fld := ⟨4, 4⟩
def fCTL_STATE_RUN_HELD : Fld := ⟨2, 2⟩
def fCTL_STATE_STATE : Fld := ⟨1, 0⟩
def fCTL_SESSION_EPOCH : Fld := ⟨63, 32⟩
def fCTL_SESSION_SESSION : Fld := ⟨31, 0⟩
def fCTL_HB_ADOPT_WINDOW_S : Fld := ⟨39, 32⟩
def fCTL_HB_REMAIN_MS : Fld := ⟨31, 16⟩
def fCTL_HB_TIMEOUT_MS : Fld := ⟨15, 0⟩
def fCTL_ORPHAN_TIME_TIME : Fld := ⟨63, 0⟩
def fCTL_RUN_RESUME : Fld := ⟨0, 0⟩
def fCTL_RESET_KEY : Fld := ⟨15, 8⟩
def fCTL_RESET_WARM : Fld := ⟨0, 0⟩
def fCTL_PORT_RTT : Fld := ⟨35, 24⟩
def fCTL_PORT_DISABLE : Fld := ⟨9, 9⟩
def fCTL_PORT_RETRAIN : Fld := ⟨8, 8⟩
def fCTL_PORT_DOWN_CAUSE : Fld := ⟨7, 4⟩
def fCTL_PORT_DOWN_EVENT : Fld := ⟨3, 3⟩
def fCTL_PORT_STATE : Fld := ⟨1, 0⟩
def fCQ_CFG_ENABLE : Fld := ⟨63, 63⟩
def fCQ_CFG_ALERT : Fld := ⟨62, 62⟩
def fCQ_CFG_LOG2_SIZE : Fld := ⟨52, 48⟩
def fCQ_CFG_BASE : Fld := ⟨47, 6⟩
def fCQ_PTR_TAIL : Fld := ⟨63, 32⟩
def fCQ_PTR_HEAD : Fld := ⟨31, 0⟩
def fCQ_STATUS_RSV : Fld := ⟨63, 32⟩
def fCQ_STATUS_WRITE_ERR : Fld := ⟨1, 1⟩
def fCQ_STATUS_LOST : Fld := ⟨0, 0⟩

/-- Rows of the register tables of chapter 15. -/
def regRows15a : List RegRow := [
  ⟨"CTL_CAP", 0x70000, [], .cold, .none, false,
    [⟨23, 16, .ro, 8⟩, ⟨15, 8, .ro, 0x40⟩, ⟨7, 4, .ro, 9⟩, ⟨3, 0, .ro, 2⟩]⟩,
  ⟨"CTL_STATE", 0x70008, [], .cold, .none, false,
    [⟨9, 8, .ro, 0⟩, ⟨4, 4, .ro, 0⟩, ⟨2, 2, .ro, 0⟩, ⟨1, 0, .ro, 0⟩]⟩,
  ⟨"CTL_SESSION", 0x70010, [], .cold, .none, false,
    [⟨63, 32, .ro, 0⟩, ⟨31, 0, .ro, 0⟩]⟩,
  ⟨"CTL_HB", 0x70018, [], .cold, .none, false,
    [⟨39, 32, .rw, 0xA⟩, ⟨31, 16, .ro, 0⟩, ⟨15, 0, .rw, 0xFA⟩]⟩,
  ⟨"CTL_ORPHAN_TIME", 0x70020, [], .cold, .none, false,
    [⟨63, 0, .ro, 0⟩]⟩,
  ⟨"CTL_RUN", 0x70028, [], .warm, .none, false,
    [⟨0, 0, .wo, 0⟩]⟩,
  ⟨"CTL_RESET", 0x70030, [], .cold, .none, false,
    [⟨15, 8, .wo, 0⟩, ⟨0, 0, .wo, 0⟩]⟩,
  ⟨"CTL_PORT", 0x70040, [(2, 0x8)], .warm, .none, false,
    [⟨35, 24, .ro, 0⟩, ⟨9, 9, .rw, 0⟩, ⟨8, 8, .wo, 0⟩, ⟨7, 4, .ro, 0⟩, ⟨3, 3, .w1c, 0⟩, ⟨1, 0, .ro, 0⟩]⟩,
  ⟨"CQ_CFG", 0x70100, [(9, 0x20)], .warm, .none, false,
    [⟨63, 63, .rw, 0⟩, ⟨62, 62, .rw, 0⟩, ⟨52, 48, .rw, 6⟩, ⟨47, 6, .rw, 0⟩]⟩,
  ⟨"CQ_PTR", 0x70108, [(9, 0x20)], .warm, .none, false,
    [⟨63, 32, .ro, 0⟩, ⟨31, 0, .rw, 0⟩]⟩,
  ⟨"CQ_STATUS", 0x70110, [(9, 0x20)], .warm, .none, false,
    [⟨63, 32, .ro, 0⟩, ⟨1, 1, .w1c, 0⟩, ⟨0, 0, .w1c, 0⟩]⟩]

/-! ### Registers of the chapter 16 (faults) -/

/-- Offset of FLT_STATE (R364). -/
def rFLT_STATE : Nat := 0x60000

/-- Offset of FLT_FENCE_i (R364). -/
def rFLT_FENCE (i : Nat) : Nat := 0x60010 + i * 0x8

/-- Offset of FLT_FENCE_STATUS (R364). -/
def rFLT_FENCE_STATUS : Nat := 0x60038

/-- Offset of FLT_HM_CTRL (R364). -/
def rFLT_HM_CTRL : Nat := 0x60040

/-- Offset of FLT_HM_W_k (R364). -/
def rFLT_HM_W (k : Nat) : Nat := 0x60048 + k * 0x8

/-- Offset of FLT_HM_RISK (R364). -/
def rFLT_HM_RISK : Nat := 0x60060

/-- Offset of FLT_REPORT (R364). -/
def rFLT_REPORT : Nat := 0x60068

/-- Offset of FLT_CTRL (R364). -/
def rFLT_CTRL : Nat := 0x60070

/-- Offset of FLT_ST_CTRL (R364). -/
def rFLT_ST_CTRL : Nat := 0x60080

/-- Offset of FLT_ST_CORES_i (R364). -/
def rFLT_ST_CORES (i : Nat) : Nat := 0x60088 + i * 0x8

/-- Offset of FLT_ST_SEED (R364). -/
def rFLT_ST_SEED : Nat := 0x600A0

/-- Offset of FLT_ST_FAIL_i (R364). -/
def rFLT_ST_FAIL (i : Nat) : Nat := 0x600A8 + i * 0x8

/-- Offset of FLT_DIG_CTRL (R364). -/
def rFLT_DIG_CTRL : Nat := 0x600C0

/-- Offset of FLT_DIG_OUT_k (R364). -/
def rFLT_DIG_OUT (k : Nat) : Nat := 0x600C8 + k * 0x8

/-- Offset of FLT_CPER_BASE (R364). -/
def rFLT_CPER_BASE : Nat := 0x600F0

/-- Offset of FLT_CPER_PTR (R364). -/
def rFLT_CPER_PTR : Nat := 0x600F8

/-- Offset of FLT_CPER_HEAD (R364). -/
def rFLT_CPER_HEAD : Nat := 0x60100

def fFLT_STATE_KEY : Fld := ⟨15, 8⟩
def fFLT_STATE_CLEAR : Fld := ⟨2, 2⟩
def fFLT_STATE_REPLACE : Fld := ⟨1, 1⟩
def fFLT_STATE_DRAIN : Fld := ⟨0, 0⟩
def fFLT_FENCE_STATE : Fld := ⟨63, 0⟩
def fFLT_FENCE_STATUS_REJECT : Fld := ⟨16, 16⟩
def fFLT_FENCE_STATUS_TEST_COUNT : Fld := ⟨15, 8⟩
def fFLT_FENCE_STATUS_FAULT_COUNT : Fld := ⟨7, 0⟩
def fFLT_HM_CTRL_TREF : Fld := ⟨31, 24⟩
def fFLT_HM_CTRL_DECAY_SHIFT : Fld := ⟨19, 16⟩
def fFLT_HM_CTRL_HYST : Fld := ⟨15, 8⟩
def fFLT_HM_CTRL_THRESH : Fld := ⟨7, 0⟩
def fFLT_HM_W_W : Fld := ⟨63, 0⟩
def fFLT_HM_RISK_H : Fld := ⟨63, 32⟩
def fFLT_HM_RISK_SECURE : Fld := ⟨9, 9⟩
def fFLT_HM_RISK_ARMED : Fld := ⟨8, 8⟩
def fFLT_HM_RISK_RISK : Fld := ⟨7, 0⟩
def fFLT_REPORT_CORE : Fld := ⟨39, 32⟩
def fFLT_REPORT_STAMP : Fld := ⟨31, 0⟩
def fFLT_CTRL_CE_PERIOD_MS : Fld := ⟨15, 0⟩
def fFLT_ST_CTRL_ROUNDS : Fld := ⟨63, 48⟩
def fFLT_ST_CTRL_CONTENT : Fld := ⟨10, 8⟩
def fFLT_ST_CTRL_REJECT : Fld := ⟨5, 5⟩
def fFLT_ST_CTRL_RUNNING : Fld := ⟨4, 4⟩
def fFLT_ST_CTRL_QUEUED : Fld := ⟨3, 3⟩
def fFLT_ST_CTRL_CANCEL : Fld := ⟨1, 1⟩
def fFLT_ST_CTRL_GO : Fld := ⟨0, 0⟩
def fFLT_ST_CORES_CORES : Fld := ⟨63, 0⟩
def fFLT_ST_SEED_SEED : Fld := ⟨63, 0⟩
def fFLT_ST_FAIL_FAILED : Fld := ⟨63, 0⟩
def fFLT_DIG_CTRL_COUNT : Fld := ⟨63, 48⟩
def fFLT_DIG_CTRL_LIST : Fld := ⟨47, 4⟩
def fFLT_DIG_CTRL_ERR : Fld := ⟨3, 3⟩
def fFLT_DIG_CTRL_BUSY : Fld := ⟨2, 2⟩
def fFLT_DIG_CTRL_GO : Fld := ⟨0, 0⟩
def fFLT_DIG_OUT_DIGEST : Fld := ⟨63, 0⟩
def fFLT_CPER_BASE_BASE : Fld := ⟨47, 9⟩
def fFLT_CPER_BASE_LOG2_SIZE : Fld := ⟨4, 0⟩
def fFLT_CPER_PTR_NEXT : Fld := ⟨63, 32⟩
def fFLT_CPER_PTR_WRAP : Fld := ⟨0, 0⟩
def fFLT_CPER_HEAD_HEAD : Fld := ⟨31, 0⟩

/-- Rows of the register tables of chapter 16. -/
def regRows16a : List RegRow := [
  ⟨"FLT_STATE", 0x60000, [], .cold, .none, false,
    [⟨15, 8, .wo, 0⟩, ⟨2, 2, .wo, 0⟩, ⟨1, 1, .ro, 0⟩, ⟨0, 0, .ro, 0⟩]⟩,
  ⟨"FLT_FENCE", 0x60010, [(5, 0x8)], .warm, .none, false,
    [⟨63, 0, .rw, 0⟩]⟩,
  ⟨"FLT_FENCE_STATUS", 0x60038, [], .warm, .none, false,
    [⟨16, 16, .w1c, 0⟩, ⟨15, 8, .ro, 0⟩, ⟨7, 0, .ro, 0⟩]⟩,
  ⟨"FLT_HM_CTRL", 0x60040, [], .warm, .none, false,
    [⟨31, 24, .rw, 0x5F⟩, ⟨19, 16, .rw, 0xA⟩, ⟨15, 8, .rw, 0x10⟩, ⟨7, 0, .rw, 0x40⟩]⟩,
  ⟨"FLT_HM_W", 0x60048, [(3, 0x8)], .warm, .none, false,
    [⟨63, 0, .rw, 0⟩]⟩,
  ⟨"FLT_HM_RISK", 0x60060, [], .warm, .none, false,
    [⟨63, 32, .ro, 0⟩, ⟨9, 9, .w1c, 0⟩, ⟨8, 8, .ro, 1⟩, ⟨7, 0, .ro, 0⟩]⟩,
  ⟨"FLT_REPORT", 0x60068, [], .warm, .none, false,
    [⟨39, 32, .wo, 0⟩, ⟨31, 0, .wo, 0⟩]⟩,
  ⟨"FLT_CTRL", 0x60070, [], .warm, .none, false,
    [⟨15, 0, .rw, 0x3E8⟩]⟩,
  ⟨"FLT_ST_CTRL", 0x60080, [], .warm, .none, false,
    [⟨63, 48, .rw, 0x40⟩, ⟨10, 8, .rw, 7⟩, ⟨5, 5, .w1c, 0⟩, ⟨4, 4, .ro, 0⟩, ⟨3, 3, .ro, 0⟩, ⟨1, 1, .wo, 0⟩, ⟨0, 0, .wo, 0⟩]⟩,
  ⟨"FLT_ST_CORES", 0x60088, [(3, 0x8)], .warm, .none, false,
    [⟨63, 0, .rw, 0⟩]⟩,
  ⟨"FLT_ST_SEED", 0x600A0, [], .warm, .none, false,
    [⟨63, 0, .rw, 0⟩]⟩,
  ⟨"FLT_ST_FAIL", 0x600A8, [(3, 0x8)], .warm, .none, false,
    [⟨63, 0, .ro, 0⟩]⟩]

/-- Rows of the register tables of chapter 16. -/
def regRows16b : List RegRow := [
  ⟨"FLT_DIG_CTRL", 0x600C0, [], .warm, .none, false,
    [⟨63, 48, .rw, 0⟩, ⟨47, 4, .rw, 0⟩, ⟨3, 3, .w1c, 0⟩, ⟨2, 2, .ro, 0⟩, ⟨0, 0, .wo, 0⟩]⟩,
  ⟨"FLT_DIG_OUT", 0x600C8, [(4, 0x8)], .warm, .none, false,
    [⟨63, 0, .ro, 0⟩]⟩,
  ⟨"FLT_CPER_BASE", 0x600F0, [], .warm, .none, false,
    [⟨47, 9, .rw, 0⟩, ⟨4, 0, .rw, 8⟩]⟩,
  ⟨"FLT_CPER_PTR", 0x600F8, [], .warm, .none, false,
    [⟨63, 32, .ro, 0⟩, ⟨0, 0, .w1c, 0⟩]⟩,
  ⟨"FLT_CPER_HEAD", 0x60100, [], .warm, .none, false,
    [⟨31, 0, .rw, 0⟩]⟩]

/-! ### Registers of the chapter 17 (checkpoint) -/

/-- Offset of CKPT_CAP (R382). -/
def rCKPT_CAP : Nat := 0x80000

/-- Offset of CKPT_CTRL (R382). -/
def rCKPT_CTRL : Nat := 0x80008

/-- Offset of CKPT_EPOCH (R382). -/
def rCKPT_EPOCH : Nat := 0x80010

/-- Offset of CKPT_LIST (R382). -/
def rCKPT_LIST : Nat := 0x80018

/-- Offset of CKPT_DEST_c (R382). -/
def rCKPT_DEST (c : Nat) : Nat := 0x80020 + c * 0x8

/-- Offset of CKPT_DJOB (R382). -/
def rCKPT_DJOB : Nat := 0x80030

/-- Offset of CKPT_FILL (R382). -/
def rCKPT_FILL : Nat := 0x80038

/-- Offset of CKPT_PSTATE (R382). -/
def rCKPT_PSTATE : Nat := 0x80040

/-- Offset of CKPT_TIME (R382). -/
def rCKPT_TIME : Nat := 0x80048

/-- Offset of CKPT_ENG_h (R382). -/
def rCKPT_ENG (h : Nat) : Nat := 0x80100 + h * 0x40

def fCKPT_CAP_MAX_PAGES : Fld := ⟨63, 32⟩
def fCKPT_CAP_MAX_RUNS_M1 : Fld := ⟨31, 16⟩
def fCKPT_CAP_BUF_MIB : Fld := ⟨15, 8⟩
def fCKPT_CAP_ENGINES : Fld := ⟨7, 0⟩
def fCKPT_CTRL_PAGES_DONE : Fld := ⟨63, 32⟩
def fCKPT_CTRL_ERR : Fld := ⟨16, 16⟩
def fCKPT_CTRL_CAUSE : Fld := ⟨15, 12⟩
def fCKPT_CTRL_STATE : Fld := ⟨11, 8⟩
def fCKPT_CTRL_VFIX : Fld := ⟨3, 3⟩
def fCKPT_CTRL_FILL_GO : Fld := ⟨2, 2⟩
def fCKPT_CTRL_CANCEL : Fld := ⟨1, 1⟩
def fCKPT_CTRL_GO : Fld := ⟨0, 0⟩
def fCKPT_EPOCH_GEN : Fld := ⟨63, 32⟩
def fCKPT_EPOCH_NCOPY2 : Fld := ⟨8, 8⟩
def fCKPT_EPOCH_PART : Fld := ⟨2, 0⟩
def fCKPT_LIST_RUNS_M1 : Fld := ⟨63, 48⟩
def fCKPT_LIST_BASE : Fld := ⟨47, 3⟩
def fCKPT_DEST_NODE : Fld := ⟨63, 48⟩
def fCKPT_DEST_BASE : Fld := ⟨47, 21⟩
def fCKPT_DJOB_FILL_JOB : Fld := ⟨47, 32⟩
def fCKPT_DJOB_JOB1 : Fld := ⟨31, 16⟩
def fCKPT_DJOB_JOB0 : Fld := ⟨15, 0⟩
def fCKPT_FILL_NODE : Fld := ⟨63, 48⟩
def fCKPT_FILL_BASE : Fld := ⟨47, 21⟩
def fCKPT_PSTATE_CLOSED : Fld := ⟨63, 32⟩
def fCKPT_PSTATE_CLEAN : Fld := ⟨31, 16⟩
def fCKPT_PSTATE_L : Fld := ⟨15, 8⟩
def fCKPT_PSTATE_SET : Fld := ⟨0, 0⟩
def fCKPT_TIME_TIME_OPEN : Fld := ⟨63, 0⟩
def fCKPT_ENG_WAITING : Fld := ⟨63, 48⟩
def fCKPT_ENG_PAGES : Fld := ⟨47, 16⟩
def fCKPT_ENG_RATE_GBS : Fld := ⟨8, 0⟩

/-- Rows of the register tables of chapter 17. -/
def regRows17a : List RegRow := [
  ⟨"CKPT_CAP", 0x80000, [], .cold, .none, false,
    [⟨63, 32, .ro, 0x3FE00⟩, ⟨31, 16, .ro, 0xFFFF⟩, ⟨15, 8, .ro, 0x10⟩, ⟨7, 0, .ro, 2⟩]⟩,
  ⟨"CKPT_CTRL", 0x80008, [], .warm, .none, false,
    [⟨63, 32, .ro, 0⟩, ⟨16, 16, .w1c, 0⟩, ⟨15, 12, .ro, 0⟩, ⟨11, 8, .ro, 0⟩, ⟨3, 3, .wo, 0⟩, ⟨2, 2, .wo, 0⟩, ⟨1, 1, .wo, 0⟩, ⟨0, 0, .wo, 0⟩]⟩,
  ⟨"CKPT_EPOCH", 0x80010, [], .warm, .none, false,
    [⟨63, 32, .rw, 0⟩, ⟨8, 8, .rw, 1⟩, ⟨2, 0, .rw, 0⟩]⟩,
  ⟨"CKPT_LIST", 0x80018, [], .warm, .none, false,
    [⟨63, 48, .rw, 0⟩, ⟨47, 3, .rw, 0⟩]⟩,
  ⟨"CKPT_DEST", 0x80020, [(2, 0x8)], .warm, .none, false,
    [⟨63, 48, .rw, 0⟩, ⟨47, 21, .rw, 0⟩]⟩,
  ⟨"CKPT_DJOB", 0x80030, [], .warm, .none, false,
    [⟨47, 32, .rw, 0⟩, ⟨31, 16, .rw, 0⟩, ⟨15, 0, .rw, 0⟩]⟩,
  ⟨"CKPT_FILL", 0x80038, [], .warm, .none, false,
    [⟨63, 48, .rw, 0⟩, ⟨47, 21, .rw, 0⟩]⟩,
  ⟨"CKPT_PSTATE", 0x80040, [], .warm, .none, false,
    [⟨63, 32, .rw, 0⟩, ⟨31, 16, .rw, 0⟩, ⟨15, 8, .rw, 0⟩, ⟨0, 0, .wo, 0⟩]⟩,
  ⟨"CKPT_TIME", 0x80048, [], .warm, .none, false,
    [⟨63, 0, .ro, 0⟩]⟩,
  ⟨"CKPT_ENG", 0x80100, [(2, 0x40)], .warm, .none, false,
    [⟨63, 48, .ro, 0⟩, ⟨47, 16, .ro, 0⟩, ⟨8, 0, .rw, 0x3C⟩]⟩]

/-! ### Registers of the chapter 18 (clocks and power) -/

/-- Offset of CLK_STATUS (R411). -/
def rCLK_STATUS : Nat := 0x10000

/-- Offset of CLK_CTRL (R411). -/
def rCLK_CTRL : Nat := 0x10008

/-- Offset of CLK_PLL_ERR (R411). -/
def rCLK_PLL_ERR : Nat := 0x10010

/-- Offset of CRS_ERR (R411). -/
def rCRS_ERR : Nat := 0x10018

/-- Offset of CRS_ERR_TIME (R411). -/
def rCRS_ERR_TIME : Nat := 0x10020

/-- Offset of CLK_OUT (R411). -/
def rCLK_OUT : Nat := 0x10040

/-- Offset of CLK_DOM_d_x (R411). -/
def rCLK_DOM (d x : Nat) : Nat := 0x10100 + d * 0x40 + x * 0x8

/-- Offset of PWR_CAP (R412). -/
def rPWR_CAP : Nat := 0x20000

/-- Offset of PWR_CTRL (R412). -/
def rPWR_CTRL : Nat := 0x20008

/-- Offset of PWR_STATUS (R412). -/
def rPWR_STATUS : Nat := 0x20010

/-- Offset of PWR_LATE (R412). -/
def rPWR_LATE : Nat := 0x20018

/-- Offset of PWR_DIE_d (R412). -/
def rPWR_DIE (d : Nat) : Nat := 0x20040 + d * 0x8

/-- Offset of PWR_HZ_CORE_c (R412). -/
def rPWR_HZ_CORE (c : Nat) : Nat := 0x21000 + c * 0x8

/-- Offset of PWR_HZ_ARR_c_a (R412). -/
def rPWR_HZ_ARR (c a : Nat) : Nat := 0x22000 + c * 0x10 + a * 0x8

/-- Offset of PWR_HZ_PORT_k (R412). -/
def rPWR_HZ_PORT (k : Nat) : Nat := 0x23000 + k * 0x8

/-- Offset of PWR_HZ_T1_s_n (R412). -/
def rPWR_HZ_T1 (s n : Nat) : Nat := 0x24000 + s * 0x100 + n * 0x8

/-- Offset of PWR_HZ_T2_t_n (R412). -/
def rPWR_HZ_T2 (t n : Nat) : Nat := 0x26000 + t * 0x80 + n * 0x8

/-- Offset of PWR_QUAD_c (R412). -/
def rPWR_QUAD (c : Nat) : Nat := 0x27000 + c * 0x8

def fCLK_STATUS_XTAL_FAIL : Fld := ⟨11, 11⟩
def fCLK_STATUS_BYPASS : Fld := ⟨10, 10⟩
def fCLK_STATUS_DELAY : Fld := ⟨7, 5⟩
def fCLK_STATUS_SRC : Fld := ⟨0, 0⟩
def fCLK_CTRL_CRS_TIMEOUT : Fld := ⟨31, 16⟩
def fCLK_CTRL_DWELL_US : Fld := ⟨7, 0⟩
def fCLK_PLL_ERR_DIE : Fld := ⟨15, 13⟩
def fCLK_PLL_ERR_PLL : Fld := ⟨12, 10⟩
def fCLK_PLL_ERR_RELOCKED : Fld := ⟨9, 9⟩
def fCLK_PLL_ERR_DEAD : Fld := ⟨8, 8⟩
def fCLK_PLL_ERR_VALID : Fld := ⟨0, 0⟩
def fCRS_ERR_DIE : Fld := ⟨63, 61⟩
def fCRS_ERR_FROM : Fld := ⟨59, 56⟩
def fCRS_ERR_TO : Fld := ⟨55, 52⟩
def fCRS_ERR_INDEX : Fld := ⟨47, 32⟩
def fCRS_ERR_ABORTED : Fld := ⟨1, 1⟩
def fCRS_ERR_VALID : Fld := ⟨0, 0⟩
def fCRS_ERR_TIME_TIME : Fld := ⟨63, 0⟩
def fCLK_OUT_ENABLE : Fld := ⟨31, 31⟩
def fCLK_OUT_REJECT : Fld := ⟨30, 30⟩
def fCLK_OUT_MODE : Fld := ⟨29, 29⟩
def fCLK_OUT_DIV : Fld := ⟨27, 16⟩
def fCLK_OUT_SRC : Fld := ⟨15, 12⟩
def fCLK_OUT_INSTANCE : Fld := ⟨11, 8⟩
def fCLK_DOM_BUSY : Fld := ⟨63, 63⟩
def fCLK_DOM_REJECT : Fld := ⟨62, 62⟩
def fCLK_DOM_GO : Fld := ⟨61, 61⟩
def fCLK_DOM_DIV : Fld := ⟨58, 56⟩
def fCLK_DOM_P : Fld := ⟨55, 54⟩
def fCLK_DOM_N : Fld := ⟨53, 47⟩
def fCLK_DOM_F : Fld := ⟨46, 31⟩
def fCLK_DOM_KHZ : Fld := ⟨23, 0⟩
def fPWR_CAP_DZ4_US : Fld := ⟨63, 48⟩
def fPWR_CAP_DZ3_US : Fld := ⟨47, 32⟩
def fPWR_CAP_DZ2_NS : Fld := ⟨31, 16⟩
def fPWR_CAP_DZ1_NS : Fld := ⟨15, 0⟩
def fPWR_CTRL_ENABLE : Fld := ⟨16, 16⟩
def fPWR_CTRL_GUARD_NS : Fld := ⟨15, 0⟩
def fPWR_STATUS_UV_RAIL : Fld := ⟨15, 8⟩
def fPWR_STATUS_UV : Fld := ⟨1, 1⟩
def fPWR_STATUS_PWRGOOD : Fld := ⟨0, 0⟩
def fPWR_LATE_INDEX : Fld := ⟨63, 48⟩
def fPWR_LATE_KIND : Fld := ⟨47, 45⟩
def fPWR_LATE_LATE_NS : Fld := ⟨31, 1⟩
def fPWR_LATE_VALID : Fld := ⟨0, 0⟩
def fPWR_DIE_TJ : Fld := ⟨39, 32⟩
def fPWR_DIE_POWER : Fld := ⟨15, 0⟩
def fPWR_HZ_CORE_DZ4_ALLOW : Fld := ⟨63, 63⟩
def fPWR_HZ_CORE_STATE : Fld := ⟨62, 60⟩
def fPWR_HZ_CORE_HORIZON : Fld := ⟨47, 0⟩
def fPWR_HZ_ARR_DZ4_ALLOW : Fld := ⟨63, 63⟩
def fPWR_HZ_ARR_STATE : Fld := ⟨62, 60⟩
def fPWR_HZ_ARR_HORIZON : Fld := ⟨47, 0⟩
def fPWR_HZ_PORT_DZ4_ALLOW : Fld := ⟨63, 63⟩
def fPWR_HZ_PORT_STATE : Fld := ⟨62, 60⟩
def fPWR_HZ_PORT_HORIZON : Fld := ⟨47, 0⟩
def fPWR_HZ_T1_DZ4_ALLOW : Fld := ⟨63, 63⟩
def fPWR_HZ_T1_STATE : Fld := ⟨62, 60⟩
def fPWR_HZ_T1_HORIZON : Fld := ⟨47, 0⟩
def fPWR_HZ_T2_DZ4_ALLOW : Fld := ⟨63, 63⟩
def fPWR_HZ_T2_STATE : Fld := ⟨62, 60⟩
def fPWR_HZ_T2_HORIZON : Fld := ⟨47, 0⟩
def fPWR_QUAD_STATES : Fld := ⟨31, 0⟩

/-- Rows of the register tables of chapter 18. -/
def regRows18a : List RegRow := [
  ⟨"CLK_STATUS", 0x10000, [], .cold, .none, false,
    [⟨11, 11, .w1c, 0⟩, ⟨10, 10, .ro, 0⟩, ⟨7, 5, .ro, 0⟩, ⟨0, 0, .ro, 0⟩]⟩,
  ⟨"CLK_CTRL", 0x10008, [], .warm, .none, false,
    [⟨31, 16, .rw, 0x1000⟩, ⟨7, 0, .rw, 2⟩]⟩,
  ⟨"CLK_PLL_ERR", 0x10010, [], .warm, .none, false,
    [⟨15, 13, .ro, 0⟩, ⟨12, 10, .ro, 0⟩, ⟨9, 9, .ro, 0⟩, ⟨8, 8, .ro, 0⟩, ⟨0, 0, .w1c, 0⟩]⟩,
  ⟨"CRS_ERR", 0x10018, [], .warm, .none, false,
    [⟨63, 61, .ro, 0⟩, ⟨59, 56, .ro, 0⟩, ⟨55, 52, .ro, 0⟩, ⟨47, 32, .ro, 0⟩, ⟨1, 1, .ro, 0⟩, ⟨0, 0, .w1c, 0⟩]⟩,
  ⟨"CRS_ERR_TIME", 0x10020, [], .warm, .none, false,
    [⟨63, 0, .ro, 0⟩]⟩,
  ⟨"CLK_OUT", 0x10040, [], .warm, .none, false,
    [⟨31, 31, .rw, 0⟩, ⟨30, 30, .w1c, 0⟩, ⟨29, 29, .rw, 0⟩, ⟨27, 16, .rw, 0⟩, ⟨15, 12, .rw, 0⟩, ⟨11, 8, .rw, 0⟩]⟩,
  ⟨"CLK_DOM", 0x10108, [(7, 0x40), (7, 0x8)], .warm, .none, false,
    [⟨63, 63, .ro, 0⟩, ⟨62, 62, .w1c, 0⟩, ⟨61, 61, .wo, 0⟩, ⟨58, 56, .ro, 0⟩, ⟨55, 54, .rw, 0⟩, ⟨53, 47, .rw, 0⟩, ⟨46, 31, .rw, 0⟩, ⟨23, 0, .ro, 0⟩]⟩,
  ⟨"PWR_CAP", 0x20000, [], .cold, .none, false,
    [⟨63, 48, .ro, 0x15E⟩, ⟨47, 32, .ro, 0x28⟩, ⟨31, 16, .ro, 0x3E8⟩, ⟨15, 0, .ro, 0x14⟩]⟩,
  ⟨"PWR_CTRL", 0x20008, [], .warm, .none, false,
    [⟨16, 16, .rw, 1⟩, ⟨15, 0, .rw, 0x64⟩]⟩,
  ⟨"PWR_STATUS", 0x20010, [], .cold, .none, false,
    [⟨15, 8, .ro, 0⟩, ⟨1, 1, .w1c, 0⟩, ⟨0, 0, .ro, 0⟩]⟩,
  ⟨"PWR_LATE", 0x20018, [], .warm, .none, false,
    [⟨63, 48, .ro, 0⟩, ⟨47, 45, .ro, 0⟩, ⟨31, 1, .ro, 0⟩, ⟨0, 0, .w1c, 0⟩]⟩,
  ⟨"PWR_DIE", 0x20040, [(7, 0x8)], .warm, .none, false,
    [⟨39, 32, .ro, 0⟩, ⟨15, 0, .ro, 0⟩]⟩]

/-- Rows of the register tables of chapter 18. -/
def regRows18b : List RegRow := [
  ⟨"PWR_HZ_CORE", 0x21000, [(160, 0x8)], .warm, .none, false,
    [⟨63, 63, .rw, 0⟩, ⟨62, 60, .ro, 0⟩, ⟨47, 0, .rw, 0⟩]⟩,
  ⟨"PWR_HZ_ARR", 0x22000, [(160, 0x10), (2, 0x8)], .warm, .none, false,
    [⟨63, 63, .rw, 0⟩, ⟨62, 60, .ro, 0⟩, ⟨47, 0, .rw, 0⟩]⟩,
  ⟨"PWR_HZ_PORT", 0x23000, [(12, 0x8)], .warm, .none, false,
    [⟨63, 63, .rw, 0⟩, ⟨62, 60, .ro, 0⟩, ⟨47, 0, .rw, 0⟩]⟩,
  ⟨"PWR_HZ_T1", 0x24000, [(24, 0x100), (32, 0x8)], .warm, .none, false,
    [⟨63, 63, .rw, 0⟩, ⟨62, 60, .ro, 0⟩, ⟨47, 0, .rw, 0⟩]⟩,
  ⟨"PWR_HZ_T2", 0x26000, [(8, 0x80), (16, 0x8)], .warm, .none, false,
    [⟨63, 63, .rw, 0⟩, ⟨62, 60, .ro, 0⟩, ⟨47, 0, .rw, 0⟩]⟩,
  ⟨"PWR_QUAD", 0x27000, [(160, 0x8)], .warm, .none, false,
    [⟨31, 0, .ro, 0⟩]⟩]

/-! ### Registers of the chapter 19 (security) -/

/-- Offset of SEC_STATUS (R427). -/
def rSEC_STATUS : Nat := 0x40000

/-- Offset of SEC_IMAGE (R427). -/
def rSEC_IMAGE : Nat := 0x40008

/-- Offset of SEC_SVN (R427). -/
def rSEC_SVN : Nat := 0x40010

/-- Offset of SEC_CTRL (R427). -/
def rSEC_CTRL : Nat := 0x40018

/-- Offset of SEC_OP (R427). -/
def rSEC_OP : Nat := 0x40020

/-- Offset of SEC_DATA_k (R427). -/
def rSEC_DATA (k : Nat) : Nat := 0x40028 + k * 0x8

/-- Offset of SEC_CHAIN_k (R427). -/
def rSEC_CHAIN (k : Nat) : Nat := 0x40048 + k * 0x8

/-- Offset of SEC_COUNT (R427). -/
def rSEC_COUNT : Nat := 0x40068

/-- Offset of SEC_PCHAIN_p_k (R427). -/
def rSEC_PCHAIN (p k : Nat) : Nat := 0x40100 + p * 0x28 + k * 0x8

/-- Offset of SEC_PCOUNT_p (R427). -/
def rSEC_PCOUNT (p : Nat) : Nat := 0x40120 + p * 0x28

/-- Offset of SEC_AUTH_i_k (R427). -/
def rSEC_AUTH (i k : Nat) : Nat := 0x40300 + i * 0x20 + k * 0x8

/-- Offset of SEC_LOG_i_w (R427). -/
def rSEC_LOG (i w : Nat) : Nat := 0x41000 + i * 0x40 + w * 0x8

/-- Offset of SEC_PLOG_p_i_w (R427). -/
def rSEC_PLOG (p i w : Nat) : Nat := 0x45000 + p * 0x800 + i * 0x40 + w * 0x8

/-- Offset of SEC_QBUF_j (R427). -/
def rSEC_QBUF (j : Nat) : Nat := 0x49000 + j * 0x8

/-- Offset of SEC_CERT_j (R427). -/
def rSEC_CERT (j : Nat) : Nat := 0x4A000 + j * 0x8

def fSEC_STATUS_BOOT_CAUSE : Fld := ⟨47, 44⟩
def fSEC_STATUS_KEY_SLOT : Fld := ⟨43, 42⟩
def fSEC_STATUS_RNG_FAIL : Fld := ⟨41, 41⟩
def fSEC_STATUS_EXHAUSTED : Fld := ⟨40, 40⟩
def fSEC_STATUS_ENROLLED : Fld := ⟨36, 36⟩
def fSEC_STATUS_INDEX : Fld := ⟨20, 0⟩
def fSEC_IMAGE_SVN : Fld := ⟨63, 32⟩
def fSEC_IMAGE_MIN_SVN : Fld := ⟨31, 0⟩
def fSEC_SVN_DISABLE0 : Fld := ⟨34, 34⟩
def fSEC_SVN_REJECT : Fld := ⟨33, 33⟩
def fSEC_SVN_SET_DISABLE0 : Fld := ⟨32, 32⟩
def fSEC_SVN_RAISE : Fld := ⟨31, 0⟩
def fSEC_CTRL_LOW_MARK : Fld := ⟨20, 0⟩
def fSEC_OP_TYPE : Fld := ⟨63, 48⟩
def fSEC_OP_PART : Fld := ⟨44, 42⟩
def fSEC_OP_SLOT : Fld := ⟨41, 40⟩
def fSEC_OP_ERR : Fld := ⟨31, 28⟩
def fSEC_OP_OP : Fld := ⟨4, 2⟩
def fSEC_OP_BUSY : Fld := ⟨1, 1⟩
def fSEC_OP_GO : Fld := ⟨0, 0⟩
def fSEC_DATA_DATA : Fld := ⟨63, 0⟩
def fSEC_CHAIN_VALUE : Fld := ⟨63, 0⟩
def fSEC_COUNT_ENTRIES : Fld := ⟨8, 0⟩
def fSEC_PCHAIN_VALUE : Fld := ⟨63, 0⟩
def fSEC_PCOUNT_ENTRIES : Fld := ⟨5, 0⟩
def fSEC_AUTH_KEY_ID : Fld := ⟨63, 0⟩
def fSEC_LOG_WORD : Fld := ⟨63, 0⟩
def fSEC_PLOG_WORD : Fld := ⟨63, 0⟩
def fSEC_QBUF_BYTES : Fld := ⟨63, 0⟩
def fSEC_CERT_BYTES : Fld := ⟨63, 0⟩

/-- Rows of the register tables of chapter 19. -/
def regRows19a : List RegRow := [
  ⟨"SEC_STATUS", 0x40000, [], .cold, .none, false,
    [⟨47, 44, .ro, 0⟩, ⟨43, 42, .ro, 0⟩, ⟨41, 41, .ro, 0⟩, ⟨40, 40, .ro, 0⟩, ⟨36, 36, .ro, 0⟩, ⟨20, 0, .ro, 0⟩]⟩,
  ⟨"SEC_IMAGE", 0x40008, [], .cold, .none, false,
    [⟨63, 32, .ro, 0⟩, ⟨31, 0, .ro, 0⟩]⟩,
  ⟨"SEC_SVN", 0x40010, [], .warm, .none, false,
    [⟨34, 34, .ro, 0⟩, ⟨33, 33, .w1c, 0⟩, ⟨32, 32, .wo, 0⟩, ⟨31, 0, .wo, 0⟩]⟩,
  ⟨"SEC_CTRL", 0x40018, [], .warm, .none, false,
    [⟨20, 0, .rw, 0x10000⟩]⟩,
  ⟨"SEC_OP", 0x40020, [], .warm, .none, false,
    [⟨63, 48, .rw, 0⟩, ⟨44, 42, .rw, 0⟩, ⟨41, 40, .rw, 0⟩, ⟨31, 28, .ro, 0⟩, ⟨4, 2, .rw, 0⟩, ⟨1, 1, .ro, 0⟩, ⟨0, 0, .wo, 0⟩]⟩,
  ⟨"SEC_DATA", 0x40028, [(4, 0x8)], .warm, .none, false,
    [⟨63, 0, .rw, 0⟩]⟩,
  ⟨"SEC_CHAIN", 0x40048, [(4, 0x8)], .cold, .none, false,
    [⟨63, 0, .ro, 0⟩]⟩,
  ⟨"SEC_COUNT", 0x40068, [], .cold, .none, false,
    [⟨8, 0, .ro, 0⟩]⟩,
  ⟨"SEC_PCHAIN", 0x40100, [(8, 0x28), (4, 0x8)], .part, .part 0, false,
    [⟨63, 0, .ro, 0⟩]⟩,
  ⟨"SEC_PCOUNT", 0x40120, [(8, 0x28)], .part, .part 0, false,
    [⟨5, 0, .ro, 0⟩]⟩,
  ⟨"SEC_AUTH", 0x40300, [(4, 0x20), (4, 0x8)], .cold, .none, false,
    [⟨63, 0, .ro, 0⟩]⟩,
  ⟨"SEC_LOG", 0x41000, [(256, 0x40), (6, 0x8)], .cold, .none, false,
    [⟨63, 0, .ro, 0⟩]⟩]

/-- Rows of the register tables of chapter 19. -/
def regRows19b : List RegRow := [
  ⟨"SEC_PLOG", 0x45000, [(8, 0x800), (32, 0x40), (6, 0x8)], .part, .part 0, false,
    [⟨63, 0, .ro, 0⟩]⟩,
  ⟨"SEC_QBUF", 0x49000, [(512, 0x8)], .warm, .none, false,
    [⟨63, 0, .ro, 0⟩]⟩,
  ⟨"SEC_CERT", 0x4A000, [(3072, 0x8)], .cold, .none, false,
    [⟨63, 0, .ro, 0⟩]⟩]

/-! ### Registers of the chapter 20 (identity and start-up) -/

/-- Offset of ID_PART (R442). -/
def rID_PART : Nat := 0x0

/-- Offset of ID_DCLASS (R442). -/
def rID_DCLASS : Nat := 0x8

/-- Offset of ID_SERIAL_k (R442). -/
def rID_SERIAL (k : Nat) : Nat := 0x10 + k * 0x8

/-- Offset of ID_STRAPS (R442). -/
def rID_STRAPS : Nat := 0x20

/-- Offset of BOOT_STATUS (R443). -/
def rBOOT_STATUS : Nat := 0x30000

/-- Offset of BOOT_CTRL (R443). -/
def rBOOT_CTRL : Nat := 0x30008

/-- Offset of BOOT_IMG_PTR (R443). -/
def rBOOT_IMG_PTR : Nat := 0x30010

/-- Offset of BOOT_IMG_DATA (R443). -/
def rBOOT_IMG_DATA : Nat := 0x30018

/-- Offset of BOOT_FAIL (R443). -/
def rBOOT_FAIL : Nat := 0x30020

/-- Offset of BOOT_TIME_k (R443). -/
def rBOOT_TIME (k : Nat) : Nat := 0x30040 + k * 0x8

/-- Offset of BOOT_ST_k (R443). -/
def rBOOT_ST (k : Nat) : Nat := 0x30080 + k * 0x8

/-- Offset of BOOT_CPER_j (R443). -/
def rBOOT_CPER (j : Nat) : Nat := 0x32000 + j * 0x8

def fID_PART_VENDOR : Fld := ⟨63, 48⟩
def fID_PART_PART : Fld := ⟨47, 32⟩
def fID_PART_STEPPING : Fld := ⟨31, 16⟩
def fID_PART_LID : Fld := ⟨15, 8⟩
def fID_PART_RANGE : Fld := ⟨7, 0⟩
def fID_DCLASS_LEVEL : Fld := ⟨15, 8⟩
def fID_DCLASS_ARITH : Fld := ⟨7, 0⟩
def fID_SERIAL_SERIAL : Fld := ⟨63, 0⟩
def fID_STRAPS_STRAPS : Fld := ⟨7, 0⟩
def fBOOT_STATUS_RESULT : Fld := ⟨11, 8⟩
def fBOOT_STATUS_STAGE : Fld := ⟨2, 0⟩
def fBOOT_CTRL_KEY : Fld := ⟨15, 8⟩
def fBOOT_CTRL_REJECT : Fld := ⟨2, 2⟩
def fBOOT_CTRL_RESTART : Fld := ⟨1, 1⟩
def fBOOT_CTRL_GO : Fld := ⟨0, 0⟩
def fBOOT_IMG_PTR_OFFSET : Fld := ⟨21, 3⟩
def fBOOT_IMG_DATA_DATA : Fld := ⟨63, 0⟩
def fBOOT_FAIL_INSTANCE : Fld := ⟨63, 48⟩
def fBOOT_FAIL_DIE : Fld := ⟨47, 40⟩
def fBOOT_FAIL_UNIT : Fld := ⟨39, 32⟩
def fBOOT_FAIL_PHASE : Fld := ⟨7, 4⟩
def fBOOT_FAIL_VALID : Fld := ⟨0, 0⟩
def fBOOT_TIME_TIME : Fld := ⟨63, 0⟩
def fBOOT_ST_BYTES : Fld := ⟨63, 0⟩
def fBOOT_CPER_BYTES : Fld := ⟨63, 0⟩

/-- Rows of the register tables of chapter 20. -/
def regRows20a : List RegRow := [
  ⟨"ID_PART", 0x0, [], .cold, .none, false,
    [⟨63, 48, .ro, 0xE71⟩, ⟨47, 32, .ro, 0x4160⟩, ⟨31, 16, .ro, 0x4101⟩, ⟨15, 8, .ro, 0x4C⟩, ⟨7, 0, .ro, 0x43⟩]⟩,
  ⟨"ID_DCLASS", 0x8, [], .cold, .none, false,
    [⟨15, 8, .ro, 1⟩, ⟨7, 0, .ro, 1⟩]⟩,
  ⟨"ID_SERIAL", 0x10, [(2, 0x8)], .cold, .none, false,
    [⟨63, 0, .ro, 0⟩]⟩,
  ⟨"ID_STRAPS", 0x20, [], .cold, .none, false,
    [⟨7, 0, .ro, 0⟩]⟩,
  ⟨"BOOT_STATUS", 0x30000, [], .cold, .none, false,
    [⟨11, 8, .ro, 0⟩, ⟨2, 0, .ro, 0⟩]⟩,
  ⟨"BOOT_CTRL", 0x30008, [], .cold, .none, false,
    [⟨15, 8, .wo, 0⟩, ⟨2, 2, .w1c, 0⟩, ⟨1, 1, .wo, 0⟩, ⟨0, 0, .wo, 0⟩]⟩,
  ⟨"BOOT_IMG_PTR", 0x30010, [], .cold, .none, false,
    [⟨21, 3, .rw, 0⟩]⟩,
  ⟨"BOOT_IMG_DATA", 0x30018, [], .cold, .none, false,
    [⟨63, 0, .wo, 0⟩]⟩,
  ⟨"BOOT_FAIL", 0x30020, [], .cold, .none, false,
    [⟨63, 48, .ro, 0⟩, ⟨47, 40, .ro, 0⟩, ⟨39, 32, .ro, 0⟩, ⟨7, 4, .ro, 0⟩, ⟨0, 0, .ro, 0⟩]⟩,
  ⟨"BOOT_TIME", 0x30040, [(8, 0x8)], .cold, .none, false,
    [⟨63, 0, .ro, 0⟩]⟩,
  ⟨"BOOT_ST", 0x30080, [(8, 0x8)], .cold, .none, false,
    [⟨63, 0, .ro, 0⟩]⟩,
  ⟨"BOOT_CPER", 0x32000, [(1024, 0x8)], .cold, .none, false,
    [⟨63, 0, .ro, 0⟩]⟩]

/-! ### Registers of the chapter 22 (counters and trace) -/

/-- Offset of CNT_c_i (R473). -/
def rCNT_CORE (c i : Nat) : Nat := 0x1007000 + c * 0x10000 + i * 0x8

/-- Offset of CNT_DEV_j (R473). -/
def rCNT_DEV (j : Nat) : Nat := 0x3900000 + j * 0x8

/-- Offset of TRC_CTRL (R473). -/
def rTRC_CTRL : Nat := 0x3800000

/-- Offset of TRC_BASE (R473). -/
def rTRC_BASE : Nat := 0x3800008

/-- Offset of TRC_PTR (R473). -/
def rTRC_PTR : Nat := 0x3800010

/-- Offset of TRC_STATUS (R473). -/
def rTRC_STATUS : Nat := 0x3800018

/-- Offset of TRC_MARK (R473). -/
def rTRC_MARK : Nat := 0x3800020

/-- Offset of CNT_SAT (R473). -/
def rCNT_SAT : Nat := 0x3800028

def fCNT_CORE_OVF : Fld := ⟨48, 48⟩
def fCNT_CORE_COUNT : Fld := ⟨47, 0⟩
def fCNT_DEV_OVF : Fld := ⟨48, 48⟩
def fCNT_DEV_COUNT : Fld := ⟨47, 0⟩
def fTRC_CTRL_WRAP : Fld := ⟨17, 17⟩
def fTRC_CTRL_MASK : Fld := ⟨8, 1⟩
def fTRC_CTRL_ENABLE : Fld := ⟨0, 0⟩
def fTRC_BASE_BASE : Fld := ⟨47, 12⟩
def fTRC_BASE_LOG2_SIZE : Fld := ⟨4, 0⟩
def fTRC_PTR_TAIL : Fld := ⟨63, 32⟩
def fTRC_PTR_HEAD : Fld := ⟨31, 0⟩
def fTRC_STATUS_FULL : Fld := ⟨2, 2⟩
def fTRC_STATUS_WRITE_ERR : Fld := ⟨1, 1⟩
def fTRC_STATUS_LOST : Fld := ⟨0, 0⟩
def fTRC_MARK_VALUE : Fld := ⟨63, 0⟩
def fCNT_SAT_ID : Fld := ⟨23, 1⟩
def fCNT_SAT_ID0 : Fld := ⟨0, 0⟩

/-- Rows of the register tables of chapter 22. -/
def regRows22a : List RegRow := [
  ⟨"CNT_CORE", 0x1007000, [(160, 0x10000), (256, 0x8)], .warm, .none, false,
    [⟨48, 48, .w1c, 0⟩, ⟨47, 0, .rw, 0⟩]⟩,
  ⟨"CNT_DEV", 0x3900000, [(97120, 0x8)], .warm, .none, false,
    [⟨48, 48, .w1c, 0⟩, ⟨47, 0, .rw, 0⟩]⟩,
  ⟨"TRC_CTRL", 0x3800000, [], .warm, .none, false,
    [⟨17, 17, .rw, 0⟩, ⟨8, 1, .rw, 0⟩, ⟨0, 0, .rw, 0⟩]⟩,
  ⟨"TRC_BASE", 0x3800008, [], .warm, .none, false,
    [⟨47, 12, .rw, 0⟩, ⟨4, 0, .rw, 0xA⟩]⟩,
  ⟨"TRC_PTR", 0x3800010, [], .warm, .none, false,
    [⟨63, 32, .ro, 0⟩, ⟨31, 0, .rw, 0⟩]⟩,
  ⟨"TRC_STATUS", 0x3800018, [], .warm, .none, false,
    [⟨2, 2, .ro, 0⟩, ⟨1, 1, .w1c, 0⟩, ⟨0, 0, .w1c, 0⟩]⟩,
  ⟨"TRC_MARK", 0x3800020, [], .warm, .none, false,
    [⟨63, 0, .wo, 0⟩]⟩,
  ⟨"CNT_SAT", 0x3800028, [], .warm, .none, false,
    [⟨23, 1, .ro, 0⟩, ⟨0, 0, .ro, 0⟩]⟩]

/-- Every register of the spec. -/
def regTable : List RegRow :=
  regRows03a ++ regRows04a ++ regRows05a ++ regRows05b ++
  regRows06a ++ regRows07a ++ regRows08a ++ regRows08b ++
  regRows09a ++ regRows09b ++ regRows10a ++ regRows10b ++
  regRows11a ++ regRows11b ++ regRows14a ++ regRows14b ++
  regRows15a ++ regRows16a ++ regRows16b ++ regRows17a ++
  regRows18a ++ regRows18b ++ regRows19a ++ regRows19b ++
  regRows20a ++ regRows22a

/-- The indices that offset `x` (from the first element) has under dimensions of falling stride;
none where `x` is no element. -/
def dimIndex : List (Nat × Nat) → Nat → Option (List Nat)
  | [], x => if x = 0 then some [] else none
  | (c, st) :: ds, x =>
    if x / st < c then (dimIndex ds (x % st)).map (x / st :: ·) else none

/-- The indices of offset `off` in row `r`, if it is one of the row's registers. -/
def rowIndex (r : RegRow) (off : Nat) : Option (List Nat) :=
  if off < r.base then none else dimIndex r.dims (off - r.base)

/-- The row and the indices of the register at `off` in a list of rows. -/
def findRow : List RegRow → Nat → Option (RegRow × List Nat)
  | [], _ => none
  | r :: rs, off =>
    match rowIndex r off with
    | some ix => some (r, ix)
    | none => findRow rs off

/-- The counter indices of a core that R468 lists. -/
def coreCounterListed (i : Nat) : Bool :=
  (i < 0xA0 && i % 16 < 10) || (0xA0 ≤ i && i ≤ 0xBD) || (0xC0 ≤ i && i ≤ 0xCE)

/-- The device counter indices that R469 lists. -/
def devCounterListed (j : Nat) : Bool :=
  (j < 16 * 768 && (j % 16 < 7 || 8 ≤ j % 16)) ||
  (16 * 768 ≤ j && j < 16 * 896 && (j % 16 < 7 || 8 ≤ j % 16)) ||
  (0x4000 ≤ j && j < 0x4000 + 64 * 12 && j % 64 < 36) ||
  (0x4400 ≤ j && j < 0x4400 + 38) ||
  (0x4500 ≤ j && j < 0x4510 && j % 8 < 4) ||
  (0x4600 ≤ j && j < 0x4640 && j % 16 < 7) ||
  (0x4700 ≤ j && j < 0x4710) || j = 0x4710 || j = 0x4711 ||
  (0x10000 ≤ j && j < 0x10000 + 8 * 3948 && j % 8 < 7)

/-- The clock-domain instances (die, domain code) that R387 lists with a PLL and a CLK_DOM
register. -/
def clkDomListed (d x : Nat) : Bool :=
  (d = 6 && (x = 1 || x = 2)) || (d < 4 && (x = 3 || x = 4 || x = 5)) ||
  ((d = 4 || d = 5) && (x = 6 || x = 7))

/-- Is the element of row `r` at indices `ix` a listed counter?  Rows that are no counters always
are. -/
def rowListed (r : RegRow) (ix : List Nat) : Bool :=
  if r.name = "CNT_CORE" then coreCounterListed (ix.getD 1 0)
  else if r.name = "CLK_DOM" then clkDomListed (ix.getD 0 0) (ix.getD 1 0 + 1)
  else if r.name = "CNT_DEV" then devCounterListed (ix.getD 0 0)
  else true

/-- The offset under which the register at `off` is kept: a register held once per device has its
home in hub 0's block (R239, R256). -/
def canonOff (off : Nat) : Nat :=
  if 0x2400000 ≤ off ∧ off < 0x2800000 then
    match findRow (regTable.filter (·.once)) (off - 0x400000) with
    | some _ => off - 0x400000
    | none => off
  else off

/-- The register at a canonical offset; none for a reserved offset (R8, R17). -/
def findReg (off : Nat) : Option (RegRow × List Nat) :=
  match findRow regTable off with
  | some (r, ix) => if rowListed r ix then some (r, ix) else none
  | none => none

/-- The word that a row's field reset values make. -/
def rowReset (r : RegRow) : Nat :=
  (r.fields.map (fun f => f.reset <<< f.lo)).foldl (· + ·) 0

/-- Reset weights of the health monitor (R364, Table: Monitor inputs). -/
def hmReset (k : Nat) : Nat :=
  if k = 0 then 0x2000100000400001 else if k = 1 then 0x40800FFFF2000 else 0x20FFFF00100100

/-- Rated settings N, F and P code of a domain (R388, Table: Rated PLL settings). -/
def ratedPll (x : Nat) : Nat × Nat × Nat :=
  if x = 1 then (64, 0, 1) else if x = 2 then (40, 0, 0) else if x = 3 then (42, 0, 0)
  else if x = 4 then (64, 0, 0) else if x = 7 then (53, 32768, 0) else (48, 0, 0)

/-- Output in kHz of settings N, F and P code (R388): 50 MHz × (N + F / 65,536) / P. -/
def pllKhz (n f p : Nat) : Nat := 50000 * (n * 65536 + f) / 65536 / 2 ^ (p + 1)

/-- Reset word of CLK_DOM of domain code `x` (R411, "per domain"): the rated settings. -/
def clkDomReset (x : Nat) : Nat :=
  let (n, f, p) := ratedPll x
  p <<< 54 + n <<< 47 + f <<< 31 + pllKhz n f p

/-- Reset word of TIER_CAP (R212, "per tier"): tier 1 has 32 channels of 64 banks, tier 2 16 of
32; the values of R196 and R202. -/
def tierCapReset (tier2 : Bool) : Nat :=
  if tier2 then 10700 <<< 48 + 12 <<< 40 + 16 <<< 32 + 32 <<< 24 + 16 <<< 16 + 2
  else 9600 <<< 48 + 42 <<< 40 + 8 <<< 32 + 64 <<< 24 + 32 <<< 16 + 1

/-- The value a register takes when its domain resets (R7).  Registers whose reset value the spec
gives "per core", "per domain" or by a table are computed; those it takes from MRAM or the straps
are views (`regView`) and are kept as 0 here. -/
def regReset (off : Nat) : Word :=
  match findReg off with
  | none => 0
  | some (r, ix) =>
    if r.name = "FLT_HM_W" then BitVec.ofNat 64 (hmReset (ix.getD 0 0))
    else if r.name = "CLK_DOM" then BitVec.ofNat 64 (clkDomReset (ix.getD 1 0 + 1))
    else if r.name = "TIER_CAP" then BitVec.ofNat 64 (rowReset r + tierCapReset (0x2000000 ≤ off))
    else BitVec.ofNat 64 (rowReset r)

/-- Reset domain and owner indices of the register at `off`. -/
def regDom (off : Nat) : Option (RDom × Own × List Nat) :=
  (findReg off).map (fun (r, ix) => (r.dom, r.own, ix))

/-- The bits of the register at `off` whose access code passes `p`. -/
def regMask (p : Acc → Bool) (off : Nat) : Nat :=
  match findReg off with
  | none => 0
  | some (r, _) =>
    ((r.fields.filter (fun f => p f.acc)).map (fun f => (2 ^ (f.hi + 1 - f.lo) - 1) <<< f.lo)).foldl
      (· + ·) 0

end Sys2Proof.Machine
end

