-- ==== Sys2Proof/Machine/State.lean ====
section
/-! DEFINITION. The state of the device, plain data: every register, buffer, queue, counter, mode
and pin the spec gives the SX4160, and the queue of waiting commands.  The registers are one
canonical sparse map (`regs`) over the register map of `RegMap.lean`; state the spec gives without
a register of its own stands in the structures below. -/

namespace Sys2Proof.Machine

/-! ### Pins, clocks, doze, start-up (chapters 18, 20, 21) -/

/-- Test access port (R455): the instruction in force, the 18 boundary cells as loaded and as captured
(bit i is cell i from TDI). -/
structure Tap where
  ir : BitVec 6
  cells : BitVec 18
  captured : BitVec 18
  deriving DecidableEq, Repr

/-- Levels of the sideband pins and what the device drives (R449). `true` is high for an input and
asserted (driven low) for the open-drain outputs.  `sensors` holds the last readings of the junction
sensors (R463), `uvHold` the rails found low (R409), `smbOut` the bytes of the last SMBus reply. -/
structure Pins where
  rstN : Bool
  pwrgood : Bool
  strapPins : BitVec 8
  strapsHeld : BitVec 8
  fault : Bool
  thermtrip : Bool
  sensors : List (Nat × Nat)
  smbOut : List Byte
  lasersOn : Bool
  ergTxIdle : Bool
  clkoutHz : Option (Nat × Nat × Nat × Bool)
  uvHold : List Nat
  tap : Tap
  deriving DecidableEq, Repr

/-- What one PLL does (R388, R390, R391). -/
inductive PllRun where
  | off
  | locking
  | locked
  | lost
  | dead
  deriving DecidableEq, Repr

/-- What one clock domain instance does: held in reset, ramping down to the reference, on the
reference waiting for its PLL, ramping up, at full rate, or gated because its PLL lost lock. -/
inductive DomRun where
  | held
  | rampDown
  | onRef
  | rampUp
  | full
  | gated
  deriving DecidableEq, Repr

/-- A crossing named by its receiving die, its two domain codes and its number within them (R397,
CRS_ERR). -/
structure Crossing where
  die : Nat
  dFrom : Nat
  dTo : Nat
  index : Nat
  deriving DecidableEq, Repr

/-- The event time of a dozing unit (R400). -/
inductive Horizon where
  | cleared
  | at (t : Nat)
  | noKnown
  deriving DecidableEq, Repr

/-- Doze state of one unit (R399): 0–4 for DZ0–DZ4, its horizon, whether it is waking, and the
time at which the state was entered. -/
structure DozeUnit where
  dz : Nat
  hz : Horizon
  waking : Bool
  since : Nat
  deriving DecidableEq, Repr

def DozeUnit.reset : DozeUnit := ⟨0, .cleared, false, 0⟩

/-- Start-up (R428–R437): the image buffer, the phase in progress (of the self-test, of the crystal check, or
1 once an image write has reached the end of the buffer), the failed cores and ports, every failure found so
far with its phase, the one that decides the Cairn state, the self-test seed, and whether the crystal has
failed. -/
structure Boot where
  image : SMap Byte
  phase : Nat
  failedCores : List Nat
  failedPorts : List Nat
  fails : List (Nat × FoundFault)
  fatal : Option (Nat × FoundFault)
  seed : Word
  xtalPending : Bool
  deriving DecidableEq, Repr

/-! ### MRAM and security (chapter 19) -/

/-- An index record of the device key: next index and write count; `none` where its digest does
not check (R416). -/
structure IndexRec where
  next : Nat
  count : Nat
  deriving DecidableEq, Repr

/-- MRAM content (R2, R415): the only state that survives power-off. -/
structure Mram where
  serial : BitVec 128
  trim : BitVec 64
  keyId : BitVec 256
  recA : Option IndexRec
  recB : Option IndexRec
  certs : SMap Byte
  minSvn : Nat
  disable0 : Bool
  auth : KMap (BitVec 256)
  label : List Byte
  replaceMark : Bool
  cper : KMap (List Byte)
  cperAt : Nat
  deriving DecidableEq, Repr

/-- One log entry of a measurement chain (R419). -/
structure LogEntry where
  ty : Nat
  digest : BitVec 256
  time : Nat
  deriving DecidableEq, Repr

/-- A request accepted by the signing engine (R416, R422): its KIND, partition, nonce, and the
chain value and count it reads when accepted. -/
structure SignReq where
  kind : Nat
  part : Nat
  nonce : BitVec 256
  chain : BitVec 256
  count : Nat
  time : Nat
  fixed : List Byte
  deriving DecidableEq, Repr

/-- The current adoption challenge (R340): nonce, quote, and its expiry. -/
structure Challenge where
  nonce : BitVec 256
  quote : List Byte
  expires : Nat
  deriving DecidableEq, Repr

/-- Security engine: device and partition chains with their logs, waiting signatures, the quote
window, the state of the entropy source, the challenge, the HELLOs whose challenge is being signed (port
and tag) and the token buffer. -/
structure Sec where
  chain : BitVec 256
  log : List LogEntry
  pchain : KMap (BitVec 256)
  plog : KMap (List LogEntry)
  signing : List SignReq
  qbuf : List Byte
  rngFail : Bool
  lowDone : Bool
  challenge : Option Challenge
  hello : List (Nat × Nat)
  token : SMap Byte
  imageSvn : Nat
  imageDigest : BitVec 256
  deriving DecidableEq, Repr

/-! ### Pours, contexts and cores (chapters 2, 3, 12–14) -/

/-- States of a task context (R57). -/
inductive CtxSt where
  | idle
  | loading
  | running
  | committing
  | aborting
  deriving DecidableEq, Repr

/-- States of a slot token (R58). -/
inductive Tok where
  | empty
  | filling
  | full
  | draining
  deriving DecidableEq, Repr

/-- A binding of a resident pour (R306), and what it resolved to or claimed at pour start (R29–R34). -/
structure Bind where
  buf : Nat
  out : Bool
  rmode : Nat
  res : Bool
  ridx : Nat
  stamp : Nat
  slot : Nat
  base : Nat
  units : Nat
  version : Nat
  verStamp : Nat
  baseVer : Nat
  fresh : Bool
  claimed : Bool
  held : Bool
  replayMet : Bool
  deriving DecidableEq, Repr

/-- A notice target of a pour descriptor (R305, R234). -/
structure Notice where
  part : Nat
  ctr : Nat
  node : Nat
  deriving DecidableEq, Repr

/-- The pour of a task context: its descriptor (R305) and what dispatch and start recorded. -/
structure Pour where
  part : Nat
  pos : Nat
  idx : Nat
  pending : Bool
  replay : Bool
  stamp : Nat
  tokFirst : Nat
  tokLast : Nat
  mStream : Nat
  mGather : Nat
  mAcc0 : Nat
  mAcc1 : Nat
  entry : Nat
  binds : List Bind
  args : List Word
  notices : List Notice
  first : Bool
  started : Nat
  watch : Nat
  deriving DecidableEq, Repr

/-- An instruction in a tensor issue queue (R52): its word, its address, and the scalar operands
captured when it was placed there (R262, R279). -/
structure QEnt where
  word : Word
  pc : Addr
  src : List Word
  deriving DecidableEq, Repr

/-- What an instruction in flight that waits at its ports needs to run (R172): its queue entry, the context's
descriptors at its issue, and the slots it is to release. -/
structure Held where
  ent : QEnt
  d : Vector (BitVec 128) 64
  rel : List Nat
  deriving DecidableEq, Repr

/-- A tensor instruction in flight (R59): its context and opcode, the units that run it, the
accumulator sets it holds (4 × array + set), the slots it fills, the scratchpad regions it writes, what it
needs to run where its accesses wait for a port that the bank calendar in force never serves (R172), and the array
mode it runs in (R82). -/
structure Flight where
  ctx : Nat
  op : Nat
  units : List Nat
  accs : List Nat
  fills : List Nat
  regions : List (Nat × Nat)
  held : Option Held
  mode : Nat
  deriving DecidableEq, Repr

/-- An update program under way in a context (R154, R267): what its UPDATE read at issue (R279: the words of its
update block, the operations, the kernel table, the constants k0–k16, the gradient and work descriptors), the
operation its next sweep starts at, the sweep's number, the saved address, whether a CALL kernel
runs, whether URESUME waits, M_s so far, whether a conversion has saturated, the norm sum.  The
element values of registers are not kept between sweeps (each sweep reads what it uses). -/
structure UpdRun where
  blk : List Word
  prog : List Nat
  ktab : List Word
  consts : List W32
  dg : BitVec 128
  dw : BitVec 128
  opAt : Nat
  sweep : Nat
  retPc : Addr
  inKernel : Bool
  busy : Bool
  mMax : Option Int
  sat : Bool
  ssq : W32
  deriving DecidableEq, Repr

/-- A task context (R55, R57); `lastPc` is the address of the last word fetched (R67). -/
structure Ctx where
  st : CtxSt
  pc : Addr
  lastPc : Addr
  g : Vector Word 32
  p : Vector Bool 8
  d : Vector (BitVec 128) 64
  queue : List QEnt
  pour : Option Pour
  resWord : Word
  ringPos : Nat
  lastAbort : Nat
  abortCode : Nat
  abortPc : Nat
  trapCode : Nat
  stopped : Bool
  commitSent : Bool
  updRun : Option UpdRun
  deriving DecidableEq, Repr

def Ctx.reset : Ctx :=
  { st := .idle, pc := 0, lastPc := 0, g := Vector.replicate 32 0, p := Vector.replicate 8 false,
    d := Vector.replicate 64 0, queue := [], pour := none, resWord := 0, ringPos := 0,
    lastAbort := 0, abortCode := 0, abortPc := 0, trapCode := 0, stopped := false,
    commitSent := false, updRun := none }

/-! ### Partitions (chapter 14) -/

/-- Outcome of a dispatched or skipped pour (R309). -/
inductive POut where
  | resident
  | committed
  | replayed
  | aborted
  | killed
  | skipped
  deriving DecidableEq, Repr

/-- The outcomes the dispatcher keeps of one command: its pour count and the outcome of each pour
it has dispatched or skipped; a BARRIER has count 0 (R309). -/
structure CmdOut where
  npour : Nat
  outs : KMap POut
  deriving DecidableEq, Repr

/-- A preemption in progress (R313): start time, new position, named cores, and its counts. -/
structure Preempt where
  t0 : Nat
  newpos : Nat
  cores : List Nat
  killed : Nat
  committed : Nat
  deriving DecidableEq, Repr

/-- Dispatcher and commit unit of one partition: the absolute ring position in dispatch and the
next pour index, the kept outcomes, the cores that have had a pour of the command in dispatch, the
highest closed stamp (R41), the poisoned stamps and the loss-scale state (R109–R111), a preemption,
the command position that DRAIN left to dispatch, and the tuyere credits in bytes by path. -/
structure Part where
  head : Nat
  pourIdx : Nat
  cmds : KMap CmdOut
  seen : List Nat
  closed : Option Nat
  poisoned : List Nat
  lscale : Int
  lsC : Nat
  lsN : Nat
  preempt : Option Preempt
  drainAt : Option (Option Nat)
  credit : KMap Int
  deriving DecidableEq, Repr

/-- A partition at reset. No step is closed, stamp 0 included, until the first RELEASE (R41 states no first
value: DESIGN CHOICE, log entry 109). -/
def Part.reset : Part :=
  { head := 0, pourIdx := 0, cmds := [], seen := [], closed := none, poisoned := [],
    lscale := 0, lsC := 0, lsN := 0x400, preempt := none, drainAt := none, credit := [] }

/-! ### Records, trace and faults (chapters 15, 16, 22) -/

/-- A record waiting to be written: KIND, CODE, the CORE, CTX, PART and PV fields, its time and
body words W2 to W7 (R334). -/
structure Rec where
  kind : Nat
  code : Nat
  core : Nat
  ctx : Nat
  part : Nat
  pv : Bool
  time : Nat
  body : List Word
  deriving DecidableEq, Repr

/-- A record queue (R331–R336): records raised and not yet written, the write in flight
(its words, whether it is an event, the failures so far), whether the next record carries LOST, the number after the last event record
written, and acknowledged records whose RECORD message has not been sent, with their deadline. -/
structure RecQ where
  waiting : List Rec
  inFlight : Option (List Word × Bool × Nat)
  lostMark : Bool
  lastEvent : Nat
  toSend : List (List Word × Nat)
  deriving DecidableEq, Repr

def RecQ.reset : RecQ := ⟨[], none, false, 0, []⟩

/-- The trace FIFO (R470): records of four words; `lostMark`: the next record accepted carries
LOST; `lostWr`: the next record written does. -/
structure Trc where
  fifo : List (List Word)
  lostMark : Bool
  lostWr : Bool
  deriving DecidableEq, Repr

/-- A running or queued self-test request (R349–R352). -/
structure SelfTest where
  phase : Nat
  round : Nat
  failed : List Nat
  deriving DecidableEq, Repr

/-- Faults and monitoring (R347–R362): monitor events since the last tick by input, corrected
counts risen in the period by (die, core, unit, number), the
self-test in progress, and the cores being unfenced (R356). -/
structure Flt where
  events : KMap Nat
  ceRise : List ((Nat × Nat × Nat × Nat) × Nat)
  selfTest : SelfTest
  unfencing : List Nat
  deriving DecidableEq, Repr

/-! ### Caravan ports (chapter 15) -/

/-- A Caravan request that awaits its Erg response (R330): port, tag, the Erg tag it was forwarded
under, and whether it is a read. -/
structure CFwd where
  port : Nat
  tag : Nat
  ergTag : Nat
  isRead : Bool
  deriving DecidableEq, Repr

/-- The link layer of one port, Caravan or Erg (R216, R221, R325): the next sequence number, the
last frame received in order, the frames sent and not acknowledged, the
frame from which a resend runs, the frame that last failed with its failures in succession, and a
retry request owed. -/
structure Link (α : Type) where
  nextSeq : Nat
  rxLast : Nat
  replay : List (Nat × List α)
  resend : Option Nat
  failSeq : Nat
  fails : Nat
  retryOwed : Bool
  deriving DecidableEq, Repr

def Link.reset {α : Type} : Link α := ⟨0, 511, [], none, 0, 0, false⟩

/-- One Caravan port: its link layer, the messages waiting to be sent, the message begun in an earlier frame and
the one received in part, each with its units to come, the tags of its requests started and not answered, and
the frame last placed on its lane. -/
structure CPort where
  link : Link (BitVec 320)
  txq : List CMsg
  carry : Option (CMsg × Nat)
  rxPart : Option (CMsg × Nat)
  open_ : List Nat
  tx : Option Frame
  deriving DecidableEq, Repr

def CPort.reset : CPort := ⟨Link.reset, [], none, none, [], none⟩

/-- The control link: its ports and forwarded requests, and the deadline of the heartbeat timer on the
always-on clock. -/
structure Ctl where
  ports : KMap CPort
  fwd : List CFwd
  hbDeadline : Option Nat
  deriving DecidableEq, Repr

/-! ### Time (chapter 11) -/

/-- The time base (R250–R253): whole ns, the fraction in units of 2^−32 ns, the rate added to the
nominal rate in the same units per ns, the rate of a slew with the nominal ns it still lasts, the last
offsets, the nominal ns that a half-rate run still lasts, and the number of offsets in a row within ±5 ns. -/
structure TimeB where
  now : Nat
  frac : Nat
  rate : Int
  slew : Int
  slewLeft : Nat
  offsets : List Int
  half : Nat
  good : Nat
  deriving DecidableEq, Repr

/-! ### Cores -/

/-- An open loop level of a stream program (R184): its level, the repeats left, the operation after
its LOOP, the offset registers saved at LOOP, and the increments attached to it. -/
structure SLoop where
  level : Nat
  count : Nat
  start : Nat
  saved : List Int
  incs : List (Nat × Int)
  deriving DecidableEq, Repr

/-- One stream context (R181–R186): the task context that runs it, its arguments, and how far its
program has come.  `live` holds the tokens of tiles begun and not yet released (LOAD) or not yet
complete (STORE). -/
structure Stream where
  owner : Option Nat
  store : Bool
  noalloc : Bool
  ops : List Nat
  bases : List Nat
  tok0 : Nat
  ring : Nat
  depth : Nat
  compTok : Nat
  slotOff : Nat
  slotSize : Nat
  pos : Nat
  a : List Int
  loops : List SLoop
  rows : Nat
  rowLen : Nat
  pitch : Nat
  tiles : Nat
  live : List Nat
  ended : Bool
  deriving DecidableEq, Repr

def Stream.reset : Stream :=
  { owner := none, store := false, noalloc := false, ops := [], bases := [], tok0 := 0, ring := 1,
    depth := 0, compTok := 0, slotOff := 0, slotSize := 0, pos := 0, a := [0, 0, 0, 0], loops := [],
    rows := 0, rowLen := 0, pitch := 0, tiles := 0, live := [], ended := false }

/-- One gather engine (R189, R190): the task context that runs it, its arguments, the rows it is to
visit, the visit and the byte within its row that the next request starts at, and the tokens of
slots begun and not yet released (LOAD) or not yet complete (STORE). -/
structure Gath where
  owner : Option Nat
  bitmap : Bool
  store : Bool
  noalloc : Bool
  base : Nat
  stride : Nat
  rowLen : Nat
  bound : Nat
  rows : List Nat
  tok0 : Nat
  ring : Nat
  perSlot : Nat
  depth : Nat
  slotOff : Nat
  pitch : Nat
  visit : Nat
  byteAt : Nat
  open_ : Bool
  live : List Nat
  deriving DecidableEq, Repr

def Gath.reset : Gath :=
  { owner := none, bitmap := false, store := false, noalloc := false, base := 0, stride := 0,
    rowLen := 1, bound := 0, rows := [], tok0 := 0, ring := 1, perSlot := 1, depth := 1, slotOff := 0,
    pitch := 0, visit := 0, byteAt := 0, open_ := false, live := [] }

/-- One accumulator set of an array (R72): accumulator (m, n) is entry 256 m + n of `vals`; an
unlisted entry reads 0, or free value number `gen` when the set's content is undefined.  `isInt`
tells an integer set, `nonfin` is its NONFINITE bit.  `badPar`
marks accumulators with a wrong parity bit (R92), `inject` an injection that waits for the next step
(R93), and `assay` a set that builds a selected tile (R116). -/
structure AccSet where
  isInt : Bool
  vals : SMap W32
  gen : Option Nat
  nonfin : Bool
  badPar : SMap Bool
  inject : Bool
  assay : Bool
  deriving DecidableEq, Repr

def AccSet.reset : AccSet := ⟨false, [], none, false, [], false, false⟩

/-- A product of an assay record (R117): its formats, K, the operand elements presented and their
scales, row by row for A and column by column for B. -/
structure AssayProd where
  fmtA : Nat
  fmtB : Nat
  k : Nat
  a : List (List Nat)
  b : List (List Nat)
  sa : List (List Nat)
  sb : List (List Nat)
  deriving DecidableEq, Repr

/-- An assay record (R117): source core, step stamp, M, N, its products in order, the bias elements with their
format, shift, output format and rounding mode, the conversion fields, the converted tile, and its size in 256-byte
units. -/
structure AssayRec where
  src : Nat
  stamp : Nat
  m : Nat
  n : Nat
  prods : List AssayProd
  biasFmt : Nat
  bias : List Nat
  shift : Int
  outFmt : Nat
  rnd : Nat
  conv : List Nat
  out : List (List Nat)
  units : Nat
  deriving DecidableEq, Repr

/-- An open assay window (R118): its task context, array and set, stream context, first token and
token count, and the budget left in core cycles. -/
structure Window where
  ctx : Nat
  arr : Nat
  acc : Nat
  stream : Nat
  tok0 : Nat
  ntok : Nat
  budget : Nat
  deriving DecidableEq, Repr

/-- The bank calendars of a core (R171–R173): the entries of the two stores and a load that waits to
take effect (store, cycle offset).  Which one is in force stands in SPM_CTRL. -/
structure BankCal where
  store0 : List Word
  store1 : List Word
  waiting : Option (Nat × Nat)
  deriving DecidableEq, Repr

/-- A line of a sequencer cache (R54): its number and its 64 bytes. -/
structure CLine where
  line : Nat
  data : List Byte
  deriving DecidableEq, Repr

/-- One Crucible core: its contexts, the context the sequencer issued from last (R53), the issue stage with its
active context and whether it is to select a new one (R62), tokens with their read bits, the bytes of the
prefetched tile in a slot, the source of a remote tile (node, SRC_CORE and class, R230) and the scratchpad
regions of the slot as it was last filled, instructions in flight, the lines of the two sequencer caches, the
scratchpad with its poisoned words, the regions whose content is undefined (`none` for regions
scrubbed to zero, most recent first) and the quads that are powering up, the calendars, whether the effect
being worked out met a port that its quad does not serve, with the dozing quads it met (`none` between commands), the
accumulator sets (4 × array + set), the engines, and the assay state: ZERO-mode issues since warm
reset, records under construction, the inbound ring and an open window. -/
structure Core where
  ctxs : KMap Ctx
  active : Nat
  lastSeq : Nat
  selecting : Bool
  toks : SMap Tok
  tokRead : SMap Bool
  tokTile : SMap Nat
  tokSrc : KMap (Nat × Nat × Nat)
  tokAt : KMap (List (Nat × Nat))
  flights : List Flight
  iLines : List CLine
  dLines : List CLine
  spm : SMap Byte
  spmBad : SMap Bool
  spmCtl : SMap Bool
  spmOver : List (Nat × Nat × Option Nat)
  powering : List (Nat × Option Nat)
  cal : BankCal
  scrubbing : Bool
  unserved : Option (List Nat)
  accs : KMap AccSet
  streams : KMap Stream
  gaths : KMap Gath
  zeroSeq : Nat
  assayOpen : KMap AssayRec
  assayRing : List AssayRec
  window : Option Window
  deriving DecidableEq, Repr

def Core.reset : Core :=
  { ctxs := [], active := 0, lastSeq := 3, selecting := false, toks := [], tokRead := [], tokTile := [],
    tokSrc := [], tokAt := [], flights := [], iLines := [],
    dLines := [], spm := [], spmBad := [], spmCtl := [], spmOver := [], powering := [], cal := ⟨[], [], none⟩,
    scrubbing := false, unserved := none, accs := [], streams := [], gaths := [], zeroSeq := 0, assayOpen := [],
    assayRing := [], window := none }

/-- The Sprue cache of one die (R191–R193): the line number held in each way, by
(bank × 512 + set) × 16 + way, and the fills outstanding: line, whether the line is to be kept, and
the partition it is allocated for, and when each way last held an uncorrectable line (R194).  Its data is what
tier memory holds, because every write drops the lines it touches (R192). -/
structure Sprue where
  lines : KMap Nat
  fills : List (Nat × Bool × Nat)
  ueAt : KMap Nat
  deriving DecidableEq, Repr

def Sprue.reset : Sprue := ⟨[], [], []⟩

/-! ### The device -/

/-- What made a request of this device (R232–R235, R244, R330, R373): a pour, the collective engine of a
group, the checkpoint engine for one block of a page, the control node through a Caravan port, a
commit's notice (its counter, stamp and partition), or a quench sent through a hub. -/
inductive ReqBy where
  | pour
  | engine (group : Nat)
  | ckpt (hub : Nat)
  | caravan
  | notice (target ctr stamp : Nat)
  | quench (hub : Nat)
  deriving DecidableEq, Repr

/-- A request of this device that awaits its response (R232, R233): the packet, what made it, its
partition, core and context (core 0xFF for another agent), the nodes whose answer is awaited, the slot
token that goes FULL when it is answered, the tile rows its payload goes to (offset, pitch, row length
and place in the packed rows), when it was sent, and, for a multicast write, whether it has been sent from the
retained buffer and the number of its transfer (R249). -/
structure ErgReq where
  pkt : Packet
  origin : ReqBy
  part : Nat
  core : Nat
  ctx : Nat
  wait : List Nat
  fill : Option Nat
  spmAt : Option (Nat × Nat × Nat × Nat)
  sentAt : Nat
  sent : Bool
  xfer : Nat
  deriving DecidableEq, Repr

/-- One Erg port (R216–R223, R236, R251): its link layer, the packets waiting in each class, the packet
begun in an earlier slot with its flits left, the credits held and the credits due in each class, the
input buffer, the packet received in part with the flits that are to come, the number of the next slot since
the calendar in force began, the calendar an ARM is to bring into force (0 default, 1 and 2 the stores), the
frame last placed on its lanes, the partner's node, port and valid mark as its training frames give them, and
whether a BEACON is to be sent. -/
structure EPort where
  link : Link (BitVec 320)
  txq : KMap (List Packet)
  carry : Option (Packet × Nat)
  credit : List Nat
  due : List Nat
  rxq : List Packet
  rxPart : Option (Packet × Nat)
  slot : Nat
  armed : Option Nat
  tx : Option Frame
  peer : Option (Nat × Nat × Bool)
  beaconDue : Bool
  deriving DecidableEq, Repr

def EPort.reset : EPort :=
  { link := Link.reset, txq := [], carry := none, credit := List.replicate 8 1024, due := List.replicate 8 0,
    rxq := [], rxPart := none, slot := 0, armed := none, tx := none, peer := none, beaconDue := false }

/-- A chunk of a reduction node held in an engine's staging (R244): its group and chunk number, the
members [a, b) it covers, its elements as 32-bit values, its flag, the stamp of member 0's leaf when it
covers member 0, and since when it has waited. -/
structure Chunk where
  group : Nat
  chunk : Nat
  a : Nat
  b : Nat
  vals : List W32
  flag : Bool
  stamp : Nat
  since : Nat
  deriving DecidableEq, Repr

/-- A member dropped from a multicast transfer (R249): group, node, number of the transfer and time, and whether
what it lacks has been resent. -/
structure MDrop where
  group : Nat
  node : Nat
  xfer : Nat
  time : Nat
  resent : Bool
  deriving DecidableEq, Repr

/-- How a request reaches the hub that performs it: from an Erg port, or from an agent of this device at a hub
(R214). -/
inductive Via
  | port (p : Nat)
  | own (hub : Nat)
  deriving DecidableEq, Repr

/-- An access of the EXT port that waits: a request to perform, a response whose payload is to be stored, or a
Caravan access of control port `k` with its tag, partition, address, units and write data; or a power-down of quads
that SPM_POWER asks for, which waits for the accesses before it (R177, R178). -/
inductive ExtReq
  | perform (v : Via) (q : Packet)
  | store (q : Packet)
  | caravan (k tag part addr units : Nat) (data : Option (List (Word × Bool)))
  | down (c mask : Nat)
  deriving DecidableEq, Repr

/-- A waiting access of the EXT ports of some cores (R176, R177). -/
structure ExtHeld where
  cores : List Nat
  req : ExtReq
  deriving DecidableEq, Repr

/-- The Erg fabric of the device: its 12 ports, the engines' staging, the members dropped from multicast
transfers, the number of the next transfer, the packets that wait at a tuyere with their port and the die
they come from, in order of arrival (R319), and the accesses that wait at EXT ports, in order of arrival. -/
structure Erg where
  ports : KMap EPort
  staging : List Chunk
  dropped : List MDrop
  nextXfer : Nat
  metered : List (Nat × Nat × Packet)
  ext : List ExtHeld
  deriving DecidableEq, Repr

def Erg.reset : Erg := ⟨[], [], [], 0, [], []⟩

/-- One channel of a tier controller (R202–R208): the queues of its sources, of which the first 32 entries
are in the queue and the requesters of the others wait for room (R203), its refresh debt and the next bank of
the rotation, the number of the next slot since the calendar's activation, the banks under refresh with the
slots left, the sources whose head has been read for a read-merge-write, and the failed attempts of each
source's head. -/
structure TChan where
  queues : KMap (List TierReq)
  debt : Int
  nextBank : Nat
  slot : Nat
  busy : List (Nat × Nat)
  rmw : List Nat
  tries : KMap Nat
  deriving DecidableEq, Repr

def TChan.reset : TChan := ⟨[], 0, 0, 0, [], [], []⟩

/-- An answer of a tier controller: the request, its status in the codes of R220, and whether the codewords
delivered are poisoned (R200). -/
structure TierAns where
  req : TierReq
  status : Nat
  poison : Bool
  deriving DecidableEq, Repr

/-- One tier controller (R206–R211): its channels, the calendar an ARM is to bring into force, the time of
the last CALENDAR_OVERRUN event and whether an overrun has been logged without its event since, whether it
retrains, the row under soft repair as channel, bank and row, whether it has faulted, the lines poisoned by
failed CRC checks with their times, the requests held at protected pages with their channel and source, first
held first (R368), and the answers of its last command. -/
structure TCtl where
  chans : KMap TChan
  armed : Option Nat
  lastEvent : Option Nat
  eventOwed : Bool
  retraining : Bool
  repair : Option (Nat × Nat × Nat)
  faulted : Bool
  poison : List (Nat × Nat)
  held : List (Nat × Nat × TierReq)
  answers : List TierAns
  deriving DecidableEq, Repr

def TCtl.reset : TCtl := ⟨[], none, none, false, false, none, false, [], [], []⟩

/-- The checkpoint engines (R365–R377): the pages of the epoch or fill in index order and its run list,
the pages protected and, of those, the ones writes wait on in order of first wait, the pages being read
with their hub, the page indices copied, what memory, its poison and its undefined regions were at TIME_OPEN, the partition's
state then (closed stamp, L, C, N), the digests of the pages, writes and reads still to be sent (store,
offset and content or length), what a fill has read by store offset, and how far the job has come. -/
structure Ckpt where
  pages : List Nat
  runs : List Word
  prot : List Nat
  waiting : List Nat
  reading : List (Nat × Nat)
  copied : List Nat
  image : List Host.Cell
  imageBad : SMap Bool
  imageUndef : List (Nat × Nat × Nat)
  closed : Nat
  l : Int
  clean : Nat
  raise : Nat
  timeDone : Nat
  digests : KMap (BitVec 256)
  wrq : List (Nat × Nat × List Byte)
  rdq : List (Nat × Nat × Nat)
  buf : SMap Byte
  phase : Nat
  deriving DecidableEq, Repr

def Ckpt.reset : Ckpt := ⟨[], [], [], [], [], [], [], [], [], 0, 0, 0, 0, 0, [], [], [], [], 0⟩

/-- The clock tree: PLLs by 8 × die + PLL number, domain instances by 8 × die + domain code, and
the crossings that have timed out. -/
structure Clk where
  plls : KMap PllRun
  doms : KMap DomRun
  tuned : KMap Nat
  lostCrossings : List Crossing
  deriving DecidableEq, Repr

/-- The device.  `memUndef` lists the regions of tier memory whose content is undefined, as first byte, end and
number of the free value (R27, R34, R376, R409); `metered` holds the tier requests that wait at a tuyere, with
their controller, in order of arrival (R319). -/
structure State where
  regs : SMap Word
  time : TimeB
  pins : Pins
  clk : Clk
  doze : KMap DozeUnit
  boot : Boot
  mram : Mram
  sec : Sec
  mem : List Host.Cell
  memBad : SMap Bool
  memUndef : List (Nat × Nat × Nat)
  cores : KMap Core
  sprue : KMap Sprue
  tier : KMap TCtl
  metered : List (Nat × TierReq)
  d2d : KMap Nat
  ckpt : Ckpt
  parts : KMap Part
  recq : KMap RecQ
  trc : Trc
  flt : Flt
  ctl : Ctl
  erg : Erg
  ergReqs : List ErgReq
  pending : List Instr
  free : Nat
  deriving DecidableEq, Repr

/-- Why the machine stops. -/
inductive Fault where
  /-- For an access to an address that does not exist and that no rule gives an answer for.  Every access
  the spec describes has its answer (BAD_ADDRESS, an abort, an error response), so no command raises it;
  it would be safe, the machine stops. -/
  | noSuchAddress
  deriving DecidableEq, Repr

/-- Why a command has no next state. -/
inductive Refusal where
  /-- Raised by a dispatch arm without a meaning; safe. -/
  | notModelled (mnemonic : String)
  /-- Raised by a command that names a unit the device does not have (a core above 159, a port
  above 11): such a command cannot arise; safe. -/
  | noSuchUnit (mnemonic : String)
  deriving DecidableEq, Repr

/-- MRAM of a device as shipped: the model's one device (log entry 3). -/
def Mram.shipped : Mram :=
  { serial := 0, trim := 0, keyId := 0, recA := some ⟨0, 0⟩, recB := some ⟨0, 0⟩, certs := [],
    minSvn := 0, disable0 := false, auth := [], label := [], replaceMark := false, cper := [], cperAt := 0 }

def Pins.reset : Pins :=
  { rstN := false, pwrgood := true, strapPins := 0, strapsHeld := 0, fault := false,
    thermtrip := false, sensors := [], smbOut := [],
    lasersOn := false, ergTxIdle := true, clkoutHz := none, uvHold := [],
    tap := ⟨0x3F, 0, 0⟩ }

/-- The machine right after reset: RST_N low with power good, stage RESET. -/
def State.reset : State :=
  { regs := [], time := ⟨0, 0, 0, 0, 0, [], 0, 0⟩, pins := Pins.reset, clk := ⟨[], [], [], []⟩,
    doze := [], boot := ⟨[], 0, [], [], [], none, 0, false⟩, mram := Mram.shipped,
    sec := ⟨0, [], [], [], [], [], false, false, none, [], [], 0, 0⟩, mem := [], memBad := [],
    memUndef := [], cores := [], sprue := [], tier := [], metered := [], d2d := [], ckpt := Ckpt.reset, parts := [], recq := [], trc := ⟨[], false, false⟩,
    flt := ⟨[], [], ⟨0, 0, []⟩, []⟩, ctl := ⟨[], [], none⟩, erg := Erg.reset, ergReqs := [], pending := [], free := 0 }

end Sys2Proof.Machine
end

