-- ==== Sys2Proof/Machine/Ops.lean ====
section
/-! DEFINITION. The named operations every meaning is built from: reading and writing registers by
field, units of the device, tier memory, counters, trace records, event and completion records,
CPER records, health-monitor inputs, shared-structure faults and DRAIN, error logs, and the start of
an abort of a pour. -/

namespace Sys2Proof.Machine

/-! ### Registers -/

/-- The stored word of the register at a canonical offset. -/
def rd (s : State) (off : Nat) : Word := smGet (regReset off) s.regs off

/-- Replace the stored word of a register. -/
def rwr (s : State) (off : Nat) (v : Word) : State :=
  { s with regs := smSet (regReset off) s.regs off v }

/-- A field of a register, as a number. -/
def rget (s : State) (off : Nat) (f : Fld) : Nat := wfld (rd s off) f.hi f.lo

/-- A one-bit field. -/
def rflag (s : State) (off : Nat) (f : Fld) : Bool := rget s off f = 1

/-- Set a field of a register. -/
def rput (s : State) (off : Nat) (f : Fld) (v : Nat) : State :=
  rwr s off (wput (rd s off) f.hi f.lo v)

/-- Set one bit of a register (a W1C flag raised by hardware, R474). -/
def rset (s : State) (off : Nat) (f : Fld) : State := rput s off f 1

/-- The present time in ns (R250). -/
def now (s : State) : Nat := s.time.now

/-- The present time as a register value. -/
def nowW (s : State) : Word := BitVec.ofNat 64 s.time.now

/-- Take one free value number. -/
def useFree (s : State) : Nat × State := (s.free, { s with free := s.free + 1 })

/-! ### Outcomes -/

/-- The outcome of a command. -/
abbrev Out := Host.Outcome State Fault Refusal

/-- Run `k` where the command names units the device has; otherwise the command cannot arise. -/
def onUnit (ok : Bool) (mnemonic : String) (k : Out) : Out :=
  if ok then k else .refused (.noSuchUnit mnemonic)

/-! ### Units -/

def coreOf (s : State) (c : Nat) : Core := kGet Core.reset s.cores c

def setCore (s : State) (c : Nat) (k : Core) : State := { s with cores := kSet s.cores c k }

def modCore (s : State) (c : Nat) (f : Core → Core) : State := setCore s c (f (coreOf s c))

def ctxOfCore (k : Core) (x : Nat) : Ctx := kGet Ctx.reset k.ctxs x

def ctxOf (s : State) (c x : Nat) : Ctx := ctxOfCore (coreOf s c) x

def setCtx (s : State) (c x : Nat) (t : Ctx) : State :=
  modCore s c (fun k => { k with ctxs := kSet k.ctxs x t })

def modCtx (s : State) (c x : Nat) (f : Ctx → Ctx) : State := setCtx s c x (f (ctxOf s c x))

def partOf (s : State) (p : Nat) : Part := kGet Part.reset s.parts p

def setPart (s : State) (p : Nat) (k : Part) : State := { s with parts := kSet s.parts p k }

def modPart (s : State) (p : Nat) (f : Part → Part) : State := setPart s p (f (partOf s p))

def recqOf (s : State) (q : Nat) : RecQ := kGet RecQ.reset s.recq q

def modRecq (s : State) (q : Nat) (f : RecQ → RecQ) : State :=
  { s with recq := kSet s.recq q (f (recqOf s q)) }

def cportOf (s : State) (k : Nat) : CPort := kGet CPort.reset s.ctl.ports k

def modCport (s : State) (k : Nat) (f : CPort → CPort) : State :=
  { s with ctl := { s.ctl with ports := kSet s.ctl.ports k (f (cportOf s k)) } }

def nCores : Nat := 160
def nParts : Nat := 8

/-- The die of a core (R5). -/
def dieOfCore (c : Nat) : Nat := c / 40

/-! ### Partitions and fences -/

/-- PART_CTRL.STATE: 0 FREE, 1 ACTIVE, 2 RELEASING. -/
def partState (s : State) (p : Nat) : Nat := rget s (rPART_CTRL p) fPART_CTRL_STATE

/-- Is bit `c` of a core mask held in three registers set? -/
def coreMaskBit (s : State) (off : Nat → Nat) (c : Nat) : Bool := wbit (rd s (off (c / 64))) (c % 64)

/-- The cores named in a three-register mask. -/
def coreMaskList (s : State) (off : Nat → Nat) : List Nat :=
  (List.range nCores).filter (coreMaskBit s off)

def partHasCore (s : State) (p c : Nat) : Bool := coreMaskBit s (fun i => rPART_CORES p i) c

def coresOfPart (s : State) (p : Nat) : List Nat := coreMaskList s (fun i => rPART_CORES p i)

/-- The partition, not FREE, that owns a core (R300). -/
def ownerOfCore (s : State) (c : Nat) : Option Nat :=
  (List.range nParts).find? (fun p => partState s p ≠ 0 && partHasCore s p c)

/-- Fence state of a core (R348): 0 unfenced, 1 FAULT, 2 TEST. -/
def fenceOf (s : State) (c : Nat) : Nat :=
  wfld (rd s (rFLT_FENCE (c / 32))) (2 * (c % 32) + 1) (2 * (c % 32))

def setFence (s : State) (c v : Nat) : State :=
  rwr s (rFLT_FENCE (c / 32)) (wput (rd s (rFLT_FENCE (c / 32))) (2 * (c % 32) + 1) (2 * (c % 32)) v)

/-- Cores fenced FAULT (1) or TEST (2). -/
def fencedCores (s : State) (v : Nat) : List Nat := (List.range nCores).filter (fun c => fenceOf s c = v)

/-- CTL_STATE.STATE (R343): 0 UNADOPTED, 1 ADOPTED, 2 ORPHAN, 3 CAIRN. -/
def ctlState (s : State) : Nat := rget s rCTL_STATE fCTL_STATE_STATE

/-- BOOT_STATUS.STAGE (R428). -/
def bootStage (s : State) : Nat := rget s rBOOT_STATUS fBOOT_STATUS_STAGE

/-! ### The local physical map and tier memory -/

def isTier1 (a : Nat) : Bool := a < 0x018000000000
def isTier2 (a : Nat) : Bool := 0x020000000000 ≤ a && a < 0x028000000000
def isTier (a : Nat) : Bool := isTier1 a || isTier2 a

/-- The core and scratchpad offset of an address in a scratchpad window (R15). -/
def spmWindow (a : Nat) : Option (Nat × Nat) :=
  if 0x030000000000 ≤ a ∧ a < 0x030140000000 ∧ (a - 0x030000000000) % 0x2000000 < 0x1000000 then
    some ((a - 0x030000000000) / 0x2000000, (a - 0x030000000000) % 0x2000000)
  else none

def isRegSpace (a : Nat) : Bool := 0x040000000000 ≤ a && a < 0x040100000000

/-- An address in a reserved range of the local map (R15). -/
def isReservedAddr (a : Nat) : Bool := !(isTier a || (spmWindow a).isSome || isRegSpace a)

/-- Die of a tier-1 address, hub of a tier-2 address, and its line number there. -/
def tierSplit (a : Nat) : Option (Bool × Nat × Nat) :=
  if isTier1 a then some (true, a / 0x006000000000, (a % 0x006000000000) / 256)
  else if isTier2 a then
    some (false, (a - 0x020000000000) / 0x004000000000, ((a - 0x020000000000) % 0x004000000000) / 256)
  else none

/-- The tier controller of an address: 0–23 for S0–S23, 24–31 for T0–T7. -/
def stackOf (a : Nat) : Option Nat :=
  match tierSplit a with
  | some (true, d, l) => some (6 * d + l % 6)
  | some (false, h, l) => some (24 + 4 * h + l % 4)
  | none => none

/-- Does the controller of a tier address answer every request with an error: after a controller fault or
while a soft repair runs (R210, R211)? -/
def tierDown (s : State) (a : Nat) : Bool :=
  match stackOf a with
  | some n => (kGet TCtl.reset s.tier n).faulted || (kGet TCtl.reset s.tier n).repair.isSome
  | none => false

/-- The number of the free value that an undefined byte has. -/
def undefGen : List (Nat × Nat × Nat) → Nat → Option Nat
  | [], _ => none
  | (lo, hi, g) :: l, a => if lo ≤ a ∧ a < hi then some g else undefGen l a

/-- A list of undefined regions without the bytes from `a` to before `b`. -/
def undefCut (l : List (Nat × Nat × Nat)) (a b : Nat) : List (Nat × Nat × Nat) :=
  l.flatMap (fun (lo, hi, g) => [(lo, min hi a, g), (max lo b, hi, g)].filter (fun r => decide (r.1 < r.2.1)))

/-- A byte of listed cells, where no undefined region covers it. -/
def cellByte (m : List Host.Cell) (u : List (Nat × Nat × Nat)) (a : Nat) : Byte :=
  match undefGen u a with
  | some g => Config.freeByte g a
  | none => smGet 0 m a

/-- One byte of tier memory; a byte nothing has written reads as 0 (log entry 2). -/
def memByte (s : State) (a : Nat) : Byte := cellByte s.mem s.memUndef a

/-- The `n` bytes of tier memory from `a`. -/
def memBytes (s : State) (a n : Nat) : List Byte := (List.range n).map (fun i => memByte s (a + i))

/-- Does a byte of a range lie at a controller that answers with errors? -/
def tierDownIn (s : State) (a n : Nat) : Bool :=
  !s.tier.isEmpty && (List.range ((a + n + 255) / 256 - a / 256)).any (fun i => tierDown s ((a / 256 + i) * 256))

/-- Does any of the codewords that hold bytes `a` to `a + n − 1` carry the poison mark (R345)? -/
def poisonIn (s : State) (a n : Nat) : Bool :=
  (List.range ((a + n + 7) / 8 - a / 8)).any (fun i => smGet false s.memBad (a / 8 + i))

/-- Do `n` bytes from `a` not read: a poisoned codeword, or a controller that answers with errors? -/
def memBadIn (s : State) (a n : Nat) : Bool := tierDownIn s a n || poisonIn s a n

/-- Does a write of `n` bytes at `a` answer with an error: its controller is down (R210, R211), or a 32-byte
unit it covers in part is poisoned, so that its read-merge-write fails (R201)? -/
def writeFails (s : State) (a n : Nat) : Bool :=
  tierDownIn s a n ||
  (decide (a % 32 ≠ 0) && poisonIn s (a / 32 * 32) 32) ||
  (decide ((a + n) % 32 ≠ 0) && poisonIn s ((a + n) / 32 * 32) 32)

/-- The 64-bit word at an 8-byte aligned tier address. -/
def memWord (s : State) (a : Nat) : Word := BitVec.ofNat 64 (ofBytesLE (memBytes s a 8))

def memPutByte (m : List Host.Cell) (a : Nat) (b : Byte) : List Host.Cell := smSet 0 m a b

def memPutBytes : List Host.Cell → Nat → List Byte → List Host.Cell
  | m, _, [] => m
  | m, a, b :: bs => memPutBytes (memPutByte m a b) (a + 1) bs

/-- Store the bytes whose controller takes writes (R210, R211). -/
def memPutUp (s : State) : List Host.Cell → Nat → List Byte → List Host.Cell
  | m, _, [] => m
  | m, a, b :: bs => memPutUp s (if tierDown s a then m else memPutByte m a b) (a + 1) bs

/-- Make `n` bytes of tier memory from `a` undefined: free value `g`. -/
def memUndefine (s : State) (g a n : Nat) : State :=
  { s with mem := smKeep (fun b => !(decide (a ≤ b) && decide (b < a + n))) s.mem
           memUndef := (if n = 0 then [] else [(a, a + n, g)]) ++ undefCut s.memUndef a (a + n) }

/-- The undefined regions once `n` bytes from `a` are written, as far as their controllers take writes. -/
def undefWritten (s : State) (a n : Nat) : List (Nat × Nat × Nat) :=
  if s.memUndef.isEmpty then []
  else if s.tier.isEmpty then undefCut s.memUndef a (a + n)
  else ((List.range ((a + n + 255) / 256 - a / 256)).filter (fun i => !tierDown s ((a / 256 + i) * 256))).foldl
    (fun u i => undefCut u (max a ((a / 256 + i) * 256)) (min (a + n) ((a / 256 + i + 1) * 256))) s.memUndef

/-- The canonical form of tier memory. -/
def memWf (s : State) : Bool := smWf (fun _ => (0 : Byte)) s.mem

/-- Mark or clear the poison of the codeword holding address `a`. -/
def setBad (s : State) (a : Nat) (b : Bool) : State :=
  { s with memBad := smSet false s.memBad (a / 8) b }

/-! ### Trace records (R470, R471) -/

def traceOn (s : State) (kind : Nat) : Bool :=
  rflag s rTRC_CTRL fTRC_CTRL_ENABLE && wbit (rd s rTRC_CTRL) kind

/-- Add to a counter without recording a saturation (used for the trace's own drop counters). -/
def countRaw (s : State) (off n : Nat) : State :=
  let c := rget s off fCNT_CORE_COUNT
  let s1 := rput s off fCNT_CORE_COUNT (min (c + n) 0xFFFFFFFFFFFF)
  if c + n > 0xFFFFFFFFFFFF then rset s1 off fCNT_CORE_OVF else s1

/-- Accept a trace record into the FIFO, or drop it when the FIFO holds 4,096 (R470). -/
def traceRec (s : State) (kind die core part : Nat) (pv : Bool) (w2 w3 : Word) : State :=
  if !traceOn s kind || s.pins.thermtrip then s
  else if s.trc.fifo.length ≥ 4096 then
    let s1 := { s with trc := { s.trc with lostMark := true } }
    countRaw (rset s1 rTRC_STATUS fTRC_STATUS_LOST) (rCNT_DEV 0x4710) 1
  else
    let w0 := BitVec.ofNat 64 (kind <<< 56 + (die % 8) <<< 53 + (core % 256) <<< 45 +
      (part % 8) <<< 42 + b2n pv <<< 41 + b2n s.trc.lostMark <<< 40)
    { s with trc := { s.trc with fifo := s.trc.fifo ++ [[w0, nowW s, w2, w3]], lostMark := false } }

/-! ### Counters (R465, R466) -/

/-- The identifier of the counter at an offset (R467). -/
def counterId (off : Nat) : Nat :=
  if off < 0x2000000 then ((off - 0x1000000) / 0x10000) * 0x100 + (off % 0x1000) / 8
  else 0x100000 + (off - 0x3900000) / 8

def isCounterOff (off : Nat) : Bool :=
  (0x1000000 ≤ off && off < 0x1A00000 && (off % 0x10000) / 0x1000 = 7) ||
  (0x3900000 ≤ off && off < 0x4000000)

/-- The die and core (0xFF for none) at which the counter at an offset counts. -/
def counterSite (off : Nat) : Nat × Nat :=
  if off < 0x2000000 then
    let c := (off - 0x1000000) / 0x10000
    (dieOfCore c, c)
  else
    let j := (off - 0x3900000) / 8
    if j < 12288 then (j / 16 / 192, 0xFF)
    else if j < 14336 then (4 + (j / 16 - 768) / 64, 0xFF)
    else if 0x4000 ≤ j ∧ j < 0x4300 then (4 + (j - 0x4000) / 384, 0xFF)
    else if 0x4600 ≤ j ∧ j < 0x4640 then ((j - 0x4600) / 16, 0xFF)
    else (6, 0xFF)

/-- Is some OVF bit of the device set? -/
def anyOvf (s : State) : Bool := s.regs.any (fun (k, v) => isCounterOff k && wbit v 48)

/-- Count `n` occurrences at the counter whose register is at `off`: saturating, with the sticky
OVF bit, CNT_SAT for the first counter saturated, and the COUNTER_SAT trace record (R465). -/
def countUp (s : State) (off n : Nat) : State :=
  if rget s off fCNT_CORE_COUNT + n > 0xFFFFFFFFFFFF && !rflag s off fCNT_CORE_OVF then
    let id := counterId off
    let s1 := if anyOvf s then s else rwr s rCNT_SAT (BitVec.ofNat 64 id)
    let s2 := countRaw s1 off n
    traceRec s2 5 (counterSite off).1 (counterSite off).2 0 false (BitVec.ofNat 64 id) 0
  else countRaw s off n

/-- A per-core counter (R468). -/
def countCore (s : State) (c i n : Nat) : State := countUp s (rCNT_CORE c i) n

/-- A device counter (R469). -/
def countDev (s : State) (j n : Nat) : State := countUp s (rCNT_DEV j) n

/-! ### Writes into tier memory and the Sprue cache (R192) -/

def sprueOf (s : State) (d : Nat) : Sprue := kGet Sprue.reset s.sprue d

def setSprue (s : State) (d : Nat) (k : Sprue) : State := { s with sprue := kSet s.sprue d k }

/-- Drop from one die's cache every line that passes `hit`; fills under way are not kept. -/
def dropSprue (s : State) (d : Nat) (hit : Nat → Bool) : State :=
  let k := sprueOf s d
  let gone := k.lines.filter (fun (_, l) => hit l)
  if gone.isEmpty && !(k.fills.any (fun (l, _, _) => hit l)) then s
  else
    let k1 := { k with
      lines := k.lines.filter (fun (_, l) => !hit l)
      fills := k.fills.map (fun (l, kp, p) => (l, kp && !hit l, p)) }
    countUp (setSprue s d k1) (rCNT_DEV (0x4600 + 16 * d + 6)) gone.length

/-- Drop the lines of a byte range from the caches of all four compute dies. -/
def dropLines (s : State) (a n : Nat) : State :=
  (List.range 4).foldl (fun t d =>
    dropSprue t d (fun l => decide (a / 256 ≤ l) && decide (l ≤ (a + n - 1) / 256))) s

/-- Store bytes into tier memory: a codeword wholly rewritten gets fresh check bits, and the caches
drop the lines touched. -/
def memWrite (s : State) (a : Nat) (bs : List Byte) : State :=
  let s' := { s with mem := if s.tier.isEmpty then memPutBytes s.mem a bs else memPutUp s s.mem a bs
                     memUndef := undefWritten s a bs.length }
  dropLines (((List.range (bs.length / 8 + 1)).filter (fun i =>
      a ≤ (a / 8 + i) * 8 && (a / 8 + i) * 8 + 8 ≤ a + bs.length)).foldl
    (fun t i => setBad t ((a / 8 + i) * 8) false) s') a bs.length

/-- Core `c` drops the data-cache lines that a write of its units touches, before it reports the write as
complete (R269). -/
def dropData (s : State) (c a n : Nat) : State :=
  modCore s c (fun k => { k with
    dLines := k.dLines.filter (fun l => !(decide (a / 64 ≤ l.line) && decide (l.line ≤ (a + n - 1) / 64))) })

/-- Store a 64-bit word, low byte first. -/
def memWriteWord (s : State) (a : Nat) (w : Word) : State := memWrite s a (bytesLE 8 w.toNat)

/-! ### Health monitor inputs (R347, R353) -/

/-- Events of a monitor input, counted at their source until the next tick. -/
def monEvent (s : State) (i n : Nat) : State :=
  { s with flt := { s.flt with events := kSet s.flt.events i (kGet 0 s.flt.events i + n) } }

/-- A corrected codeword (R345, R347): monitor input 0 for one bit, 1 for two, and the count of its structure
that CE_SUMMARY_PERIOD reports (R361); `u` is die, core, unit and number. -/
def ceFound (s : State) (u : Nat × Nat × Nat × Nat) (two : Bool) : State :=
  let s1 := monEvent s (b2n two) 1
  let n := ((s1.flt.ceRise.find? (fun r => r.1 = u)).map (fun r => r.2)).getD 0
  { s1 with flt := { s1.flt with ceRise := s1.flt.ceRise.filter (fun r => decide (r.1 ≠ u)) ++ [(u, n + 1)] } }

/-! ### Event and completion records (R331–R335) -/

/-- No record, CPER entry or event is written after a thermal trip (R463); no record queue is
written in the Cairn state (R438). -/
def recordsOff (s : State) : Bool := s.pins.thermtrip || ctlState s = 3

/-- Put a record into queue `q`; a record for a disabled queue is dropped, and a completion record so dropped
is no longer owed (R332). -/
def postRec (s : State) (q : Nat) (r : Rec) : State :=
  if recordsOff s then s
  else if rflag s (rCQ_CFG q) fCQ_CFG_ENABLE then
    modRecq s q (fun k => { k with waiting := k.waiting ++ [r] })
  else
    let s1 := rset (modRecq s q (fun k => { k with lostMark := true })) (rCQ_STATUS q) fCQ_STATUS_LOST
    if r.kind = 1 then rput s1 (rCQ_STATUS q) fCQ_STATUS_RSV (rget s1 (rCQ_STATUS q) fCQ_STATUS_RSV - 1) else s1

/-- Raise a device event into queue 8 (R335). -/
def raiseDev (s : State) (code core : Nat) (body : List Word) : State :=
  postRec s 8 ⟨2, code, core, 0, 0, false, now s, body⟩

/-- Raise an event of partition `p`: into its queue, or into queue 8 when it is not ACTIVE
(R332). -/
def raisePart (s : State) (p code core ctx : Nat) (body : List Word) : State :=
  postRec s (if partState s p = 1 then p else 8) ⟨2, code, core, ctx, p, true, now s, body⟩

/-- The ring size of record queue `q` (R343: LOG2_SIZE below 6 acts as 6, above 20 as 20). -/
def recRingSize (s : State) (q : Nat) : Nat :=
  2 ^ (max 6 (min 20 (rget s (rCQ_CFG q) fCQ_CFG_LOG2_SIZE)))

/-- Level of ALERT_N, `true` for asserted (R336): some queue with ALERT = 1 holds an event record
at or after its HEAD. -/
def alertAsserted (s : State) : Bool :=
  (List.range 9).any (fun q =>
    rflag s (rCQ_CFG q) fCQ_CFG_ALERT &&
      (let d := ((recqOf s q).lastEvent + 2 ^ 32 - rget s (rCQ_PTR q) fCQ_PTR_HEAD) % 2 ^ 32
       decide (0 < d ∧ d < 2 ^ 31)))

/-! ### CPER records (R361, R362, R478) -/

/-- What a CPER record tells (R362, Table: Vendor section). -/
structure CperInfo where
  severity : Nat
  source : Nat
  count : Nat
  die : Nat
  core : Nat
  unit : Nat
  inst : Nat
  part : Nat
  addr : Nat
  stamp : Nat
  ringPos : Nat
  detail : Word
  memAddr : Option Nat
  deriving DecidableEq, Repr

/-- A record with nothing but its severity, source, die and unit. -/
def cperInfo (severity source die unit inst : Nat) : CperInfo :=
  ⟨severity, source, 1, die, 0xFF, unit, inst, 0xFF, 0, 0, 0, 0, none⟩

/-- The CORE, PART, STAMP and RING_POS fields of a record about the pour in a context. -/
def cperPour (s : State) (c x : Nat) (i : CperInfo) : CperInfo :=
  match (ctxOf s c x).pour with
  | some p => { i with core := c, part := p.part, stamp := p.stamp, ringPos := p.pos % 2 ^ 32 }
  | none => { i with core := c }

/-- The Tathen GUID 8F3A1C27-5D40-4B9E-A612-7C0E93D4B158 in the byte order of UEFI (PRESUMED, log
entry 4). -/
def tathenGuid : List Byte :=
  [0x27, 0x1C, 0x3A, 0x8F, 0x40, 0x5D, 0x9E, 0x4B, 0xA6, 0x12, 0x7C, 0x0E, 0x93, 0xD4, 0xB1, 0x58]

/-- Local node identifier (R239). -/
def nodeId (s : State) : Nat := rget s (rFAB_NODE) fFAB_NODE_NODE

/-- The vendor section (R362, Table: Vendor section): 96 bytes. -/
def cperVendor (s : State) (i : CperInfo) : List Byte :=
  bytesLE 2 1 ++ bytesLE 2 i.source ++ bytesLE 4 i.count ++ bytesLE 8 (now s) ++
  bytesLE 2 (nodeId s) ++ bytesLE 1 i.die ++ bytesLE 1 i.core ++ bytesLE 1 i.unit ++
  bytesLE 1 i.inst ++ bytesLE 1 i.part ++ bytesLE 1 (rget s rFLT_HM_RISK fFLT_HM_RISK_RISK) ++
  bytesLE 8 i.addr ++ bytesLE 4 i.stamp ++ bytesLE 4 i.ringPos ++ bytesLE 2 0x0101 ++
  bytesLE 6 0 ++ bytesLE 8 i.detail.toNat ++ bytesLE 40 0

/-- One section descriptor of 72 bytes (UEFI layout, PRESUMED, log entry 4). -/
def cperSection (offset length : Nat) (ty : List Byte) (sev : Nat) : List Byte :=
  bytesLE 4 offset ++ bytesLE 4 length ++ bytesLE 2 0x0300 ++ bytesLE 2 0 ++ bytesLE 4 0 ++ ty ++
  bytesLE 16 0 ++ bytesLE 4 sev ++ bytesLE 20 0

/-- GUID of the UEFI Platform Memory Error section (PRESUMED, log entry 4). -/
def memErrGuid : List Byte :=
  [0x14, 0x11, 0xBC, 0xA5, 0x64, 0x6F, 0xDE, 0x4E, 0xB8, 0x63, 0x3E, 0x83, 0xED, 0x7C, 0x83, 0xB1]

/-- The 512 bytes of CPER record `n` (R361, R362). -/
def cperBytes (s : State) (n : Nat) (i : CperInfo) : List Byte :=
  let nsec := if i.memAddr.isSome then 2 else 1
  let vend := 128 + 72 * nsec
  let total := vend + 96 + (if i.memAddr.isSome then 80 else 0)
  let head := bytesLE 4 0x52455043 ++ bytesLE 2 0x0101 ++ bytesLE 4 0xFFFFFFFF ++ bytesLE 2 nsec ++
    bytesLE 4 i.severity ++ bytesLE 4 0 ++ bytesLE 4 total ++ bytesLE 8 0 ++ bytesLE 16 0 ++
    bytesLE 16 0 ++ tathenGuid ++ tathenGuid ++ bytesLE 8 n ++ bytesLE 4 0 ++ bytesLE 8 0 ++
    bytesLE 12 0
  let secs := cperSection vend 96 tathenGuid i.severity ++
    (match i.memAddr with
     | some _ => cperSection (vend + 96) 80 memErrGuid i.severity
     | none => [])
  let mem := match i.memAddr with
    | some a => bytesLE 8 2 ++ bytesLE 8 0 ++ bytesLE 8 ((nodeId s) <<< 48 + a % 2 ^ 48) ++ bytesLE 56 0
    | none => []
  let body := head ++ secs ++ cperVendor s i ++ mem
  body ++ bytesLE (512 - body.length) 0

/-- Ring size of the CPER ring (R364: LOG2_SIZE below 4 acts as 4, above 16 as 16). -/
def cperRingSize (s : State) : Nat :=
  2 ^ (max 4 (min 16 (rget s rFLT_CPER_BASE fFLT_CPER_BASE_LOG2_SIZE)))

/-- First address of the CPER ring. -/
def cperRingBase (s : State) : Nat := (rget s rFLT_CPER_BASE fFLT_CPER_BASE_BASE) * 512

/-- The ring write is made only while the whole ring lies in tier 2 and the device is not in the
Cairn state (R478). -/
def cperRingOk (s : State) : Bool :=
  isTier2 (cperRingBase s) && isTier2 (cperRingBase s + cperRingSize s * 512 - 1) && ctlState s ≠ 3

/-- Write a CPER record: the ring entry with its overwrite rule, the copy in MRAM in place of the oldest of
the last 16, and CPER_LOGGED (R361, R478).  Nothing is written after a thermal trip (R463). -/
def cperWrite (s : State) (i : CperInfo) : State :=
  if s.pins.thermtrip then s
  else
    let n := rget s rFLT_CPER_PTR fFLT_CPER_PTR_NEXT
    let hd := rget s rFLT_CPER_HEAD fFLT_CPER_HEAD_HEAD
    let bs := cperBytes s n i
    let a := cperRingBase s + (n % cperRingSize s) * 512
    let s1 := { s with mram := { s.mram with
      cper := kSet s.mram.cper (s.mram.cperAt % 16) bs
      cperAt := (s.mram.cperAt + 1) % 16 } }
    let s2 := rput s1 rFLT_CPER_PTR fFLT_CPER_PTR_NEXT (n + 1)
    if cperRingOk s then
      let s3 := memWrite s2 a bs
      let s4 := if (n + 2 ^ 32 - hd) % 2 ^ 32 = cperRingSize s then
          rset (rput s3 rFLT_CPER_HEAD fFLT_CPER_HEAD_HEAD (hd + 1)) rFLT_CPER_PTR fFLT_CPER_PTR_WRAP
        else s3
      raiseDev s4 0x20 0xFF [BitVec.ofNat 64 n, BitVec.ofNat 64 a]
    else
      raiseDev (rput s2 rFLT_CPER_HEAD fFLT_CPER_HEAD_HEAD (n + 1)) 0x20 0xFF [BitVec.ofNat 64 n, 0]

/-! ### Shared-structure faults and DRAIN (R357, R358) -/

/-- What DRAIN leaves a partition to dispatch: the command at HEAD when HEAD differs from TAIL
(R358). -/
def drainMark (tail : Nat) (k : Part) : Part :=
  let left : Option Nat := if k.head % 2 ^ 32 = tail then none else some k.head
  { k with drainAt := some left }

/-- Enter DRAIN, once: DRAIN and FAULT_N, a fatal CPER record, the DRAIN event, the replacement
mark, and for each partition the one command left to dispatch. -/
def enterDrain (s : State) : State :=
  if rflag s rFLT_STATE fFLT_STATE_DRAIN || s.pins.thermtrip then s
  else
    let s1 := rset s rFLT_STATE fFLT_STATE_DRAIN
    let s2 := { s1 with pins := { s1.pins with fault := true } }
    let s3 := cperWrite s2 (cperInfo 1 0x12 6 10 0)
    let s4 := raiseDev s3 0x23 0xFF [rd s3 rFLT_STATE]
    let s5 := { s4 with mram := { s4.mram with replaceMark := true } }
    (List.range nParts).foldl (fun t p =>
      modPart t p (drainMark (rget t (rRING_TAIL p) fRING_TAIL_TAIL))) s5

/-- A fault of a shared structure (R357): its fatal CPER record, then DRAIN. -/
def sharedFault (s : State) (die unit inst : Nat) (detail : Word) : State :=
  enterDrain (cperWrite s { cperInfo 1 0x11 die unit inst with detail := detail })

/-! ### Access errors of a core's agents (R16) -/

/-- Record a rejected access of an agent of core `c` in ADDR_ERR and ADDR_ERR_TIME: the first one
since VALID was clear holds. -/
def logAddrErr (s : State) (c agent ctx a : Nat) : State :=
  if rflag s (rADDR_ERR c) fADDR_ERR_VALID then s
  else
    let off := if isRegSpace a then a - 0x040000000000 else a
    let w := agent <<< 61 + ctx <<< 59 + b2n (decide (a < 2 ^ 48) && isReservedAddr a) <<< 49 + 1 <<< 48 + off % 2 ^ 48
    rwr (rwr s (rADDR_ERR c) (BitVec.ofNat 64 w)) (rADDR_ERR_TIME c) (nowW s)

/-! ### Abort of a pour (R24, R49, R57, R64) -/

/-- Is a pour in a context before its commit point? -/
def beforeCommit (t : Ctx) : Bool :=
  match t.st with
  | .loading => true
  | .running => true
  | .committing => true
  | .idle => false
  | .aborting => false

/-- Does a code found in LOADING record no PC: a start code, which one met while the bindings resolve is
(R49, R334, R475)? -/
def startCode (code : Nat) : Bool :=
  code = 0x04 || code = 0x08 || code = 0x0D || code = 0x0E || code = 0x0F || code = 0x13

/-- An abort is detected: the context goes to ABORTING with the code of the first condition detected (R49) and
the address of the last word fetched, 0 for a start code (R334). -/
def beginAbort (s : State) (c x code trap : Nat) : State :=
  let t := ctxOf s c x
  if beforeCommit t then
    setCtx s c x { t with st := .aborting, abortCode := code, trapCode := trap, stopped := false,
                          commitSent := false,
                          abortPc := if t.st = .loading ∧ startCode code then 0 else t.lastPc.toNat }
  else s

/-- A kill reaches every context of a core that is before its commit point (R24). -/
def killCore (s : State) (c code : Nat) : State :=
  (List.range 4).foldl (fun t x => beginAbort t c x code 0) s

/-- A pour's access is refused under R16: the agent's log, then BAD_ADDRESS. -/
def badAddress (s : State) (c x agent a : Nat) : State :=
  beginAbort (logAddrErr s c agent x a) c x 0x08 0

/-- A pour's units write tier memory: the bytes are stored, or the write answers with an error and the pour
aborts with UNCORRECTED (R23, R26, R201, R210). -/
def pourWrite (s : State) (c x a : Nat) (bs : List Byte) : State :=
  if writeFails s a bs.length then beginAbort s c x 0x04 0 else dropData (memWrite s a bs) c a bs.length

/-- The slot tokens of the range of a pour. -/
def tokenRange (p : Pour) : List Nat :=
  if p.tokLast < p.tokFirst then [] else (List.range (p.tokLast + 1 - p.tokFirst)).map (· + p.tokFirst)

def tokOf (k : Core) (t : Nat) : Tok := smGet Tok.empty k.toks t

/-- Set a token; an EMPTY one has no slot content (R58). -/
def setTok (k : Core) (t : Nat) (v : Tok) : Core :=
  { k with toks := smSet Tok.empty k.toks t v
           tokAt := if v = .empty then k.tokAt.filter (fun (u, _) => u ≠ t) else k.tokAt }

/-- Note the scratchpad regions that a slot is being filled in. -/
def setTokAt (k : Core) (t : Nat) (rs : List (Nat × Nat)) : Core := { k with tokAt := kSet k.tokAt t rs }

/-- CORE_STATUS.QUIET (R67): no context occupied and no unit busy.  The scrub of R176, which holds every quad,
counts as a busy unit (DESIGN CHOICE, log entry 96). -/
def coreQuiet (k : Core) : Bool :=
  (List.range 4).all (fun x => (ctxOfCore k x).st = .idle) && k.flights.isEmpty && !k.scrubbing

/-! ### Doze units (R399–R403; unit numbers of R469) -/

def dozeOf (s : State) (u : Nat) : DozeUnit := kGet DozeUnit.reset s.doze u

def setDoze (s : State) (u : Nat) (k : DozeUnit) : State := { s with doze := kSet s.doze u k }

/-- A request reaches unit `u` (R403): a dozing unit begins its wake at once, its horizon is
cleared and an early wake is counted. -/
def wakeUnit (s : State) (u : Nat) : State :=
  let k := dozeOf s u
  if k.dz ≠ 0 ∧ k.waking = false then
    countDev (setDoze s u { k with waking := true, hz := .cleared }) (0x10000 + 8 * u) 1
  else s

/-- Keep a register entry unless a reset of the partition domain of partition `p` takes it (R7):
`owns c` tells the cores of the partition. -/
def keepPartReg (owns : Nat → Bool) (p off : Nat) : Bool :=
  match regDom off with
  | some (.part, .part i, ix) => ix.getD i 0 ≠ p
  | some (.part, .core i, ix) => !owns (ix.getD i 0)
  | _ => true

/-- Reset every register of the reset domain of partition `p` (R7, R321). -/
def resetPartRegs (s : State) (p : Nat) : State :=
  { s with regs := smKeep (keepPartReg (partHasCore s p) p) s.regs }

end Sys2Proof.Machine
end

