-- ==== Sys2Proof/Machine/Chains.lean ====
section
/-! DEFINITION. Measurement chains and their logs (R419–R421). -/

namespace Sys2Proof.Machine

/-- Extend a chain value with an entry of type `ty` and digest `d` (R419). -/
def chainStep (c : BitVec 256) (ty : Nat) (d : BitVec 256) : BitVec 256 :=
  shake256 (digestBytes c ++ bytesLE 2 ty ++ digestBytes d)

/-- Extend the device chain; its log holds 256 entries. -/
def extendDevice (s : State) (ty : Nat) (d : BitVec 256) : State :=
  if s.sec.log.length < 256 then
    { s with sec := { s.sec with
        chain := chainStep s.sec.chain ty d, log := s.sec.log ++ [⟨ty, d, now s⟩] } }
  else s

def pchainOf (s : State) (p : Nat) : BitVec 256 := kGet 0 s.sec.pchain p

def plogOf (s : State) (p : Nat) : List LogEntry := kGet [] s.sec.plog p

/-- Extend a partition chain; its log holds 32 entries. -/
def extendPartition (s : State) (p ty : Nat) (d : BitVec 256) : State :=
  if (plogOf s p).length < 32 then
    { s with sec := { s.sec with
        pchain := kSet s.sec.pchain p (chainStep (pchainOf s p) ty d)
        plog := kSet s.sec.plog p (plogOf s p ++ [⟨ty, d, now s⟩]) } }
  else s

/-- Does a quote of partition `p` still wait for its signature? -/
def quoteWaits (s : State) (p : Nat) : Bool := s.sec.signing.any (fun r => r.kind = 3 && r.part = p)

end Sys2Proof.Machine
end

