-- ==== Sys2Proof/Machine/Addr.lean ====
section
/-! DEFINITION. Which controller holds a tier line (R197, R198), which partition may reach it
(R300, R301), and what an agent of a core may reach (R16). -/

namespace Sys2Proof.Machine

/-- Channel of a tier address within its stack. -/
def channelOf (a : Nat) : Nat :=
  match tierSplit a with
  | some (true, _, l) => (l / 6) % 32
  | some (false, _, l) => (l / 4) % 16
  | none => 0

/-- Bank number of a tier address within its channel, as refresh counts banks. -/
def bankOf (a : Nat) : Nat :=
  match tierSplit a with
  | some (true, _, l) =>
    let b := l / 6 / 32
    16 * bitsOf b 7 6 + 4 * bitsOf b 3 2 + bitsOf b 5 4
  | some (false, _, l) =>
    let b := l / 4 / 16
    16 * bitsOf b 7 7 + 4 * bitsOf b 4 3 + bitsOf b 6 5
  | none => 0

/-- Row of a tier address within its bank. -/
def rowOf (a : Nat) : Nat :=
  match tierSplit a with
  | some (true, _, l) => bitsOf (l / 6 / 32) 22 8
  | some (false, _, l) => bitsOf (l / 4 / 16) 23 8
  | none => 0

/-- Does partition `p` own or share the stack of a controller (R300, R301)? -/
def partReachesStack (s : State) (p n : Nat) : Bool :=
  let w := rd s (rPART_STACKS p)
  if n < 24 then wbit w n else wbit w (24 + (n - 24)) || wbit w (32 + (n - 24))

/-- May an agent of partition `p` reach the tier line at `a`? -/
def partReaches (s : State) (p a : Nat) : Bool :=
  match stackOf a with
  | some n => partState s p ≠ 0 && partReachesStack s p n
  | none => false

/-- The partition, not FREE, that owns a stack outright. -/
def ownerOfStack (s : State) (n : Nat) : Option Nat :=
  (List.range nParts).find? (fun p => partState s p ≠ 0 &&
    (if n < 24 then wbit (rd s (rPART_STACKS p)) n else wbit (rd s (rPART_STACKS p)) n))

/-- The partitions, ACTIVE, that share tier-2 stack `t`, lowest first. -/
def sharersOf (s : State) (t : Nat) : List Nat :=
  (List.range nParts).filter (fun p => partState s p = 1 && wbit (rd s (rPART_STACKS p)) (32 + t))

/-- Every byte of a range of tier memory is within partition `p`'s reach: its first and last byte
lie in one tier region and every 256-byte line maps to a stack of `p`. -/
def partReachesRange (s : State) (p a n : Nat) : Bool :=
  n = 0 || (List.range ((a + n - 1) / 256 + 1 - a / 256)).all (fun i => partReaches s p ((a / 256 + i) * 256))

end Sys2Proof.Machine
end

