-- ==== Sys2Proof/Machine/Versions.lean ====
section
/-! DEFINITION. Version descriptors and the commit unit (R27–R42, R475): the descriptor's layout,
resolution of input bindings, claims of output slots, the commit check with replay, the commit
itself, and quench RELEASE and DISCARD with the loss-scale state (R109–R111). -/

namespace Sys2Proof.Machine

/-- One slot of a version descriptor (R38). -/
structure VSlot where
  st : Nat
  hold : Nat
  voff : Int
  base : Nat
  stamp : Nat
  deriving DecidableEq, Repr

/-- A version descriptor (R38). -/
structure VDesc where
  kind : Nat
  ring : Nat
  cur : Nat
  part : Nat
  curVer : Nat
  bufId : Nat
  units : Nat
  slots : List VSlot
  deriving DecidableEq, Repr

def VSlot.none : VSlot := ⟨0, 0, 0, 0, 0⟩

/-- Address of the descriptor of a buffer of partition `p`. -/
def descAddr (s : State) (p buf : Nat) : Nat := rget s (rPART_VTABLE p) fPART_VTABLE_BASE * 64 + buf * 64

/-- Read a descriptor (R38, Table: Version descriptor layout). -/
def readDesc (s : State) (a : Nat) : VDesc :=
  let w := fun i => memWord s (a + 8 * i)
  let st := fun i => if i = 0 then wfld (w 6) 63 32 else if i = 1 then wfld (w 6) 31 0
    else if i = 2 then wfld (w 7) 63 32 else wfld (w 7) 31 0
  { kind := wfld (w 0) 63 60, ring := wfld (w 0) 59 58, cur := wfld (w 0) 57 56,
    part := wfld (w 0) 50 48, curVer := wfld (w 0) 47 0, bufId := wfld (w 1) 63 32,
    units := wfld (w 1) 31 0,
    slots := (List.range 4).map (fun i =>
      let x := w (2 + i)
      ⟨wfld x 63 61, wfld x 60 51, signedOf 3 (wfld x 50 48), wfld x 47 0, st i⟩) }

/-- Write a descriptor. -/
def writeDesc (s : State) (a : Nat) (d : VDesc) : State :=
  let sl := fun i => d.slots.getD i VSlot.none
  let w0 := d.kind <<< 60 + d.ring <<< 58 + d.cur <<< 56 + d.part <<< 48 + d.curVer % 2 ^ 48
  let w1 := d.bufId <<< 32 + d.units
  let wn := fun i => (sl i).st <<< 61 + (sl i).hold <<< 51 + (wrapTo 3 (sl i).voff) <<< 48 + (sl i).base
  let w6 := (sl 0).stamp <<< 32 + (sl 1).stamp
  let w7 := (sl 2).stamp <<< 32 + (sl 3).stamp
  memWrite s a ([w0, w1, wn 0, wn 1, wn 2, wn 3, w6, w7].flatMap (bytesLE 8))

/-- The slots within the ring depth, with their index. -/
def ringSlots (d : VDesc) : List (Nat × VSlot) :=
  (List.range (d.ring + 1)).map (fun i => (i, d.slots.getD i VSlot.none))

/-- The version number of a slot (R38). -/
def slotVersion (d : VDesc) (v : VSlot) : Nat := ((d.curVer : Int) + v.voff).toNat

/-- Malformed descriptors (R475). -/
def descMalformed (s : State) (p : Nat) (d : VDesc) : Bool :=
  decide (2 < d.kind) || decide (d.kind = 1 ∧ d.ring = 0) || decide (d.kind = 2 ∧ d.ring ≠ 0) ||
  (d.kind ≠ 0 && (ringSlots d).any (fun (_, v) => !partReaches s p v.base))

/-- Slot with the highest version in a list. -/
def highest (d : VDesc) (l : List (Nat × VSlot)) : Option (Nat × VSlot) :=
  l.foldl (fun b x => match b with
    | none => some x
    | some y => if slotVersion d y.2 < slotVersion d x.2 then some x else some y) none

/-- Slot with the lowest version in a list. -/
def lowest (d : VDesc) (l : List (Nat × VSlot)) : Option (Nat × VSlot) :=
  l.foldl (fun b x => match b with
    | none => some x
    | some y => if slotVersion d x.2 < slotVersion d y.2 then some x else some y) none

/-- The slots a pour may read (R30, R39): CURRENT and RETAINED, and for a chained reader PENDING
slots of a stamp below its own. -/
def readable (d : VDesc) (chained : Bool) (stamp : Nat) : List (Nat × VSlot) :=
  (ringSlots d).filter (fun (_, v) => v.st = 3 || v.st = 4 ||
    (chained && decide (v.st = 2) && decide (v.stamp < stamp)))

/-- Resolve an input binding (R30, Table: Resolution modes): the slot, or the start code.  Where only a PENDING
slot that the pour may not read has the stamp and a readable slot has a higher one, R39 names VERSION_UNAVAILABLE
and the table of R30 VERSION_STALE; the model follows the table (DESIGN CHOICE, log entry 98). -/
def resolve (d : VDesc) (chained : Bool) (stamp mode want : Nat) : Nat × Option (Nat × VSlot) :=
  let rs := readable d chained stamp
  let cur := (ringSlots d).find? (fun (_, v) => v.st = 3)
  if d.kind = 0 then (0x0E, none)
  else if mode = 0 then (0x0E, cur)
  else if mode = 1 then
    match highest d (rs.filter (fun (_, v) => v.stamp = want)) with
    | some x => (0, some x)
    | none => if rs.all (fun (_, v) => decide (v.stamp < want)) then (0x0E, none) else (0x0D, none)
  else if mode = 2 then
    match (if chained then highest d (rs.filter (fun (_, v) => v.st = 2)) else none) with
    | some x => (0, some x)
    | none => (0x0E, cur)
  else (0x0E, none)

/-- The buffer's top version (R32). -/
def topVersion (d : VDesc) : Nat :=
  match highest d ((ringSlots d).filter (fun (_, v) => v.st = 2 || v.st = 3)) with
  | some (_, v) => slotVersion d v
  | none => d.curVer

/-- Step stamp of the top version, if a slot holds it. -/
def topStamp (d : VDesc) : Option Nat :=
  (highest d ((ringSlots d).filter (fun (_, v) => v.st = 2 || v.st = 3))).map (fun x => x.2.stamp)

/-- Replace slot `i`. -/
def setSlot (d : VDesc) (i : Nat) (v : VSlot) : VDesc := { d with slots := d.slots.set i v }

/-- The content of slot `i` of a descriptor is undefined from here on: the slot is claimed or FREE (R27, R34,
R35). -/
def undefSlot (s : State) (d : VDesc) (i : Nat) : State :=
  let (g, s1) := useFree s
  memUndefine s1 g (d.slots.getD i VSlot.none).base (d.units * 256)

/-- The slots, FREE or WRITING, of the buffers of one partition, as base and length; `own` lists the bases that
the reader has claimed itself. -/
def openSlotsOf (s : State) (p : Nat) (own : List Nat) : List (Nat × Nat) :=
  (List.range (rget s (rPART_VCOUNT p) fPART_VCOUNT_COUNT)).flatMap (fun i =>
    let a := descAddr s p i
    let d := readDesc s a
    if !isTier a || memBadIn s a 64 || (d.kind ≠ 1 && d.kind ≠ 2) then []
    else (ringSlots d).filterMap (fun (_, v) =>
      if (v.st = 0 || v.st = 1) && !own.contains v.base then some (v.base, d.units * 256) else none))

/-- The FREE and WRITING slots that bytes `a` to `a + n − 1` touch, but for those the reader has claimed. -/
def openHit (s : State) (own : List Nat) (a n : Nat) : List (Nat × Nat) :=
  ((List.range nParts).flatMap (fun p => if partState s p = 0 then [] else openSlotsOf s p own)).filter
    (fun (b, m) => decide (b < a + n) && decide (a < b + m))

/-- Memory as a read by raw address of `n` bytes at `a` sees it (R35): a slot that is FREE or WRITING reads as a
free value. -/
def rawView (s : State) (own : List Nat) (a n : Nat) : State :=
  { s with memUndef := (openHit s own a n).map (fun (b, m) => (b, b + m, s.free)) ++ s.memUndef }

/-- The state after such a read. -/
def rawDone (s : State) (own : List Nat) (a n : Nat) : State :=
  if (openHit s own a n).isEmpty then s else { s with free := s.free + 1 }

/-- The bases of the slots that the pour in a context has claimed. -/
def ownSlots (t : Ctx) : List Nat :=
  match t.pour with
  | some pr => (pr.binds.filter (fun b => b.claimed)).map (fun b => b.base)
  | none => []

/-- The slot a pour claims in a versioned buffer (R29): the lowest FREE slot, else the RETAINED slot of the
lowest version.  A slot with holds is never claimed (R31): a FREE slot that a reader still holds is passed
over (DESIGN CHOICE, log entry 97). -/
def claimSlot (d : VDesc) : Option Nat :=
  match (ringSlots d).find? (fun (_, v) => v.st = 0 && v.hold = 0) with
  | some (i, _) => some i
  | none =>
    match lowest d ((ringSlots d).filter (fun (_, v) => v.st = 4)) with
    | some (i, v) => if v.hold = 0 then some i else none
    | none => none

/-- Start one binding of a pour: its new record, the new state, and the start code (0 for none).  A descriptor
that lies outside the tiers aborts with BAD_ADDRESS (DESIGN CHOICE, log entry 99).  Two output bindings of one
buffer claim two slots and record one base version, so both commit as base + 1 (DESIGN CHOICE, log entry 100). -/
def startBind (s : State) (p : Nat) (pr : Pour) (b : Bind) : Nat × Bind × State :=
  let a := descAddr s p b.buf
  let known := decide (b.buf < rget s (rPART_VCOUNT p) fPART_VCOUNT_COUNT)
  if known && !isTier a then (0x08, b, s)
  else if known && memBadIn s a 64 then (0x04, b, s)
  else
    let d0 := readDesc s a
    let d := if known then d0 else { d0 with kind := 0 }
    if descMalformed s p d then (0x08, b, s)
    else if b.out then
      if d.kind = 0 then (0x0E, b, s)
      else if d.kind = 2 then
        let v := d.slots.getD 0 VSlot.none
        if v.st = 0 && v.hold ≠ 0 then (0x0F, b, s)
        else if v.st = 0 then
          (0, { b with slot := 0, base := v.base, units := d.units, fresh := true, claimed := true,
                       baseVer := 0 },
            writeDesc (undefSlot s d 0) a (setSlot d 0 { v with st := 1, stamp := pr.stamp }))
        else if (v.st = 2 || v.st = 3) && pr.replay && decide (v.stamp = pr.stamp) then
          (0, { b with slot := 0, base := v.base, units := d.units, fresh := true, replayMet := true }, s)
        else (0x0F, b, s)
      else
        match claimSlot d with
        | none => (0x0F, b, s)
        | some i =>
          let v := d.slots.getD i VSlot.none
          (0, { b with slot := i, base := v.base, units := d.units, claimed := true,
                       baseVer := topVersion d },
            writeDesc (undefSlot s d i) a (setSlot d i { v with st := 1, stamp := pr.stamp }))
    else
      match resolve d pr.pending pr.stamp b.rmode b.stamp with
      | (code, none) => (code, b, s)
      | (_, some (i, v)) =>
        if v.hold ≥ 1023 then (0x0F, b, s)
        else
          (0, { b with slot := i, base := v.base, units := d.units, version := slotVersion d v,
                       verStamp := v.stamp, held := true },
            writeDesc s a (setSlot d i { v with hold := v.hold + 1 }))

/-- Start every binding of a pour as one operation (R30): the lowest start code met, or the
resolved bindings and the new state. -/
def startBinds (s : State) (p : Nat) (pr : Pour) : List Bind → Nat × List Bind × State
  | [] => (0, [], s)
  | b :: bs =>
    let (c, b', s1) := startBind s p pr b
    let (cs, bs', s2) := startBinds s1 p pr bs
    (if c = 0 then cs else if cs = 0 then c else min c cs, b' :: bs', s2)

/-- A pour that did not commit gives back what it claimed, whose content is then undefined (R34), and what it
holds (R25, R28, R31).  A descriptor that does not read is left unchanged (R475). -/
def releaseBind (s : State) (p : Nat) (b : Bind) : State :=
  let a := descAddr s p b.buf
  let d := readDesc s a
  let v := d.slots.getD b.slot VSlot.none
  if memBadIn s a 64 then s
  else if b.claimed then
    (if v.st = 1 then writeDesc (undefSlot s d b.slot) a (setSlot d b.slot { v with st := 0 }) else s)
  else if b.held then writeDesc s a (setSlot d b.slot { v with hold := v.hold - 1 })
  else s

def releaseBinds (s : State) (p : Nat) (bs : List Bind) : State :=
  bs.foldl (fun t b => releaseBind t p b) s

/-- A pour that committed gives back its holds (R31). -/
def unholdBinds (s : State) (p : Nat) (bs : List Bind) : State :=
  releaseBinds s p (bs.filter (fun b => b.held))

/-- Does an output binding meet the replay condition at commit (R33)? -/
def bindReplays (s : State) (p : Nat) (pr : Pour) (b : Bind) : Bool :=
  if b.fresh then b.replayMet
  else
    let d := readDesc s (descAddr s p b.buf)
    decide (topVersion d ≠ b.baseVer) && decide (topVersion d = b.baseVer + 1) &&
      decide (topStamp d = some pr.stamp)

/-- Does an output binding pass the check of R32 (R34 for a fresh buffer)? -/
def bindPasses (s : State) (p : Nat) (b : Bind) : Bool :=
  if b.fresh then b.claimed
  else decide (topVersion (readDesc s (descAddr s p b.buf)) = b.baseVer) && decide (b.baseVer < 2 ^ 48 - 1)

/-- Set every VOFF of a descriptor for a new CUR_VERSION (R38). -/
def rebase (d : VDesc) (newCur : Nat) : VDesc :=
  { d with curVer := newCur
           slots := d.slots.map (fun v => if v.st = 2 || v.st = 3 || v.st = 4 then
             { v with voff := (slotVersion d v : Int) - (newCur : Int) } else v) }

/-- Make slot `i` CURRENT with version `n`: the previous CURRENT slot becomes RETAINED (R28). -/
def makeCurrent (d : VDesc) (i n : Nat) : VDesc :=
  let d1 := { d with slots := d.slots.map (fun v => if v.st = 3 then { v with st := 4 } else v) }
  let d2 := rebase d1 n
  { setSlot d2 i { d2.slots.getD i VSlot.none with st := 3, voff := 0 } with cur := i }

/-- Commit one claimed output slot (R32, R34). -/
def commitBind (s : State) (p : Nat) (pr : Pour) (b : Bind) : State :=
  if !b.claimed then s
  else
    let a := descAddr s p b.buf
    let d := readDesc s a
    let n := if b.fresh then 1 else b.baseVer + 1
    if pr.pending then
      writeDesc s a (setSlot d b.slot { d.slots.getD b.slot VSlot.none with
        st := 2, voff := (n : Int) - (d.curVer : Int) })
    else writeDesc s a (makeCurrent d b.slot n)

/-- What the commit unit decides on a commit request (R32, R33, R41, R475). -/
inductive Verdict where
  | commit
  | replayed
  | abort (code : Nat)
  deriving DecidableEq, Repr

def commitVerdict (s : State) (p : Nat) (pr : Pour) : Verdict :=
  let outs := pr.binds.filter (fun b => b.out)
  let unreadable := outs.any (fun b => memBadIn s (descAddr s p b.buf) 64)
  let malformed := outs.any (fun b =>
    let d := readDesc s (descAddr s p b.buf)
    d.kind = 0 || descMalformed s p d)
  if unreadable then .abort 0x04
  else if malformed then .abort 0x10
  else if pr.replay && !outs.isEmpty && outs.all (bindReplays s p pr) then .replayed
  else if pr.replay && outs.any (bindReplays s p pr) then .abort 0x10
  else if !(outs.all (bindPasses s p)) then .abort 0x10
  else if pr.pending && (match (partOf s p).closed with | some l => decide (pr.stamp ≤ l) | none => false)
    then .abort 0x11
  else .commit

/-! ### Quench (R40, R41, R109–R111) -/

/-- The pending slots of a descriptor with a stamp at most `st`, lowest version first, each made
CURRENT in turn. -/
def releaseDesc (st : Nat) : Nat → VDesc → VDesc
  | 0, d => d
  | k + 1, d =>
    match lowest d ((ringSlots d).filter (fun (_, v) => decide (v.st = 2) && decide (v.stamp ≤ st))) with
    | some (i, v) => releaseDesc st k (makeCurrent d i (slotVersion d v))
    | none => d

/-- The pending slots of a descriptor with a stamp at least `st` become FREE. -/
def discardDesc (st : Nat) (d : VDesc) : VDesc :=
  { d with slots := d.slots.mapIdx (fun i v =>
      if i ≤ d.ring && decide (v.st = 2) && decide (st ≤ v.stamp) then { v with st := 0 } else v) }

/-- The content of every slot that becomes FREE between two descriptors is undefined (R27). -/
def undefFreed (s : State) (d e : VDesc) : State :=
  ((List.range 4).filter (fun i => decide ((d.slots.getD i VSlot.none).st ≠ 0) &&
    decide ((e.slots.getD i VSlot.none).st = 0))).foldl (fun t i => undefSlot t d i) s

/-- Apply `f` to every descriptor of a partition's version table.  One whose line does not read is passed over,
and the quench answers as for the others (DESIGN CHOICE, log entry 101). -/
def mapDescs (s : State) (p : Nat) (f : VDesc → VDesc) : State :=
  (List.range (rget s (rPART_VCOUNT p) fPART_VCOUNT_COUNT)).foldl (fun t i =>
    let a := descAddr t p i
    let d := readDesc t a
    if (d.kind = 1 || d.kind = 2) && isTier a && !memBadIn t a 64 && f d ≠ d then
      writeDesc (undefFreed t d (f d)) a (f d) else t) s

/-- Mirror the loss-scale state of a partition into NUM_LSCALE of its cores (R109). -/
def mirrorLscale (s : State) (p : Nat) (flag : Option Fld) : State :=
  (coresOfPart s p).foldl (fun t c =>
    let t1 := rput t (rNUM_LSCALE c) fNUM_LSCALE_L (wrapTo 8 (partOf s p).lscale)
    let t2 := rput t1 (rNUM_LSCALE c) fNUM_LSCALE_CLEAN (partOf s p).lsC
    let t3 := rput t2 (rNUM_LSCALE c) fNUM_LSCALE_RAISE (partOf s p).lsN
    match flag with
    | some f => rset t3 (rNUM_LSCALE c) f
    | none => t3) s

def closedAt (k : Part) (st : Nat) : Bool :=
  match k.closed with | some l => decide (st ≤ l) | none => false

/-- RELEASE of stamp `st` to partition `p`: the new state and the acknowledgement's status. -/
def quenchRelease (s : State) (p st : Nat) : State × Nat :=
  let k := partOf s p
  if closedAt k st then (s, 8)
  else if k.poisoned.any (fun x => decide (x ≤ st)) then (s, 9)
  else
    let s1 := mapDescs s p (releaseDesc st 4)
    let c1 := min (k.lsC + 1) 0xFFFF
    let hit := decide (k.lsN ≠ 0) && decide (c1 = k.lsN)
    let top := hit && decide (k.lscale = 127)
    let s2 := modPart s1 p (fun k => { k with
      closed := some st
      lsC := if hit then 0 else c1
      lscale := if hit && !top then k.lscale + 1 else k.lscale })
    (mirrorLscale s2 p (if top then some fNUM_LSCALE_CEILING else none), 0)

/-- DISCARD of stamp `st` to partition `p`. -/
def quenchDiscard (s : State) (p st : Nat) : State × Nat :=
  let k := partOf s p
  if closedAt k st then (s, 8)
  else
    let s1 := mapDescs s p (discardDesc st)
    let hit := k.poisoned.any (fun x => decide (st ≤ x))
    let floor := hit && decide (k.lscale = -128)
    let s2 := modPart s1 p (fun k => { k with
      poisoned := k.poisoned.filter (fun x => decide (x < st))
      lsC := if hit then 0 else k.lsC
      lscale := if hit && !floor then k.lscale - 1 else k.lscale })
    (mirrorLscale s2 p (if floor then some fNUM_LSCALE_FLOOR else none), 0)

/-- Apply a quench message (R40): ACTION 1 RELEASE, 2 DISCARD; the trace record of kind 3. -/
def applyQuench (s : State) (p st action src : Nat) : State × Nat :=
  let (s1, r) := if action = 1 then quenchRelease s p st else quenchDiscard s p st
  (traceRec s1 3 6 0xFF p true (BitVec.ofNat 64 (st <<< 32 + action <<< 30 + r))
    (BitVec.ofNat 64 (src <<< 48)), r)

end Sys2Proof.Machine
end

