-- ==== Sys2Proof/Machine/Pours.lean ====
section
/-! DEFINITION. The life of a pour in its context (R20–R34, R56–R65, R308): its start at the commit
unit, its commit request and commit, its abort and quiet, its completion record, and the watchdog of
R22.  Commands: POUR_START, COMMIT_REQUEST, COMMIT_ACCEPT, POUR_ABORT, POUR_QUIET,
POUR_TIME_WATCHDOG. -/

namespace Sys2Proof.Machine

/-- W of R22 in ns for a CORE clock in kHz: 16 ms × 1.05 GHz / f. -/
def watchNs (khz : Nat) : Nat := 16000000 * 1050000 / khz

/-- The CORE clock of a die in force, in kHz (R411). -/
def coreKhz (s : State) (d : Nat) : Nat := rget s (rCLK_DOM d 3) fCLK_DOM_KHZ

/-- Must a pour for core `c` wait in LOADING: the core dozes or wakes (R66), its die's clocks are
changing (R389), or its scratchpad is being scrubbed (R176)? -/
def loadingHeld (s : State) (c : Nat) : Bool :=
  (kGet DozeUnit.reset s.doze c).dz ≠ 0 || (kGet DozeUnit.reset s.doze c).waking ||
  rflag s (rCLK_DOM (dieOfCore c) 3) fCLK_DOM_BUSY || rflag s (rCLK_DOM (dieOfCore c) 4) fCLK_DOM_BUSY ||
  (coreOf s c).scrubbing

/-- Count residency lookups of a pour whose resolution succeeded (R317). -/
def countRes (s : State) (p c : Nat) (bs : List Bind) : State :=
  (bs.filter (fun b => b.res && !b.out)).foldl (fun t b =>
    let hit := rflag t (rRES_VER p c b.ridx) fRES_VER_VALID &&
      decide (rget t (rRES_KEY p c b.ridx) fRES_KEY_BUFFER_ID = b.buf) &&
      decide (rget t (rRES_VER p c b.ridx) fRES_VER_VERSION = b.version)
    countRaw t (if hit then rRES_HITS p else rRES_MISSES p) 1) s

/-- Drop the sequencer-cache lines of every core of a partition in an address range (R54). -/
def dropSeqLines (s : State) (p base len : Nat) : State :=
  (coresOfPart s p).foldl (fun t c => modCore t c (fun k =>
    let keep := fun (l : CLine) => !(decide (base / 64 ≤ l.line) && decide (l.line < (base + len + 63) / 64))
    { k with iLines := k.iLines.filter keep, dLines := k.dLines.filter keep })) s

/-- The registers a context has when its pour starts: free values, with g0 zero and p0 one (R55,
R258). -/
def freshCtx (n : Nat) (t : Ctx) : Ctx :=
  { t with
    g := Vector.ofFn (fun i => if i.val = 0 then 0 else Config.freeWord n i.val)
    p := Vector.ofFn (fun i => if i.val = 0 then true else Config.freeBool n i.val)
    d := Vector.ofFn (fun i =>
      BitVec.ofNat 128 ((Config.freeWord n (32 + 2 * i.val)).toNat +
        2 ^ 64 * (Config.freeWord n (33 + 2 * i.val)).toNat)) }

/-- CTX_RES of a pour (R67). -/
def resWordOf (p : Pour) : Word :=
  BitVec.ofNat 64 (p.tokLast <<< 54 + p.tokFirst <<< 44 + p.mGather <<< 16 + p.mAcc1 <<< 12 +
    p.mAcc0 <<< 8 + p.mStream)

/-- The tiles prefetched into tokens of a list that no instruction has read: their count and bytes
(R187). -/
def wastedIn (k : Core) (l : List Nat) : Nat × Nat :=
  let w := l.filter (fun t => tokOf k t ≠ .empty && smGet 0 k.tokTile t ≠ 0 && !smGet false k.tokRead t)
  (w.length, (w.map (fun t => smGet 0 k.tokTile t)).foldl (· + ·) 0)

/-- Set every token of a list to EMPTY (R58, last row of Table: Token transitions). -/
def emptyTokens (k : Core) (l : List Nat) : Core :=
  l.foldl (fun k t => { setTok k t .empty with
    tokTile := smSet 0 k.tokTile t 0, tokRead := smSet false k.tokRead t false }) k

/-- Set tokens of a core to EMPTY, counting the prefetch wasted (R187). -/
def resetTokens (s : State) (c : Nat) (l : List Nat) : State :=
  let w := wastedIn (coreOf s c) l
  modCore (countCore (countCore s c 0xAD w.1) c 0xAE w.2) c (fun k => emptyTokens k l)

/-- The accumulator sets of a pour, as 4 × array + set. -/
def accsOf (p : Pour) : List Nat := bitList 4 p.mAcc0 ++ (bitList 4 p.mAcc1).map (· + 4)

def accOf (k : Core) (i : Nat) : AccSet := kGet AccSet.reset k.accs i

def setAcc (k : Core) (i : Nat) (a : AccSet) : Core := { k with accs := kSet k.accs i a }

/-- Make the content of accumulator sets undefined: free value `n` (R72, R92). -/
def undefAccs (k : Core) (l : List Nat) (n : Nat) : Core :=
  l.foldl (fun k i => setAcc k i { accOf k i with vals := [], gen := some (8 * n + i), assay := false }) k

/-- Make a scratchpad region undefined: free value `n` (R44, R177). -/
def undefSpm (k : Core) (n off len : Nat) : Core :=
  { k with spm := smKeep (fun a => !(decide (off ≤ a) && decide (a < off + len))) k.spm
           spmOver := (off, len, some n) :: k.spmOver }

/-- POUR_START: resolution and claims as one operation, then RUNNING, or ABORTING with a start code
(R29–R34, R57). -/
def pourStart (s : State) (c x : Nat) : State :=
  let t := ctxOf s c x
  match t.st, t.pour with
  | .loading, some pr =>
    if loadingHeld s c then s
    else if ctlState s = 2 || ctlState s = 3 || partState s pr.part ≠ 1 then beginAbort s c x 0x13 0
    else
      match startBinds s pr.part pr pr.binds with
      | (0, bs, s1) =>
        let pr1 := { pr with binds := bs, watch := watchNs (coreKhz s (dieOfCore c)) }
        let s2 := countRes s1 pr.part c bs
        let s3 := (bs.filter (fun b => b.claimed)).foldl
          (fun u b => dropLines (dropSeqLines u pr.part b.base (b.units * 256)) b.base (b.units * 256)) s2
        let s4 := rput (rwr s3 (rNUM_OVF c x) 0) (rNUM_CTX c x) fNUM_CTX_L_POUR
          (wrapTo 8 (partOf s pr.part).lscale)
        let (n, s5) := useFree s4
        let s6 := modCore (if pr.first then resetTokens s5 c (tokenRange pr) else s5) c
          (fun k => undefAccs k (accsOf pr) n)
        let code := (bs.getD 0 ⟨0, false, 0, false, 0, 0, 0, 0, 0, 0, 0, 0, false, false, false, false⟩).base
        modCtx s6 c x (fun t => { freshCtx n t with
          st := .running, pour := some pr1, pc := BitVec.ofNat 48 (code + pr.entry)
          lastPc := BitVec.ofNat 48 (code + pr.entry) })
      | (code, _, _) => beginAbort s c x code 0
  | _, _ => s

/-- Is anything of a pour still at work: queued or issued instructions, streams, gathers, fabric
requests (R65)? -/
def pourBusy (s : State) (c x : Nat) : Bool :=
  let k := coreOf s c
  !(ctxOf s c x).queue.isEmpty || k.flights.any (fun f => f.ctx = x) ||
  k.streams.any (fun (_, r) => r.owner = some x) || k.gaths.any (fun (_, r) => r.owner = some x) ||
  s.ergReqs.any (fun r => r.core = c && r.ctx = x) || (ctxOf s c x).updRun.isSome

/-- COMMIT_REQUEST (R65): the core sends the request once nothing of the pour is at work. -/
def commitRequest (s : State) (c x : Nat) : State :=
  if (ctxOf s c x).st = .committing && !pourBusy s c x then
    modCtx s c x (fun t => { t with commitSent := true })
  else s

/-- Set the outcome the dispatcher keeps of a pour (R309). -/
def setOutcome (s : State) (pr : Pour) (o : POut) : State :=
  modPart s pr.part (fun k =>
    let r := kGet ⟨0, []⟩ k.cmds pr.pos
    { k with cmds := kSet k.cmds pr.pos { r with outs := kSet r.outs pr.idx o } })

/-- The end of a pour: its completion record (R334), the trace record of its commit or abort, its
outcome, and its context IDLE (R57).  A pour that never started has no NUM_OVF bits (R103).  After a thermal trip no record is written (R463). -/
def endPour (s : State) (c x : Nat) (pr : Pour) (code : Nat) (replayed : Bool) : State :=
  let t := ctxOf s c x
  let ovf := decide (pr.watch ≠ 0) && decide ((rd s (rNUM_OVF c x)) ≠ 0)
  let w2 := (pr.pos % 2 ^ 32) <<< 32 + pr.idx <<< 20 + b2n replayed <<< 19 + b2n pr.pending <<< 17
  let pc := if code = 0 then 0 else t.abortPc
  let rec1 : Rec := ⟨1, code, c, x, pr.part, true, now s,
    [BitVec.ofNat 64 (w2 + b2n ovf <<< 18), BitVec.ofNat 64 (pr.stamp <<< 32 + t.trapCode),
     BitVec.ofNat 64 pc]⟩
  let s1 := postRec s pr.part rec1
  let s2 := traceRec s1 (if code = 0 then 1 else 2) (dieOfCore c) c pr.part true (BitVec.ofNat 64 w2)
    (BitVec.ofNat 64 (pr.stamp <<< 32 + code))
  let s3 := setOutcome s2 pr (if code = 0 then (if replayed then .replayed else .committed)
    else if code = 1 then .killed else .aborted)
  let s4 := modPart s3 pr.part (fun k => { k with preempt := k.preempt.map (fun q =>
    { q with killed := q.killed + b2n (decide (code = 1) && q.cores.contains c) }) })
  modCtx s4 c x (fun t => { t with st := .idle, pour := none, lastAbort := code, queue := [],
                                   commitSent := false, stopped := false, updRun := none })

/-- COMMIT_ACCEPT (R32, R33, R36, R41): the commit point, or the abort the commit unit decides.
Answers the state and whether notices are due. -/
def commitAccept (s : State) (c x : Nat) : State × Option Pour :=
  let t := ctxOf s c x
  match t.st, t.commitSent, t.pour with
  | .committing, true, some pr =>
    match commitVerdict s pr.part pr with
    | .abort code => (beginAbort s c x code 0, none)
    | .replayed => (endPour (releaseBinds s pr.part pr.binds) c x pr 0 true, none)
    | .commit =>
      let s1 := pr.binds.foldl (fun u b => if b.out then commitBind u pr.part pr b else u) s
      (endPour (unholdBinds s1 pr.part pr.binds) c x pr 0 false, some pr)
  | _, _, _ => (s, none)

/-- The pour's stream and gather contexts stop (R64, R187). -/
def stopEngines (k : Core) (x : Nat) : Core :=
  { k with streams := k.streams.map (fun (n, r) => (n, if r.owner = some x then { r with owner := none, live := [] } else r))
           gaths := k.gaths.map (fun (n, r) => (n, if r.owner = some x then { r with owner := none, live := [] } else r)) }

/-- The regions of a core that hold resident content (R44, R317): those of the VALID residency entries its
partition keeps for it, each as long as the entry's buffer. -/
def residentRegions (s : State) (p c : Nat) : List (Nat × Nat) :=
  ((List.range 16).filter (fun r => rflag s (rRES_VER p c r) fRES_VER_VALID)).map (fun r =>
    (rget s (rRES_KEY p c r) fRES_KEY_OFFSET,
     (readDesc s (descAddr s p (rget s (rRES_KEY p c r) fRES_KEY_BUFFER_ID))).units * 256))

/-- A list of regions without what region `h` covers. -/
def cutRegion (l : List (Nat × Nat)) (h : Nat × Nat) : List (Nat × Nat) :=
  l.flatMap (fun (o, n) =>
    [(o, min (o + n) h.1 - o), (max o (h.1 + h.2), o + n - max o (h.1 + h.2))].filter (fun q => q.2 ≠ 0))

/-- The command-scoped content of a core: everything but the resident content of the pour's partition (R44). -/
def scopedRegions (s : State) (c x : Nat) : List (Nat × Nat) :=
  match (ctxOf s c x).pour with
  | some pr => (residentRegions s pr.part c).foldl cutRegion [(0, 0x1000000)]
  | none => [(0, 0x1000000)]

/-- Make scratchpad regions of a core undefined. -/
def loseRegions (s : State) (c : Nat) (l : List (Nat × Nat)) : State :=
  let (n, s1) := useFree s
  modCore s1 c (fun k => l.foldl (fun k (o, m) => undefSpm k n o m) k)

/-- The content that the abort of one pour makes undefined (R64): that of the slots of its token range, and the
regions its instructions in flight write. -/
def pourRegions (k : Core) (x : Nat) (rng : List Nat) : List (Nat × Nat) :=
  rng.flatMap (fun t => kGet [] k.tokAt t) ++ (k.flights.filter (fun f => f.ctx = x)).flatMap (fun f => f.regions)

/-- Scratchpad content after an abort (R64): a kill makes the command-scoped content of the core undefined (R44),
the abort of one pour the content in its token range. -/
def undefAfterAbort (s : State) (c x code : Nat) : State :=
  loseRegions s c (if code = 0x01 ∨ code = 0x02 ∨ code = 0x03 then scopedRegions s c x
    else pourRegions (coreOf s c) x ((ctxOf s c x).pour.elim [] tokenRange))

/-- POUR_ABORT (R64): the aborting pour's queue entries, instructions in flight, streams, gathers
and tokens are stopped and reset, and its accumulator sets released undefined (R92); other contexts
go on. -/
def pourAbort (s : State) (c x : Nat) : State :=
  let t := ctxOf s c x
  match t.st with
  | .aborting =>
    let s0 := undefAfterAbort s c x t.abortCode
    let rng := match t.pour with | some pr => tokenRange pr | none => []
    let sets := match t.pour with | some pr => accsOf pr | none => []
    let (n, sf) := useFree (resetTokens s0 c rng)
    let s1 := modCore sf c (fun k =>
      let k1 := { k with flights := k.flights.filter (fun f => f.ctx ≠ x)
                         window := (match k.window with
                           | some w => if w.ctx = x then none else some w
                           | none => none)
                         powering := k.powering.map (fun (m, t) => (m, t.filter (fun u => !rng.contains u))) }
      undefAccs (stopEngines k1 x) sets n)
    let s2 := { s1 with ergReqs := s1.ergReqs.filter (fun r => !(r.core = c && r.ctx = x)) }
    modCtx s2 c x (fun t => { t with queue := [], updRun := none, stopped := true })
  | _ => s

/-- POUR_QUIET (R25, R28): the slots return, the completion record is written, the context is
IDLE. -/
def pourQuiet (s : State) (c x : Nat) : State :=
  let t := ctxOf s c x
  match t.st, t.stopped, t.pour with
  | .aborting, true, some pr => endPour (releaseBinds s pr.part pr.binds) c x pr t.abortCode false
  | _, _, _ => s

def ctxOk (c x : Nat) : Bool := decide (c < nCores) && decide (x < 4)

/-- POUR_START (R30). -/
def execPourStart (c x : Nat) (s : State) : Out := onUnit (ctxOk c x) "POUR_START" (.next (pourStart s c x))

/-- COMMIT_REQUEST (R65). -/
def execCommitRequest (c x : Nat) (s : State) : Out :=
  onUnit (ctxOk c x) "COMMIT_REQUEST" (.next (commitRequest s c x))

/-- POUR_ABORT (R64). -/
def execPourAbort (c x : Nat) (s : State) : Out := onUnit (ctxOk c x) "POUR_ABORT" (.next (pourAbort s c x))

/-- POUR_QUIET (R25). -/
def execPourQuiet (c x : Nat) (s : State) : Out := onUnit (ctxOk c x) "POUR_QUIET" (.next (pourQuiet s c x))

/-- POUR_TIME_WATCHDOG (R22): a pour past its watchdog W aborts with POUR_TIME. -/
def execPourTimeWatchdog (c x : Nat) (s : State) : Out :=
  onUnit (ctxOk c x) "POUR_TIME_WATCHDOG" (.next (beginAbort s c x 0x0A 0))

end Sys2Proof.Machine
end

