-- ==== Sys2Proof/Machine/Records.lean ====
section
/-! DEFINITION. Record queues and the trace ring: RECORD_WRITE, RECORD_WRITE_ACK, RECORD,
RECORD_SEND_EXPIRY, CQ_PTR_HEAD_WRITE (R331–R336), TRC_MARK and TRACE_RECORD_WRITE (R470, R471). -/

namespace Sys2Proof.Machine

/-- The words of record number `n` (R334, Table: Record header). -/
def recWords (r : Rec) (n : Nat) (lost : Bool) : List Word :=
  BitVec.ofNat 64 (r.kind <<< 56 + (r.code % 256) <<< 48 + (r.core % 256) <<< 40 +
    (r.ctx % 4) <<< 38 + (r.part % 8) <<< 35 + b2n r.pv <<< 34 + b2n lost <<< 33 + n % 2 ^ 32) ::
  BitVec.ofNat 64 r.time :: ((r.body ++ List.replicate 6 0).take 6)

/-- Address of record `n` of queue `q` (R331). -/
def recAddr (s : State) (q n : Nat) : Nat :=
  rget s (rCQ_CFG q) fCQ_CFG_BASE * 64 + (n % recRingSize s q) * 64

/-- Records in the ring and owed: TAIL − HEAD + RSV (R332). -/
def recUsed (s : State) (q : Nat) : Nat :=
  (rget s (rCQ_PTR q) fCQ_PTR_TAIL + 2 ^ 32 - rget s (rCQ_PTR q) fCQ_PTR_HEAD) % 2 ^ 32 +
    rget s (rCQ_STATUS q) fCQ_STATUS_RSV

/-- One completion record of queue `q` is no longer owed (R332). -/
def recPaid (s : State) (q : Nat) : State :=
  rput s (rCQ_STATUS q) fCQ_STATUS_RSV (rget s (rCQ_STATUS q) fCQ_STATUS_RSV - 1)

/-- A record of queue `q` is dropped: the next one written carries LOST (R331, R332). -/
def recDropped (s : State) (q : Nat) (f : Fld) : State :=
  rset (modRecq s q (fun k => { k with lostMark := true })) (rCQ_STATUS q) f

/-- The device starts writing the front record of queue `q`, or drops an event record for which
the ring has no room (R332). -/
def recordWrite (s : State) (q : Nat) : State :=
  match (recqOf s q).inFlight, (recqOf s q).waiting with
  | none, r :: rest =>
    let s1 := modRecq s q (fun k => { k with waiting := rest })
    if r.kind = 2 && decide (recRingSize s q ≤ recUsed s q) then
      recDropped s1 q fCQ_STATUS_LOST
    else
      let n := rget s (rCQ_PTR q) fCQ_PTR_TAIL
      let ws := recWords r n (recqOf s q).lostMark
      let s2 := modRecq s1 q (fun k =>
        { k with inFlight := some (ws, decide (r.kind = 2), 0), lostMark := false })
      if r.kind = 2 then
        traceRec s2 4 6 r.core r.part r.pv (BitVec.ofNat 64 (r.code <<< 48 + q)) (BitVec.ofNat 64 n)
      else s2
  | _, _ => s

/-- The write in flight of queue `q` is acknowledged, or fails, as it does where its controller answers with an
error: it is retried once, then dropped (R331, R333). -/
def recordWriteAck (s : State) (q : Nat) (ok : Bool) : State :=
  match (recqOf s q).inFlight with
  | none => s
  | some (ws, ev, fails) =>
    let n := rget s (rCQ_PTR q) fCQ_PTR_TAIL
    if ok && isTier (recAddr s q n) && !writeFails s (recAddr s q n) 64 then
      let s1 := memWrite s (recAddr s q n) (ws.flatMap (fun w => bytesLE 8 w.toNat))
      let s2 := rput s1 (rCQ_PTR q) fCQ_PTR_TAIL (n + 1)
      let s3 := if ev then s2 else recPaid s2 q
      modRecq s3 q (fun k => { k with
        inFlight := none
        lastEvent := if ev then (n + 1) % 2 ^ 32 else k.lastEvent
        toSend := k.toSend ++ [(ws, now s + 1000000)] })
    else if fails = 0 then
      modRecq s q (fun k => { k with inFlight := some (ws, ev, 1) })
    else
      let s1 := modRecq s q (fun k => { k with inFlight := none })
      let s2 := if ev then s1 else recPaid s1 q
      recDropped s2 q fCQ_STATUS_WRITE_ERR

/-- The active Caravan port (R337). -/
def activePort (s : State) : Nat := rget s rCTL_STATE fCTL_STATE_ACTIVE_PORT

/-- CTL_PORT_k.STATE = UP. -/
def cportUp (s : State) (k : Nat) : Bool := rget s (rCTL_PORT k) fCTL_PORT_STATE = 2

/-- Put a message into the send queue of port `k`. -/
def sendMsg (s : State) (k : Nat) (m : CMsg) : State :=
  modCport s k (fun p => { p with txq := p.txq ++ [{ m with timeLo := now s % 2 ^ 32 }] })

/-- The RECORD message of the first acknowledged record of queue `q` leaves on the active port
once it is UP (R333). -/
def recordSend (s : State) (q : Nat) : State :=
  match (recqOf s q).toSend with
  | [] => s
  | (ws, _) :: rest =>
    if cportUp s (activePort s) && !recordsOff s then
      sendMsg (modRecq s q (fun k => { k with toSend := rest })) (activePort s)
        { ty := 0x27, tag := 0, session := rget s rCTL_SESSION fCTL_SESSION_SESSION, addr := 0,
          part := 0, status := 0, w3 := BitVec.ofNat 64 q, payload := ws.map (fun w => (w, false)),
          timeLo := 0 }
    else s

/-- A RECORD that could not be sent within 1 ms is not sent (R333). -/
def recordSendExpiry (s : State) (q : Nat) : State :=
  match (recqOf s q).toSend with
  | [] => s
  | _ :: rest => if cportUp s (activePort s) then s else modRecq s q (fun k => { k with toSend := rest })

/-- Is a move of a ring's HEAD from `hd` to `v` neither backward nor past `tail`? -/
def headMoveOk (hd tail v : Nat) : Bool :=
  decide ((v + 2 ^ 32 - hd) % 2 ^ 32 ≤ (tail + 2 ^ 32 - hd) % 2 ^ 32)

/-- A write of CQ_PTR_q.HEAD (R336, R343): ignored when it moves HEAD backward or past TAIL. -/
def cqHeadWrite (s : State) (q : Nat) (value : Word) : State :=
  let v := wfld value 31 0
  if headMoveOk (rget s (rCQ_PTR q) fCQ_PTR_HEAD) (rget s (rCQ_PTR q) fCQ_PTR_TAIL) v then
    rput s (rCQ_PTR q) fCQ_PTR_HEAD v
  else s

/-- A write of TRC_MARK (R471, kind 8). -/
def trcMark (s : State) (value : Word) : State := traceRec s 8 6 0xFF 0 false value 0

/-- Entries of the trace ring (R473: LOG2_SIZE below 10 acts as 10, above 24 as 24). -/
def trcRingSize (s : State) : Nat := 2 ^ (max 10 (min 24 (rget s rTRC_BASE fTRC_BASE_LOG2_SIZE)))

/-- TRC_STATUS.FULL: TAIL − HEAD equals the ring size (R473). -/
def trcFull (s : State) : Bool :=
  (rget s rTRC_PTR fTRC_PTR_TAIL + 2 ^ 32 - rget s rTRC_PTR fTRC_PTR_HEAD) % 2 ^ 32 = trcRingSize s

/-- The front record of the trace FIFO is written into the ring, dropped for want of room, or
dropped because its write fails (R470). -/
def traceWrite (s : State) : State :=
  match s.trc.fifo with
  | [] => s
  | r :: rest =>
    let s1 := { s with trc := { s.trc with fifo := rest } }
    if trcFull s && !rflag s rTRC_CTRL fTRC_CTRL_WRAP then
      countDev (rset { s1 with trc := { s1.trc with lostWr := true } } rTRC_STATUS fTRC_STATUS_LOST)
        0x4710 1
    else
      let n := rget s rTRC_PTR fTRC_PTR_TAIL
      let a := rget s rTRC_BASE fTRC_BASE_BASE * 4096 + (n % trcRingSize s) * 32
      if isTier a && !writeFails s a 32 then
        let w0 := BitVec.ofNat 64 ((r.getD 0 0).toNat + n % 2 ^ 32) ||| (BitVec.ofNat 64 (b2n s.trc.lostWr) <<< 40)
        let s2 := memWrite s1 a ((w0 :: r.drop 1).flatMap (fun w => bytesLE 8 w.toNat))
        let s3 := if trcFull s then
            rput s2 rTRC_PTR fTRC_PTR_HEAD (rget s rTRC_PTR fTRC_PTR_HEAD + 1) else s2
        let s4 := rput s3 rTRC_PTR fTRC_PTR_TAIL (n + 1)
        { s4 with trc := { s4.trc with lostWr := false } }
      else
        countDev (rset s1 rTRC_STATUS fTRC_STATUS_WRITE_ERR) 0x4711 1

/-- RECORD_WRITE (R331, R332). -/
def execRecordWrite (q : Nat) (s : State) : Out :=
  onUnit (q < 9) "RECORD_WRITE" (.next (recordWrite s q))

/-- RECORD_WRITE_ACK (R331). -/
def execRecordWriteAck (q : Nat) (ok : Bool) (s : State) : Out :=
  onUnit (q < 9) "RECORD_WRITE_ACK" (.next (recordWriteAck s q ok))

/-- RECORD (R333). -/
def execRecord (q : Nat) (s : State) : Out := onUnit (q < 9) "RECORD" (.next (recordSend s q))

/-- RECORD_SEND_EXPIRY (R333). -/
def execRecordSendExpiry (q : Nat) (s : State) : Out :=
  onUnit (q < 9) "RECORD_SEND_EXPIRY" (.next (recordSendExpiry s q))

/-- CQ_PTR_HEAD_WRITE (R336). -/
def execCqPtrHeadWrite (q : Nat) (value : Word) (s : State) : Out :=
  onUnit (q < 9) "CQ_PTR_HEAD_WRITE" (.next (cqHeadWrite s q value))

/-- TRC_MARK (R471). -/
def execTrcMark (value : Word) (s : State) : Out := .next (trcMark s value)

/-- TRACE_RECORD_WRITE (R470). -/
def execTraceRecordWrite (s : State) : Out := .next (traceWrite s)

end Sys2Proof.Machine
end

