-- ==== Sys2Proof/Machine/TierQ.lean ====
section
/-! DEFINITION. The queues of the tier controllers (R203), requests held at protected pages (R368), and
the end of a checkpoint job (R371, R373), which lets them go on. -/

namespace Sys2Proof.Machine

def tctlOf (s : State) (n : Nat) : TCtl := kGet TCtl.reset s.tier n

def modTctl (s : State) (n : Nat) (f : TCtl → TCtl) : State := { s with tier := kSet s.tier n (f (tctlOf s n)) }

def chanOf (t : TCtl) (c : Nat) : TChan := kGet TChan.reset t.chans c

def setChan (t : TCtl) (c : Nat) (k : TChan) : TCtl := { t with chans := kSet t.chans c k }

/-- The page of a local address (R366). -/
def pageOf (a : Nat) : Nat := a / 0x200000

/-- Is the page of an address protected by an open epoch (R367)? -/
def ckptProtected (s : State) (a : Nat) : Bool := s.ckpt.prot.contains (pageOf a)

/-- A request joins the queue of its source, or waits behind it for room (R203). -/
def joinQueue (t : TCtl) (c src : Nat) (r : TierReq) : TCtl :=
  let k := chanOf t c
  setChan t c { k with queues := kSet k.queues src (kGet [] k.queues src ++ [r]) }

/-- The held requests of a controller that may go on, in the order in which they were held: those that
write no protected page and stand behind no held request of their requester. -/
def passHeld (prot : List Nat) : List (Nat × Nat × TierReq) → List Agent → TCtl → TCtl
  | [], _, t => t
  | (c, src, r) :: l, stuck, t =>
    if (r.data.isSome && prot.contains (pageOf r.addr)) || stuck.contains r.agent then
      let t1 := passHeld prot l (r.agent :: stuck) t
      { t1 with held := (c, src, r) :: t1.held }
    else passHeld prot l stuck (joinQueue t c src r)

/-- Held requests go on at every controller after protection has changed. -/
def releaseHeld (s : State) : State :=
  (s.tier.map (·.1)).foldl (fun u n =>
    let t := tctlOf u n
    modTctl u n (fun _ => passHeld u.ckpt.prot t.held [] { t with held := [] })) s

/-- The partition of the epoch, fill or repair. -/
def ckptPart (s : State) : Nat := rget s rCKPT_EPOCH fCKPT_EPOCH_PART

def ckptState (s : State) : Nat := rget s rCKPT_CTRL fCKPT_CTRL_STATE

/-- Requests of the checkpoint engines that await a response. -/
def ckptReqs (s : State) : List ErgReq :=
  s.ergReqs.filter (fun r => match r.origin with | .ckpt _ => true | _ => false)

/-- Every protection bit clears, held writes go on, and the engines stop. -/
def ckptStop (s : State) : State :=
  let s1 := { s with ergReqs := s.ergReqs.filter (fun r => match r.origin with | .ckpt _ => false | _ => true) }
  releaseHeld { s1 with ckpt := Ckpt.reset }

/-- Make the content of a list of tier pages undefined: a free value (R376). -/
def undefPages (s : State) (l : List Nat) : State :=
  let (n, s1) := useFree s
  l.foldl (fun u p => memUndefine u n (p * 0x200000) 0x200000) s1

/-- The end of a job with a failure cause, or by CANCEL (cause 6): ERR, CAUSE and CKPT_FAILED.  Pages that a
fill has written then hold undefined content. -/
def ckptFail (s : State) (cause : Nat) : State :=
  if ckptState s = 0 then s
  else
    let gone := if ckptState s = 3 then s.ckpt.copied.map (fun i => s.ckpt.pages.getD i 0) else []
    let s1 := ckptStop s
    let s2 := rput (rput (rset s1 rCKPT_CTRL fCKPT_CTRL_ERR) rCKPT_CTRL fCKPT_CTRL_CAUSE cause) rCKPT_CTRL fCKPT_CTRL_STATE 0
    let s3 := if gone.isEmpty then s2 else undefPages s2 gone
    raisePart s3 (ckptPart s3) 0x31 0xFF 0 [rd s3 rCKPT_CTRL]

/-- The release of a partition ends an epoch open for it (R373). -/
def ckptRelease (s : State) (p : Nat) : State :=
  if ckptPart s = p && (ckptState s = 1 || ckptState s = 2) then ckptFail s 6 else s

end Sys2Proof.Machine
end

