-- ==== Sys2Proof/Machine/Partitions.lean ====
section
/-! DEFINITION. Partitions, dispatch rings, preemption, tuyeres and release (R300–R323).  Commands:
POUR_DISPATCH, BARRIER_PASS, PART_ACTIVATE, PART_RELEASE, PART_RELEASE_COMPLETE, PART_RESUME,
RING_TAIL_WRITE, PREEMPT_GO, PREEMPT_COMPLETE, TUYERE_REFILL. -/

namespace Sys2Proof.Machine

/-! ### The ring and its entries -/

/-- Ring entries (R322: LOG2_SIZE below 5 acts as 5, above 20 as 20). -/
def ringSize (s : State) (p : Nat) : Nat := 2 ^ (max 5 (min 20 (rget s (rRING_BASE p) fRING_BASE_LOG2_SIZE)))

/-- Address of the command entry at ring position `n` (R303). -/
def entryAddr (s : State) (p n : Nat) : Nat :=
  rget s (rRING_BASE p) fRING_BASE_BASE * 4096 + (n % ringSize s p) * 64

def ringTail (s : State) (p : Nat) : Nat := rget s (rRING_TAIL p) fRING_TAIL_TAIL

/-- RING_STATUS with the HEAD and POUR_IDX that the dispatcher holds (R322). -/
def ringStatusW (s : State) (p : Nat) : Word :=
  wput (wput (rd s (rRING_STATUS p)) 63 32 (partOf s p).head) 31 20 (partOf s p).pourIdx

/-- A command entry (R304). -/
structure Entry where
  kind : Nat
  npour : Nat
  list : Nat
  wv : Bool
  ctr : Nat
  val : Nat
  badBits : Bool
  deriving DecidableEq, Repr

def readEntry (s : State) (a : Nat) : Entry :=
  let w := fun i => memWord s (a + 8 * i)
  { kind := wfld (w 0) 63 60, npour := wfld (w 0) 43 32 + 1, list := wfld (w 1) 47 0,
    wv := wbit (w 2) 63, ctr := wfld (w 2) 59 56, val := wfld (w 2) 31 0,
    badBits := decide (wfld (w 0) 59 44 ≠ 0 ∨ wfld (w 0) 31 0 ≠ 0 ∨ wfld (w 1) 63 48 ≠ 0 ∨
      wfld (w 2) 62 60 ≠ 0 ∨ wfld (w 2) 55 32 ≠ 0 ∨ w 3 ≠ 0 ∨ w 4 ≠ 0 ∨ w 5 ≠ 0 ∨ w 6 ≠ 0 ∨ w 7 ≠ 0) }

/-- Is the command entry one the dispatcher refuses (R307)? -/
def entryBad (e : Entry) : Bool :=
  e.badBits || !(e.kind = 1 || e.kind = 2) || decide (e.kind = 2 ∧ e.npour ≠ 1) ||
  decide (e.list % 128 ≠ 0)

/-- A predecessor link (R305): DIST and IDX. -/
structure PLink where
  dist : Nat
  idx : Nat
  deriving DecidableEq, Repr

/-- A pour descriptor as the dispatcher reads it (R305). -/
structure PDesc where
  core : Nat
  ctx : Nat
  nbind : Nat
  narg : Nat
  bindings : Nat
  links : List PLink
  pour : Pour
  badBits : Bool
  deriving DecidableEq, Repr

def halfOf (w : Word) (i : Nat) : Nat := wfld w (32 * i + 31) (32 * i)

/-- One binding entry (R306), not yet resolved. -/
def readBind (s : State) (a : Nat) : Bind :=
  let w0 := memWord s a
  let w1 := memWord s (a + 8)
  { buf := wfld w0 63 32, out := wbit w0 31, rmode := wfld w0 30 29, res := wbit w0 28,
    ridx := wfld w0 27 24, stamp := wfld w1 63 32, slot := 0, base := 0, units := 0, version := 0,
    verStamp := 0, baseVer := 0, fresh := false, claimed := false, held := false, replayMet := false }

def bindBadBits (s : State) (a : Nat) : Bool :=
  decide (wfld (memWord s a) 23 0 ≠ 0 ∨ wfld (memWord s (a + 8)) 31 0 ≠ 0)

/-- Read the pour descriptor at `a` for pour `idx` of ring position `pos` of partition `p`. -/
def readPDesc (s : State) (p pos idx a : Nat) : PDesc :=
  let w := fun i => memWord s (a + 8 * i)
  let nbind := wfld (w 0) 51 45
  let narg := wfld (w 0) 44 41
  let bl := wfld (w 4) 47 0
  let lks := [halfOf (w 5) 0, halfOf (w 5) 1, halfOf (w 6) 0, halfOf (w 6) 1]
  let nts := [halfOf (w 7) 0, halfOf (w 7) 1]
  { core := wfld (w 0) 63 56, ctx := wfld (w 0) 55 54, nbind := nbind, narg := narg, bindings := bl,
    links := (lks.filter (fun h => h.testBit 31)).map (fun h => ⟨bitsOf h 27 16, bitsOf h 11 0⟩),
    pour :=
      { part := p, pos := pos, idx := idx, pending := wbit (w 0) 53, replay := wbit (w 0) 52,
        stamp := wfld (w 1) 63 32, tokFirst := wfld (w 1) 31 22, tokLast := wfld (w 1) 21 12,
        mStream := wfld (w 2) 7 0, mGather := wfld (w 2) 17 16, mAcc0 := wfld (w 2) 11 8,
        mAcc1 := wfld (w 2) 15 12, entry := wfld (w 3) 31 0,
        binds := (List.range (min nbind 64)).map (fun i => readBind s (bl + 16 * i)),
        args := (List.range (min narg 8)).map (fun i => w (8 + i)),
        notices := (nts.filter (fun h => h.testBit 31)).map (fun h =>
          ⟨bitsOf h 30 28, bitsOf h 27 24, bitsOf h 15 0⟩),
        first := false, started := now s, watch := 0 },
    badBits := decide (wfld (w 0) 40 0 ≠ 0 ∨ wfld (w 1) 11 0 ≠ 0 ∨ wfld (w 2) 63 18 ≠ 0 ∨
        wfld (w 3) 63 32 ≠ 0 ∨ wfld (w 4) 63 48 ≠ 0) ||
      lks.any (fun h => decide (bitsOf h 30 28 ≠ 0 ∨ bitsOf h 15 12 ≠ 0)) ||
      nts.any (fun h => decide (bitsOf h 23 16 ≠ 0)) ||
      (List.range (min nbind 64)).any (fun i => bindBadBits s (bl + 16 * i)) }

/-- Is the pour one the dispatcher refuses with BAD_ENTRY (R307)? -/
def pdescBad (s : State) (p : Nat) (d : PDesc) : Bool :=
  d.badBits || decide (d.bindings % 16 ≠ 0) || decide (d.nbind = 0 ∨ 64 < d.nbind) ||
  decide (8 < d.narg) || !(decide (d.core < nCores) && partHasCore s p d.core) ||
  (d.pour.binds.head?.map (fun b => b.out)).getD false ||
  d.pour.binds.any (fun b => b.out && decide (b.rmode ≠ 0)) ||
  d.links.any (fun l => decide (l.dist = 0 ∧ d.pour.idx ≤ l.idx)) ||
  !partReachesRange s p d.bindings (16 * d.nbind)

/-! ### Waits -/

/-- What a link or a BARRIER finds. -/
inductive Wait where
  | met
  | waiting
  | failed
  deriving DecidableEq, Repr

def Wait.and : Wait → Wait → Wait
  | .failed, _ => .failed
  | _, .failed => .failed
  | .met, .met => .met
  | _, _ => .waiting

def waitOfOut : Option POut → Wait
  | some .committed => .met
  | some .replayed => .met
  | some .resident => .waiting
  | none => .waiting
  | some .aborted => .failed
  | some .killed => .failed
  | some .skipped => .failed

/-- Outcome of pour `i` of a kept command. -/
def outOf (r : CmdOut) (i : Nat) : Option POut :=
  kGet none (r.outs.map (fun (n, o) => (n, some o))) i

/-- A predecessor link of a pour at absolute ring position `pos` (R309). -/
def linkWait (k : Part) (pos : Nat) (l : PLink) : Wait :=
  if l.dist = 0 then waitOfOut (outOf (kGet ⟨0, []⟩ k.cmds pos) l.idx)
  else if pos < l.dist then .met
  else
    let r := kGet ⟨0, []⟩ k.cmds (pos - l.dist)
    (List.range r.npour).foldl (fun w i => w.and (waitOfOut (outOf r i))) .met

/-- A BARRIER at `pos` waits for every pour of every earlier command, leaving out the pours that a
preemption killed or skipped (R308, R309). -/
def barrierWait (k : Part) (pos : Nat) : Wait :=
  (k.cmds.filter (fun (n, _) => decide (n < pos))).foldl (fun w (_, r) =>
    (List.range r.npour).foldl (fun w i =>
      match outOf r i with
      | some .killed => w
      | some .skipped => w
      | o => w.and (waitOfOut o)) w) .met

/-- A counter wait (R312). -/
def counterMet (s : State) (p : Nat) (e : Entry) : Bool :=
  !e.wv || decide ((rget s (rNOTICE_CTR p e.ctr) fNOTICE_CTR_VALUE + 2 ^ 32 - e.val) % 2 ^ 32 < 2 ^ 31)

/-- Do two pours share a resource of a core (R56)? -/
def resOverlap (a b : Pour) : Bool :=
  decide (a.mStream &&& b.mStream ≠ 0 ∨ a.mGather &&& b.mGather ≠ 0 ∨ a.mAcc0 &&& b.mAcc0 ≠ 0 ∨
    a.mAcc1 &&& b.mAcc1 ≠ 0) ||
  decide (a.tokFirst ≤ a.tokLast ∧ b.tokFirst ≤ b.tokLast ∧ a.tokFirst ≤ b.tokLast ∧
    b.tokFirst ≤ a.tokLast)

/-- May partition `p` dispatch at all: ACTIVE, the device ADOPTED and released to run, the ring not
halted or preempted, DRAIN leaving it the command at HEAD, and HEAD ≠ TAIL (R307, R308, R313, R338,
R339, R358)? -/
def mayDispatch (s : State) (p : Nat) : Bool :=
  let k := partOf s p
  partState s p = 1 && ctlState s = 1 && !rflag s rCTL_STATE fCTL_STATE_RUN_HELD &&
  !rflag s (rRING_STATUS p) fRING_STATUS_HALTED && k.preempt.isNone && !s.pins.thermtrip &&
  (match k.drainAt with
   | none => true
   | some none => false
   | some (some h) => decide (k.head = h)) &&
  decide (k.head % 2 ^ 32 ≠ ringTail s p)

/-- Halt a ring with a cause and raise RING_HALTED (R307, R335). -/
def haltRing (s : State) (p cause : Nat) : State :=
  let s1 := rput (rset s (rRING_STATUS p) fRING_STATUS_HALTED) (rRING_STATUS p) fRING_STATUS_CAUSE cause
  raisePart s1 p 0x0E 0xFF 0 [ringStatusW s1 p]

/-- The command at HEAD is done with: HEAD advances and outcomes older than 4,095 positions are let
go (R308, R309). -/
def advanceHead (k : Part) : Part :=
  { k with head := k.head + 1, pourIdx := 0, seen := [],
           cmds := k.cmds.filter (fun (n, _) => decide (k.head + 1 ≤ n + 4095)) }

/-- Send the descriptor of the next pour to its core, which enters LOADING (R308). -/
def sendPour (s : State) (p : Nat) (e : Entry) (d : PDesc) : State :=
  let k := partOf s p
  let pr := { d.pour with first := !k.seen.contains d.core }
  let s1 := wakeUnit s d.core
  let s2 := setCtx s1 d.core d.ctx { ctxOf s1 d.core d.ctx with
    st := .loading, pour := some pr, resWord := resWordOf pr, ringPos := pr.pos, queue := [],
    stopped := false, commitSent := false, trapCode := 0, abortCode := 0, abortPc := 0 }
  let s3 := rput s2 (rCQ_STATUS p) fCQ_STATUS_RSV (rget s2 (rCQ_STATUS p) fCQ_STATUS_RSV + 1)
  modPart s3 p (fun k =>
    let r := kGet ⟨e.npour, []⟩ k.cmds k.head
    let k1 := { k with cmds := kSet k.cmds k.head ⟨e.npour, kSet r.outs pr.idx .resident⟩,
                       seen := d.core :: k.seen, pourIdx := k.pourIdx + 1 }
    if e.npour ≤ k.pourIdx + 1 then advanceHead k1 else k1)

/-- POUR_DISPATCH: the dispatcher looks at the next pour: it halts, waits or sends it (R307–R309,
R332); a core whose scratchpad is being scrubbed takes none (R176). -/
def pourDispatch (s : State) (p : Nat) : State :=
  let k := partOf s p
  if !mayDispatch s p then s
  else
    let ea := entryAddr s p k.head
    if memBadIn s ea 64 then haltRing s p 4
    else
      let e := readEntry s ea
      if entryBad e then haltRing s p 1
      else if e.kind = 2 then s
      else
        let a := e.list + 128 * k.pourIdx
        let d := readPDesc s p k.head k.pourIdx a
        if !partReachesRange s p a 128 then haltRing s p 1
        else if memBadIn s a 128 || memBadIn s d.bindings (16 * min d.nbind 64) then haltRing s p 4
        else if pdescBad s p d then haltRing s p 1
        else if fenceOf s d.core ≠ 0 then haltRing s p 3
        else
          match (d.links.map (linkWait k k.head)).foldl Wait.and .met with
          | .failed => haltRing s p 2
          | .waiting => s
          | .met =>
            let t := ctxOf s d.core d.ctx
            if (k.pourIdx = 0 && !counterMet s p e) || t.st ≠ .idle || (coreOf s d.core).scrubbing ||
                (List.range 4).any (fun x => match (ctxOf s d.core x).pour with
                  | some q => resOverlap q d.pour
                  | none => false) ||
                decide (recRingSize s p ≤ recUsed s p) then s
            else sendPour s p e d

/-- BARRIER_PASS: a BARRIER at HEAD is passed, waits, or halts the ring behind an abort (R308,
R309). -/
def barrierPass (s : State) (p : Nat) : State :=
  let k := partOf s p
  if !mayDispatch s p then s
  else
    let ea := entryAddr s p k.head
    if memBadIn s ea 64 then haltRing s p 4
    else
      let e := readEntry s ea
      if entryBad e then haltRing s p 1
      else if e.kind = 1 then s
      else
        match barrierWait k k.head with
        | .failed => haltRing s p 2
        | .waiting => s
        | .met =>
          if counterMet s p e then
            modPart s p (fun k => advanceHead { k with cmds := kSet k.cmds k.head ⟨0, []⟩ })
          else s

/-- RING_TAIL_WRITE (R311): the dispatch doorbell. -/
def ringTailWrite (s : State) (p : Nat) (value : Word) : State :=
  let v := wfld value 31 0
  let hd := (partOf s p).head % 2 ^ 32
  if partState s p ≠ 1 then s
  else if decide ((v + 2 ^ 32 - hd) % 2 ^ 32 ≤ ringSize s p) &&
      decide ((v + 2 ^ 32 - ringTail s p) % 2 ^ 32 < 2 ^ 31) then
    rput s (rRING_TAIL p) fRING_TAIL_TAIL v
  else rset s (rRING_STATUS p) fRING_STATUS_TAIL_REJECT

/-! ### Activation, release, resume -/

/-- Every line of a partition's record ring maps to a tier-2 stack it owns or shares (R331). -/
def recRingOk (s : State) (p : Nat) : Bool :=
  let base := rget s (rCQ_CFG p) fCQ_CFG_BASE * 64
  let n := recRingSize s p * 64
  (List.range ((base + n - 1) / 256 + 1 - base / 256)).all (fun i =>
    let a := (base / 256 + i) * 256
    isTier2 a && (match stackOf a with | some t => partReachesStack s p t | none => false))

/-- May partition `p` be activated (R302, R332, R358)? -/
def activateOk (s : State) (p : Nat) : Bool :=
  let st := rd s (rPART_STACKS p)
  let others := (List.range nParts).filter (fun q => q ≠ p && partState s q ≠ 0)
  !(coresOfPart s p).isEmpty && decide (wfld st 23 0 ≠ 0) && decide (wfld st 39 24 ≠ 0) &&
  others.all (fun q =>
    let t := rd s (rPART_STACKS q)
    (coresOfPart s p).all (fun c => !partHasCore s q c) && decide (wfld st 23 0 &&& wfld t 23 0 = 0) &&
    decide (wfld st 31 24 &&& wfld t 31 24 = 0) && decide (wfld st 31 24 &&& wfld t 39 32 = 0) &&
    decide (wfld st 39 32 &&& wfld t 31 24 = 0)) &&
  (coresOfPart s p).all (fun c => fenceOf s c = 0) && decide (wfld st 31 24 &&& wfld st 39 32 = 0) &&
  rflag s (rCQ_CFG p) fCQ_CFG_ENABLE && recRingOk s p && !rflag s rFLT_STATE fFLT_STATE_DRAIN

/-- Activation (R302): ACTIVE with HEAD = TAIL = 0 and no halt, or BAD.  The partition's chain
opens with the device chain value (R425). -/
def partActivate (s : State) (p : Nat) : State :=
  if partState s p ≠ 0 then s
  else if activateOk s p then
    let s1 := rput s (rPART_CTRL p) fPART_CTRL_STATE 1
    let s2 := rput (rput s1 (rRING_TAIL p) fRING_TAIL_TAIL 0) (rRING_STATUS p) fRING_STATUS_HALTED 0
    let s3 := rput s2 (rRING_STATUS p) fRING_STATUS_CAUSE 0
    extendPartition
      (modPart s3 p (fun k => { k with head := 0, pourIdx := 0, cmds := [], seen := [], preempt := none }))
      p 0x0010 s3.sec.chain
  else rset s (rPART_CTRL p) fPART_CTRL_BAD

/-- The contexts (core, context) that hold a pour of partition `p`. -/
def poursOf (s : State) (p : Nat) : List (Nat × Nat) :=
  (List.range nCores).flatMap (fun c => ((List.range 4).filter (fun x =>
    match (ctxOf s c x).pour with | some q => q.part = p | none => false)).map (fun x => (c, x)))

/-- Kill a pour at a release or an orphan transition (R24): one in LOADING completes with REFUSED; it too is a
kill in the core, which makes its command-scoped content undefined (R44). -/
def killOrRefuse (s : State) (c x code : Nat) : State :=
  match (ctxOf s c x).st with
  | .loading => beginAbort (loseRegions s c (scopedRegions s c x)) c x 0x13 0
  | _ => beginAbort s c x code 0

/-- Drop every cache line of a partition's stacks (R192). -/
def dropPartLines (s : State) (p : Nat) : State :=
  (List.range 4).foldl (fun t d => dropSprue t d (fun l => match stackOf (256 * l) with
    | some n => partReachesStack s p n
    | none => false)) s

/-- PART_RELEASE (R321): RELEASING, dispatch stopped, pours killed, PENDING slots discarded; an epoch open
for the partition ends (R373). -/
def partRelease (s : State) (p : Nat) : State :=
  if partState s p ≠ 1 then s
  else
    let s1 := rput s (rPART_CTRL p) fPART_CTRL_STATE 2
    let s2 := (poursOf s p).foldl (fun t (c, x) => killOrRefuse t c x 0x01) s1
    ckptRelease (mapDescs s2 p (discardDesc 0)) p

/-- PART_RELEASE_COMPLETE (R321): once every pour is quiet, scratchpads are scrubbed, the
partition's registers reset, the partition is FREE, and RELEASE_DONE is raised. -/
def partReleaseComplete (s : State) (p : Nat) : State :=
  if partState s p = 2 && (poursOf s p).isEmpty && !quoteWaits s p then
    let cs := coresOfPart s p
    let s1 := cs.foldl (fun t c => modCore t c (fun k => { k with scrubbing := true })) s
    let s2 := cs.foldl (fun t c => { t with cores := kSet t.cores c (
      (List.range 4).foldl (fun k x => { k with ctxs := kSet k.ctxs x Ctx.reset }) { coreOf t c with assayRing := [] }) }) s1
    let s3 := resetPartRegs (dropPartLines s2 p) p
    let s4 := setPart s3 p Part.reset
    let s5 := { s4 with sec := { s4.sec with pchain := kSet s4.sec.pchain p 0, plog := kSet s4.sec.plog p [] } }
    let s6 := rput s5 (rPART_CTRL p) fPART_CTRL_STATE 0
    postRec s6 8 ⟨2, 0x0D, 0xFF, 0, p, true, now s6, []⟩
  else s

/-- PART_RESUME (R307): a halted ring continues where it stopped. -/
def partResume (s : State) (p : Nat) : State :=
  if partState s p = 1 && rflag s (rRING_STATUS p) fRING_STATUS_HALTED then
    rput (rput s (rRING_STATUS p) fRING_STATUS_HALTED 0) (rRING_STATUS p) fRING_STATUS_CAUSE 0
  else s

/-! ### Preemption (R313–R315) -/

/-- The cores a preempt doorbell names. -/
def preemptCores (s : State) (p : Nat) (all : Bool) : List Nat :=
  (coresOfPart s p).filter (fun c => all || coreMaskBit s (fun i => rPREEMPT_MASK p i) c)

/-- PREEMPT_GO: an accepted GO stops dispatch and kills the pours of the named cores. -/
def preemptGo (s : State) (p : Nat) (value : Word) : State :=
  let s0 := rput (rput s (rPREEMPT p) fPREEMPT_NEWPOS (wfld value 63 32)) (rPREEMPT p) fPREEMPT_ALL
    (wfld value 3 3)
  let hd := (partOf s p).head
  let np := wfld value 63 32
  if partState s p = 1 && !rflag s (rPREEMPT p) fPREEMPT_BUSY &&
      headMoveOk (hd % 2 ^ 32) (ringTail s p) np then
    let cs := preemptCores s0 p (wbit value 3)
    let s1 := rset s0 (rPREEMPT p) fPREEMPT_BUSY
    let q : Preempt := ⟨now s, hd + (np + 2 ^ 32 - hd % 2 ^ 32) % 2 ^ 32, cs, 0, 0⟩
    let s2 := modPart s1 p (fun k => { k with preempt := some q })
    ((poursOf s p).filter (fun (c, _) => cs.contains c)).foldl (fun t (c, x) => beginAbort t c x 0x01 0) s2
  else rset s0 (rPREEMPT p) fPREEMPT_REJECT

/-- The outcomes of the command at `pos` once its pours from `from_` on are skipped. -/
def skipFrom (s : State) (p : Nat) (k : Part) (pos from_ : Nat) : CmdOut :=
  let e := readEntry s (entryAddr s p pos)
  let r := kGet ⟨0, []⟩ k.cmds pos
  let n := if e.kind = 2 then 0 else max r.npour e.npour
  ⟨n, (List.range n).foldl (fun o i => if from_ ≤ i then kSet o i .skipped else o) r.outs⟩

/-- PREEMPT_COMPLETE: once every killed pour is quiet, pours up to NEWPOS are skipped, HEAD moves,
and dispatch resumes. -/
def preemptComplete (s : State) (p : Nat) : State :=
  match (partOf s p).preempt with
  | none => s
  | some q =>
    if (poursOf s p).any (fun (c, _) => q.cores.contains c) then s
    else
      let k := partOf s p
      let cmds := (List.range (q.newpos - k.head)).foldl (fun m i =>
        kSet m (k.head + i) (skipFrom s p k (k.head + i) (if i = 0 then k.pourIdx else 0))) k.cmds
      let s1 := setPart s p { k with cmds := cmds.filter (fun (n, _) => decide (q.newpos ≤ n + 4095)),
                                     head := q.newpos, pourIdx := 0, seen := [], preempt := none }
      let s2 := rput (rput s1 (rRING_STATUS p) fRING_STATUS_HALTED 0) (rRING_STATUS p) fRING_STATUS_CAUSE 0
      let s3 := rput s2 (rPREEMPT p) fPREEMPT_BUSY 0
      let w := BitVec.ofNat 64 ((min (now s - q.t0) (2 ^ 32 - 1)) <<< 32 + (q.killed % 2 ^ 16) <<< 16 +
        q.committed % 2 ^ 16)
      raisePart (rwr s3 (rPREEMPT_RESULT p) w) p 0x0C 0xFF 0 [w]

/-! ### Tuyeres (R319) -/

/-- UNIT in bytes of a metered path: 0–15 path k of die d as 4d + k, 16–21 PART_TUY path k. -/
def tuyUnit (path : Nat) : Nat :=
  if path < 16 then (if path % 4 < 2 then 500 else 300)
  else if path < 18 then 150 else if path < 20 then 144 else 342

/-- The register of a meter. -/
def tuyReg (p path : Nat) : Nat := if path < 16 then rTUY (path / 4) p (path % 4) else rPART_TUY p (path - 16)

/-- The credit of an enabled meter rises by RATE × UNIT, up to BURST KiB. -/
def tuyereRefill (s : State) (p path : Nat) : State :=
  let w := rd s (tuyReg p path)
  if wbit w 32 then
    let rate := min 256 (wfld w 24 16)
    let top : Int := (max 1 (wfld w 15 0) * 1024 : Nat)
    modPart s p (fun k =>
      { k with credit := kSet k.credit path (min top (kGet 0 k.credit path + (rate * tuyUnit path : Nat))) })
  else s

/-- May a transfer of partition `p` enter a metered path (R319)? -/
def tuyPasses (s : State) (p path : Nat) : Bool :=
  !wbit (rd s (tuyReg p path)) 32 || decide (0 < kGet 0 (partOf s p).credit path)

/-- A transfer of `n` bytes enters a metered path: its size is taken from the credit. -/
def tuyTake (s : State) (p path n : Nat) : State :=
  if wbit (rd s (tuyReg p path)) 32 then
    modPart s p (fun k => { k with credit := kSet k.credit path (kGet 0 k.credit path - (n : Int)) })
  else s

/-! ### Commands -/

def execPourDispatch (p : Nat) (s : State) : Out := onUnit (p < nParts) "POUR_DISPATCH" (.next (pourDispatch s p))

def execBarrierPass (p : Nat) (s : State) : Out := onUnit (p < nParts) "BARRIER_PASS" (.next (barrierPass s p))

/-- PART_ACTIVATE (R302). -/
def execPartActivate (p : Nat) (value : Word) (s : State) : Out :=
  onUnit (p < nParts) "PART_ACTIVATE" (.next (if wbit value 0 then partActivate s p else s))

/-- PART_RELEASE (R321). -/
def execPartRelease (p : Nat) (value : Word) (s : State) : Out :=
  onUnit (p < nParts) "PART_RELEASE" (.next (if wbit value 1 then partRelease s p else s))

def execPartReleaseComplete (p : Nat) (s : State) : Out :=
  onUnit (p < nParts) "PART_RELEASE_COMPLETE" (.next (partReleaseComplete s p))

/-- PART_RESUME (R307). -/
def execPartResume (p : Nat) (value : Word) (s : State) : Out :=
  onUnit (p < nParts) "PART_RESUME" (.next (if wbit value 2 then partResume s p else s))

def execRingTailWrite (p : Nat) (value : Word) (s : State) : Out :=
  onUnit (p < nParts) "RING_TAIL_WRITE" (.next (ringTailWrite s p value))

/-- PREEMPT_GO (R313). -/
def execPreemptGo (p : Nat) (value : Word) (s : State) : Out :=
  onUnit (p < nParts) "PREEMPT_GO" (.next (if wbit value 0 then preemptGo s p value else s))

def execPreemptComplete (p : Nat) (s : State) : Out :=
  onUnit (p < nParts) "PREEMPT_COMPLETE" (.next (preemptComplete s p))

end Sys2Proof.Machine
end

