-- ==== Sys2Proof/Machine/Code.lean ====
section
/-! DEFINITION. The codes over stored and moved data: the data-path codeword of 80 bits (R344–R346), and
the CRC-16 of tier data and packet headers (R199, R218). -/

namespace Sys2Proof.Machine

/-! ### CRC-16 -/

/-- One byte into the CRC register, its high bit first (log entry 90). -/
def crcByte (r : Nat) (b : Byte) : Nat :=
  (List.range 8).foldl (fun r _ => if r < 0x8000 then 2 * r else (2 * r - 0x10000) ^^^ 0x8BB7)
    (r ^^^ (b.toNat * 256))

/-- The CRC-16 of bytes: polynomial 0x8BB7, initial value 0xFFFF (R199, R218). -/
def crc16 (bs : List Byte) : Nat := bs.foldl crcByte 0xFFFF

/-! ### The data-path code (R344) -/

/-- The low 15 coefficients of g(x) = (x + 1)(x^7 + x^3 + 1)(x^7 + x^3 + x^2 + x + 1); the last factor is the
minimal polynomial of α^3. -/
def codeGen : Nat := 0x4599

/-- A remainder times x, plus a bit at x^15, modulo g. -/
def codeStep (r : Nat) (bit : Bool) : Nat :=
  let top := (decide (0x4000 ≤ r)) != bit
  let v := 2 * r % 0x8000
  if top then v ^^^ codeGen else v

/-- The 15 code bits of a data word: d(x)·x^15 mod g(x), the high bit of d first. -/
def codeBits (w : Word) : Nat := (List.range 64).foldl (fun r i => codeStep r (w.getLsbD (63 - i))) 0

/-- The codeword of a data word: data in [63:0], code bits in [78:64], poison mark in [79] (R344). -/
def encode80 (w : Word) (poison : Bool) : BitVec 80 :=
  BitVec.ofNat 80 (w.toNat + codeBits w <<< 64 + b2n poison <<< 79)

/-- x^(i + 15) mod g for data bit i, and the unit vectors for the code bits: the syndrome that an error in
bit i of a codeword leaves. -/
def errSyndrome (i : Nat) : Nat :=
  if i < 64 then codeBits (BitVec.ofNat 64 (2 ^ i)) else 2 ^ (i - 64)

/-- The syndrome of bits [78:0]: code bits received against code bits of the data received. -/
def syndrome (c : BitVec 80) : Nat := codeBits (c.setWidth 64) ^^^ bitsOf c.toNat 78 64

/-- What a decoder finds (Table: Decode outcomes). -/
inductive Decoded where
  | clean
  | ce1 (i : Nat)
  | ce2 (i j : Nat)
  | ue
  | poison
  deriving DecidableEq, Repr

/-- Classify a codeword (R345): the poison mark first, then no error, one error, two errors, or more. -/
def decode80 (c : BitVec 80) : Decoded :=
  if c.getLsbD 79 then .poison
  else
    let s := syndrome c
    if s = 0 then .clean
    else
      let t := (List.range 79).map errSyndrome
      match t.idxOf? s with
      | some i => .ce1 i
      | none =>
        match (List.range 79).findSome? (fun i =>
          (t.idxOf? (s ^^^ t.getD i 0)).bind (fun j => if i < j then some (i, j) else none)) with
        | some (i, j) => .ce2 i j
        | none => .ue

/-- Bits an outcome corrects. -/
def Decoded.fix : Decoded → BitVec 80
  | .ce1 i => BitVec.ofNat 80 (2 ^ i)
  | .ce2 i j => BitVec.ofNat 80 (2 ^ i + 2 ^ j)
  | _ => 0

/-- Is the codeword uncorrectable? -/
def Decoded.isBad : Decoded → Bool
  | .ue => true
  | .poison => true
  | _ => false

/-- The data word a decoder delivers; of an uncorrectable codeword, its data bits as they stand. -/
def dataOf80 (c : BitVec 80) : Word := (c ^^^ (decode80 c).fix).setWidth 64

end Sys2Proof.Machine
end

