-- ==== Sys2Proof/Machine/Spm.lean ====
section
/-! DEFINITION. The scratchpad of a core (R168–R180): bytes, poison and power of its quads, port
accesses, the slot watchdog, the scrub, and the two calendar stores.  Commands: SLOT_WATCHDOG_EXPIRY,
SCRATCHPAD_PORT_ACCESS, SCRATCHPAD_SCRUB_COMPLETE, SPM_POWER_WRITE, BANK_CALENDAR_ACTIVATE,
QUAD_READY, TOKEN_FILL_COMPLETE, TOKEN_DRAIN_COMPLETE. -/

namespace Sys2Proof.Machine

def spmSize : Nat := 0x1000000

/-! ### Bytes -/

/-- What an unlisted scratchpad byte reads as: a free value where the content is undefined, else
zero (R176). -/
def spmDflt (k : Core) (o : Nat) : Byte :=
  match k.spmOver.find? (fun (a, n, _) => decide (a ≤ o) && decide (o < a + n)) with
  | some (_, _, some g) => Config.freeByte g o
  | _ => 0

def spmByte (k : Core) (o : Nat) : Byte := smGet (spmDflt k o) k.spm o

def spmBytes (k : Core) (o n : Nat) : List Byte := (List.range n).map (fun i => spmByte k (o + i))

def spmPut : Core → Nat → List Byte → Core
  | k, _, [] => k
  | k, o, b :: bs => spmPut { k with spm := smSet (spmDflt k o) k.spm o b } (o + 1) bs

/-- Does any codeword under a byte range carry uncorrectable content? -/
def spmBadIn (k : Core) (o n : Nat) : Bool :=
  (List.range ((o + n + 7) / 8 - o / 8)).any (fun i => smGet false k.spmBad (o / 8 + i))

/-- The offset of the first uncorrectable codeword under a byte range, else its start. -/
def spmFirstBad (k : Core) (o n : Nat) : Nat :=
  match (List.range ((o + n + 7) / 8 - o / 8)).find? (fun i => smGet false k.spmBad (o / 8 + i)) with
  | some i => 8 * (o / 8 + i)
  | none => o

/-- Mark a codeword poisoned; `ctl` tells that a tier controller of the device set the poison (R346). -/
def spmPoison (k : Core) (j : Nat) (ctl : Bool) : Core :=
  { k with spmBad := smSet false k.spmBad j true, spmCtl := smSet false k.spmCtl j ctl }

/-- Codewords only partly covered by a byte range: their indices. -/
def partCodewords (o n : Nat) : List Nat :=
  (if o % 8 ≠ 0 then [o / 8] else []) ++ (if (o + n) % 8 ≠ 0 then [(o + n) / 8] else [])

/-- Store bytes; codewords wholly covered get fresh check bits (R169). -/
def spmWrite (k : Core) (o : Nat) (bs : List Byte) : Core :=
  let k1 := spmPut k o bs
  { k1 with spmBad := smKeep (fun j => !(decide (o ≤ 8 * j) && decide (8 * j + 8 ≤ o + bs.length))) k1.spmBad }

/-! ### Quads (R168, R177, R178) -/

def quadOf (o : Nat) : Nat := bitsOf o 11 8

/-- The quads that a byte range touches. -/
def quadsOf (o n : Nat) : List Nat :=
  ((List.range (min 16 ((o + n + 255) / 256 - o / 256))).map (fun i => (o / 256 + i) % 16))

/-- Is quad `q` of core `c` on and ready? -/
def quadOn (s : State) (c q : Nat) : Bool :=
  wbit (rd s (rSPM_POWER c)) q && wbit (rd s (rSPM_POWER c)) (16 + q)

def rangeOn (s : State) (c o n : Nat) : Bool := (quadsOf o n).all (quadOn s c)

/-! ### The calendar in force (R170, R172) -/

/-- Port of quad `q` in a calendar entry. -/
def entryPort (e : Word) (q : Nat) : Nat := wfld e (4 * q + 3) (4 * q)

/-- Entry `j` of the default calendar (R173). -/
def defaultEntry (j : Nat) : Word :=
  BitVec.ofNat 64 (((List.range 16).map (fun q => ((q + j) % 16) <<< (4 * q))).foldl (· + ·) 0)

/-- The calendar in force. -/
def calInForce (s : State) (c : Nat) : List Word :=
  if rflag s (rSPM_CTRL c) fSPM_CTRL_DEFAULT then (List.range 16).map defaultEntry
  else if rget s (rSPM_CTRL c) fSPM_CTRL_CAL_ACTIVE = 0 then (coreOf s c).cal.store0 else (coreOf s c).cal.store1

/-- Does port `p` own quad `q` in some cycle: in some entry of the calendar in force (R172), every port in the
default calendar (R173), and OPS alone during a scrub (R176)? -/
def portServed (s : State) (c p q : Nat) : Bool :=
  if (coreOf s c).scrubbing then p = 0xE
  else rflag s (rSPM_CTRL c) fSPM_CTRL_DEFAULT || (calInForce s c).any (fun e => entryPort e q = p)

/-- The doze unit of quad `q` of core `c` (R469). -/
def quadUnit (c q : Nat) : Nat := 480 + 16 * c + q

/-- Does quad `q` doze or wake, so that an access to it waits (R177)? -/
def quadDozes (s : State) (c q : Nat) : Bool :=
  decide ((dozeOf s (quadUnit c q)).dz ≠ 0) || (dozeOf s (quadUnit c q)).waking

/-- Is a port served for every quad of a byte range, with no quad in doze? -/
def rangeServed (s : State) (c p o n : Nat) : Bool :=
  (quadsOf o n).all (fun q => portServed s c p q && !quadDozes s c q)

/-- The quads of a core, of a list, that doze begin to wake (R177, R403). -/
def wakeQuads (s : State) (c : Nat) (l : List Nat) : State :=
  l.foldl (fun t q => if quadDozes t c q then wakeUnit t (quadUnit c q) else t) s

/-- The effect being worked out meets an access to a range that waits: for a port never served (R172), or for
dozing quads, which wake (R177). -/
def portWaits (s : State) (c o n : Nat) : State :=
  modCore s c (fun k => { k with unserved := some (quadsOf o n) })

/-- The offset of the first access of a byte range that meets a quad that is off or not ready. -/
def spmFirstOff (s : State) (c o n : Nat) : Nat :=
  if !quadOn s c (quadOf o) then o
  else
    match (List.range (min 16 ((o + n + 255) / 256 - o / 256))).find? (fun i => !quadOn s c ((o / 256 + i) % 16)) with
    | some i => (o / 256 + i) * 256
    | none => o

/-- A rejected access to a quad that is off (R178): SPM_OFF_LOG and its time. -/
def logOff (s : State) (c node o port : Nat) : State :=
  let s1 := rwr s (rSPM_OFF_LOG c) (BitVec.ofNat 64 (node <<< 48 + (o % spmSize) <<< 16 + port <<< 12 + 1))
  rwr s1 (rSPM_OFF_TIME c) (nowW s)

/-- An access of a pour to a quad that is off: BANK_OFF (R178). -/
def bankOff (s : State) (c x o n port : Nat) : State :=
  beginAbort (logOff s c 0xFFFF (spmFirstOff s c o n) port) c x 0x07 0

/-- Record an uncorrectable scratchpad word (R195): the first one's address holds while any flag is
set. -/
def logSpmErr (s : State) (c : Nat) (x : Option Nat) (o : Nat) (f : Fld) : State :=
  let s1 := if wfld (rd s (rSPM_ERR c)) 2 1 = 0 then rput s (rSPM_ERR c) fSPM_ERR_ADDR (alignDown o 64) else s
  noteSpm (rset s1 (rSPM_ERR c) f) c x o
where
  /-- The uncorrectable word is monitor input 2.  It has a recoverable CPER record (R346, R362), unless its
  poison was set by a controller, which recorded it: INSTANCE is the bank (R168), and a pour that met it is
  named. -/
  noteSpm (s : State) (c : Nat) (x : Option Nat) (o : Nat) : State :=
    if smGet false (coreOf s c).spmCtl (o / 8) then monEvent s 2 1 else
    let i := { cperInfo 0 2 (dieOfCore c) 0 (bitsOf o 11 6) with
      core := c, addr := alignDown o 64, detail := rd s (rSPM_ERR c) }
    cperWrite (monEvent s 2 1) (match x with | some y => cperPour s c y i | none => i)

/-- An uncorrectable scratchpad word met by a pour (R26, R169): UNCORRECTED. -/
def spmUncorrected (s : State) (c x o n : Nat) : State :=
  beginAbort (logSpmErr s c (some x) (spmFirstBad (coreOf s c) o n) fSPM_ERR_UE) c x 0x04 0

/-- A read of a pour through a port: runs `k` with the bytes, waits at the port, or aborts the pour. -/
def spmRead (s : State) (c x port o n : Nat) (k : List Byte → State) : State :=
  if !rangeServed s c port o n then portWaits s c o n
  else if !rangeOn s c o n then bankOff s c x o n port
  else if spmBadIn (coreOf s c) o n then spmUncorrected s c x o n
  else k (spmBytes (coreOf s c) o n)

/-- A write of a pour through a port, the wait at the port, or the abort it meets. -/
def spmStore (s : State) (c x port o : Nat) (bs : List Byte) : State :=
  if !rangeServed s c port o bs.length then portWaits s c o bs.length
  else if !rangeOn s c o bs.length then bankOff s c x o bs.length port
  else
    match (partCodewords o bs.length).find? (fun j => smGet false (coreOf s c).spmBad j) with
    | some j => spmUncorrected s c x (8 * j) 8
    | none => modCore s c (fun k => spmWrite k o bs)

/-! ### Tokens -/

/-- Every token of a pour's range. -/
def ownsTok (p : Pour) (t : Nat) : Bool := decide (p.tokFirst ≤ t) && decide (t ≤ p.tokLast)

/-- Does something still write into the slot of token `t`: a request awaiting its response, a gather
filling it, an instruction that waits at its ports, a quad group powering up, or an assay window staging into it? -/
def fillBusy (s : State) (c t : Nat) : Bool :=
  let k := coreOf s c
  s.ergReqs.any (fun r => r.core = c && r.fill = some t) || k.powering.any (fun (_, u) => u = some t) ||
  k.flights.any (fun f => f.held.isSome && f.fills.contains t) ||
  k.gaths.any (fun (_, g) => g.owner.isSome && g.open_ && !g.store &&
    decide (g.tok0 + (g.visit / g.perSlot) % g.ring = t)) ||
  (match k.window with | some w => decide (w.tok0 ≤ t) && decide (t < w.tok0 + w.ntok) | none => false)

/-- Set one token of a core. -/
def setTokS (s : State) (c t : Nat) (v : Tok) : State := modCore s c (fun k => setTok k t v)

/-- TOKEN_FILL_COMPLETE (R58): FILLING to FULL once every write has been acknowledged. -/
def tokenFillComplete (s : State) (c t : Nat) : State :=
  if tokOf (coreOf s c) t = .filling && !fillBusy s c t then setTokS s c t .full else s

/-- TOKEN_DRAIN_COMPLETE (R58): DRAINING to EMPTY once the releasing reader's last read is done. -/
def tokenDrainComplete (s : State) (c t : Nat) : State :=
  if tokOf (coreOf s c) t = .draining && !(coreOf s c).flights.any (fun f => f.held.any (fun h => h.rel.contains t)) then setTokS s c t .empty else s

/-! ### The slot watchdog (R179, R180) -/

def tokCode : Tok → Nat
  | .empty => 0
  | .filling => 1
  | .full => 2
  | .draining => 3

/-- A SLOT_WAIT abort of context `x` of core `c`: the agent, its unit, the token it waited on. -/
def slotWait (s : State) (c x agent unit t : Nat) : State :=
  let w := ((ctxOf s c x).ringPos % 2 ^ 32) <<< 32 + t <<< 22 + x <<< 20 + agent <<< 17 + unit <<< 14 +
    tokCode (tokOf (coreOf s c) t) <<< 12 + 1
  beginAbort (rwr (rwr s (rSPM_WAIT_INFO c) (BitVec.ofNat 64 w)) (rSPM_WAIT_TIME c) (nowW s)) c x 0x05 0

/-! ### Power (R177, R178) -/

/-- Turn quads off: their content is lost. -/
def quadsDown (s : State) (c mask : Nat) : State :=
  let w := rd s (rSPM_POWER c)
  let s1 := rwr s (rSPM_POWER c) (w &&& ~~~(BitVec.ofNat 64 (mask + mask <<< 16)))
  let (n, s2) := useFree s1
  modCore s2 c (fun k =>
    { k with spm := smKeep (fun o => !mask.testBit (quadOf o)) k.spm
             spmBad := smKeep (fun j => !mask.testBit (quadOf (8 * j))) k.spmBad
             spmOver := ((bitList 16 mask).flatMap (fun q =>
               (List.range 4096).map (fun r => (r * 4096 + q * 256, 256, some n)))) ++ k.spmOver
             powering := k.powering.map (fun (m, t) => (m &&& (0xFFFF - mask), t)) })

/-- Request quads on; `tok` is the completion slot's token. -/
def quadsUp (s : State) (c mask : Nat) (tok : Option Nat) : State :=
  let w := rd s (rSPM_POWER c)
  let s1 := rwr s (rSPM_POWER c) (w ||| BitVec.ofNat 64 mask)
  modCore s1 c (fun k => { k with powering := k.powering ++ [(mask, tok)] })

/-- QUAD_READY (R177): requested quads become ready; a completion token whose quads are all ready
goes FULL. -/
def quadReady (s : State) (c mask : Nat) : State :=
  let asked := wfld (rd s (rSPM_POWER c)) 15 0 &&& mask
  let s1 := rwr s (rSPM_POWER c) (rd s (rSPM_POWER c) ||| BitVec.ofNat 64 (asked <<< 16))
  let ready := wfld (rd s1 (rSPM_POWER c)) 31 16
  let done := (coreOf s1 c).powering.filter (fun (m, _) => m &&& (0xFFFF - ready) = 0)
  modCore s1 c (fun k =>
    let k1 := { k with powering := k.powering.filter (fun (m, _) => m &&& (0xFFFF - ready) ≠ 0) }
    done.foldl (fun k (_, t) => match t with
      | some t => if tokOf k t = .filling then setTok k t .full else k
      | none => k) k1)

/-- SPM_POWER_WRITE (R178): ignored unless the core is quiet. -/
def spmPowerWrite (s : State) (c : Nat) (value : Word) : State :=
  if coreQuiet (coreOf s c) then
    let on := wfld value 15 0
    let old := wfld (rd s (rSPM_POWER c)) 15 0
    let down := old &&& (0xFFFF - on)
    let up := on &&& (0xFFFF - old)
    let s1 := if down = 0 then s
      else if s.erg.ext.any (fun h => h.cores.contains c) then
        { s with erg := { s.erg with ext := s.erg.ext ++ [⟨[c], .down c down⟩] } }
      else quadsDown s c down
    if up = 0 then s1 else quadsUp s1 c up none
  else s

/-! ### Bank calendars (R170–R173) -/

/-- Quads that port `p` may hold in one entry. -/
def portQuads (p : Nat) : Nat :=
  if p = 0 ∨ p = 2 ∨ p = 0xB ∨ p = 0xC ∨ p = 0xD then 1
  else if p = 1 ∨ p = 3 ∨ p = 7 ∨ p = 8 ∨ p = 9 then 4
  else if p = 0xE ∨ p = 0xF then 16 else 2

/-- The load check of R171. -/
def calOk (es : List Word) : Bool :=
  es.all (fun e => (List.range 16).all (fun p =>
    decide (((List.range 16).filter (fun q => entryPort e q = p)).length ≤ portQuads p))) &&
  (List.range 16).all (fun q => es.any (fun e => entryPort e q = 0xD))

/-- The store a load writes. -/
def calTarget (s : State) (c : Nat) : Nat :=
  if rflag s (rSPM_CTRL c) fSPM_CTRL_DEFAULT then 0
  else if rget s (rSPM_CTRL c) fSPM_CTRL_CAL_ACTIVE = 0 then 1 else 0

/-- Write a checked calendar into the store not in force; a load already waiting is replaced. -/
def calLoad (s : State) (c : Nat) (es : List Word) (at_ : Nat) : State :=
  let t := calTarget s c
  modCore s c (fun k => { k with cal :=
    { store0 := if t = 0 then es else k.cal.store0
      store1 := if t = 1 then es else k.cal.store1
      waiting := some (t, at_) } })

/-- BANK_CALENDAR_ACTIVATE (R171): the waiting calendar comes into force. -/
def calActivate (s : State) (c : Nat) : State :=
  match (coreOf s c).cal.waiting with
  | none => s
  | some (t, _) =>
    let s1 := modCore s c (fun k => { k with cal := { k.cal with waiting := none } })
    rput (rput s1 (rSPM_CTRL c) fSPM_CTRL_DEFAULT 0) (rSPM_CTRL c) fSPM_CTRL_CAL_ACTIVE t

/-- Restore the default calendar (R173). -/
def calDefault (s : State) (c : Nat) : State :=
  let s1 := modCore s c (fun k => { k with cal := ⟨[], [], none⟩ })
  rput (rput s1 (rSPM_CTRL c) fSPM_CTRL_DEFAULT 1) (rSPM_CTRL c) fSPM_CTRL_CAL_ACTIVE 0

/-- What the decoder finds in the codeword that holds scratchpad byte `o`, with the bits of `upset` in error
(R345). -/
def codeRead (k : Core) (o : Nat) (upset : BitVec 80) : Decoded :=
  if smGet false k.spmBad (o / 8) then .poison
  else decode80 (encode80 (BitVec.ofNat 64 (ofBytesLE (spmBytes k (alignDown o 8) 8))) false ^^^ upset)

/-- A corrected codeword: at a feeder, ARR_ERR.FEEDER_CE (R92, R93); elsewhere SPM_ERR.CE (R195). -/
def portCorrected (s : State) (c port o : Nat) (two : Bool) : State :=
  if port < 4 then
    countCore (rset (ceFound s (dieOfCore c, c, 1, port / 2) two) (rARR_ERR c) fARR_ERR_FEEDER_CE) c (0xA8 + port / 2) 1
  else countCore (rset (ceFound s (dieOfCore c, c, 0, bitsOf o 11 6) two) (rSPM_ERR c) fSPM_ERR_CE) c 0xAA 1

/-- An uncorrectable codeword, which stays as it is.  At a feeder it aborts the pour whose instruction the array
runs (R92); elsewhere SPM_ERR records it, with a flag of its own for EXT (R195). -/
def portBad (s : State) (c port o : Nat) : State :=
  if port < 4 then
    let s1 := rset (monEvent s 2 1) (rARR_ERR c) fARR_ERR_FEEDER_UE
    let i := { cperInfo 0 2 (dieOfCore c) 1 (port / 2) with core := c, detail := rd s1 (rARR_ERR c) }
    match (coreOf s c).flights.find? (fun f => f.units.contains (port / 2)) with
    | some f => beginAbort (cperWrite s1 (cperPour s c f.ctx i)) c f.ctx 0x04 0
    | none => cperWrite s1 i
  else
    let s1 := logSpmErr s c none o (if port = 0xD then fSPM_ERR_EXT_UE else fSPM_ERR_UE)
    if smGet false (coreOf s c).spmBad (o / 8) then s1 else modCore s1 c (fun k => spmPoison k (o / 8) false)

/-- Store a byte where the access is a write. -/
def putByte (s : State) (c o : Nat) (write : Option Byte) : State :=
  match write with
  | some b => modCore s c (fun k => spmPut k o [b])
  | none => s

/-- SCRATCHPAD_PORT_ACCESS (R172, R178): a pending access of a port is performed in a cycle in which
the port owns the quad; to a quad that is off it is rejected; a port never served goes on waiting. -/
def portAccess (s : State) (c port o : Nat) (write : Option Byte) (upset : BitVec 80) : State :=
  if !portServed s c port (quadOf o) then s
  else if quadDozes s c (quadOf o) then wakeQuads s c [quadOf o]
  else if !quadOn s c (quadOf o) then logOff s c 0xFFFF o port
  else
    match codeRead (coreOf s c) o upset with
    | .clean => putByte s c o write
    | .ce1 _ => putByte (portCorrected s c port o false) c o write
    | .ce2 _ _ => putByte (portCorrected s c port o true) c o write
    | .ue => portBad s c port o
    | .poison => portBad s c port o

/-- SCRATCHPAD_SCRUB_COMPLETE (R176, R173): every quad is on, every word zero, and the default
calendar in force. -/
def scrubComplete (s : State) (c : Nat) : State :=
  if (coreOf s c).scrubbing then
    let s1 := modCore s c (fun k => { k with spm := [], spmBad := [], spmCtl := [], spmOver := [], powering := [],
                                             scrubbing := false })
    calDefault (rwr s1 (rSPM_POWER c) 0xFFFFFFFF) c
  else s

/-! ### Commands -/

/-- TOKEN_FILL_COMPLETE (R58). -/
def execTokenFillComplete (c t : Nat) (s : State) : Out :=
  onUnit (decide (c < nCores) && decide (t < 1024)) "TOKEN_FILL_COMPLETE" (.next (tokenFillComplete s c t))

/-- TOKEN_DRAIN_COMPLETE (R58). -/
def execTokenDrainComplete (c t : Nat) (s : State) : Out :=
  onUnit (decide (c < nCores) && decide (t < 1024)) "TOKEN_DRAIN_COMPLETE" (.next (tokenDrainComplete s c t))

/-- QUAD_READY (R177). -/
def execQuadReady (c mask : Nat) (s : State) : Out :=
  onUnit (decide (c < nCores) && decide (mask < 0x10000)) "QUAD_READY" (.next (quadReady s c mask))

/-- SPM_POWER_WRITE (R178). -/
def execSpmPowerWrite (c : Nat) (value : Word) (s : State) : Out :=
  onUnit (c < nCores) "SPM_POWER_WRITE" (.next (spmPowerWrite s c value))

/-- BANK_CALENDAR_ACTIVATE (R171). -/
def execBankCalendarActivate (c : Nat) (s : State) : Out :=
  onUnit (c < nCores) "BANK_CALENDAR_ACTIVATE" (.next (calActivate s c))

/-- SCRATCHPAD_PORT_ACCESS (R172). -/
def execScratchpadPortAccess (c port o : Nat) (a : PortAccess) (s : State) : Out :=
  onUnit (decide (c < nCores) && decide (port < 15) && decide (o < spmSize)) "SCRATCHPAD_PORT_ACCESS"
    (.next (portAccess s c port o a.write a.upset))

end Sys2Proof.Machine
end

