-- ==== Sys2Proof/Machine/CoreRegs.lean ====
section
/-! DEFINITION. The per-core and per-partition register blocks as they read (R67, R93, R120, R143,
R167, R195, R322), writes under the access codes (R6, R474), and the writes of a core's block that
trigger an action.  Commands: CORE_CTRL_SEQ_INV, ARR_CTRL_INJECT_PARITY, NUM_LSCALE_WRITE. -/

namespace Sys2Proof.Machine

/-! ### Reads -/

def ctxCode : CtxSt → Nat
  | .idle => 0
  | .loading => 1
  | .running => 2
  | .committing => 3
  | .aborting => 4

/-- CORE_ID of core `c` (R67). -/
def coreIdW (c : Nat) : Word :=
  BitVec.ofNat 64 (((c % 40) % 8) <<< 16 + ((c % 40) / 8) <<< 12 + (c / 40) <<< 8 + c)

/-- Contexts of a core that are not IDLE, as a mask. -/
def occupiedMask (k : Core) : Nat := ofBitList ((List.range 4).filter (fun x => (ctxOfCore k x).st ≠ .idle))

/-- CORE_STATUS (R67). -/
def coreStatusW (s : State) (c : Nat) : Word :=
  let k := coreOf s c
  BitVec.ofNat 64 ((dozeOf s c).dz <<< 8 + occupiedMask k <<< 4 + (k.active % 4) <<< 2 +
    b2n (fenceOf s c ≠ 0) <<< 1 + b2n (coreQuiet k))

/-- CTX_STATE (R67). -/
def ctxStateW (t : Ctx) : Word :=
  BitVec.ofNat 64 ((t.ringPos % 2 ^ 32) <<< 32 + t.lastAbort <<< 8 + ctxCode t.st)

/-- TOKEN_STATE_i (R67). -/
def tokenStateW (k : Core) (i : Nat) : Word :=
  BitVec.ofNat 64 (((List.range 32).map (fun j => tokCode (tokOf k (32 * i + j)) <<< (2 * j))).foldl (· + ·) 0)

/-- ARR_STATUS of an array (R93). -/
def arrStatusW (s : State) (c a : Nat) : Word :=
  let k := coreOf s c
  let nf := ofBitList ((List.range 4).filter (fun i => (accOf k (4 * a + i)).nonfin))
  let held := ofBitList ((List.range 4).filter (fun i => k.flights.any (fun f => f.accs.contains (4 * a + i))))
  let busy := k.flights.any (fun f => f.units.contains a)
  let mode := match k.flights.find? (fun f => f.units.contains a) with | some f => f.mode | none => 0
  let drains := fun (f : Flight) => f.units.contains (2 + a) || (f.op = 0x30 && a = 0)
  BitVec.ofNat 64 (nf <<< 12 + held <<< 8 + mode <<< 2 + b2n (k.flights.any drains) <<< 1 + b2n busy)

/-- ATT_STATUS (R143). -/
def attStatusW (k : Core) : Word :=
  match k.flights.find? (fun f => f.units.contains 4) with
  | none => 0
  | some f =>
    let o := if f.op = 0x30 then 1 else if f.op = 0x31 then 2 else if f.op = 0x32 then 3
      else if f.op = 0x72 then 4 else 5
    BitVec.ofNat 64 (o <<< 5 + 1)

/-- The context that runs an update program. -/
def updCtx (k : Core) : Option (Nat × UpdRun) :=
  ((List.range 4).filterMap (fun x => (ctxOfCore k x).updRun.map (fun u => (x, u)))).head?

/-- UPD_STATUS (R167). -/
def updStatusW (s : State) (c : Nat) : Word :=
  match updCtx (coreOf s c) with
  | none => 0
  | some (x, u) =>
    BitVec.ofNat 64 ((u.opAt % 32) <<< 16 + (u.sweep % 16) <<< 10 + x <<< 8 + b2n u.inKernel <<< 2 +
      b2n (wbit (u.blk.getD 4 0) 60) <<< 1 + 1)

/-- STR_CTX (R195). -/
def strCtxW (r : Stream) : Word :=
  BitVec.ofNat 64 ((r.tiles % 2 ^ 32) <<< 32 + (r.pos % 16) <<< 12 + r.depth <<< 8 +
    (r.owner.getD 0) <<< 6 + b2n r.store <<< 5 + b2n r.noalloc <<< 4 + b2n r.owner.isSome)

/-- GATH (R195); a request of the model is answered in the command that issues it, so OUTSTANDING
reads 0. -/
def gathW (r : Gath) : Word :=
  BitVec.ofNat 64 ((r.visit % 2 ^ 32) <<< 32 + (r.owner.getD 0) <<< 6 + b2n r.bitmap <<< 4 +
    b2n r.store <<< 3 + b2n r.owner.isSome)

/-- Does PARTNER prevent assay selection (R117)? -/
def badPartner (s : State) (c : Nat) : Bool :=
  let q := rget s (rASSAY_CTRL c) fASSAY_CTRL_PARTNER
  q = c || !(decide (q < nCores) && (ownerOfCore s q = ownerOfCore s c)) || fenceOf s q ≠ 0

/-- ASSAY_STATUS (R120): BAD_PARTNER while selection is enabled and PARTNER prevents it. -/
def assayStatusW (s : State) (c : Nat) : Word :=
  wput (wput (rd s (rASSAY_STATUS c)) 2 2 (b2n (rflag s (rASSAY_CTRL c) fASSAY_CTRL_ENABLE && badPartner s c))) 0 0 (b2n (coreOf s c).window.isSome)

/-- CTX_PC (R67): the next word of a running pour, else the last word fetched. -/
def ctxPcShown (t : Ctx) : Addr := if t.st = .running then t.pc else t.lastPc

/-- What a register of a core's block reads as, for the registers that show state held elsewhere. -/
def coreRegView (s : State) (name : String) (ix : List Nat) (off : Nat) : Word :=
  let c := ix.getD 0 0
  let i := ix.getD 1 0
  if name = "CORE_ID" then coreIdW c
  else if name = "CORE_STATUS" then coreStatusW s c
  else if name = "CTX_STATE" then ctxStateW (ctxOf s c i)
  else if name = "CTX_PC" then BitVec.ofNat 64 (ctxPcShown (ctxOf s c i)).toNat
  else if name = "CTX_RES" then (ctxOf s c i).resWord
  else if name = "TOKEN_STATE" then tokenStateW (coreOf s c) i
  else if name = "ARR_STATUS" then arrStatusW s c i
  else if name = "ATT_STATUS" then attStatusW (coreOf s c)
  else if name = "UPD_STATUS" then updStatusW s c
  else if name = "STR_CTX" then strCtxW (kGet Stream.reset (coreOf s c).streams i)
  else if name = "GATH" then gathW (kGet Gath.reset (coreOf s c).gaths i)
  else if name = "ASSAY_STATUS" then assayStatusW s c
  else if name = "RING_STATUS" then ringStatusW s c
  else rd s off

/-- The readable bits of a register: a WO field reads zero (R6). -/
def readMask (off : Nat) (w : Word) : Word :=
  w &&& BitVec.ofNat 64 (regMask (fun a => a ≠ .wo) off)

/-! ### Writes under the access codes (R6) -/

/-- A write of a whole register: RW and RWS fields take the value, a 1 clears a W1C bit, RO and WO
fields keep. -/
def regSet (s : State) (off : Nat) (v : Word) : State :=
  let set := BitVec.ofNat 64 (regMask (fun a => a = .rw || a = .rws) off)
  let clr := BitVec.ofNat 64 (regMask (fun a => a = .w1c) off)
  let old := rd s off
  rwr s off (((old &&& ~~~set) ||| (v &&& set)) &&& ~~~(v &&& clr))

/-- NUM_LSCALE_WRITE (R120): L and N of the partition are set, C is cleared, the W1C flags written as 1 are
cleared, and every core of the partition mirrors the state. -/
def numLscaleWrite (s : State) (c : Nat) (v : Word) : State :=
  let s0 := regSet s (rNUM_LSCALE c) v
  match ownerOfCore s c with
  | none => rput s0 (rNUM_LSCALE c) fNUM_LSCALE_CLEAN 0
  | some p =>
    let s1 := modPart s0 p (fun k => { k with
      lscale := signedOf 8 (wfld v 7 0), lsC := 0, lsN := wfld v 63 48 })
    (coresOfPart s p).foldl (fun t q =>
      rwr t (rNUM_LSCALE q) (wput (rd t (rNUM_LSCALE q)) 9 8 (wfld (rd t (rNUM_LSCALE q)) 9 8 &&& wfld (~~~v) 9 8)))
      (mirrorLscale s1 p none)

/-- CORE_CTRL_SEQ_INV (R67): every line of both sequencer caches is dropped; SWITCH_WAIT is set. -/
def seqInv (s : State) (c : Nat) (v : Word) : State :=
  let s1 := regSet s (rCORE_CTRL c) v
  if wbit v 16 then modCore s1 c (fun k => { k with iLines := [], dLines := [] }) else s1

/-- ARR_CTRL_INJECT_PARITY (R93): on a fenced core, one parity bit is corrupted at the next step
into the targeted set. -/
def arrInject (s : State) (c : Nat) (v : Word) : State :=
  let s1 := regSet s (rARR_CTRL c) v
  if wbit v 0 && decide (fenceOf s c ≠ 0) then
    let i := 4 * wfld v 4 4 + wfld v 9 8
    modCore s1 c (fun k => setAcc k i { accOf k i with inject := true })
  else s1

/-- A write of a register of a core's block. -/
def coreRegWrite (s : State) (name : String) (c off : Nat) (v : Word) : State :=
  if name = "CORE_CTRL" then seqInv s c v
  else if name = "ARR_CTRL" then arrInject s c v
  else if name = "NUM_LSCALE" then numLscaleWrite s c v
  else if name = "SPM_POWER" then spmPowerWrite s c v
  else regSet s off v

/-! ### Commands -/

/-- CORE_CTRL_SEQ_INV (R67): a write of CORE_CTRL. -/
def execCoreCtrlSeqInv (c : Nat) (value : Word) (s : State) : Out :=
  onUnit (c < nCores) "CORE_CTRL_SEQ_INV" (.next (seqInv s c (value ||| 0x10000)))

/-- ARR_CTRL_INJECT_PARITY (R93): a write of ARR_CTRL. -/
def execArrCtrlInjectParity (c : Nat) (value : Word) (s : State) : Out :=
  onUnit (c < nCores) "ARR_CTRL_INJECT_PARITY" (.next (arrInject s c (value ||| 1)))

/-- NUM_LSCALE_WRITE (R120). -/
def execNumLscaleWrite (c : Nat) (value : Word) (s : State) : Out :=
  onUnit (c < nCores) "NUM_LSCALE_WRITE" (.next (numLscaleWrite s c value))

end Sys2Proof.Machine
end

