-- ==== Sys2Proof/Machine/Seq.lean ====
section
/-! DEFINITION. The sequencer (R52, R53, R257–R262): word fields, the encoding check of every class
(R259), fetch, guard, and the frame every instruction command runs in.

An instruction command names a core, a context and the word; it is the sequencer's issue of the word
at the context's PC.  Where the context is not ready, it is another context's turn (R53), or another word
stands there, the command cannot arise and has no effect (log entry 8). -/

namespace Sys2Proof.Machine

/-! ### Word fields (Table: Common word format) -/

def wOp (w : Word) : Nat := wfld w 63 58
def wPN (w : Word) : Bool := wbit w 57
def wPG (w : Word) : Nat := wfld w 56 54
def wRD (w : Word) : Nat := wfld w 53 49
def wRS1 (w : Word) : Nat := wfld w 48 44
def wRS2 (w : Word) : Nat := wfld w 43 39
def wFN (w : Word) : Nat := wfld w 38 32
def wIMM (w : Word) : Nat := wfld w 31 0

/-- IMM sign-extended to 64 bits. -/
def wIMMs (w : Word) : Word := BitVec.ofNat 64 (wrapTo 64 (signedOf 32 (wIMM w)))

/-- Bits [hi:lo] are zero. -/
def zb (w : Word) (hi lo : Nat) : Bool := wfld w hi lo = 0

/-! ### The encoding check (R259; Tables: ALU functions, Matrix, Vector, Attention, Data-movement,
Fabric encodings, Scratchpad operations) -/

/-- VEW functions of one operand (Table: VEW functions). -/
def vewUnary (fn : Nat) : Bool := fn = 0 || (6 ≤ fn && fn ≤ 0xB) || fn = 0xD

/-- Does a word pass the check at decode? -/
def encodingOk (w : Word) : Bool :=
  let op := wOp w
  let fn := wFN w
  if op = 0x00 then zb w 53 0
  else if op = 0x01 then zb w 53 32
  else if op = 0x02 then zb w 48 32
  else if op = 0x03 then zb w 43 32
  else if op = 0x04 then zb w 53 32 && zb w 31 16
  else if op = 0x05 then zb w 53 0
  else if op = 0x08 then fn ≤ 0xD && zb w 31 0
  else if op = 0x09 then fn ≤ 0xD && zb w 43 39
  else if op = 0x0A then zb w 48 39 && zb w 38 33
  else if op = 0x0B then
    zb w 53 52 && zb w 38 36 && wfld w 34 32 ≤ 5 && (if wbit w 35 then zb w 43 39 else zb w 31 0)
  else if op = 0x0C then
    zb w 53 52 && zb w 48 47 && zb w 43 42 && zb w 31 0 && fn ≤ 6 &&
      (if fn = 4 then zb w 43 39 else if fn = 5 || fn = 6 then zb w 48 39 else true)
  else if op = 0x10 then zb w 43 39 && zb w 38 35 && (wfld w 33 32 ≠ 3 || !wbit w 34)
  else if op = 0x11 then zb w 53 49 && zb w 38 34
  else if op = 0x14 then zb w 53 49 && zb w 43 39 && zb w 38 34 && wfld w 33 32 ≠ 3
  else if op = 0x15 then zb w 53 0
  else if op = 0x16 then zb w 53 0
  else if op = 0x18 then zb w 53 0
  else if op = 0x19 then
    zb w 48 39 && (if fn ≤ 4 then zb w 31 6 else if fn = 5 then zb w 31 3 else fn = 6 && zb w 31 0)
  else if op = 0x1C then zb w 13 0 && (wbit w 50 || zb w 28 23)
  else if op = 0x1D then zb w 50 0
  else if op = 0x20 then
    zb w 6 0 && wfld w 53 51 ≤ 3 && (wfld w 53 51 = 0 || !wbit w 50) &&
      (wfld w 53 51 = 3 || (zb w 34 29 && !wbit w 26))
  else if op = 0x21 then
    zb w 1 0 && wfld w 53 51 ≤ 3 && (wfld w 53 51 = 0 || !wbit w 50) &&
      (wfld w 53 51 = 3 || (zb w 34 29 && !wbit w 16))
  else if op = 0x22 then zb w 13 0 && (wbit w 38 || zb w 44 39)
  else if op = 0x23 then zb w 30 0
  else if op = 0x24 then zb w 29 0
  else if op = 0x25 then zb w 26 0
  else if op = 0x28 then
    zb w 15 0 && wfld w 23 18 ≤ 0xD &&
      (!vewUnary (wfld w 23 18) || (zb w 47 42 && !wbit w 34 && zb w 17 16))
  else if op = 0x29 then
    zb w 31 0 && wfld w 33 32 ≠ 3 && (wfld w 33 32 = 0 || (zb w 47 42 && !wbit w 34))
  else if op = 0x2A then zb w 23 0
  else if op = 0x2F then zb w 48 0
  else if op = 0x30 then zb w 3 0
  else if op = 0x31 then zb w 17 0
  else if op = 0x32 then zb w 6 0 && (wbit w 53 || (zb w 37 32 && !wbit w 30))
  else if op = 0x33 then zb w 12 0 && (wbit w 29 || (zb w 41 30 && zb w 22 13))
  else if op = 0x34 then zb w 2 0 && (!wbit w 51 || !wbit w 50)
  else if op = 0x35 then zb w 52 0
  else if op = 0x38 then
    let f := wfld w 53 50
    zb w 10 0 &&
      (if f = 0 then zb w 43 37 && zb w 31 11
       else if f = 1 then zb w 36 11
       else if f = 2 then zb w 43 11
       else if f = 3 then zb w 49 32 && zb w 15 11
       else if f = 4 then zb w 43 32 && zb w 15 11
       else f = 5 && zb w 49 37 && zb w 31 16)
  else if op = 0x3B then zb w 37 0
  else if op = 0x3C then
    zb w 13 0 && wfld w 53 52 ≠ 3 && wfld w 39 37 ≤ 4 && (wbit w 36 || zb w 35 26) &&
      (wbit w 19 || zb w 25 20) && (wfld w 53 52 = 2 || zb w 18 14)
  else if op = 0x3D then zb w 39 0 && wfld w 42 40 ≤ 4
  else if op = 0x3E then zb w 28 0 && wfld w 53 51 ≤ 3 && wfld w 31 29 ≤ 4
  else false

/-! ### Registers of a context (R55, R261) -/

def gRead (t : Ctx) (r : Nat) : Word := if r = 0 then 0 else t.g.getD r 0

def gWrite (t : Ctx) (r : Nat) (v : Word) : Ctx :=
  if r = 0 then t else { t with g := t.g.set! r v }

def pRead (t : Ctx) (r : Nat) : Bool := if r = 0 then true else t.p.getD r false

def pWrite (t : Ctx) (r : Nat) (v : Bool) : Ctx :=
  if r = 0 then t else { t with p := t.p.set! r v }

def dRead (t : Ctx) (r : Nat) : BitVec 128 := t.d.getD r 0

def nextPc (t : Ctx) : Ctx := { t with pc := t.pc + 8 }

/-- The guard of a word (R258). -/
def guardOf (t : Ctx) (w : Word) : Bool := pRead t (wPG w) != wPN w

/-! ### Fetch (R257) and readiness (R52, R53) -/

def codeBind (pr : Pour) : Bind :=
  pr.binds.getD 0 ⟨0, false, 0, false, 0, 0, 0, 0, 0, 0, 0, 0, false, false, false, false⟩

/-- Is an 8-byte fetch at `a` inside the pour's code binding and aligned? -/
def fetchOk (pr : Pour) (a n : Nat) : Bool :=
  decide (a % 8 = 0) && decide ((codeBind pr).base ≤ a) &&
    decide (a + n ≤ (codeBind pr).base + (codeBind pr).units * 256)

/-- A sync instruction waits in the queue: the sequencer fetches nothing further (R270–R272). -/
def syncWaits (t : Ctx) : Bool :=
  t.queue.any (fun q => wOp q.word = 0x14 || wOp q.word = 0x15 || wOp q.word = 0x16)

/-- Does the sequencer hold the context for its update engine (R267)? -/
def updHolds (t : Ctx) : Bool :=
  (match t.updRun with | some u => !u.inKernel | none => false) ||
  t.queue.any (fun q => wOp q.word = 0x2F || wOp q.word = 0x05)

/-- Has a WAITALL of context `x` issued and not completed (R271)? -/
def waitallOpen (k : Core) (x : Nat) : Bool := k.flights.any (fun f => f.ctx = x && f.op = 0x15)

/-- May the sequencer issue from context `x`: it runs, does not wait at a sync instruction or for its update
program, and its queue has room (R52)? -/
def seqReady (k : Core) (x : Nat) : Bool :=
  (ctxOfCore k x).st = .running && !syncWaits (ctxOfCore k x) && !waitallOpen k x && !updHolds (ctxOfCore k x) &&
    decide ((ctxOfCore k x).queue.length < 32)

/-- A line a sequencer cache holds. -/
def lineOf (l : List CLine) (n : Nat) : Option CLine := l.find? (fun x => x.line = n)

/-- Lines of a 64-byte cache after a line is used: the set keeps its 4 latest (R54). -/
def lineIn (sets : Nat) (h : CLine) (l : List CLine) : List CLine :=
  let same := l.filter (fun x => x.line % sets = h.line % sets && x.line ≠ h.line)
  h :: same.take 3 ++ l.filter (fun x => x.line % sets ≠ h.line % sets)

/-- `n` bytes at `a`, from the line held if there is one, else from tier memory. -/
def lineBytes (s : State) (l : List CLine) (a n : Nat) : List Byte :=
  match lineOf l (a / 64) with
  | some h => (h.data.drop (a % 64)).take n
  | none => memBytes s a n

/-- Do bytes at `a` read clean: from a line held, or from clean codewords? -/
def lineClean (s : State) (l : List CLine) (a n : Nat) : Bool :=
  (lineOf l (a / 64)).isSome || !memBadIn s a n

/-- The lines after an access at `a`: the line used, brought in where it reads clean. -/
def lineUse (s : State) (sets : Nat) (l : List CLine) (a : Nat) : List CLine :=
  match lineOf l (a / 64) with
  | some h => lineIn sets h l
  | none =>
    if memBadIn s (a / 64 * 64) 64 then l else lineIn sets ⟨a / 64, memBytes s (a / 64 * 64) 64⟩ l

/-- The word that a fetch at `a` returns (R54, R257). -/
def fetchWord (s : State) (c a : Nat) : Word :=
  BitVec.ofNat 64 (ofBytesLE (lineBytes s (coreOf s c).iLines a 8))

/-- The sequencer has fetched at a context's PC: it has issued from that context last. -/
def fetchedAt (s : State) (c x : Nat) : State :=
  modCore (modCtx s c x (fun t => { t with lastPc := t.pc })) c (fun k => { k with lastSeq := x })

/-- The instruction cache has served a fetch at `a`. -/
def iFilled (s : State) (c a : Nat) : State :=
  modCore s c (fun k => { k with iLines := lineUse s 128 k.iLines a })

/-- Has a context an instruction ready (R53): it may issue and its next word is in the instruction cache? -/
def seqHas (k : Core) (y : Nat) : Bool :=
  seqReady k y && (lineOf k.iLines ((ctxOfCore k y).pc.toNat / 64)).isSome

/-- Is it context `x`'s turn (R53): no context before it in the scan that starts after the context that issued
last has an instruction ready? -/
def seqTurn (k : Core) (x : Nat) : Bool :=
  ((List.range 4).map (fun i => (k.lastSeq + 1 + i) % 4)).find? (fun y => y = x || seqHas k y) = some x

/-- An illegal word: ILLEGAL_INSTRUCTION, before any effect (R259, R276). -/
def illegal (s : State) (c x : Nat) : State := beginAbort s c x 0x0B 0

/-- Run a word: fetch check, encoding check, then the instruction's own effect `body` under a true
guard, else the next word.  `mine` tells whether the word is of this command's row. -/
def runWord (mine : Word → Bool) (body : State → Ctx → Pour → State) (s : State) (c x : Nat) (w : Word) :
    State :=
  let t := ctxOf s c x
  match t.pour with
  | none => s
  | some pr =>
    let a := t.pc.toNat
    if !seqReady (coreOf s c) x || !seqTurn (coreOf s c) x then s
    else if !fetchOk pr a 8 then badAddress (fetchedAt s c x) c x 0 a
    else if !lineClean s (coreOf s c).iLines a 8 then beginAbort (fetchedAt s c x) c x 0x04 0
    else if fetchWord s c a ≠ w || (encodingOk w && !mine w) then s
    else
      let s1 := iFilled (fetchedAt s c x) c a
      if !encodingOk w then illegal s1 c x
      else if guardOf t w then body s1 (ctxOf s1 c x) pr
      else modCtx s1 c x nextPc

end Sys2Proof.Machine
end

