-- ==== Sys2Proof/Machine/Scalar.lean ====
section
/-! DEFINITION. Control, scalar, scalar memory, commit and version instructions (R263–R269,
R273–R276).  Commands: NOP, BR, JAL, JALR, TRAP, ALU, ALUI, MOVI, CMP, PSET, LD, ST, COMMIT,
VQUERY. -/

namespace Sys2Proof.Machine

/-- PC + 8 × IMM (R266). -/
def branchTarget (t : Ctx) (w : Word) : Addr := BitVec.ofNat 48 (t.pc.toNat + 8 * (wIMMs w).toNat)

/-- ALU functions (R263). -/
def aluFn (fn : Nat) (a b : Word) : Word :=
  let sh := wfld b 5 0
  if fn = 0x0 then a + b
  else if fn = 0x1 then a - b
  else if fn = 0x2 then a &&& b
  else if fn = 0x3 then a ||| b
  else if fn = 0x4 then a ^^^ b
  else if fn = 0x5 then a <<< sh
  else if fn = 0x6 then a >>> sh
  else if fn = 0x7 then a.sshiftRight sh
  else if fn = 0x8 then a * b
  else if fn = 0x9 then BitVec.ofNat 64 (a.toNat * b.toNat / 2 ^ 64)
  else if fn = 0xA then (if a.toInt ≤ b.toInt then a else b)
  else if fn = 0xB then (if a.toInt ≤ b.toInt then b else a)
  else if fn = 0xC then (if a.toNat ≤ b.toNat then a else b)
  else (if a.toNat ≤ b.toNat then b else a)

/-- CMP conditions (R265). -/
def cmpFn (fn : Nat) (a b : Word) : Bool :=
  if fn = 0 then a = b
  else if fn = 1 then a ≠ b
  else if fn = 2 then decide (a.toInt < b.toInt)
  else if fn = 3 then decide (b.toInt ≤ a.toInt)
  else if fn = 4 then decide (a.toNat < b.toNat)
  else decide (b.toNat ≤ a.toNat)

/-- PSET functions (R265). -/
def psetFn (fn : Nat) (a b : Bool) : Bool :=
  if fn = 0 then a && b
  else if fn = 1 then a || b
  else if fn = 2 then a != b
  else if fn = 3 then a && !b
  else if fn = 4 then !a
  else fn = 5

/-- Set a context after a scalar instruction: `f` on its registers, then the next word. -/
def scalarDone (s : State) (c x : Nat) (f : Ctx → Ctx) : State := modCtx s c x (fun t => nextPc (f t))

/-- NOP (R266). -/
def nopEff (s : State) (c x : Nat) (w : Word) : State :=
  runWord (fun w => wOp w = 0x00) (fun s _ _ => modCtx s c x nextPc) s c x w

/-- BR (R266). -/
def brEff (s : State) (c x : Nat) (w : Word) : State :=
  runWord (fun w => wOp w = 0x01)
    (fun s t _ => modCtx s c x (fun u => { u with pc := branchTarget t w })) s c x w

/-- PC + 8 as a link value. -/
def linkValue (t : Ctx) : Word := BitVec.ofNat 64 (t.pc + 8).toNat

/-- JAL (R266). -/
def jalEff (s : State) (c x : Nat) (w : Word) : State :=
  runWord (fun w => wOp w = 0x02)
    (fun s t _ => modCtx s c x (fun u =>
      { gWrite u (wRD w) (linkValue t) with pc := branchTarget t w })) s c x w

/-- JALR (R266): RS1 is read before RD is written.  A target at or above 2^48 is no address of the
code binding, so its fetch aborts under R257. -/
def jalrEff (s : State) (c x : Nat) (w : Word) : State :=
  runWord (fun w => wOp w = 0x03)
    (fun s t _ =>
      let tgt := gRead t (wRS1 w) + wIMMs w
      if wfld tgt 63 48 ≠ 0 then
        badAddress (modCtx s c x (fun u => gWrite u (wRD w) (linkValue t))) c x 0 tgt.toNat
      else modCtx s c x (fun u =>
        { gWrite u (wRD w) (linkValue t) with pc := BitVec.ofNat 48 tgt.toNat })) s c x w

/-- TRAP (R276): the pour aborts with TRAP, its completion record carrying IMM[15:0]. -/
def trapEff (s : State) (c x : Nat) (w : Word) : State :=
  runWord (fun w => wOp w = 0x04) (fun s _ _ => beginAbort s c x 0x0C (wfld w 15 0)) s c x w

/-- ALU (R263). -/
def aluEff (s : State) (c x : Nat) (w : Word) : State :=
  runWord (fun w => wOp w = 0x08)
    (fun s t _ => scalarDone s c x (fun u =>
      gWrite u (wRD w) (aluFn (wFN w) (gRead t (wRS1 w)) (gRead t (wRS2 w))))) s c x w

/-- ALUI (R263). -/
def aluiEff (s : State) (c x : Nat) (w : Word) : State :=
  runWord (fun w => wOp w = 0x09)
    (fun s t _ => scalarDone s c x (fun u =>
      gWrite u (wRD w) (aluFn (wFN w) (gRead t (wRS1 w)) (wIMMs w)))) s c x w

/-- MOVI (R264). -/
def moviEff (s : State) (c x : Nat) (w : Word) : State :=
  runWord (fun w => wOp w = 0x0A)
    (fun s t _ => scalarDone s c x (fun u =>
      gWrite u (wRD w) (if wbit w 32 then wput (gRead t (wRD w)) 63 32 (wIMM w)
        else BitVec.ofNat 64 (wIMM w)))) s c x w

/-- CMP (R265). -/
def cmpEff (s : State) (c x : Nat) (w : Word) : State :=
  runWord (fun w => wOp w = 0x0B)
    (fun s t _ => scalarDone s c x (fun u =>
      pWrite u (wfld w 51 49) (cmpFn (wfld w 34 32) (gRead t (wRS1 w))
        (if wbit w 35 then wIMMs w else gRead t (wRS2 w))))) s c x w

/-- PSET (R265). -/
def psetEff (s : State) (c x : Nat) (w : Word) : State :=
  runWord (fun w => wOp w = 0x0C)
    (fun s t _ => scalarDone s c x (fun u =>
      pWrite u (wfld w 51 49) (psetFn (wFN w) (pRead t (wfld w 46 44)) (pRead t (wfld w 41 39))))) s c x w

/-! ### Scalar memory (R268, R269) -/

/-- What a scalar access may reach (Table: Reach by agent). -/
inductive Reach where
  | tier
  | coreReg (name : String) (ix : List Nat) (off : Nat)
  | partReg (name : String) (ix : List Nat) (off : Nat)
  | out
  deriving DecidableEq, Repr

/-- The region of an address for the sequencer of core `c`, acting for partition `p`. -/
def seqReach (s : State) (c p a : Nat) : Reach :=
  if isTier a then (if partReaches s p a then .tier else .out)
  else if isRegSpace a then
    let off := a - 0x040000000000
    match findReg off with
    | none => .out
    | some (r, ix) =>
      if 0x1000000 + c * 0x10000 ≤ off ∧ off < 0x1000000 + (c + 1) * 0x10000 then .coreReg r.name ix off
      else if 0x3000000 + p * 0x10000 ≤ off ∧ off < 0x3000000 + (p + 1) * 0x10000 then
        .partReg r.name ix off
      else .out
  else .out

/-- Address of a scalar access: g[RS1] + IMM. -/
def scalarAddr (t : Ctx) (w : Word) : Nat := (gRead t (wRS1 w) + wIMMs w).toNat

/-- A loaded value of 2^size bytes, zero- or sign-extended to 64 bits. -/
def extendLoad (size v : Nat) (sgn : Bool) : Word :=
  if sgn then BitVec.ofNat 64 (wrapTo 64 (signedOf (8 * 2 ^ size) v)) else BitVec.ofNat 64 v

/-- LD (R268): from the data-cache line held, else from tier memory, whose line is then held (R54, R269).  Bytes
of a slot that is FREE or WRITING, and not the pour's own, read as a free value (R35). -/
def ldEff (s : State) (c x : Nat) (w : Word) : State :=
  runWord (fun w => wOp w = 0x10)
    (fun s t pr =>
      let a := scalarAddr t w
      let size := wfld w 33 32
      let n := 2 ^ size
      let val := fun (bs : List Byte) => extendLoad size (ofBytesLE bs) (wbit w 34)
      if 2 ^ 48 ≤ a then badAddress s c x 1 a
      else if a % n ≠ 0 then beginAbort s c x 0x08 0
      else
        match seqReach s c pr.part a with
        | .out => badAddress s c x 1 a
        | .tier =>
          if !lineClean s (coreOf s c).dLines a n then beginAbort s c x 0x04 0
          else if !(openHit s (ownSlots t) a n).isEmpty then
            scalarDone (rawDone s (ownSlots t) a n) c x
              (fun u => gWrite u (wRD w) (val (memBytes (rawView s (ownSlots t) a n) a n)))
          else
            scalarDone (modCore s c (fun k => { k with dLines := lineUse s 64 k.dLines a })) c x
              (fun u => gWrite u (wRD w) (val (lineBytes s (coreOf s c).dLines a n)))
        | .coreReg n ix off =>
          if size ≠ 3 then badAddress s c x 1 a
          else scalarDone s c x (fun u => gWrite u (wRD w) (readMask off (coreRegView s n ix off)))
        | .partReg n ix off =>
          if size ≠ 3 then badAddress s c x 1 a
          else scalarDone s c x (fun u => gWrite u (wRD w) (readMask off (coreRegView s n ix off))))
    s c x w

/-- A store updates a data-cache line that is held (R54). -/
def lineStore (l : List CLine) (a : Nat) (bs : List Byte) : List CLine :=
  l.map (fun h => if h.line = a / 64 then
    { h with data := h.data.take (a % 64) ++ bs ++ h.data.drop (a % 64 + bs.length) } else h)

/-- ST (R268): through to tier memory, where a read-merge-write that meets a poisoned 32-byte unit aborts with
UNCORRECTED (R201); in register space, the core's own block only. -/
def stEff (s : State) (c x : Nat) (w : Word) : State :=
  runWord (fun w => wOp w = 0x11)
    (fun s t pr =>
      let a := scalarAddr t w
      let size := wfld w 33 32
      let v := gRead t (wRS2 w)
      let bs := bytesLE (2 ^ size) v.toNat
      if 2 ^ 48 ≤ a then badAddress s c x 1 a
      else if a % 2 ^ size ≠ 0 then beginAbort s c x 0x08 0
      else
        match seqReach s c pr.part a with
        | .out => badAddress s c x 1 a
        | .tier =>
          if writeFails s a (2 ^ size) then beginAbort s c x 0x04 0
          else
            scalarDone (modCore (memWrite s a bs) c (fun k => { k with dLines := lineStore k.dLines a bs })) c x id
        | .coreReg n _ off =>
          if size ≠ 3 then badAddress s c x 1 a
          else scalarDone (coreRegWrite s n c off v) c x id
        | .partReg _ _ _ => badAddress s c x 1 a)
    s c x w

/-! ### Commit and version -/

/-- COMMIT (R273): the context enters COMMITTING; nothing after it is fetched.  The active context leaves RUNNING,
so the issue stage selects (R62).  An update program whose
kernel reaches it ends with the pour (R267). -/
def commitEff (s : State) (c x : Nat) (w : Word) : State :=
  runWord (fun w => wOp w = 0x18)
    (fun s _ _ =>
      let s1 := modCore s c (fun k => { k with
        flights := k.flights.filter (fun f => !(f.ctx = x && f.op = 0x2F))
        selecting := k.selecting || decide (k.active = x) })
      modCtx s1 c x (fun u => { u with st := .committing, commitSent := false, updRun := none })) s c x w

/-- The value VQUERY writes (R274); none for an index beyond the list. -/
def vqueryVal (pr : Pour) (w : Word) : Option Word :=
  let fn := wFN w
  if fn ≤ 4 then
    (pr.binds[wfld w 5 0]?).map (fun b => BitVec.ofNat 64 (
      if fn = 0 then b.base
      else if fn = 1 then (if b.out then pr.stamp else b.verStamp)
      else if fn = 2 then b.units * 256
      else if fn = 3 then (if b.out then (if b.fresh then 0 else b.baseVer) else b.version)
      else b.buf))
  else if fn = 5 then pr.args[wfld w 2 0]?
  else some (BitVec.ofNat 64 pr.stamp)

/-- VQUERY (R274). -/
def vqueryEff (s : State) (c x : Nat) (w : Word) : State :=
  runWord (fun w => wOp w = 0x19)
    (fun s _ pr =>
      match vqueryVal pr w with
      | none => illegal s c x
      | some v => scalarDone s c x (fun u => gWrite u (wRD w) v)) s c x w

/-! ### Commands -/

/-- NOP (R266). -/
def execNop (c x : Nat) (w : Word) (s : State) : Out := onUnit (ctxOk c x) "NOP" (.next (nopEff s c x w))

/-- BR (R266). -/
def execBr (c x : Nat) (w : Word) (s : State) : Out := onUnit (ctxOk c x) "BR" (.next (brEff s c x w))

/-- JAL (R266). -/
def execJal (c x : Nat) (w : Word) (s : State) : Out := onUnit (ctxOk c x) "JAL" (.next (jalEff s c x w))

/-- JALR (R266). -/
def execJalr (c x : Nat) (w : Word) (s : State) : Out := onUnit (ctxOk c x) "JALR" (.next (jalrEff s c x w))

/-- TRAP (R276). -/
def execTrap (c x : Nat) (w : Word) (s : State) : Out := onUnit (ctxOk c x) "TRAP" (.next (trapEff s c x w))

/-- ALU (R263). -/
def execAlu (c x : Nat) (w : Word) (s : State) : Out := onUnit (ctxOk c x) "ALU" (.next (aluEff s c x w))

/-- ALUI (R263). -/
def execAlui (c x : Nat) (w : Word) (s : State) : Out := onUnit (ctxOk c x) "ALUI" (.next (aluiEff s c x w))

/-- MOVI (R264). -/
def execMovi (c x : Nat) (w : Word) (s : State) : Out := onUnit (ctxOk c x) "MOVI" (.next (moviEff s c x w))

/-- CMP (R265). -/
def execCmp (c x : Nat) (w : Word) (s : State) : Out := onUnit (ctxOk c x) "CMP" (.next (cmpEff s c x w))

/-- PSET (R265). -/
def execPset (c x : Nat) (w : Word) (s : State) : Out := onUnit (ctxOk c x) "PSET" (.next (psetEff s c x w))

/-- LD (R268). -/
def execLd (c x : Nat) (w : Word) (s : State) : Out := onUnit (ctxOk c x) "LD" (.next (ldEff s c x w))

/-- ST (R268). -/
def execSt (c x : Nat) (w : Word) (s : State) : Out := onUnit (ctxOk c x) "ST" (.next (stEff s c x w))

/-- COMMIT (R273). -/
def execCommit (c x : Nat) (w : Word) (s : State) : Out :=
  onUnit (ctxOk c x) "COMMIT" (.next (commitEff s c x w))

/-- VQUERY (R274). -/
def execVquery (c x : Nat) (w : Word) (s : State) : Out :=
  onUnit (ctxOk c x) "VQUERY" (.next (vqueryEff s c x w))

end Sys2Proof.Machine
end

