-- ==== Sys2Proof/Machine/Tensor.lean ====
section
/-! DEFINITION. Tensor instructions at the issue stage (R58–R62, R278–R283): tile descriptors and
their checks, the plan of an instruction (the slots it reads and writes, the sets it holds, the units
that run it, and its effect), and what issuing a plan does.  An instruction's data effect takes place
at its issue (log entry 25); its slots stay FILLING or DRAINING and its sets held until the
completion commands.  Commands: TOKSYNC_WAIT_FULL, TOKSYNC_WAIT_EMPTY, TOKSYNC_RELEASE, WAITALL,
DSET. -/

namespace Sys2Proof.Machine

/-! ### Tile descriptors (R280) -/

/-- A tile descriptor. -/
structure TD where
  tok : Nat
  nt : Bool
  addr : Bool
  off : Nat
  fmt : Nat
  trans : Bool
  scv : Bool
  scd : Nat
  rows : Nat
  cols : Nat
  pitch : Nat
  phys : Nat
  deriving DecidableEq, Repr

/-- The fields of a tile descriptor; word 0 is its low half. -/
def tdOf (v : BitVec 128) : TD :=
  let w0 : Word := BitVec.ofNat 64 v.toNat
  let w1 : Word := BitVec.ofNat 64 (v.toNat / 2 ^ 64)
  { tok := wfld w0 63 54, nt := wbit w0 53, addr := wbit w0 52, off := wfld w0 47 24, fmt := wfld w0 23 20,
    trans := wbit w0 19, scv := wbit w0 18, scd := wfld w0 17 12,
    rows := wfld w0 3 0 * 65536 + wfld w1 63 48 + 1, cols := wfld w0 7 4 * 65536 + wfld w1 47 32 + 1,
    pitch := wfld w1 31 8, phys := wfld w1 47 0 }

/-- Descriptor `i` of a context. -/
def tdAt (t : Ctx) (i : Nat) : TD := tdOf (dRead t i)

/-- Bytes of a row of `n` elements of format `f` (R96, R281). -/
def rowBytes (f n : Nat) : Nat :=
  if f = 0 ∨ f = 1 then 2 * n else if f = 4 then (n + 3) / 4 * 3 else if f = 5 ∨ f = 7 then (n + 1) / 2
  else if f = 8 ∨ f = 9 then 4 * n else n

def tdRowLen (d : TD) : Nat := rowBytes d.fmt d.cols

/-- Last byte of the region plus one. -/
def tdEnd (d : TD) : Nat := d.off + (d.rows - 1) * d.pitch + tdRowLen d

/-- Is the token of a descriptor within the pour's range? -/
def tdTok (pr : Pour) (d : TD) : Bool := d.nt || ownsTok pr d.tok

/-- The failure of one descriptor's checks, made in one cycle (R49, R281): BAD_ADDRESS 0x08 for a region outside
the scratchpad, before ILLEGAL_INSTRUCTION 0x0B. -/
def lowBad (illegal outside : Bool) : Option Nat :=
  if outside then some 0x08 else if illegal then some 0x0B else none

/-- A failed check that is not of a region. -/
def illegalIf (b : Bool) : Option Nat := lowBad b false

/-- The checks of R281 on an element tile: the abort code, if one fails. -/
def tdCheck (pr : Pour) (d : TD) (fmtOk : Bool) (rows cols : Nat) (ntOk : Bool) : Option Nat :=
  lowBad (d.addr || !fmtOk || !tdTok pr d || (d.nt && !ntOk) || decide (d.pitch < tdRowLen d) ||
      decide (d.pitch % 64 ≠ 0) || decide (d.off % 64 ≠ 0) || decide (d.rows < rows) || decide (d.cols < cols))
    (!d.addr && decide (spmSize < tdEnd d))

/-- The checks on a region of `n` bytes from the descriptor's offset. -/
def tdRegion (pr : Pour) (d : TD) (n : Nat) (ntOk : Bool) : Option Nat :=
  lowBad (d.addr || !tdTok pr d || (d.nt && !ntOk) || decide (d.off % 64 ≠ 0))
    (!d.addr && decide (spmSize < d.off + n))

/-- The lower of two abort codes found in one cycle (R49). -/
def lowCode : Option Nat → Option Nat → Option Nat
  | some a, some b => some (min a b)
  | none, r => r
  | r, none => r

/-- The failure of a list of checks made in one cycle: the lowest code. -/
def firstBad (l : List (Option Nat)) : Option Nat := l.foldr lowCode none

/-- A read slot and its release flag. -/
def rdSlot (d : TD) (rel : Bool) : List (Nat × Bool) := if d.nt then [] else [(d.tok, rel)]

/-- A written slot. -/
def wrSlot (d : TD) : List Nat := if d.nt then [] else [d.tok]

/-- A read operand with its scale tile (R479). -/
def rdOperand (t : Ctx) (d : TD) (rel : Bool) : List (Nat × Bool) :=
  rdSlot d rel ++ (if d.scv then rdSlot (tdAt t d.scd) rel else [])

/-- Does an instruction's check of a scale tile pass: its token in the range and its region of `n`
rows and `len` bytes per row within the scratchpad? -/
def scaleCheck (pr : Pour) (t : Ctx) (d : TD) (n len : Nat) : Option Nat :=
  if d.scv then
    let e := tdAt t d.scd
    lowBad (e.addr || !tdTok pr e || decide (e.pitch < len) || decide (e.off % 64 ≠ 0))
      (!e.addr && decide (spmSize < e.off + (n - 1) * e.pitch + len))
  else none

/-! ### Plans and issue (R59) -/

/-- Why a check of an issue ends the pour: the abort code, and what is recorded first. -/
abbrev Stop := Nat × (State → State)

/-- What an instruction needs and does when it issues; `late` is the abort that a check of its issue finds which
reads a slot, with what it records first. -/
structure Plan where
  reads : List (Nat × Bool)
  writes : List Nat
  accs : List Nat
  units : List Nat
  regions : List (Nat × Nat)
  ready : Bool
  late : State → Option Stop
  run : State → State

def Plan.nop : Plan := ⟨[], [], [], [], [], true, fun _ => none, id⟩

/-- The issue check of an instruction: an abort (with what it records first), or a plan. -/
inductive Issue where
  | stop (code : Nat) (log : State → State)
  | go (p : Plan)

/-- An abort with nothing to record. -/
def Issue.bad (code : Nat) : Issue := .stop code id

/-- Go on with `k` unless a check stops the issue; of two failures in one cycle the lower code stands (R49). -/
def Issue.under (st : Option Stop) (k : Issue) : Issue :=
  match st, k with
  | some (c, f), .stop d g => if d < c then .stop d g else .stop c f
  | some (c, f), .go _ => .stop c f
  | none, k => k

/-- Go on with `k` when no check fails. -/
def Issue.checked (bad : Option Nat) (k : Issue) : Issue := Issue.under (bad.map (fun c => (c, id))) k

/-- Instructions in flight on a unit: one executing and at most 4 in its input queue. -/
def unitRoom (k : Core) (u : Nat) : Bool := decide ((k.flights.filter (fun f => f.units.contains u)).length < 5)

def accFree (k : Core) (i : Nat) : Bool := !k.flights.any (fun f => f.accs.contains i)

/-- Conditions 1 and 2 of R59. -/
def slotsReady (k : Core) (p : Plan) : Bool :=
  p.reads.all (fun (t, _) => tokOf k t = .full) && p.writes.all (fun t => tokOf k t = .empty)

/-- The conditions of R59. -/
def planReady (k : Core) (p : Plan) : Bool :=
  slotsReady k p && p.accs.all (accFree k) && p.units.all (unitRoom k) && p.ready

/-- Token changes at issue (R58, R283): written slots FILLING, released ones DRAINING, and the read
bits of slots read (R187). -/
def planTokens (k : Core) (p : Plan) : Core :=
  let k1 := p.reads.foldl (fun k (t, rel) =>
    let k' := { k with tokRead := smSet false k.tokRead t true }
    if rel then setTok k' t .draining else k') k
  p.writes.foldl (fun k t => { setTokAt (setTok k t .filling) t p.regions with
    tokRead := smSet false k.tokRead t false, tokTile := smSet 0 k.tokTile t 0 }) k1

/-- Is an opcode a matrix or attention instruction (R93, ARR_LAST_INST)? -/
def arrayOp (op : Nat) : Bool := (0x20 ≤ op && op ≤ 0x25) || (0x30 ≤ op && op ≤ 0x32)

/-- ARR_LAST_INST of the arrays a plan uses. -/
def noteLast (s : State) (c : Nat) (w : Word) (units : List Nat) : State :=
  if arrayOp (wOp w) then
    (List.range 2).foldl (fun t a =>
      if units.contains a || units.contains (2 + a) then rwr t (rARR_LAST_INST c a) w else t) s
  else s

/-- Opcode of a flight: ATTN_BWD_DS is told apart from ATTN_BWD_P. -/
def flightOp (w : Word) : Nat := if wOp w = 0x32 ∧ wbit w 53 then 0x72 else wOp w

/-- The array mode an instruction runs in (Table: Array modes). -/
def flightMode (w : Word) : Nat :=
  if wOp w = 0x20 ∨ wOp w = 0x21 then wfld w 53 51 else if wOp w = 0x30 then 4 else 0

/-- Does an instruction stay in flight after its issue: one that a unit runs, or WAITALL? -/
def flies (e : QEnt) (p : Plan) : Bool := !p.units.isEmpty || decide (wOp e.word = 0x15)

/-- The head entry `e` of a context's queue leaves it under plan `p`: the tokens, the flight and the counts. -/
def takeHead (s : State) (c x : Nat) (e : QEnt) (p : Plan) : State :=
  let s1 := modCtx s c x (fun t => { t with queue := t.queue.drop 1 })
  let s2 := modCore s1 c (fun k =>
    let k1 := planTokens k p
    if flies e p then { k1 with flights := k1.flights ++
      [⟨x, flightOp e.word, p.units, p.accs, p.writes, p.regions, none, flightMode e.word⟩] }
    else k1)
  noteLast (countCore s2 c (0xA1 + x) 1) c e.word p.units

/-- Does an instruction on one of these units wait at its ports? -/
def unitHeld (k : Core) (units : List Nat) : Bool :=
  k.flights.any (fun f => f.held.isSome && f.units.any (fun u => units.contains u))

/-- The instruction issued last waits at its ports with its effect to come (R172). -/
def holdLast (s : State) (c x : Nat) (e : QEnt) (p : Plan) : State :=
  let h : Held := ⟨e, (ctxOf s c x).d, (p.reads.filter (fun r => r.2)).map (fun r => r.1)⟩
  modCore s c (fun k => { k with
    flights := k.flights.dropLast ++ (k.flights.getLast?.toList.map (fun f => { f with held := some h })) })

/-- The effect of an issued instruction: at once, or, where an earlier one on its unit waits at its ports or one of
its own accesses waits for a port never served or a dozing quad, held back (R61, R172, R177). -/
def runPlan (s : State) (c x : Nat) (e : QEnt) (p : Plan) : State :=
  if unitHeld (coreOf s c) p.units then holdLast s c x e p
  else
    match (coreOf (p.run s) c).unserved with
    | some l => wakeQuads (holdLast s c x e p) c l
    | none => p.run s

/-- Issue the head entry `e` of a context's queue under plan `p`. -/
def applyPlan (s : State) (c x : Nat) (e : QEnt) (p : Plan) : State := runPlan (takeHead s c x e p) c x e p

/-- May the head of a context's queue issue in its state? -/
def queueLive (t : Ctx) : Bool := t.st = .running || t.st = .committing

/-- Try to issue the head of context `x`'s queue under its issue check. -/
def tryIssue (s : State) (c x : Nat) (e : QEnt) (i : Issue) : State :=
  match i with
  | .stop code log => beginAbort (log s) c x code 0
  | .go p =>
    if !planReady (coreOf s c) p then s
    else
      match p.late s with
      | some (code, log) => beginAbort (log s) c x code 0
      | none => applyPlan s c x e p

/-- Place a word into its context's queue (R52, R262); a full queue takes nothing. -/
def placeWord (s : State) (c x : Nat) (w : Word) (srcs : List Nat) : State :=
  let t := ctxOf s c x
  if 32 ≤ t.queue.length then s
  else setCtx s c x { nextPc t with queue := t.queue ++ [⟨w, t.pc, srcs.map (gRead t)⟩] }

/-- Does a word just placed stand at the head of the active context's queue, with no selection pending (R62)? -/
def atHead (s : State) (c x : Nat) : Bool :=
  (coreOf s c).active = x && !(coreOf s c).selecting && (ctxOf s c x).queue.length = 1

/-- The issue check of an instruction. -/
abbrev PlanFn := State → Nat → Nat → QEnt → Issue

/-- A tensor instruction: placed in its queue, and issued at once where it is the head of the active
context and R59 holds; otherwise a later TENSOR_ISSUE issues it. -/
def tensorWord (mine : Word → Bool) (srcs : Word → List Nat) (plan : PlanFn) (s : State) (c x : Nat)
    (w : Word) : State :=
  runWord mine
    (fun s t _ =>
      let s1 := placeWord s c x w (srcs w)
      if t.queue.isEmpty && atHead s1 c x then
        match (ctxOf s1 c x).queue.head? with
        | some e => tryIssue s1 c x e (plan s1 c x e)
        | none => s1
      else s1) s c x w

/-- Run an issue check with the context and its pour. -/
def withPour (s : State) (c x : Nat) (k : Ctx → Pour → Issue) : Issue :=
  match (ctxOf s c x).pour with
  | some pr => k (ctxOf s c x) pr
  | none => .go Plan.nop

/-- Captured operand `i` of an entry. -/
def srcOf (e : QEnt) (i : Nat) : Word := e.src.getD i 0

/-! ### TOKSYNC and WAITALL (R270, R271) -/

/-- The token a TOKSYNC names: g[RS1] + IMM. -/
def syncTok (e : QEnt) : Nat := (srcOf e 0 + wIMMs e.word).toNat

/-- RELEASE takes a FULL token to DRAINING; TOKEN_DRAIN_COMPLETE makes it EMPTY in the next cycle.  A tile that no
instruction has read counts as wasted prefetch (R187, R270). -/
def releaseTok (s : State) (c t : Nat) : State :=
  let w := wastedIn (coreOf s c) [t]
  modCore (countCore (countCore s c 0xAD w.1) c 0xAE w.2) c (fun k =>
    { setTok k t .draining with tokTile := smSet 0 k.tokTile t 0 })

/-- The issue check of TOKSYNC: WAIT_FULL, WAIT_EMPTY or RELEASE by FN. -/
def planToksync : PlanFn := fun s c x e => withPour s c x (fun _ pr =>
  let t := syncTok e
  let fn := wfld e.word 33 32
  if !ownsTok pr t then Issue.bad 0x0B
  else if fn = 0 then .go { Plan.nop with ready := tokOf (coreOf s c) t = .full }
  else if fn = 1 then .go { Plan.nop with ready := tokOf (coreOf s c) t = .empty }
  else .go { Plan.nop with
    ready := tokOf (coreOf s c) t = .full
    run := fun u => releaseTok u c t })

/-- Does a TOKSYNC word name a token outside its pour's range (R270, found at decode, R276)? -/
def syncOutside (t : Ctx) (w : Word) : Bool :=
  match t.pour with
  | some pr => !ownsTok pr (gRead t (wRS1 w) + wIMMs w).toNat
  | none => false

/-- A TOKSYNC word. -/
def toksyncEff (fn : Nat) (s : State) (c x : Nat) (w : Word) : State :=
  if syncOutside (ctxOf s c x) w then
    runWord (fun w => wOp w = 0x14 && wfld w 33 32 = fn) (fun s _ _ => illegal s c x) s c x w
  else tensorWord (fun w => wOp w = 0x14 && wfld w 33 32 = fn) (fun w => [wRS1 w]) planToksync s c x w

/-- The issue check of WAITALL: it issues at the head of the queue, and completes by TENSOR_COMPLETE. -/
def planWaitall : PlanFn := fun _ _ _ _ => .go Plan.nop

def waitallEff (s : State) (c x : Nat) (w : Word) : State :=
  tensorWord (fun w => wOp w = 0x15) (fun _ => []) planWaitall s c x w

/-! ### DSET (R282) -/

/-- May DSET write this descriptor: no reserved bit, no reserved FMT? -/
def dsetOk (w0 w1 : Word) : Bool :=
  if wbit w0 52 then
    zb w0 63 53 && zb w0 51 0 && zb w1 63 48
  else zb w0 51 48 && zb w0 11 8 && zb w1 7 0 && wfld w0 23 20 ≤ 9

/-- The issue check of DSET. -/
def planDset : PlanFn := fun _ c x e =>
  let v : BitVec 128 := BitVec.ofNat 128 ((srcOf e 0).toNat + 2 ^ 64 * (srcOf e 1).toNat)
  if dsetOk (srcOf e 0) (srcOf e 1) then
    .go { Plan.nop with run := fun u => modCtx u c x (fun t =>
      { t with d := t.d.set! (wfld e.word 53 48) v }) }
  else Issue.bad 0x0B

def dsetEff (s : State) (c x : Nat) (w : Word) : State :=
  tensorWord (fun w => wOp w = 0x3B) (fun w => [wfld w 47 43, wfld w 42 38]) planDset s c x w

/-! ### Parameter blocks (R279) -/

/-- A parameter block of `n` bytes at `a` as 64-bit words, or the abort code: BAD_ADDRESS outside the
code binding or misaligned, UNCORRECTED where it does not read. -/
def readBlock (s : State) (pr : Pour) (a n align : Nat) : Except Nat (List Word) :=
  if a % align ≠ 0 ∨ a < (codeBind pr).base ∨ (codeBind pr).base + (codeBind pr).units * 256 < a + n then
    .error 0x08
  else if memBadIn s a n then .error 0x04
  else .ok ((List.range (n / 8)).map (fun i => memWord s (a + 8 * i)))

/-- Go on with a block read at issue. -/
def withBlock (s : State) (pr : Pour) (a n align : Nat) (k : List Word → Issue) : Issue :=
  match readBlock s pr a n align with
  | .ok ws => k ws
  | .error code => Issue.bad code

/-! ### Commands -/

/-- TOKSYNC WAIT_FULL (R270). -/
def execToksyncWaitFull (c x : Nat) (w : Word) (s : State) : Out :=
  onUnit (ctxOk c x) "TOKSYNC_WAIT_FULL" (.next (toksyncEff 0 s c x w))

/-- TOKSYNC WAIT_EMPTY (R270). -/
def execToksyncWaitEmpty (c x : Nat) (w : Word) (s : State) : Out :=
  onUnit (ctxOk c x) "TOKSYNC_WAIT_EMPTY" (.next (toksyncEff 1 s c x w))

/-- TOKSYNC RELEASE (R270). -/
def execToksyncRelease (c x : Nat) (w : Word) (s : State) : Out :=
  onUnit (ctxOk c x) "TOKSYNC_RELEASE" (.next (toksyncEff 2 s c x w))

/-- WAITALL (R271). -/
def execWaitall (c x : Nat) (w : Word) (s : State) : Out :=
  onUnit (ctxOk c x) "WAITALL" (.next (waitallEff s c x w))

/-- DSET (R282). -/
def execDset (c x : Nat) (w : Word) (s : State) : Out := onUnit (ctxOk c x) "DSET" (.next (dsetEff s c x w))

end Sys2Proof.Machine
end

