-- ==== Sys2Proof/Machine/Convert.lean ====
section
/-! DEFINITION. Elements of tiles in the scratchpad (R96, R97), the conversion block (R285), the
conversion of an output tile with its overflow flag, flag group and guard (R98–R106), and the append
path into KV pages (R132–R138, R142). -/

namespace Sys2Proof.Machine

/-! ### Elements -/

/-- Element `j` of a packed row that starts at byte `base` (R96). -/
def elemBits (gb : Nat → Byte) (f base j : Nat) : Nat :=
  if f = 4 then
    bitsOf (ofBytesLE [gb (base + j / 4 * 3), gb (base + j / 4 * 3 + 1), gb (base + j / 4 * 3 + 2)])
      (6 * (j % 4) + 5) (6 * (j % 4))
  else if f = 5 ∨ f = 7 then bitsOf (gb (base + j / 2)).toNat (4 * (j % 2) + 3) (4 * (j % 2))
  else if fmtBits f = 16 then ofBytesLE [gb (base + 2 * j), gb (base + 2 * j + 1)]
  else if fmtBits f = 32 then ofBytesLE ((List.range 4).map (fun i => gb (base + 4 * j + i)))
  else (gb (base + j)).toNat

/-- Element (r, c) of a tile. -/
def tileBits (k : Core) (d : TD) (r c : Nat) : Nat := elemBits (spmByte k) d.fmt (d.off + r * d.pitch) c

def tileVal (k : Core) (d : TD) (r c : Nat) : FV := fvOf d.fmt (tileBits k d r c)

/-- The bytes that hold element `j` of a packed row that starts at `base`: their first and their count. -/
def elemSpan (f base j : Nat) : Nat × Nat :=
  if f = 4 then (base + j / 4 * 3, 3)
  else if f = 5 ∨ f = 7 then (base + j / 2, 1)
  else (base + fmtBits f / 8 * j, fmtBits f / 8)

/-- Pack element codes of format `f`, whole groups only (R96). -/
def packElems (f : Nat) (l : List Nat) : List Byte :=
  if f = 4 then
    (chunks 4 (l.length + 1) l).flatMap (fun g =>
      bytesLE 3 (g.getD 0 0 + g.getD 1 0 * 2 ^ 6 + g.getD 2 0 * 2 ^ 12 + g.getD 3 0 * 2 ^ 18))
  else if f = 5 ∨ f = 7 then
    (chunks 2 (l.length + 1) l).flatMap (fun g => bytesLE 1 (g.getD 0 0 + g.getD 1 0 * 16))
  else l.flatMap (fun v => bytesLE (fmtBits f / 8) v)

/-- Elements per packed group. -/
def groupOf (f : Nat) : Nat := if f = 4 then 4 else if f = 5 ∨ f = 7 then 2 else 1

/-- The bytes of a row whose first elements are `l`: the last group keeps its other elements. -/
def packRow (gb : Nat → Byte) (f base : Nat) (l : List Nat) : List Byte :=
  let g := groupOf f
  let full := (l.length + g - 1) / g * g
  packElems f (l ++ (List.range (full - l.length)).map (fun i => elemBits gb f base (l.length + i)))

/-- Run `k` when byte ranges (first, count) read clean through a port; else the access waits at its port, or the
pour aborts. -/
def guardSpans (s : State) (c x port : Nat) (l : List (Nat × Nat)) (k : State) : State :=
  match l.find? (fun (o, n) => !rangeServed s c port o n) with
  | some (o, n) => portWaits s c o n
  | none =>
    match l.find? (fun (o, n) => !rangeOn s c o n) with
    | some (o, n) => bankOff s c x o n port
    | none =>
      match l.find? (fun (o, n) => spmBadIn (coreOf s c) o n) with
      | some (o, n) => spmUncorrected s c x o n
      | none => k

/-- Run `k` when the rows of a tile region read clean through a port. -/
def guardRows (s : State) (c x port : Nat) (off pitch rows len : Nat) (k : State) : State :=
  guardSpans s c x port ((List.range rows).map (fun r => (off + r * pitch, len))) k

/-- Run `k` when a tile and its scale tile read clean. -/
def guardTile (s : State) (c x port : Nat) (t : Ctx) (d : TD) (rows cols srows slen : Nat) (k : State) : State :=
  guardRows s c x port d.off d.pitch rows (rowBytes d.fmt cols)
    (if d.scv then
      guardRows s c x port (tdAt t d.scd).off (tdAt t d.scd).pitch srows slen k
     else k)

/-- Write rows of element codes into a tile; the rest of the slot keeps its bytes (R78). -/
def writeRows (s : State) (c x port : Nat) (d : TD) (f : Nat) (rows : List (List Nat)) : State :=
  (rows.zipIdx).foldl (fun u (l, r) =>
    spmStore u c x port (d.off + r * d.pitch) (packRow (spmByte (coreOf u c)) f (d.off + r * d.pitch) l)) s

/-! ### The conversion block (R285) -/

structure ConvBlk where
  tensor : Nat
  rnd : Nat
  guard : Bool
  group : Nat
  shsrc : Nat
  shift : Int
  stride : Nat
  append : Bool
  perRow : Bool
  vpart : Bool
  ptab : Nat
  recb : Nat
  head0 : Nat
  row0 : Nat
  deriving DecidableEq, Repr

/-- The fields of a conversion block; none where a reserved bit or code is set. -/
def convBlkOf (w : List Word) : Option ConvBlk :=
  let w0 := w.getD 0 0
  let w1 := w.getD 1 0
  let w2 := w.getD 2 0
  if 1 < wfld w0 31 30 ∨ wfld w0 22 21 = 3 ∨ wfld w0 12 0 ≠ 0 ∨ wfld w1 63 48 ≠ 0 ∨ wfld w2 40 32 ≠ 0 ∨
      (w.drop 3).any (fun v => v ≠ 0) then none
  else some
    { tensor := wfld w0 63 32, rnd := wfld w0 31 30, guard := wbit w0 29, group := wfld w0 28 23,
      shsrc := wfld w0 22 21, shift := signedOf 8 (wfld w0 20 13), stride := wfld w1 47 0,
      append := wbit w2 63, perRow := wbit w2 62, vpart := wbit w2 61, ptab := wfld w2 60 55,
      recb := wfld w2 54 49, head0 := wfld w2 48 41, row0 := wfld w2 31 0 }

/-- Read the conversion block at issue. -/
def withConv (s : State) (pr : Pour) (a : Nat) (k : ConvBlk → Issue) : Issue :=
  withBlock s pr a 64 64 (fun ws =>
    match convBlkOf ws with
    | some b => k b
    | none => Issue.bad 0x0B)

/-- The draw of element `e`: none under RNE. -/
def drawOf (s : State) (c : Nat) (b : ConvBlk) (stamp e : Nat) : Option Nat :=
  if b.rnd = 1 then some (srDraw (rd s (rNUM_SEED c)) b.tensor stamp (e % 2 ^ 48)) else none

/-- The drain shift (R78, R109, SHSRC). -/
def shiftOf (s : State) (c x : Nat) (b : ConvBlk) : Int :=
  let l := signedOf 8 (rget s (rNUM_CTX c x) fNUM_CTX_L_POUR)
  if b.shsrc = 1 then l else if b.shsrc = 2 then -l else b.shift

/-- Successor of a format on the repeat ladder (R106, Table: Repeat ladder). -/
def repeatFmt (f : Nat) : Option Nat :=
  if f = 5 then some 4 else if f = 4 then some 2 else if f = 2 ∨ f = 3 ∨ f = 1 then some 0
  else if f = 7 then some 6 else none

/-- Raise the flag of an output tile in group `g` (R103). -/
def raiseOvf (s : State) (c x g : Nat) : State :=
  rwr s (rNUM_OVF c x) (rd s (rNUM_OVF c x) ||| BitVec.ofNat 64 (2 ^ g))

/-- The flag of an output tile: NUM_OVF, and under GUARD with a successor the FORMAT_OVERFLOW abort
with NUM_REPEAT_INFO and its event (R103, R106). -/
def tileFlag (s : State) (c x : Nat) (pr : Pour) (b : ConvBlk) (f : Nat) (ovf : Bool) : State :=
  if !ovf then s
  else
    let s1 := raiseOvf s c x b.group
    match b.guard, repeatFmt f with
    | true, some g =>
      let w : Word := BitVec.ofNat 64 ((pr.pos % 2 ^ 32) <<< 32 + x <<< 16 + f <<< 12 + g <<< 8 + b.group <<< 2 + 1)
      let s2 := rwr (rwr s1 (rNUM_REPEAT_INFO c) w) (rNUM_REPEAT_TIME c) (nowW s1)
      beginAbort (raisePart s2 pr.part 0x02 c x [w]) c x 0x12 0
    | _, _ => s1

/-- Convert rows of exact values into format `f`: the codes and the tile's flag. -/
def convRows (s : State) (c : Nat) (b : ConvBlk) (f stamp ebase : Nat) (rows : List (List FV)) :
    List (List Nat) × Bool :=
  let cs := rows.zipIdx.map (fun (l, m) => l.zipIdx.map (fun (v, n) =>
    convFv f (drawOf s c b stamp (ebase + m * b.stride + n)) false v))
  (cs.map (fun l => l.map (·.1)), cs.any (fun l => l.any (·.2)))

/-! ### KV pages (R132–R137) -/

/-- A sequence record (R132): formats, head width, length, page-table base, heads. -/
structure SeqRec where
  heads : Nat
  kfmt : Nat
  vfmt : Nat
  d : Nat
  length : Nat
  ptBase : Nat
  deriving DecidableEq, Repr

def readSeqRec (s : State) (a : Nat) : SeqRec :=
  let w0 := memWord s a
  { heads := wfld w0 63 56 + 1, kfmt := wfld w0 55 52, vfmt := wfld w0 51 48, d := 32 * (wfld w0 42 40 + 1),
    length := wfld w0 20 0, ptBase := wfld (memWord s (a + 8)) 47 8 * 256 }

/-- PITCH of a page (R134). -/
def pagePitch (f d : Nat) : Nat := max 64 ((rowBytes f d + 63) / 64 * 64)

/-- Record a LENGTH_LIMIT (R142, R143). -/
def limitLog (s : State) (c x : Nat) (pr : Pour) (source pos : Nat) : State :=
  let s1 := rwr s (rATT_LIMIT_INFO c) (BitVec.ofNat 64 ((pr.pos % 2 ^ 32) <<< 32 + pos % 2 ^ 32))
  let s2 := rwr s1 (rATT_LIMIT_CAUSE c) (BitVec.ofNat 64 (x <<< 5 + source <<< 2 + 1))
  rwr s2 (rATT_LIMIT_TIME c) (nowW s2)

def limitAt (c x : Nat) (pr : Pour) (source pos : Nat) : Stop := (0x09, fun u => limitLog u c x pr source pos)

/-- Record a bad page-table entry (R142, R143). -/
def pteLog (s : State) (c x page head : Nat) (badBase : Bool) : State :=
  rwr s (rATT_PTE_ERR c) (BitVec.ofNat 64 (page <<< 52 + (head % 256) <<< 44 + x <<< 36 + b2n badBase <<< 1 + 1))

/-- What a page-table entry gives: the page's base, or the failure (BAD_BASE; none where the entry does not
read, R26). -/
def pteOf (s : State) (p tbl page : Nat) : Except (Option Bool) Nat :=
  let w := memWord s (tbl + 8 * page)
  let base := wfld w 47 8 * 256
  if memBadIn s (tbl + 8 * page) 8 then .error none
  else if !wbit w 63 then .error (some false)
  else if !partReaches s p base then .error (some true)
  else .ok base

/-- The stop that a failing page-table entry makes. -/
def pteStop (c x page head : Nat) : Option Bool → Stop
  | none => (0x04, id)
  | some bad => (0x08, fun u => pteLog u c x page head bad)

/-- Where an append row goes: the page-table base of head 0 and its position (R137). -/
abbrev AppRow := Nat × Nat

/-- The rows of an append: CONTIGUOUS from the record, PER_ROW from the position table. -/
def appRows (s : State) (c : Nat) (t : Ctx) (b : ConvBlk) (r : SeqRec) (m : Nat) : List AppRow :=
  (List.range m).map (fun i =>
    if b.perRow then
      let o := (tdAt t b.ptab).off + 16 * i
      let k := coreOf s c
      (bitsOf (ofBytesLE (spmBytes k o 8)) 47 8 * 256, ofBytesLE (spmBytes k (o + 8) 4))
    else (r.ptBase, r.length + b.row0 + i))

/-- Address of element `n` of a head's row in its page (R134), or the bad entry's page and head. -/
def appAddr (s : State) (p : Nat) (b : ConvBlk) (f d : Nat) (row : AppRow) (h : Nat) :
    Except (Nat × Nat × Option Bool) Nat :=
  let pg := row.2 / 256
  match pteOf s p (row.1 + h * 0x8000) pg with
  | .error e => .error (pg, h, e)
  | .ok base => .ok (base + (if b.vpart then 256 * pagePitch f d else 0) + row.2 % 256 * pagePitch f d)

/-- The heads that `n` columns cover. -/
def appHeads (b : ConvBlk) (d n : Nat) : List Nat := (List.range ((n + d - 1) / d)).map (· + b.head0)

/-- The record slot that an append resolved (R137): binding RECB of the pour. -/
def appRec (s : State) (pr : Pour) (b : ConvBlk) : Except Nat SeqRec :=
  match pr.binds[b.recb]? with
  | none => .error 0x0B
  | some bd => if memBadIn s bd.base 64 then .error 0x04 else .ok (readSeqRec s bd.base)

/-- What a check of an append finds at its issue (R142): the limit, then every page-table entry. -/
def appFault (s : State) (c x : Nat) (t : Ctx) (pr : Pour) (b : ConvBlk) (m n : Nat) : Option Stop :=
  match appRec s pr b with
  | .error code => some (code, id)
  | .ok r =>
    let f := if b.vpart then r.vfmt else r.kfmt
    let rows := appRows s c t b r m
    if !b.perRow && decide (1048576 < r.length) then some (limitAt c x pr 0 r.length)
    else if !b.perRow && decide (1048576 ≤ r.length + b.row0 + m - 1) then
      some (limitAt c x pr 0 (r.length + b.row0 + m - 1))
    else
      match (if b.perRow then rows.find? (fun w => decide (1048576 ≤ w.2)) else none) with
      | some w => some (limitAt c x pr 1 w.2)
      | none =>
        rows.findSome? (fun w => (appHeads b r.d n).findSome? (fun h =>
          match appAddr s pr.part b f r.d w h with
          | .error (pg, h, e) => some (pteStop c x pg h e)
          | .ok _ => none))

/-- Does the position table of an append of `m` rows read at once and clean through a port? -/
def tableReads (s : State) (c port : Nat) (t : Ctx) (b : ConvBlk) (m : Nat) : Bool :=
  let o := (tdAt t b.ptab).off
  !b.perRow || (rangeServed s c port o (16 * m) && rangeOn s c o (16 * m) && !spmBadIn (coreOf s c) o (16 * m))

/-- The check of an append when every slot it reads is FULL (R137, R142). -/
def appLate (c x port : Nat) (t : Ctx) (pr : Pour) (b : ConvBlk) (m n : Nat) (s : State) : Option Stop :=
  if b.append && tableReads s c port t b m then appFault s c x t pr b m n else none

/-- Run `k` with the record of an append, once its position table reads clean and its check passes; without
APPEND, at once. -/
def withAppend (s : State) (c x port : Nat) (t : Ctx) (pr : Pour) (b : ConvBlk) (m n : Nat)
    (k : Option SeqRec → State) : State :=
  if !b.append then k none
  else
    let go : State :=
      match appFault s c x t pr b m n, appRec s pr b with
      | some (code, log), _ => beginAbort (log s) c x code 0
      | none, .ok r => k (some r)
      | none, .error _ => s
    if b.perRow then guardRows s c x port (tdAt t b.ptab).off 0 1 (16 * m) go else go

/-- Lines of the caches of the four dies in a byte range. -/
def linesHeld (s : State) (a n : Nat) : Nat :=
  ((List.range 4).map (fun d => ((sprueOf s d).lines.filter (fun (_, l) =>
    decide (a / 256 ≤ l) && decide (l ≤ (a + n - 1) / 256))).length)).foldl (· + ·) 0

/-- Write converted rows into pages (R137, R138); a write that fails aborts the pour. -/
def appWrite (s : State) (c x : Nat) (t : Ctx) (pr : Pour) (b : ConvBlk) (r : SeqRec)
    (rows : List (List Nat)) : State :=
  let f := if b.vpart then r.vfmt else r.kfmt
  let dst := appRows s c t b r rows.length
  rows.zipIdx.foldl (fun u (l, m) =>
    (chunks r.d (l.length + 1) l).zipIdx.foldl (fun u (seg, i) =>
      match appAddr u pr.part b f r.d (dst.getD m (0, 0)) (b.head0 + i) with
      | .error _ => u
      | .ok a =>
        let bytes := packRow (memByte u) f a seg
        countCore (pourWrite u c x a bytes) c 0xBB (linesHeld u a bytes.length)) u) s

/-- Write an output tile: into its slot, or in append mode into pages (R289). -/
def tileOut (s : State) (c x port : Nat) (t : Ctx) (pr : Pour) (b : ConvBlk) (d : TD) (f : Nat)
    (r : Option SeqRec) (rows : List (List Nat)) : State :=
  match r with
  | some r => appWrite s c x t pr b r rows
  | none => writeRows s c x port d f rows

end Sys2Proof.Machine
end

