-- ==== Sys2Proof/Machine/Matrix.lean ====
section
/-! DEFINITION. The cube arrays (R68–R93, R286–R289): products in every mode, convolution by address
generation, accumulator sets with their NONFINITE and parity bits, drain, spill and accumulator load,
and the selection of assay tiles (R116, R117).  Commands: MMA, MMA_CONV, DRAIN, SPILL, ACCLD. -/

namespace Sys2Proof.Machine

/-! ### Accumulators -/

/-- Accumulator (m, n) of a set. -/
def accVal (a : AccSet) (m n : Nat) : W32 :=
  let i := 256 * m + n
  smGet (match a.gen with | some g => BitVec.ofNat 32 (Config.freeWord g i).toNat | none => 0) a.vals i

/-- Replace accumulator (m, n); its parity bits are made anew. -/
def accPut (a : AccSet) (m n : Nat) (v : W32) : AccSet :=
  let i := 256 * m + n
  { a with vals := smSet (match a.gen with | some g => BitVec.ofNat 32 (Config.freeWord g i).toNat | none => 0)
                     a.vals i v
           badPar := smSet false a.badPar i false }

/-- The outputs (m, n) of an M × N tile, row by row. -/
def tileIdx (m n : Nat) : List (Nat × Nat) := (List.range m).flatMap (fun i => (List.range n).map (fun j => (i, j)))

/-- ZERO start mode (R72): every accumulator within M × N is +0 (R72), but for rows that `rowOk` refuses, which
count as beyond M (R88).  `int` is the class that the set's 32 bits are read in from now on. -/
def accZero (a : AccSet) (int : Bool) (rowOk : Nat → Bool) (m n : Nat) : AccSet :=
  { ((tileIdx m n).filter (fun (i, _) => rowOk i)).foldl (fun a (i, j) => accPut a i j 0) a with
    nonfin := false, isInt := int }

/-! ### Operands -/

/-- An operand of a product: its value at (row or column, K position) and the scale of its block. -/
structure Opnd where
  val : Nat → Nat → FV
  scale : Nat → Nat → FV

/-- Scale of row m and block b of an A operand (R97). -/
def scaleA (k : Core) (t : Ctx) (d : TD) (m b : Nat) : FV :=
  if d.scv then fvScale (spmByte k ((tdAt t d.scd).off + m * (tdAt t d.scd).pitch + b)).toNat
  else .fin false 1 0

/-- Element code (m, q) of an A operand in either orientation (R80, R281). -/
def codeA (k : Core) (d : TD) (m q : Nat) : Nat := if d.trans then tileBits k d q m else tileBits k d m q

/-- A operand: value at (m, q), scale of row m and block b. -/
def opndA (k : Core) (t : Ctx) (d : TD) : Opnd := { val := fun m q => fvOf d.fmt (codeA k d m q), scale := scaleA k t d }

/-- B operand: value at (n, q), scale of column n and block b. -/
def opndB (k : Core) (t : Ctx) (d : TD) : Opnd :=
  { val := fun n q => if d.trans then tileVal k d n q else tileVal k d q n
    scale := fun n b => if d.scv then
        fvScale (spmByte k ((tdAt t d.scd).off + b * (tdAt t d.scd).pitch + n)).toNat
      else .fin false 1 0 }

/-! ### One output of a product (R73–R77) -/

/-- One step of one output: K positions q0 to q0 + k − 1 below kTot. -/
def stepOut (int : Bool) (a b : Opnd) (m n k kTot q0 : Nat) (acc : W32 × Bool) : W32 × Bool :=
  let ps := ((List.range k).filter (fun i => decide (q0 + i < kTot))).map (fun i =>
    (a.val m (q0 + i)).mul (b.val n (q0 + i)))
  if int then
    let (v, sat) := satInt32 ((fvInt32 acc.1).toInt + (FV.sum ps).toInt)
    (v, acc.2 || sat)
  else
    let sc := (a.scale m (q0 / 32)).mul (b.scale n (q0 / 32))
    let v := rne32 ((fv32 acc.1).add ((FV.sum ps).mul sc))
    (v, acc.2 || (fv32 v).special)

/-- The steps of one output in ascending K (R76). -/
def stepsOut (int : Bool) (a b : Opnd) (m n k kTot : Nat) : Nat → Nat → W32 × Bool → W32 × Bool
  | 0, _, acc => acc
  | fuel + 1, q0, acc => stepsOut int a b m n k kTot fuel (q0 + k) (stepOut int a b m n k kTot q0 acc)

/-- A product into a set: rows that `rowOk` refuses are not written (R88); S is ⌈K / k⌉ steps
(R91).  An ACCUMULATE into a set of the other class reads its 32 bits in the product's class (DESIGN CHOICE, log
entry 103: R72 states no outcome). -/
def product (int zero : Bool) (rowOk : Nat → Bool) (a b : Opnd) (m n kTot k : Nat) (acc : AccSet) : AccSet :=
  let acc0 := if zero then accZero acc int rowOk m n else { acc with isInt := int }
  let st := (kTot + k - 1) / k
  if st = 0 then acc0
  else
    ((tileIdx m n).filter (fun (i, _) => rowOk i)).foldl (fun u (i, j) =>
      let (v, nf) := stepsOut int a b i j k kTot st 0 (accVal acc0 i j, false)
      { accPut u i j v with nonfin := u.nonfin || nf }) acc0

/-- After a step into a set with an injection waiting: one parity bit of one of its accumulators is
wrong; which one is a free value (R93). -/
def injectPar (s : State) (c i m n : Nat) : State :=
  let a := accOf (coreOf s c) i
  if a.inject then
    let (f, s1) := useFree s
    let j := (Config.freeWord f 0).toNat % (m * n)
    let a1 := { a with inject := false, badPar := smSet false a.badPar (256 * (j / n) + j % n) true }
    modCore s1 c (fun k => setAcc k i a1)
  else s

/-- Update set `i` of a core by `st` steps over M × N accumulators, and count them. -/
def runSteps (s : State) (c i m n st : Nat) (g : AccSet → AccSet) : State :=
  let s1 := modCore s c (fun u => setAcc u i (g (accOf u i)))
  if st = 0 ∨ m = 0 ∨ n = 0 then s1 else countCore (injectPar s1 c i m n) c (0xA6 + i / 4) st

/-- Update set `i` of a core by a product and count its steps. -/
def runProduct (s : State) (c i : Nat) (int zero : Bool) (rowOk : Nat → Bool) (a b : Opnd)
    (m n kTot k : Nat) : State :=
  runSteps s c i m n ((kTot + k - 1) / k) (product int zero rowOk a b m n kTot k)

/-! ### Assay selection (R116, R117) -/

/-- The element codes of an operand's rows as presented. -/
def presented (f : Nat → Nat → Nat) (rows k : Nat) : List (List Nat) :=
  (List.range rows).map (fun i => (List.range k).map (f i))

/-- The codes of a product's operands, for its assay record. -/
def assayProd (k : Core) (t : Ctx) (da db : TD) (aOff bOff m n kTot : Nat) : AssayProd :=
  let sc := fun (d : TD) (f : Nat → Nat → Nat) (r : Nat) =>
    if d.scv then presented (fun i b => (spmByte k (f i b)).toNat) r ((kTot + 31) / 32) else []
  { fmtA := da.fmt, fmtB := db.fmt, k := kTot,
    a := presented (fun i q => codeA k da (i + aOff) q) m kTot,
    b := presented (fun j q => if db.trans then tileBits k db (j + bOff) q else tileBits k db q (j + bOff)) n kTot,
    sa := sc da (fun i b => (tdAt t da.scd).off + (i + aOff) * (tdAt t da.scd).pitch + b) m,
    sb := sc db (fun j b => (tdAt t db.scd).off + b * (tdAt t db.scd).pitch + (j + bOff)) n }

/-- Bytes of a record: header, operands, scales, bias and output (R117). -/
def recBytes (r : AssayRec) : Nat :=
  64 + (r.prods.map (fun p => r.m * rowBytes p.fmtA p.k + p.k * rowBytes p.fmtB r.n +
    p.sa.flatten.length + p.sb.flatten.length)).foldl (· + ·) 0 + rowBytes r.biasFmt r.bias.length +
  r.m * rowBytes r.outFmt r.n

/-- A record under way, whose drain is to come. -/
def AssayRec.open (src stamp m n : Nat) (prods : List AssayProd) : AssayRec :=
  ⟨src, stamp, m, n, prods, 0, [], 0, 0, 0, [], [], 0⟩

/-- What a record under way may take: an output of 16 bits and a bias of 32 bits. -/
def recBound (r : AssayRec) : Nat := recBytes r + 4 * r.n

/-- Bytes of core q's inbound ring that records under way of every core hold for themselves (DESIGN CHOICE, log
entry 38). -/
def ringHeld (s : State) (q : Nat) : Nat :=
  (s.cores.map (fun (c, k) => if rget s (rASSAY_CTRL c) fASSAY_CTRL_PARTNER = q then
    ((k.assayOpen.filter (fun (i, _) => (accOf k i).assay)).map (fun (_, r) => recBound r)).foldl (· + ·) 0
    else 0)).foldl (· + ·) 0

/-- Bytes left in a core's inbound ring. -/
def ringRoom (s : State) (q : Nat) : Nat :=
  rget s (rASSAY_RING_SIZE q) fASSAY_RING_SIZE_SIZE * 65536 -
    (((coreOf s q).assayRing.map (·.units)).foldl (· + ·) 0) * 256 - ringHeld s q

/-- At the issue of a ZERO-mode instruction: the draw, the selection, and the room check (R116, R117).  The tile
sequence number counts the ZERO-mode issues before this one (DESIGN CHOICE, log entry 104). -/
def assaySelect (s : State) (c i : Nat) (stamp m n : Nat) (p : AssayProd) : State :=
  let on := rflag s (rASSAY_CTRL c) fASSAY_CTRL_ENABLE
  let seq := (coreOf s c).zeroSeq
  let hit := on && !badPartner s c &&
    decide (assayDraw (rd s (rASSAY_SEED c)) seq c stamp < rget s (rASSAY_CTRL c) fASSAY_CTRL_RATE)
  let s1 := modCore s c (fun k => setAcc k i { accOf k i with assay := false })
  if !hit then s1
  else
    let r := AssayRec.open c stamp m n [p]
    if ringRoom s1 (rget s (rASSAY_CTRL c) fASSAY_CTRL_PARTNER) < recBound r then countCore s1 c 0xB3 1
    else
      countCore (modCore s1 c (fun k => { setAcc k i { accOf k i with assay := true } with
        assayOpen := kSet k.assayOpen i r })) c 0xB2 1

/-- One tile of an eligible instruction: a selection at ZERO, a further product otherwise. -/
def assayTile (s : State) (c i : Nat) (zero : Bool) (stamp m n : Nat) (p : AssayProd) : State :=
  if zero then assaySelect s c i stamp m n p
  else if (accOf (coreOf s c) i).assay then
    modCore s c (fun k =>
      let r := kGet (AssayRec.open c stamp m n []) k.assayOpen i
      { k with assayOpen := kSet k.assayOpen i { r with prods := r.prods ++ [p] } })
  else s

/-- A spill, a load or an ineligible product of a set cancels its selection (R116). -/
def assayCancel (s : State) (c i : Nat) : State :=
  modCore s c (fun k => setAcc k i { accOf k i with assay := false })

/-- A ZERO-mode issue is counted for the tile sequence number (R116). -/
def countZero (s : State) (c : Nat) (zero : Bool) : State :=
  if zero then modCore s c (fun k => { k with zeroSeq := (k.zeroSeq + 1) % 2 ^ 32 }) else s

/-- What the header of a record names (R117). -/
def recNamed (r : AssayRec) : List Nat :=
  [r.src, r.stamp, r.m, r.n, r.biasFmt, wrapTo 8 r.shift, r.outFmt, r.rnd] ++ r.conv ++
  r.prods.flatMap (fun p => [p.fmtA, p.fmtB, p.k])

/-- The bytes of a record: the header, whose layout is not given, then operands, scales, bias and output in their
formats. -/
def recData (r : AssayRec) : List Byte :=
  (List.range 64).map (Config.assayHeader (recNamed r)) ++
  r.prods.flatMap (fun p => p.a.flatMap (packElems p.fmtA) ++ p.b.flatMap (packElems p.fmtB) ++
    (p.sa.flatten ++ p.sb.flatten).flatMap (bytesLE 1)) ++
  packElems r.biasFmt r.bias ++ r.out.flatMap (packElems r.outFmt)

/-- The drain of a selected tile completes its record, which goes to the partner's ring (R117). -/
def assayFinish (s : State) (c i bf : Nat) (bias : List Nat) (shift : Int) (fmt : Nat) (b : ConvBlk) (ebase : Nat)
    (out : List (List Nat)) : State :=
  if (accOf (coreOf s c) i).assay then
    let q := rget s (rASSAY_CTRL c) fASSAY_CTRL_PARTNER
    let r0 := kGet (AssayRec.open c 0 0 0 []) (coreOf s c).assayOpen i
    let r1 := { r0 with
      biasFmt := bf, bias := bias, shift := shift, outFmt := fmt, rnd := b.rnd, out := out
      conv := [b.tensor, b.stride, ebase, b.group, b2n b.guard] }
    let r := { r1 with units := (recBytes r1 + 255) / 256 }
    let s1 := assayCancel s c i
    if badPartner s c || decide (ringRoom s q < r.units * 256) then countCore s1 c 0xB3 1
    else
      let size := rget s (rASSAY_RING_SIZE q) fASSAY_RING_SIZE_SIZE * 256
      let tail := rget s (rASSAY_RING_PTR q) fASSAY_RING_PTR_TAIL
      let base := rget s (rASSAY_RING_BASE q) fASSAY_RING_BASE_BASE * 256
      let s3 := (chunks 256 (r.units + 1) (recData r)).zipIdx.foldl (fun u (bs, j) =>
        memWrite u (base + (tail + j) % size * 256) bs) s1
      let s4 := rput s3 (rASSAY_RING_PTR q) fASSAY_RING_PTR_TAIL ((tail + r.units) % size)
      modCore s4 q (fun k => { k with assayRing := k.assayRing ++ [r] })
  else s

/-! ### MMA (R286, R287) -/

/-- The fields that MMA and MMA_CONV share. -/
structure MmaF where
  mode : Nat
  arr : Nat
  acc : Nat
  zero : Bool
  da : Nat
  db : Nat
  dc : Nat
  ra : Bool
  rb : Bool
  rc : Bool
  m : Nat
  n : Nat
  deriving DecidableEq, Repr

def mmaFields (w : Word) : MmaF :=
  { mode := wfld w 53 51, arr := wfld w 50 50, acc := wfld w 49 48, zero := wbit w 47, da := wfld w 46 41,
    db := wfld w 40 35, dc := wfld w 34 29, ra := wbit w 28, rb := wbit w 27, rc := wbit w 26,
    m := wfld w 25 20 + 1, n := wfld w 19 12 + 1 }

def convFields (w : Word) : MmaF :=
  { mode := wfld w 53 51, arr := wfld w 50 50, acc := wfld w 49 48, zero := wbit w 47, da := wfld w 46 41,
    db := wfld w 40 35, dc := wfld w 34 29, ra := wbit w 18, rb := wbit w 17, rc := wbit w 16,
    m := wfld w 15 10 + 1, n := wfld w 9 2 + 1 }

/-- Sets a product holds: the named one, both arrays' in a joint mode, all of array 1 in
DUAL_BACKWARD (R283). -/
def mmaAccs (f : MmaF) : List Nat :=
  if f.mode = 0 then [4 * f.arr + f.acc] else if f.mode = 3 then [f.acc, 4, 5, 6, 7]
  else [f.acc, 4 + f.acc]

def mmaUnits (f : MmaF) : List Nat := if f.mode = 0 then [f.arr] else [0, 1]

/-- Sets the instruction names, to lie in the pour's masks (R287): in DUAL_BACKWARD array 1's
⌈N / 64⌉ sets. -/
def mmaNamed (f : MmaF) : List Nat :=
  if f.mode = 3 then f.acc :: (List.range ((f.n + 63) / 64)).map (· + 4) else mmaAccs f

def ownsAccs (pr : Pour) (l : List Nat) : Bool := l.all (fun i => (accsOf pr).contains i)

/-- Legal format and scale use of an operand (R69). -/
def opndFmt (d : TD) : Bool := decide (d.fmt < 8) && (!d.scv || fmtScalable d.fmt)

/-- Check of an A operand of `m` rows and `k` positions (R281). -/
def checkA (pr : Pour) (t : Ctx) (d : TD) (m k : Nat) : Option Nat :=
  firstBad [tdCheck pr d (opndFmt d) (if d.trans then k else m) (if d.trans then m else k) true,
    scaleCheck pr t d m ((k + 31) / 32)]

/-- Check of a B operand of `k` positions and `n` columns. -/
def checkB (pr : Pour) (t : Ctx) (d : TD) (k n : Nat) : Option Nat :=
  firstBad [tdCheck pr d (opndFmt d) (if d.trans then n else k) (if d.trans then k else n) true,
    scaleCheck pr t d ((k + 31) / 32) n]

/-- Guard the rows of an A operand. -/
def guardA (s : State) (c x port : Nat) (t : Ctx) (d : TD) (m k : Nat) (r : State) : State :=
  guardTile s c x port t d (if d.trans then k else m) (if d.trans then m else k) m ((k + 31) / 32) r

/-- Guard the rows of a B operand. -/
def guardB (s : State) (c x port : Nat) (t : Ctx) (d : TD) (k n : Nat) (r : State) : State :=
  guardTile s c x port t d (if d.trans then n else k) (if d.trans then k else n) ((k + 31) / 32) n r

/-- An operand shifted by `o` rows or columns. -/
def Opnd.shift (a : Opnd) (o : Nat) : Opnd := ⟨fun i q => a.val (i + o) q, fun i b => a.scale (i + o) b⟩

/-- A product of array 1 whose dY block is block-scaled: each accumulator is the value that the spec leaves open,
as a function of its operands (log entry 32). -/
def productOpen (zero : Bool) (a b sc : Nat → List Nat) (m n : Nat) (acc : AccSet) : AccSet :=
  let acc0 := if zero then accZero acc false (fun _ => true) m n else { acc with isInt := false }
  (tileIdx m n).foldl (fun u (i, j) =>
    let (v, nf) := Config.dualAcc (a i) (b j) (sc j) (accVal acc0 i j)
    { accPut u i j v with nonfin := u.nonfin || nf }) acc0

/-- The shared dY block as array 1's B operand of K rows: the product's operands, the codes of column j, and the
scale codes of its block, row by row. -/
structure DualB where
  opnd : Opnd
  codes : Nat → List Nat
  scales : Nat → List Nat
  scaled : Bool

/-- dY of descriptor `d`, read by lines: `kRows` positions of T. -/
def dualB (k : Core) (t : Ctx) (d : TD) (kRows : Nat) : DualB :=
  { opnd := ⟨fun n q => fvOf d.fmt (codeA k d q n), fun _ _ => .fin false 1 0⟩
    codes := fun n => d.fmt :: (List.range kRows).map (fun q => codeA k d q n)
    scales := fun n => (List.range kRows).map (fun q =>
      (spmByte k ((tdAt t d.scd).off + q * (tdAt t d.scd).pitch + n / 32)).toNat)
    scaled := d.scv }

/-- Array 1's tiles of DUAL_BACKWARD (R84): tile j holds rows 64 j to 64 j + 63 of `a`, with element codes
`aCodes`, and every column of dY. -/
def dualTiles (s : State) (c : Nat) (f : MmaF) (int : Bool) (a : Opnd) (aCodes : Nat → List Nat) (b : DualB)
    (rows n1 k1 k : Nat) : State :=
  (List.range ((rows + 63) / 64)).foldl (fun u j =>
    let m := min 64 (rows - 64 * j)
    if b.scaled then
      runSteps u c (4 + j) m n1 ((k1 + k - 1) / k) (productOpen f.zero (fun i => aCodes (i + 64 * j)) b.codes b.scales m n1)
    else runProduct u c (4 + j) int f.zero (fun _ => true) (a.shift (64 * j)) b.opnd m n1 k1 k) s

/-- A DUAL_BACKWARD product is not eligible for assay: it cancels the selection of every set it names (R116). -/
def dualCancel (s : State) (c : Nat) (f : MmaF) : State := (mmaNamed f).foldl (fun u i => assayCancel u c i) s

/-- The codes of a row of an A operand with those of its block scales. -/
def rowCodes (k : Core) (t : Ctx) (d : TD) (kTot m : Nat) : List Nat :=
  d.fmt :: (List.range kTot).map (codeA k d m) ++
    (if d.scv then (List.range ((kTot + 31) / 32)).map (fun b =>
      (spmByte k ((tdAt t d.scd).off + m * (tdAt t d.scd).pitch + b)).toNat) else [])

/-- Effect of MMA at issue. -/
def mmaRun (c x : Nat) (t : Ctx) (pr : Pour) (f : MmaF) (kTot : Nat) (s : State) : State :=
  let u := coreOf s c
  let da := tdAt t f.da
  let db := tdAt t f.db
  let dc := tdAt t f.dc
  let int := fmtInt da.fmt
  let k := fmtK da.fmt
  let any := fun (_ : Nat) => true
  let mA := if f.mode = 2 then 2 * f.m else f.m
  let nB := if f.mode = 1 then 2 * f.n else f.n
  let a := opndA u t da
  let b := opndB u t db
  let go : State :=
    if f.mode = 0 then
      let i := 4 * f.arr + f.acc
      let s1 := assayTile s c i f.zero pr.stamp f.m f.n (assayProd u t da db 0 0 f.m f.n kTot)
      runProduct (countZero s1 c f.zero) c i int f.zero any a b f.m f.n kTot k
    else if f.mode = 3 then
      let s1 := countZero (dualCancel s c f) c f.zero
      let s2 := runProduct s1 c f.acc int f.zero any a b f.m f.n kTot k
      dualTiles s2 c f int (opndA u t dc) (rowCodes u t dc f.m) (dualB u t da f.m) f.n kTot f.m k
    else
      let aO := if f.mode = 2 then f.m else 0
      let bO := if f.mode = 1 then f.n else 0
      let s1 := assayTile s c f.acc f.zero pr.stamp f.m f.n (assayProd u t da db 0 0 f.m f.n kTot)
      let s2 := assayTile s1 c (4 + f.acc) f.zero pr.stamp f.m f.n (assayProd u t da db aO bO f.m f.n kTot)
      let s3 := runProduct (countZero s2 c f.zero) c f.acc int f.zero any a b f.m f.n kTot k
      runProduct s3 c (4 + f.acc) int f.zero any (a.shift aO) (b.shift bO) f.m f.n kTot k
  guardA s c x (2 * f.arr) t da mA kTot (guardB s c x (2 * f.arr + 1) t db kTot nB
    (if f.mode = 3 then guardA s c x 2 t dc f.n f.m go else go))

/-- The issue check of MMA.  A DUAL_BACKWARD product with K above the 256 positions of Dout of R84 is
ILLEGAL_INSTRUCTION (DESIGN CHOICE, log entry 105). -/
def planMma : PlanFn := fun s c x e => withPour s c x (fun t pr =>
  let f := mmaFields e.word
  let kW := (srcOf e 0).toNat
  let da := tdAt t f.da
  let db := tdAt t f.db
  let dc := tdAt t f.dc
  let dual := f.mode = 3
  Issue.checked (firstBad
    [if 2 ^ 20 ≤ kW || !ownsAccs pr (mmaNamed f) || !fmtPair da.fmt db.fmt ||
        (dual && (!fmtPair da.fmt dc.fmt || decide (256 < kW))) then some 0x0B else none,
     checkA pr t da (if f.mode = 2 then 2 * f.m else f.m) kW,
     checkB pr t db kW (if f.mode = 1 then 2 * f.n else f.n),
     if dual then checkA pr t dc f.n f.m else none])
    (.go { Plan.nop with
           reads := rdOperand t da f.ra ++ rdOperand t db f.rb ++ (if dual then rdOperand t dc f.rc else []),
           writes := [], accs := mmaAccs f, units := mmaUnits f, regions := [], ready := true,
           run := mmaRun c x t pr f kW }))

def mmaEff (s : State) (c x : Nat) (w : Word) : State :=
  tensorWord (fun w => wOp w = 0x20) (fun w => [wfld w 11 7]) planMma s c x w

/-! ### MMA_CONV (R87–R89, R288) -/

/-- A convolution descriptor. -/
structure ConvD where
  ih : Nat
  iw : Nat
  cin : Nat
  cpitch : Nat
  g : Nat
  cout : Nat
  kh : Nat
  kw : Nat
  sh : Nat
  sw : Nat
  dh : Nat
  dw : Nat
  pt : Nat
  pb : Nat
  pl : Nat
  prt : Nat
  deriving DecidableEq, Repr

def convDOf (ws : List Word) : ConvD :=
  let w0 := ws.getD 0 0
  let w1 := ws.getD 1 0
  let w2 := ws.getD 2 0
  { ih := wfld w0 63 48, iw := wfld w0 47 32, cin := wfld w0 31 16, cpitch := wfld w0 15 0,
    g := wfld w1 63 48, cout := wfld w1 47 32, kh := wfld w1 31 28, kw := wfld w1 27 24, sh := wfld w1 23 20,
    sw := wfld w1 19 16, dh := wfld w1 15 12, dw := wfld w1 11 8, pt := wfld w2 63 60, pb := wfld w2 59 56,
    pl := wfld w2 55 52, prt := wfld w2 51 48 }

/-- Output extent in one dimension (R87); 0 where the kernel does not fit. -/
def convOut (i p0 p1 d k st : Nat) : Nat :=
  if i + p0 + p1 < d * (k - 1) + 1 then 0 else (i + p0 + p1 - d * (k - 1) - 1) / st + 1

def convOH (v : ConvD) : Nat := convOut v.ih v.pt v.pb v.dh v.kh v.sh
def convOW (v : ConvD) : Nat := convOut v.iw v.pl v.prt v.dw v.kw v.sw

/-- The limits of R89, and reserved bits zero. -/
def convDOk (ws : List Word) (p0 n0 : Nat) : Bool :=
  let v := convDOf ws
  let r := fun (x lo hi : Nat) => decide (lo ≤ x) && decide (x ≤ hi)
  zb (ws.getD 1 0) 7 0 && zb (ws.getD 2 0) 47 0 && (ws.drop 3).all (fun w => w = 0) &&
  r v.ih 1 65535 && r v.iw 1 65535 && r v.cin 1 65535 && decide (v.cin ≤ v.cpitch) && r v.kh 1 15 &&
  r v.kw 1 15 && r v.sh 1 8 && r v.sw 1 8 && r v.dh 1 8 && r v.dw 1 8 && r v.g 1 65535 && r v.cout 1 65535 &&
  decide (v.cin % v.g = 0) && decide (v.cout % v.g = 0) && decide (p0 < convOH v * convOW v) &&
  decide (n0 < v.cout / v.g)

/-- K of a convolution (R288). -/
def convK (v : ConvD) : Nat := v.kh * v.kw * (v.cin / v.g)

/-- Element index, in the input map, that row m and K position q read; none for padding (R87,
R88).  The group is the one that channel N0 of the instruction lies in: N0 counts within the group, so
the weights name it and the map is taken from the first channel of the descriptor's region. -/
def convElem (v : ConvD) (p0 m q : Nat) : Option Nat :=
  let cg := v.cin / v.g
  let p := p0 + m
  let oy : Int := (p / convOW v : Nat)
  let ox : Int := (p % convOW v : Nat)
  let ky := q / (cg * v.kw)
  let kx := q / cg % v.kw
  let iy := oy * v.sh - v.pt + ky * v.dh
  let ix := ox * v.sw - v.pl + kx * v.dw
  if 0 ≤ iy ∧ iy < v.ih ∧ 0 ≤ ix ∧ ix < v.iw then some ((iy.toNat * v.iw + ix.toNat) * v.cpitch + q % cg)
  else none

/-- The code of the element that the address generator presents at row m and K position q: +0 for padding. -/
def convCode (k : Core) (d : TD) (v : ConvD) (p0 m q : Nat) : Nat :=
  match convElem v p0 m q with
  | some i => elemBits (spmByte k) d.fmt d.off i
  | none => 0

/-- The A operand of a convolution (R87, R88), with its block scales (R77, R97). -/
def opndConv (k : Core) (t : Ctx) (d : TD) (v : ConvD) (p0 : Nat) : Opnd :=
  { val := fun m q => fvOf d.fmt (convCode k d v p0 m q), scale := scaleA k t d }

/-- Bytes of the input map from the descriptor's offset. -/
def convBytes (d : TD) (v : ConvD) : Nat := rowBytes d.fmt (v.ih * v.iw * v.cpitch)

/-- Rows of an M-row tile from output position `p` that lie in the map; the others count as beyond M (R88). -/
def mapRows (v : ConvD) (p m : Nat) : Nat := min m (convOH v * convOW v - p)

/-- The bytes of the map that M rows of K positions read, padding apart (R88). -/
def convSpans (d : TD) (v : ConvD) (p0 m kTot : Nat) : List (Nat × Nat) :=
  (List.range m).flatMap (fun i => (List.range kTot).filterMap (fun q =>
    (convElem v p0 i q).map (elemSpan d.fmt d.off)))

/-- Run `k` when the words of the map that an M × K gather reads, and its scales, read clean. -/
def guardConv (s : State) (c x port : Nat) (t : Ctx) (d : TD) (v : ConvD) (p0 m kTot srows slen : Nat) (k : State) :
    State :=
  guardSpans s c x port (convSpans d v p0 m kTot)
    (if d.scv then guardRows s c x port (tdAt t d.scd).off (tdAt t d.scd).pitch srows slen k else k)

/-- Assay operands of a convolution tile: the rows in the map. -/
def assayConvProd (k : Core) (t : Ctx) (da db : TD) (v : ConvD) (p0 aOff bOff m n : Nat) : AssayProd :=
  { assayProd k t da db aOff bOff (mapRows v (p0 + aOff) m) n (convK v) with
    a := presented (fun i q => convCode k da v p0 (i + aOff) q) (mapRows v (p0 + aOff) m) (convK v) }

/-- Effect of MMA_CONV at issue.  In DUAL_BACKWARD the generator drives array 1's transposed A read; K along Dout of
array 0's dX product, which no field gives, is N (DESIGN CHOICE, log entry 106). -/
def convRun (c x : Nat) (t : Ctx) (pr : Pour) (f : MmaF) (v : ConvD) (p0 : Nat) (s : State) : State :=
  let u := coreOf s c
  let da := tdAt t f.da
  let db := tdAt t f.db
  let dc := tdAt t f.dc
  let int := fmtInt da.fmt
  let k := fmtK da.fmt
  let kTot := convK v
  let inMap := fun (o m : Nat) => decide (m < mapRows v (p0 + o) f.m)
  let b := opndB u t db
  let nB := if f.mode = 1 then 2 * f.n else f.n
  let a := opndConv u t da v p0
  if f.mode = 3 then
    guardConv s c x 2 t da v p0 (mapRows v p0 f.m) f.n f.n ((f.m + 31) / 32)
      (guardB s c x 1 t db f.n nB (guardA s c x 0 t dc f.m f.n
        (let s1 := countZero (dualCancel s c f) c f.zero
         let s2 := runProduct s1 c f.acc int f.zero (fun _ => true) (opndA u t dc) b f.m f.n f.n k
         let gen : Opnd := ⟨fun i q => if inMap 0 q then a.val q i else FV.zero, a.scale⟩
         let genCodes := fun i => da.fmt :: (List.range f.m).map (fun q => if inMap 0 q then convCode u da v p0 q i else 0)
         dualTiles s2 c f int gen genCodes (dualB u t dc f.m) f.n f.n f.m k)))
  else
    let i := if f.mode = 0 then 4 * f.arr + f.acc else f.acc
    let aO := if f.mode = 2 then f.m else 0
    let bO := if f.mode = 1 then f.n else 0
    let both := f.mode ≠ 0
    let mA := aO + f.m
    guardConv s c x (2 * f.arr) t da v p0 (mapRows v p0 mA) kTot mA ((kTot + 31) / 32)
      (guardB s c x (2 * f.arr + 1) t db kTot nB
        (let s1 := assayTile s c i f.zero pr.stamp f.m f.n (assayConvProd u t da db v p0 0 0 f.m f.n)
         let s2 := if both then
             assayTile s1 c (4 + f.acc) f.zero pr.stamp f.m f.n (assayConvProd u t da db v p0 aO bO f.m f.n)
           else s1
         let s3 := runProduct (countZero s2 c f.zero) c i int f.zero (inMap 0) a b f.m f.n kTot k
         if both then
           runProduct s3 c (4 + f.acc) int f.zero (inMap aO) (a.shift aO) (b.shift bO) f.m f.n kTot k
         else s3))

/-- The issue check of MMA_CONV. -/
def planConv : PlanFn := fun s c x e => withPour s c x (fun t pr =>
  let f := convFields e.word
  let gp := srcOf e 1
  let da := tdAt t f.da
  let db := tdAt t f.db
  let dc := tdAt t f.dc
  let dual := f.mode = 3
  let nB := if f.mode = 1 then 2 * f.n else f.n
  let mA := if f.mode = 2 then 2 * f.m else f.m
  Issue.checked (firstBad
    [illegalIf (!ownsAccs pr (mmaNamed f) || !fmtPair da.fmt db.fmt || (dual && !fmtPair da.fmt dc.fmt)),
     tdCheck pr da (opndFmt da) 1 1 true,
     if dual then checkB pr t db f.n f.n else none,
     if dual then checkA pr t dc f.m f.n else none])
  (withBlock s pr (srcOf e 0).toNat 64 64 (fun ws =>
    let v := convDOf ws
    let p0 := wfld gp 31 0
    Issue.checked (firstBad
      [illegalIf (!convDOk ws p0 (wfld gp 47 32) || decide (1048575 < convK v) ||
          (!dual && decide (v.cout / v.g < wfld gp 47 32 + nB))),
       tdRegion pr da (convBytes da v) true,
       if dual then scaleCheck pr t da f.n ((f.m + 31) / 32) else scaleCheck pr t da mA ((convK v + 31) / 32),
       if dual then none else checkB pr t db (convK v) nB])
      (.go { Plan.nop with
             reads := rdOperand t da f.ra ++ rdOperand t db f.rb ++ (if dual then rdOperand t dc f.rc else []),
             writes := [], accs := mmaAccs f, units := mmaUnits f, regions := [], ready := true,
             run := convRun c x t pr f v p0 }))))

def convEff (s : State) (c x : Nat) (w : Word) : State :=
  tensorWord (fun w => wOp w = 0x21) (fun w => [wfld w 28 24, wfld w 23 19]) planConv s c x w

/-! ### Parity (R92) -/

/-- Run `k` when no accumulator of the M × N region has a wrong parity bit; otherwise the pour aborts
with UNCORRECTED and ARR_ERR records the first mismatch. -/
def checkParity (s : State) (c x i m n : Nat) (k : State) : State :=
  let a := accOf (coreOf s c) i
  match (tileIdx m n).find? (fun (r, q) => smGet false a.badPar (256 * r + q)) with
  | none => k
  | some (r, q) =>
    let w := rd s (rARR_ERR c)
    let pos := BitVec.ofNat 64 ((i % 4) <<< 34 + (i / 4) <<< 33 + r <<< 27 + q <<< 19)
    let w1 := if wfld w 1 0 = 0 then pos ||| BitVec.ofNat 64 (wfld w 3 0) else w
    let s1 := rwr s (rARR_ERR c) (w1 ||| BitVec.ofNat 64 (2 ^ (i / 4)))
    beginAbort (noteParity s1 c x (i / 4)) c x 0x04 0
where
  /-- A parity mismatch is monitor input 3, with a recoverable CPER record (UNIT accumulator, INSTANCE the array). -/
  noteParity (s : State) (c x a : Nat) : State :=
    cperWrite (monEvent s 3 1) (cperPour s c x { cperInfo 0 3 (dieOfCore c) 2 a with detail := rd s (rARR_ERR c) })

/-! ### DRAIN (R78, R289) -/

/-- Bias and shift of one accumulator (R78), exact.  A saturating INT32 bias add or shift raises neither NONFINITE
nor the tile's flag (DESIGN CHOICE, log entry 107). -/
def drainVal (int : Bool) (acc : W32) (bias : Option FV) (shift : Int) : FV :=
  if int then
    let b := match bias with
      | some v => (satInt32 ((fvInt32 acc).toInt + v.toInt)).1
      | none => acc
    let i := (fvInt32 b).toInt
    if 0 ≤ shift then fvInt32 (satInt32 (i * (2 ^ shift.toNat : Nat))).1
    else FV.int (intShiftRne i (-shift).toNat)
  else
    let b := match bias with
      | some v => rne32 ((fv32 acc).add v)
      | none => acc
    fv32 (rne32 ((fv32 b).scale shift))

/-- Values of the M × N region after bias and shift. -/
def drainRows (a : AccSet) (m n : Nat) (bias : Nat → Option FV) (shift : Int) : List (List FV) :=
  (List.range m).map (fun i => (List.range n).map (fun j => drainVal a.isInt (accVal a i j) (bias j) shift))

/-- Effect of DRAIN at issue. -/
def drainRun (c x : Nat) (t : Ctx) (pr : Pour) (w : Word) (b : ConvBlk) (ebase : Nat) (s : State) : State :=
  let i := 4 * wfld w 53 53 + wfld w 52 51
  let d := tdAt t (wfld w 50 45)
  let db := tdAt t (wfld w 44 39)
  let m := wfld w 37 32 + 1
  let n := wfld w 31 24 + 1
  let a := accOf (coreOf s c) i
  let bf := if a.isInt then 9 else db.fmt
  let bcode := elemBits (spmByte (coreOf s c)) bf db.off
  let bias := fun j => if wbit w 38 then some (fvOf bf (bcode j)) else none
  let port := 4 + wfld w 53 53
  withAppend s c x port t pr b m n (fun r =>
    let f := match r with
      | some q => if b.vpart then q.vfmt else q.kfmt
      | none => d.fmt
    let go : State :=
      let rows := drainRows a m n bias (shiftOf s c x b)
      let (codes, ovf) := convRows s c b f pr.stamp ebase rows
      let s1 := tileOut s c x port t pr b d f r codes
      let s2 := assayFinish s1 c i bf (if wbit w 38 then (List.range n).map bcode else []) (shiftOf s c x b) f b ebase
        codes
      tileFlag s2 c x pr b f (ovf || a.nonfin)
    checkParity s c x i m n (if wbit w 38 then guardRows s c x port db.off 0 1 (rowBytes bf n) go else go))

/-- Do the binding of the sequence record and the PER_ROW position table of `m` rows, a read slot, pass (R137,
R283)? -/
def checkPtab (pr : Pour) (t : Ctx) (b : ConvBlk) (m : Nat) : Option Nat :=
  if b.append then
    firstBad [illegalIf pr.binds[b.recb]?.isNone,
      if b.perRow then tdRegion pr (tdAt t b.ptab) (16 * m) true else none]
  else none

/-- The read slot of the position table. -/
def ptabSlot (t : Ctx) (b : ConvBlk) : List (Nat × Bool) :=
  if b.append && b.perRow then rdSlot (tdAt t b.ptab) false else []

/-- The issue check of DRAIN. -/
def planDrain : PlanFn := fun s c x e => withPour s c x (fun t pr =>
  let w := e.word
  let i := 4 * wfld w 53 53 + wfld w 52 51
  let d := tdAt t (wfld w 50 45)
  let db := tdAt t (wfld w 44 39)
  let m := wfld w 37 32 + 1
  let n := wfld w 31 24 + 1
  let a := accOf (coreOf s c) i
  let bv := wbit w 38
  Issue.checked (firstBad
    [illegalIf (!ownsAccs pr [i]),
     if bv then tdCheck pr { db with fmt := if a.isInt then 9 else db.fmt } (a.isInt || decide (db.fmt < 2)) 1 n true
     else none])
  (withConv s pr (srcOf e 1).toNat (fun b =>
    Issue.checked (firstBad
      [if b.append then tdRegion pr d 0 false else tdCheck pr d (decide (d.fmt < 8)) m n false,
       checkPtab pr t b m])
      (.go
        { reads := (if bv then rdSlot db false else []) ++ ptabSlot t b, writes := wrSlot d, accs := [i],
          units := [2 + wfld w 53 53],
          regions := if b.append then [] else [(d.off, (m - 1) * d.pitch + rowBytes d.fmt n)],
          ready := true, late := appLate c x (4 + wfld w 53 53) t pr b m n,
          run := drainRun c x t pr w b (wfld (srcOf e 0) 47 0) }))))

def drainEff (s : State) (c x : Nat) (w : Word) : State :=
  tensorWord (fun w => wOp w = 0x22) (fun w => [wfld w 23 19, wfld w 18 14]) planDrain s c x w

/-! ### SPILL and ACCLD (R79, R289) -/

/-- Offset of the NONFINITE word of an M × N image. -/
def imageTail (m n : Nat) : Nat := (4 * m * n + 63) / 64 * 64

/-- Bytes of a spilled image. -/
def imageBytes (a : AccSet) (m n : Nat) : List Byte :=
  (tileIdx m n).flatMap (fun (i, j) => bytesLE 4 (accVal a i j).toNat)

/-- Effect of SPILL at issue. -/
def spillRun (c x i : Nat) (d : TD) (m n : Nat) (s : State) : State :=
  let a := accOf (coreOf s c) i
  checkParity s c x i m n
    (let s1 := spmStore (assayCancel s c i) c x (4 + i / 4) d.off (imageBytes a m n)
     spmStore s1 c x (4 + i / 4) (d.off + imageTail m n) (bytesLE 64 (b2n a.nonfin)))

/-- The issue check of SPILL. -/
def planSpill : PlanFn := fun s c x e => withPour s c x (fun t pr =>
  let w := e.word
  let i := 4 * wfld w 53 53 + wfld w 52 51
  let d := tdAt t (wfld w 50 45)
  let m := wfld w 44 39 + 1
  let n := wfld w 38 31 + 1
  let int := (accOf (coreOf s c) i).isInt
  Issue.checked (firstBad
    [if !ownsAccs pr [i] || d.fmt ≠ (if int then 9 else 8) then some 0x0B else none,
     tdRegion pr d (imageTail m n + 64) false])
    (.go { Plan.nop with
           reads := [], writes := wrSlot d, accs := [i], units := [2 + i / 4],
           regions := [(d.off, imageTail m n + 64)], ready := true, run := spillRun c x i d m n }))

def spillEff (s : State) (c x : Nat) (w : Word) : State :=
  tensorWord (fun w => wOp w = 0x23) (fun _ => []) planSpill s c x w

/-- Effect of ACCLD at issue: the image is restored, every accumulator outside it is undefined. -/
def accldRun (c x i : Nat) (d : TD) (m n : Nat) (s : State) : State :=
  guardRows s c x (2 * (i / 4)) d.off 0 1 (imageTail m n + 1)
    (let (g, s1) := useFree (assayCancel s c i)
     modCore s1 c (fun k =>
       let a0 := { AccSet.reset with isInt := d.fmt = 9, gen := some (8 * g + i),
                                     inject := (accOf k i).inject,
                                     nonfin := (spmByte k (d.off + imageTail m n)).toNat % 2 = 1 }
       setAcc k i ((tileIdx m n).foldl (fun a (r, q) =>
         accPut a r q (BitVec.ofNat 32 (ofBytesLE (spmBytes k (d.off + 4 * (n * r + q)) 4)))) a0)))

/-- The issue check of ACCLD. -/
def planAccld : PlanFn := fun s c x e => withPour s c x (fun t pr =>
  let w := e.word
  let i := 4 * wfld w 53 53 + wfld w 52 51
  let d := tdAt t (wfld w 50 45)
  let m := wfld w 43 38 + 1
  let n := wfld w 37 30 + 1
  let _ := s
  Issue.checked (firstBad
    [if !ownsAccs pr [i] || !(d.fmt = 8 || d.fmt = 9) then some 0x0B else none,
     tdRegion pr d (imageTail m n + 64) true])
    (.go { Plan.nop with
           reads := rdSlot d (wbit w 44), writes := [], accs := [i], units := [i / 4], regions := [],
           ready := true, run := accldRun c x i d m n }))

def accldEff (s : State) (c x : Nat) (w : Word) : State :=
  tensorWord (fun w => wOp w = 0x24) (fun _ => []) planAccld s c x w

/-! ### Commands -/

/-- MMA (R287). -/
def execMma (c x : Nat) (w : Word) (s : State) : Out := onUnit (ctxOk c x) "MMA" (.next (mmaEff s c x w))

/-- MMA_CONV (R288). -/
def execMmaConv (c x : Nat) (w : Word) (s : State) : Out :=
  onUnit (ctxOk c x) "MMA_CONV" (.next (convEff s c x w))

/-- DRAIN (R289). -/
def execDrain (c x : Nat) (w : Word) (s : State) : Out := onUnit (ctxOk c x) "DRAIN" (.next (drainEff s c x w))

/-- SPILL (R289). -/
def execSpill (c x : Nat) (w : Word) (s : State) : Out := onUnit (ctxOk c x) "SPILL" (.next (spillEff s c x w))

/-- ACCLD (R289). -/
def execAccld (c x : Nat) (w : Word) (s : State) : Out := onUnit (ctxOk c x) "ACCLD" (.next (accldEff s c x w))

end Sys2Proof.Machine
end

