-- ==== Sys2Proof/Machine/Assay.lean ====
section
/-! DEFINITION. Assay windows (R118, R119, R290): the records that a partner core recomputes and
compares.  Command: ASSAY. -/

namespace Sys2Proof.Machine

/-! ### Recomputing a record (R118) -/

/-- An operand of a record: element codes by row or column and K position, and block scales. -/
def recOpnd (f : Nat) (codes scales : List (List Nat)) : Opnd :=
  { val := fun i q => fvOf f ((codes.getD i []).getD q 0)
    scale := fun i b => match scales[i]? with
      | some l => fvScale (l.getD b 0x7F)
      | none => .fin false 1 0 }

/-- The accumulators of a record's products, in order from ZERO; a product writes the rows it presented (R88). -/
def recAccs (r : AssayRec) : AccSet :=
  r.prods.zipIdx.foldl (fun a (p, i) =>
    product (fmtInt p.fmtA) (i = 0) (fun m => decide (m < p.a.length)) (recOpnd p.fmtA p.a p.sa) (recOpnd p.fmtB p.b p.sb)
      r.m r.n p.k (fmtK p.fmtA) a) AccSet.reset

/-- Elements of a record with a bias and shift applied (R78). -/
def recVals (r : AssayRec) (a : AccSet) : List (List FV) := drainRows a r.m r.n (fun j => (r.bias[j]?).map (fvOf r.biasFmt)) r.shift

/-! ### Outcomes (Table: Assay element outcomes) -/

inductive AssayOut where
  | match_
  | saturated
  | underflow
  | mismatch
  deriving DecidableEq, Repr

/-- The largest finite magnitude of a format with a sign. -/
def fmtTop (f : Nat) (neg : Bool) : FV :=
  if fmtInt f then FV.int (if neg then -(2 ^ (fmtBits f - 1)) else 2 ^ (fmtBits f - 1) - 1)
  else fvOf f ((fmtShape f).2.2 + b2n neg * 2 ^ (fmtBits f - 1))

/-- The exponent of the quantum of `x` in a format (R99 step 2). -/
def quantumExp (f : Nat) (x : FV) : Int :=
  if fmtInt f then 0
  else
    let (mb, bias, _) := fmtShape f
    let emin : Int := 1 - (bias : Int)
    max ((x.log2).getD emin) emin - mb

def fvNeg : FV → Bool
  | .fin n _ _ => n
  | .inf n => n
  | .nan => false

/-- The outcome of one element: `x` recomputed, `y` the source's code in format `f`, `tol` the tolerance
in sixteenths of a quantum. -/
def assayElem (f tol : Nat) (x : FV) (y : Nat) : AssayOut :=
  let v := fvOf f y
  let q := quantumExp f x
  let near := !x.special && !v.special && FV.le ((v.sub x).abs.scale 4) (FV.ofInt tol q)
  let emin : Int := 1 - ((fmtShape f).2.1 : Int)
  if x.isNan && (v.isNan || decide (fmtNan f = 0 ∧ y = 0)) then .match_
  else if (v = fmtTop f false || v = fmtTop f true) &&
      ((match x with | .inf _ => true | _ => false) || (fvNeg x = fvNeg v && FV.le v.abs x.abs)) then .saturated
  else if !fmtInt f && !x.isZero && decide ((x.log2).getD emin < emin) && near then .underflow
  else if near then .match_
  else .mismatch

/-- Rows of a record that its products presented; the others count as beyond M (R88). -/
def recRows (r : AssayRec) : Nat := match r.prods.head? with | some p => p.a.length | none => r.m

/-- The outcomes of a record's elements. -/
def recOutcomes (s : State) (c : Nat) (r : AssayRec) (vals : List (List FV)) : List AssayOut :=
  let tol := rget s (rASSAY_TOL c (r.outFmt % 8)) fASSAY_TOL_TOL
  (((vals.zip r.out).take (recRows r)).flatMap (fun (xs, ys) => (xs.zip ys).map (fun (x, y) => assayElem r.outFmt tol x y)))

/-- One record is processed: it leaves the ring, its outcomes are counted, and a mismatch is reported
(R119, R347, R361). -/
def assayRecord (s : State) (c i : Nat) (r : AssayRec) : State :=
  let a := recAccs r
  let os := recOutcomes s c r (recVals r a)
  let n := fun o => (os.filter (· = o)).length
  let bad := n .mismatch
  let size := rget s (rASSAY_RING_SIZE c) fASSAY_RING_SIZE_SIZE * 256
  let hd := rget s (rASSAY_RING_PTR c) fASSAY_RING_PTR_HEAD
  let s1 := modCore s c (fun k => { setAcc k i a with assayRing := k.assayRing.drop 1 })
  let s2 := rput s1 (rASSAY_RING_PTR c) fASSAY_RING_PTR_HEAD (if size = 0 then 0 else (hd + r.units) % size)
  let s3 := countCore (countCore s2 c 0xB6 (n .saturated)) c 0xB7 (n .underflow)
  if bad = 0 then countCore s3 c 0xB4 1
  else
    let s4 := rput (rset (countCore s3 c 0xB5 1) (rASSAY_STATUS c) fASSAY_STATUS_MISMATCH)
      (rASSAY_STATUS c) fASSAY_STATUS_LAST_SRC r.src
    let s5 := cperWrite (monEvent s4 4 1) { cperInfo 0 4 (dieOfCore c) 9 (i / 4) with core := c, stamp := r.stamp }
    raiseDev s5 0x03 c [BitVec.ofNat 64 (r.src <<< 56 + c <<< 48 + r.stamp), BitVec.ofNat 64 bad]

/-- Cycles of a record: its steps, the array's 146 cycles, and the fetch, whose length the spec does not give: a
free value below 2^31 (DESIGN CHOICE, log entry 38). -/
def recCycles (g : Nat) (r : AssayRec) : Nat :=
  (r.prods.map (fun p => (p.k + fmtK p.fmtA - 1) / fmtK p.fmtA)).foldl (· + ·) 0 + 146 +
    (Config.freeWord g 0).toNat % 2 ^ 31

/-- Take whole records from the ring in order while the next can finish within the budget. -/
def assayRun (c i : Nat) : Nat → Nat → State → State
  | 0, _, s => s
  | fuel + 1, budget, s =>
    match (coreOf s c).assayRing with
    | [] => s
    | r :: _ =>
      let (g, s1) := useFree s
      let n := recCycles g r
      if budget < n then s1 else assayRun c i fuel (budget - n) (assayRecord s1 c i r)

/-- The issue check of ASSAY (R290). -/
def planAssay : PlanFn := fun s c x e => withPour s c x (fun _ pr =>
  let w := e.word
  let i := 4 * wfld w 53 53 + wfld w 52 51
  let sc := wfld w 50 48
  let t0 := wfld w 47 38
  let n := wfld w 37 32 + 1
  let budget := wfld (srcOf e 0) 31 0
  if !(accsOf pr).contains i || !pr.mStream.testBit sc || !ownsTok pr t0 || !ownsTok pr (t0 + n - 1) then
    Issue.bad 0x0B
  else
    .go { Plan.nop with
      writes := (List.range n).map (· + t0)
      accs := [i]
      units := [wfld w 53 53]
      ready := (kGet Stream.reset (coreOf s c).streams sc).owner.isNone
      run := fun u =>
        let u1 := modCore u c (fun k => { k with window := some ⟨x, wfld w 53 53, wfld w 52 51, sc, t0, n, budget⟩ })
        assayRun c i (coreOf u1 c).assayRing.length budget u1 })

def assayEff (s : State) (c x : Nat) (w : Word) : State :=
  tensorWord (fun w => wOp w = 0x25) (fun w => [wfld w 31 27]) planAssay s c x w

/-- ASSAY (R118, R290). -/
def execAssay (c x : Nat) (w : Word) (s : State) : Out := onUnit (ctxOk c x) "ASSAY" (.next (assayEff s c x w))

end Sys2Proof.Machine
end

