-- ==== Sys2Proof/Machine/Vector.lean ====
section
/-! DEFINITION. The vector unit (R291–R293).  Commands: VEW, VRED, VROT. -/

namespace Sys2Proof.Machine

/-- The binary32 encoding of a value that binary32 holds exactly, zeros with their sign. -/
def enc32 (f bits : Nat) : W32 :=
  if f = 0 then widenBf16 bits
  else
    match fvOf f bits with
    | .fin n 0 _ => if n then 0x80000000 else 0
    | v => rne32 v

/-- Element (r, c) of a tile as binary32. -/
def tile32 (k : Core) (d : TD) (r c : Nat) : W32 := enc32 d.fmt (tileBits k d r c)

/-- SILU (Table: VEW functions). -/
def silu32 (a : W32) : W32 :=
  let e := exp2f32 (rne32 ((fv32 a).neg.mul (fv32 0x3FB8AA3B)))
  rne32 ((fv32 a).mul (fv32 (recip32 (rne32 ((FV.int 1).add (fv32 e))))))

/-- VEW functions (Table: VEW functions), each with one rounding under R157. -/
def vewFn (fn : Nat) (a b : W32) : W32 :=
  let x := fv32 a
  let y := fv32 b
  if fn = 0x0 then rne32 x
  else if fn = 0x1 then rne32 (x.add y)
  else if fn = 0x2 then rne32 (x.sub y)
  else if fn = 0x3 then rne32 (x.mul y)
  else if fn = 0x4 then rne32 (fv32 (f32max a b))
  else if fn = 0x5 then rne32 (fv32 (f32min a b))
  else if fn = 0x6 then rne32 x.abs
  else if fn = 0x7 then rne32 x.neg
  else if fn = 0x8 then exp2f32 a
  else if fn = 0x9 then recip32 a
  else if fn = 0xA then f32sqrt a
  else if fn = 0xB then f32rsqrt a
  else if fn = 0xC then f32div a b
  else silu32 a

/-- A value after the drain shift of the conversion block (R78, R109). -/
def shifted (sh : Int) (v : W32) : FV := if sh = 0 then fv32 v else fv32 (rne32 ((fv32 v).scale sh))

/-- Guard of a vector source. -/
def guardSrc (s : State) (c x port : Nat) (d : TD) (k : State) : State :=
  guardRows s c x port d.off d.pitch d.rows (tdRowLen d) k

/-- Check of the scale tile that a vector source names: its slot and region as R97 lays out an A operand (R281,
R479).  The vector unit reads its elements alone (log entry 35). -/
def vecScale (pr : Pour) (t : Ctx) (d : TD) : Option Nat := scaleCheck pr t d d.rows ((d.cols + 31) / 32)

/-- Region a vector destination writes. -/
def tdSpan (d : TD) : List (Nat × Nat) := [(d.off, tdEnd d - d.off)]

/-! ### VEW (R291) -/

/-- The element of DB that goes with element (r, c). -/
def vewB (k : Core) (w : Word) (d : TD) (r c : Nat) : W32 :=
  tile32 k d (if wbit w 17 then 0 else r) (if wbit w 16 then 0 else c)

/-- Effect of VEW at issue. -/
def vewRun (c x : Nat) (t : Ctx) (pr : Pour) (w : Word) (b : ConvBlk) (ebase : Nat) (s : State) : State :=
  let da := tdAt t (wfld w 53 48)
  let db := tdAt t (wfld w 47 42)
  let dd := tdAt t (wfld w 41 36)
  let fn := wfld w 23 18
  let k := coreOf s c
  let sh := shiftOf s c x b
  let go : State :=
    let rows := (List.range da.rows).map (fun r => (List.range da.cols).map (fun q =>
      shifted sh (vewFn fn (tile32 k da r q) (if vewUnary fn then 0 else vewB k w db r q))))
    let (codes, ovf) := convRows s c b dd.fmt pr.stamp ebase rows
    tileFlag (writeRows s c x 9 dd dd.fmt codes) c x pr b dd.fmt ovf
  guardSrc s c x 7 da (if vewUnary fn then go else guardSrc s c x 8 db go)

/-- The issue check of VEW. -/
def planVew : PlanFn := fun s c x e => withPour s c x (fun t pr =>
  let w := e.word
  let da := tdAt t (wfld w 53 48)
  let db := tdAt t (wfld w 47 42)
  let dd := tdAt t (wfld w 41 36)
  let un := vewUnary (wfld w 23 18)
  Issue.checked (firstBad
    [tdCheck pr da (decide (da.fmt < 8)) 1 1 true, vecScale pr t da,
     if un then none else firstBad [tdCheck pr db (decide (db.fmt < 8)) 1 1 true, vecScale pr t db],
     tdCheck pr dd (decide (dd.fmt < 8)) 1 1 false,
     illegalIf (decide (dd.rows ≠ da.rows ∨ dd.cols ≠ da.cols)),
     illegalIf (!un && (decide (db.rows ≠ (if wbit w 17 then 1 else da.rows)) ||
        decide (db.cols ≠ (if wbit w 16 then 1 else da.cols))))])
  (withConv s pr (srcOf e 1).toNat (fun b =>
    (.go { Plan.nop with
           reads := rdOperand t da (wbit w 35) ++ (if un then [] else rdOperand t db (wbit w 34)),
           writes := wrSlot dd, accs := [], units := [5], regions := tdSpan dd, ready := true,
           run := vewRun c x t pr w b (wfld (srcOf e 0) 47 0) }))))

def vewEff (s : State) (c x : Nat) (w : Word) : State :=
  tensorWord (fun w => wOp w = 0x28) (fun w => [wfld w 33 29, wfld w 28 24]) planVew s c x w

/-! ### VRED (R292) -/

/-- Sum of a row in strips of 256: each strip exact and rounded once, then added in order. -/
def stripSum (vals : List FV) : W32 :=
  (chunks 256 (vals.length + 1) vals).foldl (fun acc l => rne32 ((fv32 acc).add (fv32 (rne32 (FV.sum l))))) 0

/-- The value of one row. -/
def vredRow (k : Core) (fn : Nat) (da db : TD) (r : Nat) : W32 :=
  if fn = 2 then
    rne32 (fv32 (((List.range da.cols).map (tile32 k da r)).foldl f32max (tile32 k da r 0)))
  else stripSum ((List.range da.cols).map (fun q =>
    if fn = 0 then (tileVal k da r q).mul (tileVal k db r q) else tileVal k da r q))

/-- Store one binary32 value at the start of each row of a tile. -/
def rowVals (c x : Nat) (d : TD) (vs : List W32) (s : State) : State :=
  vs.zipIdx.foldl (fun u (v, r) => spmStore u c x 9 (d.off + r * d.pitch) (bytesLE 4 v.toNat)) s

/-- Effect of VRED at issue. -/
def vredRun (c x : Nat) (t : Ctx) (w : Word) (s : State) : State :=
  let da := tdAt t (wfld w 53 48)
  let db := tdAt t (wfld w 47 42)
  let dd := tdAt t (wfld w 41 36)
  let fn := wfld w 33 32
  let k := coreOf s c
  let go := rowVals c x dd ((List.range da.rows).map (vredRow k fn da db)) s
  guardSrc s c x 7 da (if fn = 0 then guardSrc s c x 8 db go else go)

/-- The issue check of VRED. -/
def planVred : PlanFn := fun s c x e => withPour s c x (fun t pr =>
  let w := e.word
  let da := tdAt t (wfld w 53 48)
  let db := tdAt t (wfld w 47 42)
  let dd := tdAt t (wfld w 41 36)
  let dot := decide (wfld w 33 32 = 0)
  Issue.checked (firstBad
    [tdCheck pr da (decide (da.fmt < 8)) 1 1 true, vecScale pr t da,
     if dot then firstBad [tdCheck pr db (decide (db.fmt < 8)) 1 1 true, vecScale pr t db] else none,
     illegalIf (dot && (decide (db.rows ≠ da.rows) || decide (db.cols ≠ da.cols))),
     tdCheck pr { dd with fmt := 8, cols := 1 } true da.rows 1 false])
    (.go { Plan.nop with
           reads := rdOperand t da (wbit w 35) ++ (if dot then rdOperand t db (wbit w 34) else []),
           writes := wrSlot dd, accs := [], units := [5], regions := [(dd.off, (da.rows - 1) * dd.pitch + 4)], ready := true,
           run := vredRun c x t w }))

def vredEff (s : State) (c x : Nat) (w : Word) : State :=
  tensorWord (fun w => wOp w = 0x29) (fun _ => []) planVred s c x w

/-! ### VROT (R293) -/

/-- Element (r, q) of the rotation. -/
def vrotVal (k : Core) (da db : TD) (r q : Nat) : W32 :=
  let i := q / 2
  let x0 := tileVal k da r (2 * i)
  let x1 := tileVal k da r (2 * i + 1)
  let cs := tileVal k db r (2 * i)
  let sn := tileVal k db r (2 * i + 1)
  if q % 2 = 0 then rne32 ((x0.mul cs).sub (x1.mul sn)) else rne32 ((x0.mul sn).add (x1.mul cs))

/-- Effect of VROT at issue. -/
def vrotRun (c x : Nat) (t : Ctx) (pr : Pour) (w : Word) (b : ConvBlk) (ebase : Nat) (s : State) : State :=
  let da := tdAt t (wfld w 53 48)
  let db := tdAt t (wfld w 47 42)
  let dd := tdAt t (wfld w 41 36)
  let k := coreOf s c
  let sh := shiftOf s c x b
  withAppend s c x 9 t pr b da.rows da.cols (fun r =>
    let f := match r with
      | some q => if b.vpart then q.vfmt else q.kfmt
      | none => dd.fmt
    guardSrc s c x 7 da (guardSrc s c x 8 db
      (let rows := (List.range da.rows).map (fun m => (List.range da.cols).map (fun q =>
         shifted sh (vrotVal k da db m q)))
       let (codes, ovf) := convRows s c b f pr.stamp ebase rows
       tileFlag (tileOut s c x 9 t pr b dd f r codes) c x pr b f ovf)))

/-- The issue check of VROT. -/
def planVrot : PlanFn := fun s c x e => withPour s c x (fun t pr =>
  let w := e.word
  let da := tdAt t (wfld w 53 48)
  let db := tdAt t (wfld w 47 42)
  let dd := tdAt t (wfld w 41 36)
  Issue.checked (firstBad
    [tdCheck pr da (decide (da.fmt < 8)) 1 1 true, vecScale pr t da,
     tdCheck pr db (decide (db.fmt < 2)) da.rows da.cols true, vecScale pr t db,
     illegalIf (decide (da.cols % 2 ≠ 0 ∨ db.rows ≠ da.rows ∨ db.cols ≠ da.cols))])
  (withConv s pr (srcOf e 1).toNat (fun b => Issue.checked (firstBad
    [if b.append then tdRegion pr dd 0 false
       else firstBad [illegalIf (decide (dd.rows ≠ da.rows ∨ dd.cols ≠ da.cols)),
         tdCheck pr dd (decide (dd.fmt < 8)) 1 1 false],
     checkPtab pr t b da.rows])
    (.go
      { reads := rdOperand t da (wbit w 35) ++ rdOperand t db (wbit w 34) ++ ptabSlot t b,
        writes := wrSlot dd, accs := [], units := [5], regions := if b.append then [] else tdSpan dd,
        ready := true, late := appLate c x 9 t pr b da.rows da.cols,
        run := vrotRun c x t pr w b (wfld (srcOf e 0) 47 0) }))))

def vrotEff (s : State) (c x : Nat) (w : Word) : State :=
  tensorWord (fun w => wOp w = 0x2A) (fun w => [wfld w 33 29, wfld w 28 24]) planVrot s c x w

/-! ### Commands -/

/-- VEW (R291). -/
def execVew (c x : Nat) (w : Word) (s : State) : Out := onUnit (ctxOk c x) "VEW" (.next (vewEff s c x w))

/-- VRED (R292). -/
def execVred (c x : Nat) (w : Word) (s : State) : Out := onUnit (ctxOk c x) "VRED" (.next (vredEff s c x w))

/-- VROT (R293). -/
def execVrot (c x : Nat) (w : Word) (s : State) : Out := onUnit (ctxOk c x) "VROT" (.next (vrotEff s c x w))

end Sys2Proof.Machine
end

