-- ==== Sys2Proof/Machine/Attention.lean ====
section
/-! DEFINITION. The attention pipeline (R121–R131, R139, R142, R295, R296).  Commands: ATTN_FWD,
ATTN_NORM, ATTN_BWD_P, ATTN_BWD_DS, ATTN_MERGE. -/

namespace Sys2Proof.Machine

/-- The attention descriptor as the attention block gives it (R121, R295). -/
structure AttD where
  qpos0 : Nat
  klen : Nat
  cMul : W32
  scale : W32
  window : Nat
  m : Nat
  g : Nat
  mask : Nat
  d : Nat
  qf : Nat
  kf : Nat
  vf : Nat
  pf : Nat
  deriving DecidableEq, Repr

def attDOf (ws : List Word) : AttD :=
  let w0 := ws.getD 0 0
  let w1 := ws.getD 1 0
  let w2 := ws.getD 2 0
  { qpos0 := wfld w0 63 32, klen := wfld w0 31 0, cMul := BitVec.ofNat 32 (wfld w1 63 32),
    scale := BitVec.ofNat 32 (wfld w1 31 0), window := wfld w2 63 32, m := wfld w2 31 26 + 1,
    g := 2 ^ wfld w2 25 23, mask := wfld w2 22 21, d := 32 * (wfld w2 20 18 + 1), qf := wfld w2 17 14,
    kf := wfld w2 13 10, vf := wfld w2 9 6, pf := wfld w2 5 2 }

/-- Finite and above zero. -/
def posFinite (w : W32) : Bool :=
  match fv32 w with
  | .fin false m _ => decide (m ≠ 0)
  | _ => false

/-- The ranges of R121 and the pairings of R122. -/
def attOk (ws : List Word) : Bool :=
  let a := attDOf ws
  zb (ws.getD 2 0) 1 0 && (ws.drop 3).all (fun w => w = 0) && decide (a.g ≤ 64) && decide (a.mask ≤ 2) &&
  (a.mask ≠ 2 || (decide (1 ≤ a.window) && decide (a.window ≤ 1048576))) && posFinite a.cMul &&
  posFinite a.scale && decide (a.qf ≤ 3) && decide (a.kf ≤ 3) && decide (a.vf ≤ 3) &&
  (a.pf = 0 || a.pf = 2) && decide (a.m % a.g = 0) && fmtPair a.qf a.kf && fmtPair a.pf a.vf

/-- Read the attention block, check it, and check the positions (R142). -/
def withAtt (s : State) (c x : Nat) (pr : Pour) (a : Nat) (kv : Option (Nat × Nat)) (k : AttD → Issue) : Issue :=
  withBlock s pr a 64 64 (fun ws =>
    if !attOk ws then Issue.bad 0x0B
    else
      let d := attDOf ws
      let q := d.qpos0 + (d.m - 1) / d.g
      Issue.under
        (if 1048576 ≤ q then some (limitAt c x pr 2 q)
         else
           match kv with
           | some (kpos, n) =>
             if 1048576 ≤ kpos + n - 1 then some (limitAt c x pr 3 (kpos + n - 1))
             else if 1048576 < d.klen then some (limitAt c x pr 3 d.klen) else none
           | none => if 1048576 < d.klen then some (limitAt c x pr 3 d.klen) else none)
        (k d))

/-- Is key position `kpos` masked for row m (R125)? -/
def attMasked (a : AttD) (m kpos : Nat) : Bool :=
  let q := a.qpos0 + m / a.g
  decide (a.klen ≤ kpos) || (a.mask = 1 && decide (q < kpos)) ||
  (a.mask = 2 && (decide (q < kpos) || decide (a.window ≤ q - kpos)))

/-- Row state of row m in a slot at `o`: mrow and lrow. -/
def rowState (k : Core) (o m : Nat) : W32 × W32 :=
  (BitVec.ofNat 32 (ofBytesLE (spmBytes k (o + 8 * m) 4)),
   BitVec.ofNat 32 (ofBytesLE (spmBytes k (o + 8 * m + 4) 4)))

def rowStateBytes (l : List (W32 × W32)) : List Byte :=
  l.flatMap (fun (m, v) => bytesLE 4 m.toNat ++ bytesLE 4 v.toNat)

/-! ### ATTN_FWD (R124–R126) -/

/-- What the softmax stage makes of one row: mrow, lrow, f and the probability codes. -/
structure SmRow where
  m : W32
  l : W32
  f : W32
  p : List Nat
  deriving DecidableEq, Repr

/-- One row of a block (R124). -/
def smRow (a : AttD) (kpos m : Nat) (st : W32 × W32) (sc : List W32) : SmRow :=
  let t := sc.zipIdx.map (fun (v, n) =>
    if attMasked a m (kpos + n) then (true, inf32 true) else (false, rne32 ((fv32 v).mul (fv32 a.cMul))))
  let bad : SmRow := ⟨st.1, nan32, nan32, sc.map (fun _ => fmtNan a.pf)⟩
  if (fv32 st.2).isNan || t.any (fun (k, v) => !k && (fv32 v).special) then bad
  else
    let top := (t.map (·.2)).foldl f32max (inf32 true)
    let mnew := f32max st.1 (rupBf16 top)
    if mnew = inf32 false then bad
    else if mnew = inf32 true then
      ⟨mnew, rne32 ((fv32 0x3F800000).mul (fv32 st.2)), 0x3F800000, sc.map (fun _ => 0)⟩
    else
      let f := exp2f32 (rne32 ((fv32 st.1).sub (fv32 mnew)))
      let p := t.map (fun (_, v) => (conv32 a.pf none (exp2f32 (rne32 ((fv32 v).sub (fv32 mnew))))).1)
      ⟨mnew, rne32 (((fv32 f).mul (fv32 st.2)).add (FV.sum (p.map (fvOf a.pf)))), f, p⟩

/-- Scale row m of an M × N set by f[m], one rounding each (R86). -/
def rowScale (s : AccSet) (n : Nat) (f : List W32) : AccSet :=
  f.zipIdx.foldl (fun u (g, m) => (List.range n).foldl (fun u j =>
    let v := rne32 ((fv32 (accVal u m j)).mul (fv32 g))
    { accPut u m j v with nonfin := u.nonfin || (fv32 v).special }) u) s

def attF (w : Word) : Nat × Nat × Nat × Nat × Nat × Nat × Nat :=
  (wfld w 53 48, wfld w 47 42, wfld w 41 36, wfld w 35 30, wfld w 29 28, wfld w 27 26, wfld w 11 4 + 1)

/-- Effect of ATTN_FWD at issue. -/
def fwdRun (c x : Nat) (t : Ctx) (w : Word) (a : AttD) (kpos : Nat) (s : State) : State :=
  let (iq, ik, iv, ir, a0, a1, n) := attF w
  let dq := { tdAt t iq with trans := false }
  let dk := { tdAt t ik with trans := true }
  let dv := { tdAt t iv with trans := false }
  let dr := tdAt t ir
  let first := wbit w 25
  let k := coreOf s c
  guardA s c x 0 t dq a.m a.d (guardB s c x 1 t dk a.d n (guardB s c x 3 t dv n a.d
    (guardRows s c x 6 dr.off 0 1 (if first then 0 else 512)
      (checkParity s c x (4 + a1) (if first then 0 else a.m) a.d
        (let s1 := runProduct (countZero (assayCancel (assayCancel s c a0) c (4 + a1)) c true) c a0 false true
           (fun _ => true) (opndA k t dq) (opndB k t dk) a.m n a.d (fmtK a.qf)
         checkParity s1 c x a0 a.m n
        (let sc := accOf (coreOf s1 c) a0
         let rows := (List.range a.m).map (fun m =>
           smRow a kpos m (if first then (inf32 true, 0) else rowState k dr.off m)
             ((List.range n).map (fun j => accVal sc m j)))
         let s2 := modCore s1 c (fun u =>
           let z := accOf u (4 + a1)
           let z0 := if first then accZero z false (fun _ => true) a.m a.d else { z with isInt := false }
           setAcc u (4 + a1) (rowScale z0 a.d (rows.map (·.f))))
         let pOp : Opnd := ⟨fun m q => fvOf a.pf ((rows.getD m ⟨0, 0, 0, []⟩).p.getD q 0), fun _ _ => .fin false 1 0⟩
         let s3 := runProduct s2 c (4 + a1) false false (fun _ => true) pOp (opndB k t dv) a.m a.d n (fmtK a.pf)
         let rest := if first then List.replicate (64 - a.m) (inf32 true, (0 : W32)) else []
         let s4 := spmStore s3 c x 6 dr.off (rowStateBytes (rows.map (fun r => (r.m, r.l)) ++ rest))
         let bad := (rows.filter (fun r => (fv32 r.l).isNan)).length
         countCore (countCore s4 c 0xB8 1) c 0xBA bad))))))

/-- The issue check of ATTN_FWD. -/
def planFwd : PlanFn := fun s c x e => withPour s c x (fun t pr =>
  let w := e.word
  let (iq, ik, iv, ir, a0, a1, n) := attF w
  let dq := { tdAt t iq with trans := false }
  let dk := { tdAt t ik with trans := true }
  let dv := { tdAt t iv with trans := false }
  let dr := tdAt t ir
  let kpos := wfld (srcOf e 1) 31 0
  Issue.checked (firstBad [illegalIf (!ownsAccs pr [a0, 4 + a1]), tdRegion pr dr 512 false])
  (withAtt s c x pr (srcOf e 0).toNat (some (kpos, n)) (fun a => Issue.checked (firstBad
    [illegalIf (decide (dq.fmt ≠ a.qf ∨ dk.fmt ≠ a.kf ∨ dv.fmt ≠ a.vf)),
     checkA pr t dq a.m a.d, checkB pr t dk a.d n, checkB pr t dv n a.d])
    (.go { Plan.nop with
           reads := rdOperand t dq (wbit w 24) ++ rdOperand t dk (wbit w 23) ++ rdOperand t dv (wbit w 22) ++
             (if wbit w 25 then [] else rdSlot dr false),
           writes := if wbit w 25 then wrSlot dr else [], accs := [a0, 4 + a1], units := [0, 1, 4],
           regions := [(dr.off, 512)], ready := true, run := fwdRun c x t w a kpos }))))

def fwdEff (s : State) (c x : Nat) (w : Word) : State :=
  tensorWord (fun w => wOp w = 0x30) (fun w => [wfld w 21 17, wfld w 16 12]) planFwd s c x w

/-! ### ATTN_NORM (R127) -/

/-- Saved statistics of row `i` (Table: Saved row statistics): mstat, λ and the flag.  A row state that no
key run leaves (a maximum that is no BF16 value, a sum that is not finite and above zero) has no stated
statistic: the value numbered `f` is free. -/
def rowStats (f i : Nat) (st : W32 × W32) : Nat × Nat × Bool :=
  if (fv32 st.2).isNan || (fv32 st.1).isNan then (0x7FC0, 0x7E00, true)
  else if st.1 = inf32 true then (0xFF7F, 0, false)
  else
    (if st.1.toNat % 2 ^ 16 = 0 then st.1.toNat / 2 ^ 16 else (Config.freeWord f (2 * i)).toNat % 2 ^ 16,
     if posFinite st.2 then log2fp16 st.2 else (Config.freeWord f (2 * i + 1)).toNat % 2 ^ 16, false)

def statBytes (l : List (Nat × Nat × Bool)) : List Byte :=
  l.flatMap (fun (m, v, _) => bytesLE 2 m ++ bytesLE 2 v)

/-- Effect of ATTN_NORM at issue. -/
def normRun (c x : Nat) (t : Ctx) (pr : Pour) (w : Word) (a : AttD) (b : ConvBlk) (ebase : Nat) (s : State) :
    State :=
  let i := 4 + wfld w 53 52
  let dO := tdAt t (wfld w 51 46)
  let dst := tdAt t (wfld w 45 40)
  let dr := tdAt t (wfld w 39 34)
  guardRows s c x 6 dr.off 0 1 (8 * a.m) (checkParity s c x i a.m a.d
    (let k := coreOf s c
     let sts := (List.range a.m).map (rowState k dr.off)
     let (f, s0) := useFree (assayCancel s c i)
     let s1 := modCore s0 c (fun u =>
       setAcc u i (rowScale (accOf u i) a.d (sts.map (fun r => recip32 r.2))))
     let z := accOf (coreOf s1 c) i
     let (codes, ovf) := convRows s1 c b dO.fmt pr.stamp ebase (drainRows z a.m a.d (fun _ => none) (shiftOf s1 c x b))
     let s2 := writeRows s1 c x 5 dO dO.fmt codes
     let stats := sts.zipIdx.map (fun (r, m) => rowStats f m r)
     let s3 := spmStore s2 c x 6 dst.off (statBytes stats)
     tileFlag s3 c x pr b dO.fmt (ovf || z.nonfin || stats.any (fun r => r.2.2))))

/-- The issue check of ATTN_NORM. -/
def planNorm : PlanFn := fun s c x e => withPour s c x (fun t pr =>
  let w := e.word
  let i := 4 + wfld w 53 52
  let dO := tdAt t (wfld w 51 46)
  let dst := tdAt t (wfld w 45 40)
  let dr := tdAt t (wfld w 39 34)
  Issue.checked (firstBad [illegalIf (!ownsAccs pr [i]), tdRegion pr dr 512 true])
  (withAtt s c x pr (srcOf e 0).toNat none (fun a => Issue.checked (firstBad
      [tdCheck pr dO (decide (dO.fmt < 8)) a.m a.d false, tdRegion pr dst (4 * a.m) false])
    (withConv s pr (srcOf e 1).toNat (fun b =>
      (.go { Plan.nop with
             reads := rdSlot dr (wbit w 33), writes := wrSlot dO ++ wrSlot dst, accs := [i], units := [4, 1, 3],
             regions := [(dO.off, (a.m - 1) * dO.pitch + rowBytes dO.fmt a.d), (dst.off, 4 * a.m)], ready := true,
             run := normRun c x t pr w a b (wfld (srcOf e 2) 47 0) }))))))

def normEff (s : State) (c x : Nat) (w : Word) : State :=
  tensorWord (fun w => wOp w = 0x31) (fun w => [wfld w 32 28, wfld w 27 23, wfld w 22 18]) planNorm s c x w

/-! ### ATTN_BWD_P (R130) -/

/-- One rebuilt probability: its code and flag. -/
def bwdP (a : AttD) (kpos m n mstat lam : Nat) (sv : W32) : Nat × Bool :=
  if (fvOf 0 mstat).isNan then (fmtNan a.pf, true)
  else if attMasked a m (kpos + n) then (0, false)
  else
    let t := rne32 ((fv32 sv).mul (fv32 a.cMul))
    conv32 a.pf none (exp2f32 (rne32 ((fv32 t).sub ((fvOf 0 mstat).add (fvOf 1 lam)))))

/-- Effect of ATTN_BWD_P at issue. -/
def bwdPRun (c x : Nat) (t : Ctx) (pr : Pour) (w : Word) (a : AttD) (b : ConvBlk) (kpos n : Nat) (s : State) :
    State :=
  let i := 4 * wfld w 52 52 + wfld w 51 50
  let dd := tdAt t (wfld w 49 44)
  let dx := tdAt t (wfld w 43 38)
  guardRows s c x 6 dx.off 0 1 (4 * a.m) (checkParity s c x i a.m n
    (let k := coreOf s c
     let z := accOf k i
     let rows := (List.range a.m).map (fun m =>
       let mst := ofBytesLE (spmBytes k (dx.off + 4 * m) 2)
       let lam := ofBytesLE (spmBytes k (dx.off + 4 * m + 2) 2)
       (List.range n).map (fun j => bwdP a kpos m j mst lam (accVal z m j)))
     let s1 := writeRows (assayCancel s c i) c x 6 dd a.pf (rows.map (fun l => l.map (·.1)))
     tileFlag s1 c x pr b a.pf (rows.any (fun l => l.any (·.2)) || z.nonfin)))

/-- The issue check of ATTN_BWD_P. -/
def planBwdP : PlanFn := fun s c x e => withPour s c x (fun t pr =>
  let w := e.word
  let i := 4 * wfld w 52 52 + wfld w 51 50
  let dd := tdAt t (wfld w 49 44)
  let dx := tdAt t (wfld w 43 38)
  let n := wfld w 19 12 + 1
  let kpos := wfld (srcOf e 1) 31 0
  Issue.checked (illegalIf (!ownsAccs pr [i]))
  (withAtt s c x pr (srcOf e 0).toNat (some (kpos, n)) (fun a => Issue.checked (firstBad
      [illegalIf (decide (dd.fmt ≠ a.pf)),
       tdCheck pr dd (decide (dd.fmt < 8)) a.m n false, tdRegion pr dx (4 * a.m) true])
    (withConv s pr (srcOf e 2).toNat (fun b => Issue.checked (illegalIf (decide (b.rnd ≠ 0)))
      (.go { Plan.nop with
             reads := rdSlot dx (wbit w 31), writes := wrSlot dd, accs := [i], units := [4, 2 + i / 4],
             regions := [(dd.off, (a.m - 1) * dd.pitch + rowBytes dd.fmt n)], ready := true,
             run := bwdPRun c x t pr w a b kpos n }))))))

def bwdSrcs (w : Word) : List Nat := [wfld w 29 25, wfld w 24 20, wfld w 11 7]

def bwdPEff (s : State) (c x : Nat) (w : Word) : State :=
  tensorWord (fun w => wOp w = 0x32 && !wbit w 53) bwdSrcs planBwdP s c x w

/-! ### ATTN_BWD_DS (R131) -/

/-- Effect of ATTN_BWD_DS at issue. -/
def bwdDsRun (c x : Nat) (t : Ctx) (pr : Pour) (w : Word) (a : AttD) (b : ConvBlk) (n : Nat) (s : State) : State :=
  let i := 4 * wfld w 52 52 + wfld w 51 50
  let dd := tdAt t (wfld w 49 44)
  let dx := tdAt t (wfld w 43 38)
  let dy := tdAt t (wfld w 37 32)
  guardRows s c x 6 dx.off dx.pitch a.m (rowBytes dx.fmt n) (guardRows s c x 6 dy.off 0 1 (4 * a.m)
    (checkParity s c x i a.m n
      (let k := coreOf s c
       let z := accOf k i
       let rows := (List.range a.m).map (fun m =>
         let dl := fv32 (BitVec.ofNat 32 (ofBytesLE (spmBytes k (dy.off + 4 * m) 4)))
         (List.range n).map (fun j =>
           fv32 (rne32 (((tileVal k dx m j).mul ((fv32 (accVal z m j)).sub dl)).mul (fv32 a.scale)))))
       let (codes, ovf) := convRows s c b dd.fmt pr.stamp 0 rows
       tileFlag (writeRows (assayCancel s c i) c x 6 dd dd.fmt codes) c x pr b dd.fmt (ovf || z.nonfin))))

/-- The issue check of ATTN_BWD_DS. -/
def planBwdDs : PlanFn := fun s c x e => withPour s c x (fun t pr =>
  let w := e.word
  let i := 4 * wfld w 52 52 + wfld w 51 50
  let dd := tdAt t (wfld w 49 44)
  let dx := tdAt t (wfld w 43 38)
  let dy := tdAt t (wfld w 37 32)
  let n := wfld w 19 12 + 1
  let kpos := wfld (srcOf e 1) 31 0
  Issue.checked (illegalIf (!ownsAccs pr [i]))
  (withAtt s c x pr (srcOf e 0).toNat (some (kpos, n)) (fun a => Issue.checked (firstBad
      [illegalIf (decide (dx.fmt ≠ a.pf)),
       tdCheck pr dd (decide (dd.fmt < 8)) a.m n false, tdCheck pr dx (decide (dx.fmt < 8)) a.m n true,
       scaleCheck pr t dx a.m ((n + 31) / 32), tdRegion pr dy (4 * a.m) true])
    (withConv s pr (srcOf e 2).toNat (fun b =>
      (.go { Plan.nop with
             reads := rdOperand t dx (wbit w 31) ++ rdSlot dy (wbit w 30), writes := wrSlot dd, accs := [i],
             units := [4, 2 + i / 4], regions := [(dd.off, (a.m - 1) * dd.pitch + rowBytes dd.fmt n)],
             ready := true, run := bwdDsRun c x t pr w a b n }))))))

def bwdDsEff (s : State) (c x : Nat) (w : Word) : State :=
  tensorWord (fun w => wOp w = 0x32 && wbit w 53) bwdSrcs planBwdDs s c x w

/-! ### ATTN_MERGE (R139) -/

/-- A partial of one row: M, L and the row's values. -/
structure Partial where
  m : W32
  l : W32
  a : List W32
  deriving DecidableEq, Repr

/-- Row m of the partial at `o` with D values per row. -/
def readPartial (k : Core) (o d m : Nat) : Partial :=
  let st := rowState k o m
  ⟨st.1, st.2, (List.range d).map (fun j => BitVec.ofNat 32 (ofBytesLE (spmBytes k (o + 512 + 4 * (d * m + j)) 4)))⟩

/-- Does a partial make its row nonfinite? -/
def Partial.bad (p : Partial) : Bool := (fv32 p.m).isNan || (fv32 p.l).isNan || p.a.any (fun v => (fv32 v).isNan)

/-- Fold member `q` into the running partial (R139). -/
def mergeRow (p q : Partial) : Partial :=
  if p.bad || q.bad then ⟨p.m, nan32, p.a.map (fun _ => nan32)⟩
  else
    let mn := f32max p.m q.m
    if mn = inf32 true then p
    else
      let a := exp2f32 (rne32 ((fv32 p.m).sub (fv32 mn)))
      let b := exp2f32 (rne32 ((fv32 q.m).sub (fv32 mn)))
      let f := fun (u v : W32) => rne32 (((fv32 a).mul (fv32 u)).add ((fv32 b).mul (fv32 v)))
      ⟨mn, f p.l q.l, (p.a.zip q.a).map (fun (u, v) => f u v)⟩

/-- A row with a NaN in M, L or A is nonfinite. -/
def settleRow (p : Partial) : Partial := if p.bad then ⟨p.m, nan32, p.a.map (fun _ => nan32)⟩ else p

/-- The merged rows of a block. -/
def mergeRows (k : Core) (off pitch members m d : Nat) : List Partial :=
  (List.range m).map (fun r =>
    settleRow (((List.range members).drop 1).foldl (fun p i => mergeRow p (readPartial k (off + i * pitch) d r))
      (readPartial k off d r)))

/-- Effect of ATTN_MERGE at issue.  With LAST the outputs are drained without bias or shift. -/
def mergeRun (c x : Nat) (t : Ctx) (pr : Pour) (w : Word) (a : AttD) (b : Option ConvBlk) (ebase : Nat)
    (s : State) : State :=
  let dp := tdAt t (wfld w 53 48)
  let nm := wfld w 47 42 + 1
  let dO := tdAt t (wfld w 41 36)
  let dst := tdAt t (wfld w 35 30)
  guardRows s c x 6 dp.off dp.pitch nm (512 + 4 * a.m * a.d)
    (let rows := mergeRows (coreOf s c) dp.off dp.pitch nm a.m a.d
     let bad := (rows.filter (fun p => (fv32 p.l).isNan)).length
     let (f, sf) := useFree s
     let s0 := countCore (countCore sf c 0xB9 1) c 0xBA bad
     match b with
     | some b =>
       let vals := rows.map (fun p => p.a.map (fun v => fv32 (rne32 ((fv32 (recip32 p.l)).mul (fv32 v)))))
       let (codes, ovf) := convRows s c b dO.fmt pr.stamp ebase vals
       let stats := rows.zipIdx.map (fun (p, m) => rowStats f m (p.m, p.l))
       let s1 := spmStore (writeRows s0 c x 6 dO dO.fmt codes) c x 6 dst.off (statBytes stats)
       tileFlag s1 c x pr b dO.fmt (ovf || stats.any (fun r => r.2.2))
     | none =>
       let s1 := spmStore s0 c x 6 dp.off (rowStateBytes (rows.map (fun p => (p.m, p.l))))
       spmStore s1 c x 6 (dp.off + 512) (rows.flatMap (fun p => p.a.flatMap (fun v => bytesLE 4 v.toNat))))

/-- The issue check of ATTN_MERGE. -/
def planMerge : PlanFn := fun s c x e => withPour s c x (fun t pr =>
  let w := e.word
  let dp := tdAt t (wfld w 53 48)
  let nm := wfld w 47 42 + 1
  let dO := tdAt t (wfld w 41 36)
  let dst := tdAt t (wfld w 35 30)
  let last := wbit w 29
  let toks := if dp.nt then [] else (List.range nm).map (fun i => (dp.tok + i, wbit w 28))
  withAtt s c x pr (srcOf e 0).toNat none (fun a =>
    let size := 512 + 4 * a.m * a.d
    let chk := firstBad
      [illegalIf (decide (dp.pitch < size) || !toks.all (fun (k, _) => ownsTok pr k)),
       tdRegion pr dp ((nm - 1) * dp.pitch + size) last,
       if last then tdCheck pr dO (decide (dO.fmt < 8)) a.m a.d false else none,
       if last then tdRegion pr dst (4 * a.m) false else none]
    let mk := fun (b : Option ConvBlk) => Issue.checked chk (Issue.go
      { Plan.nop with
        reads := toks, writes := if last then wrSlot dO ++ wrSlot dst else [], accs := [], units := [4],
        regions := if last then [(dO.off, (a.m - 1) * dO.pitch + rowBytes dO.fmt a.d), (dst.off, 4 * a.m)]
          else [(dp.off, size)],
        ready := true, run := mergeRun c x t pr w a b (wfld (srcOf e 2) 47 0) })
    if last then Issue.checked chk (withConv s pr (srcOf e 1).toNat (fun b => mk (some b))) else mk none))

def mergeEff (s : State) (c x : Nat) (w : Word) : State :=
  tensorWord (fun w => wOp w = 0x33) (fun w => [wfld w 27 23, wfld w 22 18, wfld w 17 13]) planMerge s c x w

/-! ### Commands -/

/-- ATTN_FWD (R124). -/
def execAttnFwd (c x : Nat) (w : Word) (s : State) : Out := onUnit (ctxOk c x) "ATTN_FWD" (.next (fwdEff s c x w))

/-- ATTN_NORM (R127). -/
def execAttnNorm (c x : Nat) (w : Word) (s : State) : Out :=
  onUnit (ctxOk c x) "ATTN_NORM" (.next (normEff s c x w))

/-- ATTN_BWD_P (R130). -/
def execAttnBwdP (c x : Nat) (w : Word) (s : State) : Out :=
  onUnit (ctxOk c x) "ATTN_BWD_P" (.next (bwdPEff s c x w))

/-- ATTN_BWD_DS (R131). -/
def execAttnBwdDs (c x : Nat) (w : Word) (s : State) : Out :=
  onUnit (ctxOk c x) "ATTN_BWD_DS" (.next (bwdDsEff s c x w))

/-- ATTN_MERGE (R139). -/
def execAttnMerge (c x : Nat) (w : Word) (s : State) : Out :=
  onUnit (ctxOk c x) "ATTN_MERGE" (.next (mergeEff s c x w))

end Sys2Proof.Machine
end

