-- ==== Sys2Proof/Machine/ErgBits.lean ====
section
/-! DEFINITION. Erg packets, Caravan messages and frames as bits (R216–R219, R325, R326): the header flit with its HCRC, payload flits of
four data-path codewords, the frame header, training frames, and the reading of flits back into packets. -/

namespace Sys2Proof.Machine

/-- LEN of a packet, in payload flits. -/
def pktLen (p : Packet) : Nat := (p.payload.length + 3) / 4

/-- Flits of a packet. -/
def pktFlits (p : Packet) : Nat := 1 + pktLen p

/-! ### The header flit (Table: Packet header) -/

/-- W0 to W3 of the header. -/
def headWords (k : Packet) : List Nat :=
  [(k.ty % 64) <<< 58 + (k.tc % 8) <<< 55 + b2n k.mc <<< 54 + (pktLen k % 16) <<< 48 + (k.dst % 65536) <<< 32 +
     (k.src % 65536) <<< 16 + k.tag % 65536,
   (k.job % 65536) <<< 48 + k.addr % 2 ^ 48,
   (k.timeLo % 2 ^ 32) <<< 32 + (k.token % 1024) <<< 22 + b2n k.tokV <<< 21 + b2n k.first <<< 20 +
     b2n k.last <<< 19 + (k.srcCore % 256) <<< 8 + (k.status % 16) <<< 4,
   k.w3.toNat]

/-- HCRC (R218): over W0 to W3 and W4[63:16], from the low byte of W0 upward. -/
def headCrc (n : Nat) : Nat := crc16 (bytesLE 32 (n % 2 ^ 256) ++ bytesLE 6 (n >>> 272))

/-- A header flit of words W0 to W3, W0 in its lowest bits, with HCRC in W4[15:0]. -/
def sealHead (ws : List Nat) : BitVec 320 :=
  let n := ws.zipIdx.foldl (fun a (w, i) => a + w <<< (64 * i)) 0
  BitVec.ofNat 320 (n + headCrc n <<< 256)

/-- The header flit of a packet. -/
def headFlit (k : Packet) : BitVec 320 := sealHead (headWords k)

/-- Does a header flit pass HCRC? -/
def headOk (f : BitVec 320) : Bool := headCrc f.toNat = bitsOf f.toNat 271 256

/-- The packet of a header flit, its payload yet to come, and LEN. -/
def headPacket (f : BitVec 320) : Packet × Nat :=
  let w := fun i => f.toNat >>> (64 * i)
  ({ ty := bitsOf (w 0) 63 58, tc := bitsOf (w 0) 57 55, mc := bitsOf (w 0) 54 54 = 1, dst := bitsOf (w 0) 47 32,
     src := bitsOf (w 0) 31 16, tag := bitsOf (w 0) 15 0, job := bitsOf (w 1) 63 48, addr := bitsOf (w 1) 47 0,
     timeLo := bitsOf (w 2) 63 32, token := bitsOf (w 2) 31 22, tokV := bitsOf (w 2) 21 21 = 1,
     first := bitsOf (w 2) 20 20 = 1, last := bitsOf (w 2) 19 19 = 1, srcCore := bitsOf (w 2) 15 8,
     status := bitsOf (w 2) 7 4, w3 := BitVec.ofNat 64 (w 3), payload := [] }, bitsOf (w 0) 51 48)

/-- The header flit that fills an unused position (TYPE IDLE, R217). -/
def idleFlit : BitVec 320 := BitVec.ofNat 320 (crc16 (List.replicate 38 0) <<< 256)

/-! ### Payload flits -/

/-- Up to four words with their poison marks as one flit of data-path codewords, the first in the low bits. -/
def dataFlit (ws : List (Word × Bool)) : BitVec 320 :=
  BitVec.ofNat 320 (ws.zipIdx.foldl (fun a (w, i) => a + (encode80 w.1 w.2).toNat <<< (80 * i)) 0)

/-- The four words of a payload flit as its consumer's decoder delivers them (R345), an uncorrectable one
marked. -/
def flitData (f : BitVec 320) : List (Word × Bool) :=
  (List.range 4).map (fun i =>
    let c := BitVec.ofNat 80 (f.toNat >>> (80 * i))
    (dataOf80 c, (decode80 c).isBad))

/-- The flits of a packet, header first. -/
def packetFlits (k : Packet) : List (BitVec 320) :=
  headFlit k :: (chunks 4 (k.payload.length + 1) k.payload).map dataFlit

/-! ### Reading flits (R217, R326) -/

/-- One flit, where `head` reads a header (none for an idle one) and `add` takes payload: while payload is due it is
payload of what has begun, otherwise a header.  The result is what is still in part with the flits to come, what
this flit ends, and whether a header fails. -/
def readFlit (head : BitVec 320 → Option (α × Nat)) (add : α → List (Word × Bool) → α) (part : Option (α × Nat))
    (f : BitVec 320) : Option (α × Nat) × Option α × Bool :=
  match part with
  | some (k, n) =>
    let k1 := add k (flitData f)
    if n ≤ 1 then (none, some k1, true) else (some (k1, n - 1), none, true)
  | none =>
    if !headOk f then (none, none, false)
    else
      match head f with
      | none => (none, none, true)
      | some (k, n) => if n = 0 then (none, some k, true) else (some (k, n), none, true)

/-- The flits of a frame: what is left in part, what has ended, and whether every header passes HCRC. -/
def readFlits (head : BitVec 320 → Option (α × Nat)) (add : α → List (Word × Bool) → α) :
    Option (α × Nat) → List (BitVec 320) → Option (α × Nat) × List α × Bool
  | part, [] => (part, [], true)
  | part, f :: fs =>
    let (p1, k, ok) := readFlit head add part f
    if !ok then (p1, [], false)
    else
      let (p2, ks, ok2) := readFlits head add p1 fs
      (p2, (match k with | some q => q :: ks | none => ks), ok2)

/-- The packets of the flits of a frame; a header of TYPE IDLE fills a position. -/
def readPackets : Option (Packet × Nat) → List (BitVec 320) → Option (Packet × Nat) × List Packet × Bool :=
  readFlits (fun f => if (headPacket f).1.ty = 0 then none else some (headPacket f))
    (fun k d => { k with payload := k.payload ++ d })

/-! ### Frames (Table: Frame header) -/

def frameHead (kind seq ack : Nat) : BitVec 20 := BitVec.ofNat 20 ((kind % 4) <<< 18 + (seq % 512) <<< 9 + ack % 512)

def frameKind (f : Frame) : Nat := bitsOf f.head.toNat 19 18
def frameSeq (f : Frame) : Nat := bitsOf f.head.toNat 17 9
def frameAck (f : Frame) : Nat := bitsOf f.head.toNat 8 0

/-- A frame whose flits after `l` are idle. -/
def mkFrame (kind seq ack : Nat) (l : List (BitVec 320)) : Frame :=
  ⟨frameHead kind seq ack, l ++ List.replicate (16 - l.length) idleFlit⟩

/-- A frame as the 5,140 message bits of its codeword: the header above the flits, the first flit lowest (log
entry 92). -/
def frameBits (f : Frame) : BitVec 5140 :=
  BitVec.ofNat 5140 (f.flits.zipIdx.foldl (fun a (x, i) => a + x.toNat <<< (320 * i)) (f.head.toNat <<< 5120))

/-- The flit of a training frame (R223): node, port and, in bit 20, whether the node is valid (log entry 92). -/
def trainFlit (node port : Nat) (valid : Bool) : BitVec 320 :=
  BitVec.ofNat 320 (node % 65536 + (port % 16) <<< 16 + b2n valid <<< 20)

/-- What a training frame tells of the partner. -/
def trainPeer (f : Frame) : Nat × Nat × Bool :=
  let n := (f.flits.headD 0).toNat
  (bitsOf n 15 0, bitsOf n 19 16, bitsOf n 20 20 = 1)

/-! ### Caravan messages (Table: Message header) -/

/-- LEN of a message, in payload units. -/
def msgLen (m : CMsg) : Nat := (m.payload.length + 3) / 4

/-- Units of a message. -/
def msgUnits (m : CMsg) : Nat := 1 + msgLen m

/-- W0 to W3 of a message header. -/
def msgWords (m : CMsg) : List Nat :=
  [(m.ty % 256) <<< 56 + (msgLen m % 16) <<< 52 + (m.tag % 65536) <<< 32 + m.session % 2 ^ 32, m.addr % 2 ^ 64,
   (m.timeLo % 2 ^ 32) <<< 32 + (m.part % 8) <<< 21 + m.status % 256, m.w3.toNat]

/-- The message of a header unit, its payload yet to come, and LEN. -/
def headMsg (f : BitVec 320) : CMsg × Nat :=
  let w := fun i => f.toNat >>> (64 * i)
  ({ ty := bitsOf (w 0) 63 56, tag := bitsOf (w 0) 47 32, session := bitsOf (w 0) 31 0, addr := bitsOf (w 1) 63 0,
     part := bitsOf (w 2) 23 21, status := bitsOf (w 2) 7 0, w3 := BitVec.ofNat 64 (w 3), payload := [],
     timeLo := bitsOf (w 2) 63 32 }, bitsOf (w 0) 55 52)

/-- The units of a message, header first. -/
def msgFlits (m : CMsg) : List (BitVec 320) :=
  sealHead (msgWords m) :: (chunks 4 (m.payload.length + 1) m.payload).map dataFlit

/-- The messages of the units of a frame; an all-zero header under HCRC fills a position, as on an Erg port (log
entry 95). -/
def readMsgs : Option (CMsg × Nat) → List (BitVec 320) → Option (CMsg × Nat) × List CMsg × Bool :=
  readFlits (fun f => if f = idleFlit then none else some (headMsg f)) (fun m d => { m with payload := m.payload ++ d })

end Sys2Proof.Machine
end

