-- ==== Sys2Proof/Machine/Routes.lean ====
section
/-! DEFINITION. The die-to-die links and the fixed routes over them (R11, R12), and the meters a payload
meets on its way (R14, R319). -/

namespace Sys2Proof.Machine

/-! ### Dies and links (R10, R12) -/

/-- The ends of a die-to-die link, first end first (the numbers of R469): 0–3 the compute links of the ring,
4–11 the hub link of die d to hub h as 4 + 2 d + h, 12 the hub-to-hub link, 13–18 the management links of
M to C0–C3, H0, H1. A die is its CPER code: 0–3 C0–C3, 4–5 H0–H1, 6 M. -/
def linkEnds (l : Nat) : Nat × Nat :=
  if l = 0 then (0, 1) else if l = 1 then (1, 3) else if l = 2 then (3, 2) else if l = 3 then (2, 0)
  else if l < 12 then ((l - 4) / 2, 4 + (l - 4) % 2)
  else if l = 12 then (4, 5)
  else (6, l - 13)

/-- The direct link between two dies and the direction of a transfer on it (0 from the first end), where the
dies are joined. -/
def linkOf (a b : Nat) : Option (Nat × Nat) :=
  (List.range 19).findSome? (fun l =>
    if linkEnds l = (a, b) then some (l, 0) else if linkEnds l = (b, a) then some (l, 1) else none)

/-- The one route from die `a` to die `b` (R12): the dies it visits. C0 and C3 meet through C1, and C1 and C2
through C0; every other pair of dies has a link of its own. -/
def dieRoute (a b : Nat) : List Nat :=
  if a = b then [a]
  else if (a = 0 ∧ b = 3) ∨ (a = 3 ∧ b = 0) then [a, 1, b]
  else if (a = 1 ∧ b = 2) ∨ (a = 2 ∧ b = 1) then [a, 0, b]
  else [a, b]

/-- The hops of a list of dies. -/
def hopsOf : List Nat → List (Nat × Nat)
  | a :: b :: l => (a, b) :: hopsOf (b :: l)
  | _ => []

/-- The links a transfer from die `a` to die `b` crosses, in order, each with its direction. -/
def routeLinks (a b : Nat) : List (Nat × Nat) := (hopsOf (dieRoute a b)).filterMap (fun (x, y) => linkOf x y)

/-! ### Meters (R14, R319) -/

/-- The meter of one hop, by the path numbers of `tuyReg`: 4 d + 0 and 4 d + 1 the compute links out of Cd to
the next and the previous die of the ring, 4 d + 2 + h the hub link out of Cd to Hh, 16 and 17 the two
directions of the hub-to-hub link. A link out of a hub to a compute die and a management link have none. -/
def hopMeter (a b : Nat) : Option Nat :=
  if a < 4 ∧ b < 4 then
    some (4 * a + (if (linkOf a b).map (·.2) = some 0 then 0 else 1))
  else if a < 4 ∧ b < 6 then some (4 * a + 2 + (b - 4))
  else if a = 4 ∧ b = 5 then some 16
  else if a = 5 ∧ b = 4 then some 17
  else none

/-- The meters a payload meets from die `a` to die `b`. -/
def routeMeters (a b : Nat) : List Nat := (hopsOf (dieRoute a b)).filterMap (fun (x, y) => hopMeter x y)

/-- May a transfer of partition `p` enter every one of these paths? A number above 7 is no partition, and
its transfers are not metered. -/
def pathsPass (s : State) (p : Nat) (l : List (Nat × Nat)) : Bool :=
  decide (nParts ≤ p) || l.all (fun (path, _) => tuyPasses s p path)

/-- A transfer enters the paths, with its bytes on each. -/
def pathsTake (s : State) (p : Nat) (l : List (Nat × Nat)) : State :=
  if nParts ≤ p then s else l.foldl (fun u (path, n) => tuyTake u p path n) s

/-- The paths a packet meets from die `die` out of port `p`, with what each takes: its payload on the links to the
port's hub, and its flits at the hub's Erg egress (Table: Metered paths). -/
def ergPaths (die p : Nat) (k : Packet) : List (Nat × Nat) :=
  (routeMeters die (4 + p / 6)).map (fun m => (m, 32 * pktLen k)) ++ [(18 + p / 6, 32 * pktFlits k)]

/-- The partition a packet belongs to: the first ACTIVE one with its job key; 8 for none (log entry 81). -/
def partOfJob (s : State) (job : Nat) : Nat :=
  ((List.range nParts).find? (fun p => partState s p = 1 && rget s (rFAB_ACC p) fFAB_ACC_JOB = job)).getD 8

end Sys2Proof.Machine
end

