-- ==== Sys2Proof/Machine/Erg.lean ====
section
/-! DEFINITION. The Erg fabric (R213–R238): routing, the checks and the performing of requests at a
destination, sending requests of this device, and what their responses do.  Used by the fabric
commands. -/

namespace Sys2Proof.Machine

/-! ### Packets and routes -/

def eportOf (s : State) (p : Nat) : EPort := kGet EPort.reset s.erg.ports p

def modEport (s : State) (p : Nat) (f : EPort → EPort) : State :=
  { s with erg := { s.erg with ports := kSet s.erg.ports p (f (eportOf s p)) } }

def fabValid (s : State) : Bool := rflag s rFAB_NODE fFAB_NODE_VALID

/-- A counter of Erg port `p` (R469). -/
def ergCount (s : State) (p k n : Nat) : State := countDev s (0x4000 + 64 * p + k) n

/-- PORT_STATUS.STATE: 0 DOWN, 1 TRAINING, 2 UP. -/
def portState (s : State) (p : Nat) : Nat := rget s (rPORT_STATUS p) fPORT_STATUS_STATE

/-- The port that DST and TC select (R225); none for an unreachable entry or a DOWN port (R226). -/
def routeOf (s : State) (dst tc : Nat) : Option Nat :=
  if 0x3FFF < dst then none
  else
    let p := bitsOf (rget s (rROUTE dst) fROUTE_PORTS) (5 * tc + 4) (5 * tc)
    if p < 12 ∧ portState s p ≠ 0 then some p else none

/-- The port that a route entry names, DOWN or not. -/
def routePort (s : State) (dst tc : Nat) : Nat :=
  let p := bitsOf (rget s (rROUTE dst) fROUTE_PORTS) (5 * tc + 4) (5 * tc)
  if dst ≤ 0x3FFF ∧ p < 12 then p else 0

/-- A packet joins the queue of its class at a port. -/
def joinPort (s : State) (p : Nat) (k : Packet) : State :=
  modEport s p (fun e => { e with txq := kSet e.txq k.tc (kGet [] e.txq k.tc ++ [k]) })

/-- A packet on its way from die `die` to the queue of its class at a port: it waits for its partition's meters
where they lack credit (R14, R319). -/
def enq (s : State) (die p : Nat) (k : Packet) : State :=
  let l := ergPaths die p k
  let part := partOfJob s k.job
  if pathsPass s part l then joinPort (pathsTake s part l) p k
  else { s with erg := { s.erg with metered := s.erg.metered ++ [(die, p, k)] } }

/-- Packets that wait at a tuyere go on, in order of arrival, where their meters now let them. -/
def ergRelease : List (Nat × Nat × Packet) → State → State
  | [], s => s
  | (d, p, k) :: l, s => ergRelease l (enq s d p k)

/-- Request types, which an unreachable route answers (R226). -/
def isRequest (ty : Nat) : Bool := ty = 0x08 || ty = 0x09 || ty = 0x0A || ty = 0x0C || ty = 0x0D || ty = 0x0E

/-- The response type of a request type (R219). -/
def respType (ty : Nat) : Nat :=
  if ty = 0x08 then 0x20 else if ty = 0x0A then 0x22 else if ty = 0x10 then 0x23
  else if ty = 0x11 then 0x24 else 0x21

def knownType (ty : Nat) : Bool :=
  isRequest ty || ty = 0x00 || ty = 0x01 || (0x10 ≤ ty && ty ≤ 0x12) || (0x20 ≤ ty && ty ≤ 0x24)

/-- A response to a request (R218, R224). -/
def answerOf (s : State) (q : Packet) (status : Nat) (payload : List (Word × Bool)) (w3 : Word) : Packet :=
  { q with ty := respType q.ty, tc := 6, mc := false, dst := q.src, src := nodeId s, addr := 0,
           timeLo := now s % 2 ^ 32, token := 0, tokV := false, first := false, last := false,
           srcCore := q.srcCore, status := status, w3 := w3, payload := payload }

/-- Send a packet of hub `hub` that no one awaits an answer to: dropped and counted where its route is
unreachable (R226), and not sent before FAB_NODE.VALID (R213). -/
def sendFree (s : State) (hub : Nat) (k : Packet) : State :=
  if !fabValid s then s
  else
    match routeOf s k.dst k.tc with
    | some p => enq s (4 + hub) p k
    | none => ergCount s (routePort s k.dst k.tc) 31 1

/-! ### Multicast groups (R248) -/

/-- A 16-bit node identifier of a table in tier 1; none where it does not read (R16, R247). -/
def nodeAt (s : State) (a : Nat) : Option Nat :=
  if !isTier1 a || !isTier1 (a + 1) || memBadIn s a 2 then none else some (ofBytesLE (memBytes s a 2))

/-- The COUNT members of a group (R248); none where the list does not read, and for a reserved group. -/
def mcastMembers (s : State) (g : Nat) : Option (List Nat) :=
  if 0xFFF < g then none
  else (List.range (rget s (rMCAST_LIST g) fMCAST_LIST_COUNT)).mapM (fun i =>
    nodeAt s (rget s (rMCAST_LIST g) fMCAST_LIST_BASE + 2 * i))

/-- The members whose acknowledgement a sender awaits. -/
def mcastList (s : State) (g : Nat) : List Nat := (mcastMembers s g).getD []

/-- The ports of a group; a reserved group has none. -/
def mcastPorts (s : State) (g : Nat) : List Nat :=
  if g < 0x1000 then bitList 12 (rget s (rMCAST_PORTS g) fMCAST_PORTS_PORTS) else []

def mcastLocal (s : State) (g : Nat) : Bool := decide (g < 0x1000) && rflag s (rMCAST_PORTS g) fMCAST_PORTS_LOCAL

/-- Flits of one flow that wait at a port. -/
def flowFlits (e : EPort) (k : Packet) : Nat :=
  (((kGet [] e.txq k.tc).filter (fun q => q.mc && q.src = k.src && q.dst = k.dst)).map pktFlits).foldl (· + ·) 0

/-- Place copies of a packet that comes from die `die` on the ports that MCAST_PORTS names.  A copy of an
MCAST_WR that finds its port's share of 64 flits full is discarded and counted (R249); so is a copy for
a DOWN port. -/
def replicate (s : State) (die : Nat) (k : Packet) : State :=
  (mcastPorts s k.dst).foldl (fun u p =>
    if portState u p = 0 || (k.ty = 0x0C && decide (64 < flowFlits (eportOf u p) k + pktFlits k)) then
      ergCount u p 34 1
    else enq u die p k) s

/-! ### The checks at a destination (R227, R228) -/

/-- LEN or RLEN outside the range of the type, a reserved ATYPE or a reserved ACTION. -/
def malformed (k : Packet) : Bool :=
  let n := pktLen k
  let r := wfld k.w3 3 0
  if k.ty = 0x08 then n ≠ 0 || r = 0 || decide (8 < r)
  else if k.ty = 0x0A then n ≠ 1 || decide (3 < wfld k.w3 63 61)
  else if k.ty = 0x10 then n ≠ 0
  else if k.ty = 0x11 then n ≠ 0 || !(wfld k.w3 31 30 = 1 || wfld k.w3 31 30 = 2)
  else n = 0 || decide (8 < n) || k.payload.length % 4 ≠ 0

/-- Bytes a request reads or writes at its address. -/
def pktBytes (k : Packet) : Nat := if k.ty = 0x08 then 32 * wfld k.w3 3 0 else 32 * pktLen k

/-- Is a request's address misaligned or does it cross a 256-byte boundary? -/
def misaligned (k : Packet) : Bool := k.addr % 32 ≠ 0 || decide (256 < k.addr % 256 + pktBytes k)

/-- May an Erg request of this type reach the address (Table: Reach by agent)? -/
def ergReach (k : Packet) : Bool :=
  if k.ty = 0x08 || k.ty = 0x0A then isTier k.addr
  else isTier k.addr || (spmWindow k.addr).isSome

/-- The partition of an address and whether it may be accessed at all: `none` for no owner (R227,
R301). -/
def pktPart (s : State) (k : Packet) : Option (Nat × Bool) :=
  match spmWindow k.addr with
  | some (c, _) => (ownerOfCore s c).map (fun p => (p, partState s p = 1))
  | none =>
    match stackOf k.addr with
    | none => none
    | some n =>
      match ownerOfStack s n with
      | some p => some (p, partState s p = 1)
      | none =>
        if n < 24 then none
        else
          match sharersOf s (n - 24) with
          | [] => none
          | l =>
            match l.find? (fun p => rget s (rFAB_ACC p) fFAB_ACC_JOB = k.job) with
            | some p => some (p, true)
            | none => l.head?.map (fun p => (p, true))

/-- The permission bit for a request (R227). -/
def permBit (s : State) (k : Packet) (p : Nat) : Bool :=
  let f := if k.ty = 0x08 then fFAB_ACC_READ
    else if k.ty = 0x0A then fFAB_ACC_ATOMIC
    else if k.ty = 0x10 then fFAB_ACC_NOTICE
    else if k.ty = 0x11 then fFAB_ACC_QUENCH
    else if isTier k.addr then fFAB_ACC_WRITE else fFAB_ACC_SPM_WRITE
  rflag s (rFAB_ACC p) f

/-- JOB and SRC of a packet agree with FAB_ACC_p. -/
def jobSrcOk (s : State) (k : Packet) (p : Nat) : Bool :=
  decide (rget s (rFAB_ACC p) fFAB_ACC_JOB = k.job) && decide (rget s (rFAB_ACC p) fFAB_ACC_SRC_LO ≤ k.src) &&
  decide (k.src ≤ rget s (rFAB_ACC p) fFAB_ACC_SRC_HI)

/-- The status of the first check of R227 that fails, 0 when all pass, and the partition. -/
def reqCheck (s : State) (k : Packet) : Nat × Nat :=
  let ctl := k.ty = 0x10 || k.ty = 0x11
  let part := wfld k.w3 26 24
  if ctlState s = 2 && k.ty ≠ 0x08 then (7, 0)
  else if ctl && partState s part ≠ 1 then (7, part)
  else if malformed k then (1, 0)
  else if ctl then
    if jobSrcOk s k part && permBit s k part then (0, part) else (2, part)
  else if !ergReach k || misaligned k then (1, 0)
  else
    match pktPart s k with
    | none => (7, 0)
    | some (p, active) =>
      if !active then (7, p) else if jobSrcOk s k p && permBit s k p then (0, p) else (2, p)

/-- A refusal under R227: the hub's log, and the counter of its status. -/
def refuse (s : State) (hub : Nat) (k : Packet) (status : Nat) : State :=
  let s1 := countDev s (0x4700 + status) 1
  if rflag s1 (rFAB_REJ_LOG hub) fFAB_REJ_LOG_VALID then s1
  else
    let w : Word := BitVec.ofNat 64 (k.src <<< 48 + k.ty <<< 42 + status <<< 38 + 1)
    rwr (rwr (rwr s1 (rFAB_REJ_LOG hub) w) (rFAB_REJ_ADDR hub) (BitVec.ofNat 64 k.addr)) (rFAB_REJ_TIME hub) (nowW s1)

/-! ### Performing a request -/

def payloadBytes (l : List (Word × Bool)) : List Byte := l.flatMap (fun (w, _) => bytesLE 8 w.toNat)

def payloadBad (l : List (Word × Bool)) : Bool := l.any (·.2)

/-- Words of tier memory as codewords, poison included (R228). -/
def memWords (s : State) (a n : Nat) : List (Word × Bool) :=
  (List.range n).map (fun i => (memWord s (a + 8 * i), smGet false s.memBad (a / 8 + i)))

/-- Clean codewords of bytes. -/
def asWords (bs : List Byte) : List (Word × Bool) :=
  (chunks 8 (bs.length + 1) bs).map (fun b => (BitVec.ofNat 64 (ofBytesLE b), false))

/-- Does the token of a core take a packet of a tile (R230)? -/
def tokTakes (k : Core) (q : Packet) : Bool :=
  if q.first then tokOf k q.token = .empty
  else tokOf k q.token = .filling && kGet (0, 0, 8) k.tokSrc q.token = (q.src, q.srcCore, q.tc)

/-- Do accesses of `n` bytes through EXT wait at one of the places: behind an access that waits there already, for
the end of a scrub (R176), or for a quad that dozes (R177)?  The calendars all serve EXT (R171). -/
def extWaits (s : State) (places : List (Nat × Nat)) (n : Nat) : Bool :=
  places.any (fun (c, o) => !rangeServed s c 0xD o n || s.erg.ext.any (fun h => h.cores.contains c))

/-- Such an access waits, and dozing quads begin to wake. -/
def holdExt (s : State) (places : List (Nat × Nat)) (n : Nat) (r : ExtReq) : State :=
  let s1 := places.foldl (fun t (c, o) => wakeQuads t c (quadsOf o n)) s
  { s1 with erg := { s1.erg with ext := s1.erg.ext ++ [⟨places.map (·.1), r⟩] } }

/-- The scratchpad place of a request that stores: none in tier memory. -/
def storePlace (q : Packet) : List (Nat × Nat) :=
  if q.ty = 0x09 ∨ q.ty = 0x0C ∨ q.ty = 0x0E then (spmWindow q.addr).toList else []

/-- Write a payload into the scratchpad of core `c` at `o`: status and state (R178, R230). -/
def extWrite (s : State) (c o : Nat) (q : Packet) : State × Nat :=
  let n := 8 * q.payload.length
  if !rangeOn s c o n then (logOff s c (if q.src = nodeId s then 0xFFFF else q.src) o 0xD, 3)
  else if q.tokV && !tokTakes (coreOf s c) q then (s, 5)
  else
    let s1 := modCore s c (fun k =>
      let k2 := (q.payload.zipIdx.filter (fun (w, _) => w.2)).foldl
        (fun k (_, i) => spmPoison k (o / 8 + i) false) (spmWrite k o (payloadBytes q.payload))
      if !q.tokV then k2
      else
        let k3 := if q.first then
            { setTok k2 q.token .filling with
              tokSrc := kSet k2.tokSrc q.token (q.src, q.srcCore, q.tc)
              tokRead := smSet false k2.tokRead q.token false
              tokTile := smSet 0 k2.tokTile q.token 0 }
          else k2
        if q.last then setTok k3 q.token .full else k3)
    (s1, 0)

/-- A write of tier memory that a request performs; the data cache of a core of this device that sent it drops the
lines it touches (R269). -/
def tierStore (s : State) (q : Packet) (bs : List Byte) : State :=
  let s1 := memWrite s q.addr bs
  if q.src = nodeId s && decide (q.srcCore < nCores) then dropData s1 q.srcCore q.addr bs.length else s1

/-- Perform a write at a local address: one that its controller does not take, or with an uncorrectable codeword,
fails with UNCORRECTED (R199, R210, R211). -/
def performWrite (s : State) (q : Packet) : State × Nat :=
  match spmWindow q.addr with
  | some (c, o) => extWrite s c o q
  | none =>
    if payloadBad q.payload || writeFails s q.addr (8 * q.payload.length) then (s, 4)
    else (tierStore s q (payloadBytes q.payload), 0)

/-- Elements of a 32-byte unit of `n`-byte elements. -/
def unitElems (n : Nat) (bs : List Byte) : List Nat := (chunks n 33 bs).map ofBytesLE

/-- ATOMIC_ADD on a unit (R229): the new bytes and whether a floating-point sum saturated. -/
def atomicAdd (atype : Nat) (old add : List Byte) : List Byte × Bool :=
  if atype < 2 then
    let n := if atype = 0 then 4 else 8
    (((unitElems n old).zip (unitElems n add)).flatMap (fun (a, b) => bytesLE n ((a + b) % 2 ^ (8 * n))), false)
  else
    let f := if atype = 2 then 0 else 1
    let r := ((unitElems 2 old).zip (unitElems 2 add)).map (fun (a, b) =>
      convFv f none false ((fvOf f a).add (fvOf f b)))
    (r.flatMap (fun (v, _) => bytesLE 2 v), r.any (·.2))

/-- Perform a checked request other than RED_WR and RED_RES: the state and the response. -/
def performReq (s : State) (q : Packet) (part : Nat) : State × Packet :=
  if q.ty = 0x08 then
    if tierDown s q.addr then (s, answerOf s q 4 [] 0)
    else
      let n := 4 * wfld q.w3 3 0
      (rawDone s [] q.addr (8 * n), answerOf s q 0 (memWords (rawView s [] q.addr (8 * n)) q.addr n) 0)
  else if q.ty = 0x0A then
    let old := memBytes (rawView s [] q.addr 32) q.addr 32
    if memBadIn s q.addr 32 || payloadBad q.payload then (s, answerOf s q 4 [] 0)
    else
      let (new, ovf) := atomicAdd (wfld q.w3 63 61) old (payloadBytes q.payload)
      (tierStore (rawDone s [] q.addr 32) q new,
        answerOf s q 0 (if wbit q.w3 60 then asWords old else []) (BitVec.ofNat 64 (b2n ovf)))
  else if q.ty = 0x10 then
    let c := rNOTICE_CTR part (wfld q.w3 31 28)
    (rput s c fNOTICE_CTR_VALUE (rget s c fNOTICE_CTR_VALUE + 1), answerOf s q 0 [] 0)
  else if q.ty = 0x11 then
    let (s1, st) := applyQuench s part (wfld q.w3 63 32) (wfld q.w3 31 30) q.src
    (s1, answerOf s q st [] 0)
  else
    let (s1, st) := performWrite s q
    (if st = 0 then s1 else countDev s1 (0x4700 + st) 1, answerOf s q st [] 0)

/-- The hub that performs a request. -/
def viaHub : Via → Nat
  | .port p => p / 6
  | .own h => h

/-- Check and perform a request at a hub; no answer yet where its access waits at an EXT port. -/
def handleReq (s : State) (v : Via) (q : Packet) : State × Option Packet :=
  match reqCheck s q with
  | (0, p) =>
    if extWaits s (storePlace q) (8 * q.payload.length) then
      (holdExt s (storePlace q) (8 * q.payload.length) (.perform v q), none)
    else
      let (s1, a) := performReq s q p
      (s1, some a)
  | (st, _) => (refuse s (viaHub v) q st, some (answerOf s q st [] 0))

/-! ### Responses to this device's requests (R232–R235) -/

/-- Where bytes of a tile's packed rows from place `o` go: one run for each row they touch; `fuel` bounds their
number. -/
def packedRuns (off pitch rowLen : Nat) : Nat → Nat → List Byte → List (Nat × List Byte)
  | 0, _, _ => []
  | _ + 1, _, [] => []
  | fuel + 1, o, b :: bs =>
    let n := rowLen - o % rowLen
    (off + o / rowLen * pitch + o % rowLen, (b :: bs).take n) :: packedRuns off pitch rowLen fuel (o + n) ((b :: bs).drop n)

/-- Store the payload of a response of the pour in context `x` of core `c` through EXT: BANK_OFF at a quad that is
off (R178), UNCORRECTED at an uncorrectable codeword that it covers in part (R169). -/
def placeRuns (s : State) (c x : Nat) (runs : List (Nat × List Byte)) : Except State State :=
  match runs.find? (fun (o, bs) => !rangeOn s c o bs.length) with
  | some (o, bs) => .error (bankOff s c x o bs.length 0xD)
  | none =>
    match runs.findSome? (fun (o, bs) =>
        (partCodewords o bs.length).find? (fun j => smGet false (coreOf s c).spmBad j)) with
    | some j => .error (spmUncorrected s c x (8 * j) 8)
    | none => .ok (modCore s c (fun k => runs.foldl (fun k (o, bs) => spmWrite k o bs) k))

/-- Take a request off the list; its slot token goes FULL when no other request fills it. -/
def reqGone (s : State) (r : ErgReq) : State :=
  let s1 := { s with ergReqs := s.ergReqs.erase r }
  match r.fill with
  | none => s1
  | some t =>
    if s1.ergReqs.any (fun q => q.core = r.core && q.fill = some t) then s1
    else modCore s1 r.core (fun k => if tokOf k t = .filling then setTok k t .full else k)

/-- A pour's request is answered (R233): FABRIC_ERROR on a status other than OK, UNCORRECTED on
poison; the payload lands. -/
def respPour (s : State) (r : ErgReq) (q : Packet) : State :=
  if q.status ≠ 0 then
    { beginAbort s r.core r.ctx 0x14 0 with ergReqs := s.ergReqs.erase r }
  else if payloadBad q.payload then
    { beginAbort s r.core r.ctx 0x04 0 with ergReqs := s.ergReqs.erase r }
  else
    let w := r.wait.erase q.src
    if w ≠ [] then { s with ergReqs := s.ergReqs.map (fun x => if x = r then { r with wait := w } else x) }
    else
      match r.spmAt with
      | none => reqGone s r
      | some (off, pitch, len, o) =>
        let bs := payloadBytes q.payload
        let runs := packedRuns off pitch len bs.length o bs
        match runs.find? (fun (a, l) => extWaits s [(r.core, a)] l.length) with
        | some (a, l) => holdExt s [(r.core, a)] l.length (.store q)
        | none =>
          match placeRuns s r.core r.ctx runs with
          | .error s1 => { s1 with ergReqs := s1.ergReqs.erase r }
          | .ok s1 => reqGone s1 r

/-- A commit notice is answered (R234). -/
def respNotice (s : State) (r : ErgReq) (target ctr stamp status : Nat) : State :=
  let s1 := { s with ergReqs := s.ergReqs.erase r }
  if status = 0 then s1
  else
    raisePart s1 r.part 0x05 0xFF 0
      [BitVec.ofNat 64 (r.pkt.dst <<< 48 + target <<< 44 + ctr <<< 40 + stamp), BitVec.ofNat 64 status]

/-- The words of QUENCH_DONE and QUENCH_TIMEOUT. -/
def quenchBody (s : State) (hub : Nat) : List Word :=
  [rd s (rFAB_QSEND hub), rd s (rFAB_QSTATUS hub), rd s (rFAB_QCOUNT hub)]

/-- Acks counted for a hub's quench. -/
def quenchAcks (s : State) (hub : Nat) : Nat :=
  rget s (rFAB_QSTATUS hub) fFAB_QSTATUS_OK + rget s (rFAB_QCOUNT hub) fFAB_QCOUNT_CLOSED +
    rget s (rFAB_QCOUNT hub) fFAB_QCOUNT_POISONED + rget s (rFAB_QCOUNT hub) fFAB_QCOUNT_FAILED

/-- A quench ends: DONE or TIMEOUT (R235). -/
def quenchEnd (s : State) (hub : Nat) (timedOut : Bool) : State :=
  let s1 := rput s (rFAB_QSTATUS hub) fFAB_QSTATUS_BUSY 0
  let s2 := if timedOut then rput s1 (rFAB_QSTATUS hub) fFAB_QSTATUS_TIMED_OUT 1 else s1
  let s3 := { s2 with ergReqs := s2.ergReqs.filter (fun r => r.origin ≠ .quench hub) }
  raisePart s3 (rget s (rFAB_QSEND hub) fFAB_QSEND_PART) (if timedOut then 0x07 else 0x06) 0xFF 0 (quenchBody s3 hub)

/-- Count an ack of a quench (R235). -/
def respQuench (s : State) (hub status : Nat) : State :=
  if !rflag s (rFAB_QSTATUS hub) fFAB_QSTATUS_BUSY then s
  else
    let up := fun (u : State) (off : Nat) (f : Fld) => rput u off f (rget u off f + 1)
    let s1 := if status = 0 then up s (rFAB_QSTATUS hub) fFAB_QSTATUS_OK
      else if status = 8 then up s (rFAB_QCOUNT hub) fFAB_QCOUNT_CLOSED
      else if status = 9 then up s (rFAB_QCOUNT hub) fFAB_QCOUNT_POISONED
      else up s (rFAB_QCOUNT hub) fFAB_QCOUNT_FAILED
    if rget s1 (rFAB_QSTATUS hub) fFAB_QSTATUS_EXPECTED ≤ quenchAcks s1 hub then quenchEnd s1 hub false else s1

/-- Record a collective failure (R247): COLL_ERR of the group's hub, the discard of its chunks, and
COLLECTIVE_FAILED. -/
def collFail (s : State) (part group member cause : Nat) (drop : Bool) : State :=
  let hub := group % 2
  let s1 := if rflag s (rCOLL_ERR hub) fCOLL_ERR_VALID then s
    else rwr s (rCOLL_ERR hub) (BitVec.ofNat 64 (group <<< 56 + member <<< 36 + cause <<< 4 + 1))
  let s2 := if drop then { s1 with erg := { s1.erg with staging := s1.erg.staging.filter (fun k => k.group ≠ group) } } else s1
  raisePart s2 part 0x08 0xFF 0 [rd s2 (rCOLL_ERR hub)]

/-- One of the nodes awaited has answered; the request ends with the last. -/
def waitLess (s : State) (r : ErgReq) (src : Nat) : State :=
  let w := r.wait.erase src
  if w = [] then { s with ergReqs := s.ergReqs.erase r }
  else { s with ergReqs := s.ergReqs.map (fun x => if x = r then { r with wait := w } else x) }

/-- The response to a request of a pour, an engine, a notice or a quench. -/
def respBase (s : State) (r : ErgReq) (q : Packet) : State :=
  match r.origin with
  | .pour => respPour s r q
  | .engine g =>
    let s1 := waitLess s r q.src
    if q.status ≠ 0 && r.pkt.ty = 0x0E then collFail s1 r.part g 0 4 false else s1
  | .notice t c st => respNotice s r t c st q.status
  | .quench h => respQuench (waitLess s r q.src) h q.status
  | .ckpt _ => s
  | .caravan => s

/-! ### Sending a request (R213, R214, R226) -/

/-- A tag that no request in flight uses. -/
def freeTag (s : State) : Nat :=
  ((List.range (s.ergReqs.length + 1)).find? (fun t => !s.ergReqs.any (fun r => r.pkt.tag = t))).getD 0

/-- The hub that takes a request of a core (R214); the agents of the management die use H0. -/
def localHub (core : Nat) : Nat := if core < nCores then dieOfCore core % 2 else 0

/-- The hub that takes a request to this device (R214): an agent on a hub die uses that hub, and a quench the hub
whose block was written. -/
def reqHub (r : ErgReq) : Nat :=
  match r.origin with
  | .quench h => h
  | .engine g => g % 2
  | .ckpt h => h
  | _ => localHub r.core

/-- The die a request of this device comes from: the core's, or its hub's. -/
def reqDie (r : ErgReq) : Nat := if r.core < nCores then dieOfCore r.core else 4 + reqHub r

/-- The header of a request of this device (R218). -/
def reqPacket (s : State) (ty tc dst part addr srcCore : Nat) (w3 : Word) (payload : List (Word × Bool)) : Packet :=
  { ty := ty, tc := tc, mc := false, dst := if dst = 0xFFFF then nodeId s else dst, src := nodeId s,
    tag := freeTag s, job := rget s (rFAB_ACC part) fFAB_ACC_JOB, addr := addr, timeLo := now s % 2 ^ 32,
    token := 0, tokV := false, first := false, last := false, srcCore := srcCore, status := 0, w3 := w3,
    payload := payload }

/-- Send a request to one node.  A request to this node goes through `local_` at the local hub and is
answered at once; one with no route is answered UNREACHABLE where it stands; a notice or quench with no
route is dropped and counted. -/
def sendReq (local_ : State → Via → Packet → State × Option Packet) (s : State) (toSelf : Bool) (r : ErgReq) : State :=
  let s1 := { s with ergReqs := s.ergReqs ++ [r] }
  if toSelf then
    match local_ s1 (.own (reqHub r)) r.pkt with
    | (s2, some a) => respBase s2 r a
    | (s2, none) => s2
  else if !fabValid s then s1
  else
    match routeOf s r.pkt.dst r.pkt.tc with
    | some p => enq s1 (reqDie r) p r.pkt
    | none =>
      if isRequest r.pkt.ty then respBase s1 r (answerOf s r.pkt 6 [] 0)
      else ergCount s1 (routePort s r.pkt.dst r.pkt.tc) 31 1

/-- Does an address's node name this device (R214)? -/
def isSelf (s : State) (node : Nat) : Bool := node = 0xFFFF || (fabValid s && node = nodeId s)

/-- A node identifier that is not reserved (R213). -/
def nodeOk (node : Nat) : Bool := decide (node ≤ 0x3FFF) || node = 0xFFFF

/-! ### The retained buffer of multicast writes (R249) -/

/-- Members that the sender still waits on: not dropped from the transfer. -/
def liveWait (s : State) (r : ErgReq) : List Nat :=
  r.wait.filter (fun n => !s.erg.dropped.any (fun d => d.group = r.pkt.dst && d.xfer = r.xfer && d.node = n))

/-- The multicast writes of a group, in order. -/
def mcastReqs (s : State) (g : Nat) : List ErgReq := s.ergReqs.filter (fun r => r.pkt.mc && r.pkt.ty = 0x0C && r.pkt.dst = g)

/-- Flits sent of a group from the oldest packet that an undropped member has not acknowledged. -/
def windowFlits (s : State) (g : Nat) : Nat :=
  (((((mcastReqs s g).filter (·.sent)).dropWhile (fun r => (liveWait s r).isEmpty)).map (fun r => pktFlits r.pkt)).foldl (· + ·) 0)

/-- Payload bytes in a hub's retained buffer: the multicast writes sent that some member has not acknowledged. -/
def retained (s : State) (hub : Nat) : Nat :=
  ((s.ergReqs.filter (fun r => r.pkt.mc && r.pkt.ty = 0x0C && r.sent && decide (reqHub r = hub))).map
    (fun r => 32 * pktLen r.pkt)).foldl (· + ·) 0

/-- Send one packet of a multicast transfer: copies to the group's ports, and one performed here where
LOCAL is set. -/
def mcastSend1 (s : State) (r : ErgReq) : State :=
  let s1 := { s with ergReqs := s.ergReqs.map (fun x => if x = r then { r with sent := true, sentAt := now s } else x) }
  let r1 := { r with sent := true, sentAt := now s }
  let s2 := replicate s1 (reqDie r1) r1.pkt
  if mcastLocal s2 r1.pkt.dst then
    match handleReq s2 (.own (reqHub r1)) r1.pkt with
    | (s3, some a) => respBase s3 r1 a
    | (s3, none) => s3
  else s2

/-- Send the waiting packets of a group that the window of 64 flits and the retained buffer of 8 MiB admit; `fuel`
is the number waiting. -/
def mcastPump (g : Nat) : Nat → State → State
  | 0, s => s
  | fuel + 1, s =>
    match (mcastReqs s g).find? (fun r => !r.sent) with
    | none => s
    | some r =>
      if windowFlits s g + pktFlits r.pkt ≤ 64 ∧ retained s (reqHub r) + 32 * pktLen r.pkt ≤ 0x800000 then
        mcastPump g fuel (mcastSend1 s r)
      else s

def mcastPumpAll (s : State) (g : Nat) : State :=
  if fabValid s then mcastPump g (mcastReqs s g).length s else s

end Sys2Proof.Machine
end

