-- ==== Sys2Proof/Machine/ErgPort.lean ====
section
/-! DEFINITION. Erg ports (R215–R223, R236–R239): the frames a port sends by its calendar and receives,
the retry protocol, credits, training, loss of a port, and port calendars.  Commands: FAB_NODE_WRITE, LINK,
PORT_CAL_ARM, PORT_CAL_ACTIVATE; the commands that can take a port DOWN stand in ErgLoss.lean. -/

namespace Sys2Proof.Machine

/-! ### Loss of a port and training (R223) -/

/-- A port goes DOWN: the frames in its replay buffer are lost, the cause is recorded, and a port that
leaves UP delivers PORT_DOWN. -/
def portDown (s : State) (p cause : Nat) : State :=
  if portState s p = 0 then s
  else
    let up := portState s p = 2
    let s1 := rput (rput s (rPORT_STATUS p) fPORT_STATUS_STATE 0) (rPORT_STATUS p) fPORT_STATUS_DOWN_CAUSE cause
    let s2 := rput (rset s1 (rPORT_STATUS p) fPORT_STATUS_DOWN_EVENT) (rPORT_STATUS p) fPORT_STATUS_LANES_LOCKED 0
    let s3 := modEport s2 p (fun e => { e with
      link := Link.reset, carry := none, tx := none, rxPart := none, peer := none, beaconDue := false })
    if up then raiseDev s3 0x04 0xFF [BitVec.ofNat 64 p, rd s3 (rPORT_STATUS p)] else s3

/-- A port begins to train. -/
def portTrain (s : State) (p : Nat) : State :=
  rput (rput s (rPORT_STATUS p) fPORT_STATUS_STATE 1) (rPORT_STATUS p) fPORT_STATUS_DOWN_CAUSE 0

/-- A write of PORT_CTRL (R223, R239). -/
def portCtrlWrite (s : State) (p : Nat) (v : Word) : State :=
  let s1 := regSet s (rPORT_CTRL p) v
  if wbit v 1 then portDown s1 p 1
  else if wbit v 0 && portState s1 p = 0 then portTrain s1 p
  else s1

/-- Training ends (R223): the port is UP with full credits and PORT_PEER showing the partner that its training
frames named, or DOWN with cause 5.  `rtt` is the round trip that the lanes measured; the one-way delay of TIME_PDLY
is a free value. -/
def portTrained (s : State) (p : Nat) (ok : Bool) (rtt : Nat) : State :=
  if portState s p ≠ 1 then s
  else if !ok then portDown s p 5
  else
    let (f, s0) := useFree s
    let s1 := rput (rput s0 (rPORT_STATUS p) fPORT_STATUS_STATE 2) (rPORT_STATUS p) fPORT_STATUS_LANES_LOCKED 0xFF
    let s2 := rput s1 (rPORT_STATUS p) fPORT_STATUS_RTT rtt
    let s3 := rput s2 (rTIME_PDLY p) fTIME_PDLY_DELAY (Config.freeWord f 1).toNat
    let s4 := match (eportOf s p).peer with
      | some (node, port, valid) => rwr s3 (rPORT_PEER p) (BitVec.ofNat 64 (node <<< 48 + port <<< 44 + b2n valid))
      | none => rwr s3 (rPORT_PEER p) 0
    modEport s4 p (fun e => { e with
      link := Link.reset, carry := none, credit := List.replicate 8 1024, due := List.replicate 8 0, rxq := []
      rxPart := none, peer := none })

/-! ### Frames sent (R216, R221, R222, R236) -/

/-- Entry `i` of calendar store `st` of a port. -/
def portEntry (s : State) (p st i : Nat) : Nat := wfld (rd s (rPORT_CAL p st (i / 16))) (4 * (i % 16) + 3) (4 * (i % 16))

/-- Frame length of a store. -/
def portF (s : State) (p st : Nat) : Nat :=
  rget s (rPORT_CAL_CTRL p) (if st = 0 then fPORT_CAL_CTRL_F0_M1 else fPORT_CAL_CTRL_F1_M1) + 1

/-- The entry that owns the next slot of a port; 8 (OPEN) in default mode. -/
def slotEntry (s : State) (p : Nat) : Nat :=
  let a := rget s (rPORT_CAL_CTRL p) fPORT_CAL_CTRL_ACTIVE
  if a = 0 ∨ a = 3 then 8 else portEntry s p (a - 1) ((eportOf s p).slot % portF s p (a - 1))

/-- Classes in the order a slot serves them. -/
def slotClasses (entry : Nat) : List Nat := if entry < 8 then [entry] else [7, 6, 5, 4, 3, 2, 1, 0]

/-- The next packet a slot may begin: the first class that has one and credits for all its flits. -/
def nextPacket (e : EPort) (classes : List Nat) : Option (Nat × Packet) :=
  classes.findSome? (fun c => match kGet [] e.txq c with
    | [] => none
    | k :: _ => if pktFlits k ≤ e.credit.getD c 0 then some (c, k) else none)

/-- A packet of the port itself. -/
def portPacket (s : State) (ty dst : Nat) (w1 w3 : Nat) : Packet :=
  { ty := ty, tc := 7, mc := false, dst := dst, src := nodeId s, tag := 0, job := w1 / 2 ^ 48, addr := w1 % 2 ^ 48,
    timeLo := now s % 2 ^ 32, token := 0, tokV := false, first := false, last := false, srcCore := 0, status := 0,
    w3 := BitVec.ofNat 64 w3, payload := [] }

/-- A LINK packet that returns the credits due (R219, R222). -/
def linkPacket (s : State) (e : EPort) : Packet :=
  let w := fun b => (List.range 4).foldl (fun a i => a + (e.due.getD (b + i) 0 % 65536) * 2 ^ (16 * i)) 0
  portPacket s 0x01 0 (w 0) (w 4)

/-- The BEACON of port `p` (R251): W1 is the time at which its frame begins to leave. -/
def beaconPacket (s : State) (p : Nat) : Packet :=
  { portPacket s 0x12 (rget s (rPORT_PEER p) fPORT_PEER_NODE) (now s) 0 with srcCore := 0xFF }

/-- A frame under construction: the port, the flits placed, and whether a flit of the slot's class is among
them. -/
structure Fill where
  e : EPort
  flits : List (BitVec 320)
  sent : Bool
  deriving DecidableEq, Repr

/-- Flit positions left. -/
def fillRoom (b : Fill) : Nat := 16 - b.flits.length

/-- Place a packet: what does not fit is carried into the next slot. -/
def placePacket (entry : Nat) (b : Fill) (k : Packet) : Fill :=
  let fl := packetFlits k
  let room := fillRoom b
  { e := { b.e with carry := if fl.length ≤ room then none else some (k, fl.length - room) }
    flits := b.flits ++ fl.take room, sent := b.sent || decide (k.tc = entry) }

/-- 1. The rest of a packet begun in an earlier slot. -/
def placeCarry (entry : Nat) (e : EPort) : Fill :=
  match e.carry with
  | none => ⟨e, [], false⟩
  | some (k, n) =>
    ⟨{ e with carry := if n ≤ 16 then none else some (k, n - 16) },
      ((packetFlits k).drop (pktFlits k - n)).take 16, decide (k.tc = entry)⟩

/-- A BEACON that is due takes the first flit of a frame, in a slot that class 7 may use and for one credit of it. -/
def placeBeacon (s : State) (p entry : Nat) (b : Fill) : Fill :=
  if b.e.beaconDue && b.flits.isEmpty && decide (7 ≤ entry) && decide (0 < b.e.credit.getD 7 0) then
    let c := placePacket entry b (beaconPacket s p)
    { c with e := { c.e with beaconDue := false, credit := c.e.credit.set 7 (c.e.credit.getD 7 0 - 1) } }
  else b

/-- 2. One LINK packet, if credits are due. -/
def placeLink (s : State) (b : Fill) : Fill :=
  if b.e.due.any (fun n => decide (0 < n)) && decide (0 < fillRoom b) then
    { b with flits := b.flits ++ packetFlits (linkPacket s b.e), e := { b.e with due := List.replicate 8 0 } }
  else b

/-- 3. Packets of the slot's classes, for as long as there is room and credit. -/
def placeQueued (entry : Nat) : Nat → Fill → Fill
  | 0, b => b
  | fuel + 1, b =>
    if fillRoom b = 0 then b
    else
      match nextPacket b.e (slotClasses entry) with
      | none => b
      | some (c, k) =>
        let e1 := { b.e with
          txq := kSet b.e.txq c ((kGet [] b.e.txq c).drop 1)
          credit := b.e.credit.set c (b.e.credit.getD c 0 - pktFlits k) }
        placeQueued entry fuel (placePacket entry { b with e := e1 } k)

/-- The new frame of a slot (R236): a packet begun earlier goes on; nothing else is sent before FAB_NODE.VALID
(R213). -/
def buildFrame (s : State) (p entry : Nat) : Fill :=
  let b := placeCarry entry (eportOf s p)
  if fabValid s then placeQueued entry 16 (placeLink s (placeBeacon s p entry b)) else b

/-- Count an overrun slot of class `c` with cause X (R238). -/
def overrun (s : State) (p c x : Nat) : State := ergCount s p (3 * c + x) 1

/-- Has the class that owns the next slot a packet that waits (R238)? -/
def slotWaits (s : State) (p : Nat) : Bool :=
  fabValid s && decide (slotEntry s p < 8) &&
    (!(kGet [] (eportOf s p).txq (slotEntry s p)).isEmpty || (slotEntry s p = 7 && (eportOf s p).beaconDue))

/-- A frame leaves: it is on the lanes, the slot is past and the frame counted. -/
def putFrame (s : State) (p : Nat) (f : Frame) : State :=
  ergCount (modEport s p (fun e => { e with slot := e.slot + 1, tx := some f })) p 24 1

/-- A slot taken by the retry protocol: its class's wait is a REPLAY overrun (R238). -/
def replaySlot (s : State) (p : Nat) : State := if slotWaits s p then overrun s p (slotEntry s p) 1 else s

/-- A new data frame: the packets of the slot, kept in the replay buffer until acknowledged. -/
def sendNew (s : State) (p : Nat) : State :=
  let e := eportOf s p
  let b := buildFrame s p (slotEntry s p)
  let full := decide (16 ≤ (placeCarry (slotEntry s p) e).flits.length)
  let s1 := if slotWaits s p && !b.sent then overrun s p (slotEntry s p) (if full then 2 else 0) else s
  putFrame (modEport s1 p (fun _ => { b.e with link := { b.e.link with
      nextSeq := (e.link.nextSeq + 1) % 512, replay := e.link.replay ++ [(e.link.nextSeq, b.flits)] } }))
    p (mkFrame 0 e.link.nextSeq e.link.rxLast b.flits)

/-- The frame of an UP port's slot (R221, R236, R238): a retry request owed, then the frames to be resent, then
new ones; with 256 frames unacknowledged an idle frame that carries the number of the last frame acknowledged
(log entry 93).  A frame resent is monitor input 7 (R347). -/
def frameUp (s : State) (p : Nat) : State :=
  let l := (eportOf s p).link
  if l.retryOwed then
    putFrame (modEport (replaySlot s p) p (fun k => { k with link := { k.link with retryOwed := false } })) p
      (mkFrame 1 ((l.rxLast + 1) % 512) l.rxLast [])
  else
    match l.resend.bind (fun q => (l.replay.find? (fun r => r.1 = q))) with
    | some (q, fs) =>
      let more := l.replay.any (fun r => r.1 = (q + 1) % 512)
      let s1 := modEport (replaySlot s p) p (fun k => { k with link := { k.link with
        resend := if more then some ((q + 1) % 512) else none } })
      monEvent (ergCount (putFrame s1 p (mkFrame 0 q l.rxLast fs)) p 25 1) 7 1
    | none =>
      if 256 ≤ l.replay.length then putFrame (replaySlot s p) p (mkFrame 0 ((l.nextSeq + 255) % 512) l.rxLast [])
      else sendNew s p

/-- Does port `p` doze, or is it still waking? -/
def portDozes (s : State) (p : Nat) : Bool := decide ((dozeOf s (3040 + p)).dz ≠ 0)

/-- The frame of one slot: a port in TRAINING sends its node and port number (R223); a DOWN port sends nothing, and
neither does one in doze, whose packets wait for its wake (R403, R405). -/
def frameSend (s : State) (p : Nat) : State :=
  if portState s p = 2 && portDozes s p then
    modEport (if slotWaits s p then wakeUnit s (3040 + p) else s) p (fun e => { e with slot := e.slot + 1, tx := none })
  else if portState s p = 2 then frameUp s p
  else if portState s p = 1 then
    putFrame s p (mkFrame 2 0 (eportOf s p).link.rxLast [trainFlit (nodeId s) p (fabValid s)])
  else modEport s p (fun e => { e with slot := e.slot + 1, tx := none })

/-! ### Frames received (R221) -/

/-- An acknowledgement: frames up to `ack` leave the replay buffer. -/
def ackFrames (l : Link α) (ack : Nat) : Link α :=
  match l.replay.findIdx? (fun (n, _) => n = ack) with
  | some i => { l with
      replay := l.replay.drop (i + 1), fails := 0,
      resend := match l.resend with
        | some q => if (l.replay.take (i + 1)).any (fun (n, _) => n = q) then ((l.replay.drop (i + 1)).head?).map (·.1) else some q
        | none => none }
  | none => l

/-- A retry request names frame `seq` (R221): resend from it; the eighth failure in succession of one
frame takes the port DOWN. -/
def retryRequest (s : State) (p seq : Nat) : State :=
  if portState s p ≠ 2 then s
  else
    let l := (eportOf s p).link
    if !l.replay.any (fun (n, _) => n = seq) then s
    else
      let n := if l.failSeq = seq ∧ 0 < l.fails then l.fails + 1 else 1
      if 8 < n then portDown s p 3
      else modEport s p (fun e => { e with link := { e.link with resend := some seq, failSeq := seq, fails := n } })

/-- A frame has failed: a retry request goes out with the next frame. -/
def frameFailed (s : State) (p : Nat) : State :=
  modEport s p (fun e => { e with link := { e.link with retryOwed := true } })

/-- A data frame (R217, R221): the frame that is next in order gives up its packets if every header passes HCRC;
any other only acknowledges. -/
def dataFrame (s : State) (p : Nat) (k : Frame) : State :=
  let e := eportOf s p
  if frameSeq k ≠ (e.link.rxLast + 1) % 512 then modEport s p (fun e => { e with link := ackFrames e.link (frameAck k) })
  else
    let (part, ks, ok) := readPackets e.rxPart k.flits
    if !ok then frameFailed (ergCount s p 28 1) p
    else modEport s p (fun e => { e with
      link := { ackFrames e.link (frameAck k) with rxLast := frameSeq k, retryOwed := false }
      rxPart := part, rxq := e.rxq ++ ks })

/-- A frame reaches port `p`; `none` is an uncorrectable codeword.  A DOWN port takes nothing, a TRAINING one only
training frames (R223). -/
def frameTake (s : State) (p : Nat) (f : Option Frame) : State :=
  match f with
  | none => if portState s p = 2 then frameFailed (ergCount s p 27 1) p else s
  | some k =>
    if portState s p = 1 then
      if frameKind k = 2 then modEport s p (fun e => { e with peer := some (trainPeer k) }) else s
    else if portState s p ≠ 2 then s
    else if frameKind k = 0 then dataFrame s p k
    else if frameKind k = 1 then
      retryRequest (modEport s p (fun e => { e with link := ackFrames e.link (frameAck k) })) p (frameSeq k)
    else s

/-- Are the port's lanes looped (PORT_CTRL.LOOPBACK)? -/
def looped (s : State) (p : Nat) : Bool := rflag s (rPORT_CTRL p) fPORT_CTRL_LOOPBACK

/-- A frame arrives from the lanes of port `p`, `fixed` where its codeword was corrected; a looped port receives
nothing from outside.  A signal that meets a port in doze wakes it, and the frame is not taken (R403, R405). -/
def frameReceive (s : State) (p : Nat) (f : Option Frame) (fixed : Bool) : State :=
  if looped s p || portState s p = 0 then s
  else if portState s p = 2 && portDozes s p then wakeUnit s (3040 + p)
  else frameTake (if fixed then ergCount s p 26 1 else s) p f

/-- A slot of port `p`: its frame leaves, and reaches the port itself while its lanes are looped. -/
def frameSlot (s : State) (p : Nat) : State :=
  let s1 := frameSend s p
  if looped s p && !portDozes s p then
    match (eportOf s1 p).tx with
    | some f => frameTake s1 p (some f)
    | none => s1
  else s1

/-- LINK (R222): credits return to the sender; before FAB_NODE.VALID the packet is dropped and counted (R213). -/
def linkCredits (s : State) (p : Nat) (credits : List Nat) : State :=
  if portState s p ≠ 2 then s
  else
    let s1 := modEport s p (fun e => { e with
      rxq := match e.rxq.find? (fun k => k.ty = 0x01) with
        | some k => e.rxq.erase k
        | none => e.rxq })
    if !fabValid s then ergCount s1 p 35 1
    else modEport s1 p (fun e => { e with
      credit := (List.range 8).map (fun c => min 1024 (e.credit.getD c 0 + credits.getD c 0)) })

/-! ### Port calendars (R237) -/

/-- The check at ARM: no reserved entry, and every 64 cyclically consecutive entries hold an OPEN entry
or each of the classes 5, 6 and 7. -/
def portCalOk (s : State) (p st : Nat) : Bool :=
  let f := portF s p st
  let es := (List.range f).map (portEntry s p st)
  es.all (fun e => decide (e ≤ 8)) &&
  (List.range f).all (fun i =>
    let win := (List.range 64).map (fun j => es.getD ((i + j) % f) 0)
    win.contains 8 || (win.contains 5 && win.contains 6 && win.contains 7))

/-- Register-space offset of a port's block, as the trace names it. -/
def portBlock (p : Nat) : Nat := rPORT_CTRL p

/-- A write of PORT_CAL_CTRL (R237). -/
def portCalWrite (s : State) (p : Nat) (v : Word) : State :=
  let s1 := regSet s (rPORT_CAL_CTRL p) v
  if !wbit v 0 then s1
  else
    let act := rget s1 (rPORT_CAL_CTRL p) fPORT_CAL_CTRL_ACTIVE
    let tgt := if !wbit v 1 then 0 else if act = 1 then 2 else 1
    if tgt ≠ 0 && !portCalOk s1 p (tgt - 1) then rset s1 (rPORT_CAL_CTRL p) fPORT_CAL_CTRL_BAD
    else rput (modEport s1 p (fun e => { e with armed := some tgt })) (rPORT_CAL_CTRL p) fPORT_CAL_CTRL_PENDING 1

/-- PORT_CAL_ACTIVATE (R237): the armed calendar comes into force at its boundary. -/
def portCalActivate (s : State) (p : Nat) : State :=
  match (eportOf s p).armed with
  | none => s
  | some tgt =>
    let s1 := modEport s p (fun e => { e with armed := none, slot := 0 })
    let s2 := rput (rput s1 (rPORT_CAL_CTRL p) fPORT_CAL_CTRL_PENDING 0) (rPORT_CAL_CTRL p) fPORT_CAL_CTRL_ACTIVE tgt
    traceRec s2 7 (4 + p / 6) 0xFF 0 false (BitVec.ofNat 64 (portBlock p)) (BitVec.ofNat 64 tgt)

/-! ### FAB_NODE (R213, R239) -/

/-- A write of FAB_NODE: VALID stays 0 for a node above 0x3FFF. -/
def fabNodeWrite (s : State) (v : Word) : State :=
  let s1 := regSet s rFAB_NODE v
  if 0x3FFF < wfld v 15 0 then rput s1 rFAB_NODE fFAB_NODE_VALID 0 else s1

/-! ### Commands -/

def portOk (p : Nat) : Bool := decide (p < 12)

/-- FAB_NODE_WRITE (R213). -/
def execFabNodeWrite (value : Word) (s : State) : Out := .next (fabNodeWrite s value)

/-- LINK (R222). -/
def execLink (p : Nat) (credits : List Nat) (s : State) : Out :=
  onUnit (portOk p) "LINK" (.next (linkCredits s p credits))

/-- PORT_CAL_ARM (R237): a write of PORT_CAL_CTRL with ARM. -/
def execPortCalArm (p : Nat) (value : Word) (s : State) : Out :=
  onUnit (portOk p) "PORT_CAL_ARM" (.next (portCalWrite s p (value ||| 1)))

/-- PORT_CAL_ACTIVATE (R237). -/
def execPortCalActivate (p : Nat) (s : State) : Out :=
  onUnit (portOk p) "PORT_CAL_ACTIVATE" (.next (portCalActivate s p))

end Sys2Proof.Machine
end

