-- ==== Sys2Proof/Machine/CaravanLink.lean ====
section
/-! DEFINITION. The link layer of the Caravan ports (R325, R337, R343).  Commands: CARAVAN_FRAME_RECEIVE,
CARAVAN_FRAME_SEND, CARAVAN_RETRY_REQUEST, CARAVAN_LANE_LOCK_LOSS, CARAVAN_ACK_STALL,
CARAVAN_TRAINING_COMPLETE, CTL_PORT_DISABLE, CTL_PORT_RETRAIN. -/

namespace Sys2Proof.Machine

/-- CTL_PORT_k.STATE: 0 DOWN, 1 TRAINING, 2 UP. -/
def cportState (s : State) (k : Nat) : Nat := rget s (rCTL_PORT k) fCTL_PORT_STATE

/-- A counter of Caravan port `q` (R469). -/
def carCount (s : State) (q k n : Nat) : State := countDev s (0x4500 + 8 * q + k) n

/-- The other port becomes active, with CARAVAN_SWITCH, when the active port goes DOWN while the other is UP
(R337). -/
def carSwitch (s : State) (k : Nat) : State :=
  let o := 1 - k
  if activePort s = k && cportUp s o then
    raiseDev (rput s rCTL_STATE fCTL_STATE_ACTIVE_PORT o) 0x11 0xFF [rd s (rCTL_PORT o)]
  else s

/-- A Caravan port goes DOWN (R325, R330): frames, responses that have not left and the answers of its requests
are discarded. -/
def cportDown (s : State) (k cause : Nat) : State :=
  if cportState s k = 0 then s
  else
    let s1 := rput (rput s (rCTL_PORT k) fCTL_PORT_STATE 0) (rCTL_PORT k) fCTL_PORT_DOWN_CAUSE cause
    let s2 := modCport (rset s1 (rCTL_PORT k) fCTL_PORT_DOWN_EVENT) k (fun _ => CPort.reset)
    carSwitch { s2 with ctl := { s2.ctl with fwd := s2.ctl.fwd.filter (fun f => f.port ≠ k) } } k

/-- A DOWN port that is not disabled begins to train. -/
def cportTrain (s : State) (k : Nat) : State :=
  if cportState s k = 0 && !rflag s (rCTL_PORT k) fCTL_PORT_DISABLE then rput s (rCTL_PORT k) fCTL_PORT_STATE 1
  else s

/-- A write of CTL_PORT_k (R343): DISABLE is ignored on the active port. -/
def ctlPortWrite (s : State) (k : Nat) (v : Word) : State :=
  let s1 := if wbit v 3 then rput s (rCTL_PORT k) fCTL_PORT_DOWN_EVENT 0 else s
  let s2 := if activePort s1 = k && wbit v 9 then s1
    else
      let u := rput s1 (rCTL_PORT k) fCTL_PORT_DISABLE (b2n (wbit v 9))
      if wbit v 9 then cportDown u k 1 else u
  if wbit v 8 then cportTrain s2 k else s2

/-- Training ends: UP with the measured round trip, or DOWN with cause 5. -/
def cportTrained (s : State) (k : Nat) (ok : Bool) (rtt : Nat) : State :=
  if cportState s k ≠ 1 then s
  else if !ok then cportDown s k 5
  else modCport (rput (rput s (rCTL_PORT k) fCTL_PORT_STATE 2) (rCTL_PORT k) fCTL_PORT_RTT rtt) k (fun _ => CPort.reset)

/-- Units of messages placed in a frame: the rest of the one begun, then the queue, first in first out. -/
def placeMsgs (s : State) : Nat → CPort → List (BitVec 320) → CPort × List (BitVec 320)
  | 0, e, l => (e, l)
  | fuel + 1, e, l =>
    let room := 16 - l.length
    match e.carry, e.txq with
    | some (m, n), _ =>
      let e1 := { e with carry := if n ≤ room then none else some (m, n - room) }
      let l1 := l ++ ((msgFlits m).drop (msgUnits m - n)).take room
      if n < room then placeMsgs s fuel e1 l1 else (e1, l1)
    | none, m :: t =>
      if room = 0 then (e, l)
      else placeMsgs s fuel { e with carry := some ({ m with timeLo := now s % 2 ^ 32 }, msgUnits m), txq := t } l
    | none, [] => (e, l)

/-- A frame leaves a Caravan port. -/
def carPut (s : State) (q : Nat) (f : Frame) : State := modCport s q (fun e => { e with tx := some f })

/-- The frame of an UP port's slot (R216, R221, R325): a retry request owed, then the frames to be resent, then new
ones; with 480 frames unacknowledged an idle frame with the number of the last frame acknowledged (log entry
93).  A frame resent is monitor input 7 (R347). -/
def carUp (s : State) (q : Nat) : State :=
  let e := cportOf s q
  let l := e.link
  if l.retryOwed then
    carPut (modCport s q (fun k => { k with link := { k.link with retryOwed := false } })) q
      (mkFrame 1 ((l.rxLast + 1) % 512) l.rxLast [])
  else
    match l.resend.bind (fun n => (l.replay.find? (fun r => r.1 = n))) with
    | some (n, fs) =>
      let more := l.replay.any (fun r => r.1 = (n + 1) % 512)
      let s1 := modCport s q (fun k => { k with link := { k.link with
        resend := if more then some ((n + 1) % 512) else none } })
      monEvent (carCount (carPut s1 q (mkFrame 0 n l.rxLast fs)) q 0 1) 7 1
    | none =>
      if 480 ≤ l.replay.length then carPut s q (mkFrame 0 ((l.nextSeq + 31) % 512) l.rxLast [])
      else
        let (e1, fs) := placeMsgs s 40 e []
        carPut (modCport s q (fun _ => { e1 with link := { l with
          nextSeq := (l.nextSeq + 1) % 512, replay := l.replay ++ [(l.nextSeq, fs)] } })) q
          (mkFrame 0 l.nextSeq l.rxLast fs)

/-- CARAVAN_FRAME_SEND: in TRAINING a training frame, as on an Erg port (R223). -/
def carSend (s : State) (q : Nat) : State :=
  if cportState s q = 2 then carUp s q
  else if cportState s q = 1 then
    carPut s q (mkFrame 2 0 (cportOf s q).link.rxLast [trainFlit (nodeId s) q (rflag s rFAB_NODE fFAB_NODE_VALID)])
  else s

/-- A retry request (R221): the ninth resend of one frame in succession is not made; the port goes DOWN. -/
def carRetry (s : State) (q seq : Nat) : State :=
  if cportState s q ≠ 2 then s
  else
    let l := (cportOf s q).link
    if !l.replay.any (fun (n, _) => n = seq) then s
    else
      let n := if l.failSeq = seq ∧ 0 < l.fails then l.fails + 1 else 1
      if 8 < n then cportDown s q 3
      else modCport s q (fun e => { e with link := { e.link with resend := some seq, failSeq := seq, fails := n } })

/-- The message types of Table: Message types that the device accepts. -/
def carTypes : List Nat := [0x01, 0x02, 0x03, 0x04, 0x05, 0x06, 0x08, 0x09, 0x0A, 0x0B]

/-- A frame has failed: a retry request goes out with the next frame. -/
def carFailed (s : State) (q : Nat) : State :=
  modCport s q (fun e => { e with link := { e.link with retryOwed := true } })

/-- A data frame (R221, R325): the frame that is next in order gives up its messages if every header passes HCRC;
a message of a reserved type is dropped and counted (R327).  A request of another type starts with its own
command. -/
def carData (s : State) (q : Nat) (k : Frame) : State :=
  let e := cportOf s q
  if frameSeq k ≠ (e.link.rxLast + 1) % 512 then modCport s q (fun e => { e with link := ackFrames e.link (frameAck k) })
  else
    let (part, ms, ok) := readMsgs e.rxPart k.flits
    if !ok then carFailed s q
    else
      let bad := (ms.filter (fun m => !carTypes.contains m.ty)).length
      let s2 := modCport s q (fun e => { e with
        link := { ackFrames e.link (frameAck k) with rxLast := frameSeq k, retryOwed := false }, rxPart := part })
      if bad = 0 then s2 else carCount s2 q 2 bad

/-- CARAVAN_FRAME_RECEIVE: `none` is an uncorrectable codeword. -/
def carReceive (s : State) (q : Nat) (f : Option Frame) : State :=
  if cportState s q ≠ 2 then s
  else
    match f with
    | none => carFailed (carCount s q 1 1) q
    | some k =>
      if frameKind k = 0 then carData s q k
      else if frameKind k = 1 then
        carRetry (modCport s q (fun e => { e with link := ackFrames e.link (frameAck k) })) q (frameSeq k)
      else s

def cportOk (k : Nat) : Bool := decide (k < 2)

/-- CARAVAN_FRAME_RECEIVE (R325). -/
def execCaravanFrameReceive (k : Nat) (f : Option Frame) (s : State) : Out :=
  onUnit (cportOk k) "CARAVAN_FRAME_RECEIVE" (.next (carReceive s k f))

/-- CARAVAN_FRAME_SEND (R325). -/
def execCaravanFrameSend (k : Nat) (s : State) : Out := onUnit (cportOk k) "CARAVAN_FRAME_SEND" (.next (carSend s k))

/-- CARAVAN_RETRY_REQUEST (R325). -/
def execCaravanRetryRequest (k seq : Nat) (s : State) : Out :=
  onUnit (cportOk k) "CARAVAN_RETRY_REQUEST" (.next (carRetry s k seq))

/-- CARAVAN_LANE_LOCK_LOSS (R325). -/
def execCaravanLaneLockLoss (k : Nat) (s : State) : Out :=
  onUnit (cportOk k) "CARAVAN_LANE_LOCK_LOSS" (.next (if cportState s k = 2 then cportDown s k 2 else s))

/-- CARAVAN_ACK_STALL (R325). -/
def execCaravanAckStall (k : Nat) (s : State) : Out :=
  onUnit (cportOk k) "CARAVAN_ACK_STALL"
    (.next (if cportState s k = 2 && !(cportOf s k).link.replay.isEmpty then cportDown s k 4 else s))

/-- CARAVAN_TRAINING_COMPLETE (R325). -/
def execCaravanTrainingComplete (k : Nat) (ok : Bool) (rtt : Nat) (s : State) : Out :=
  onUnit (cportOk k) "CARAVAN_TRAINING_COMPLETE" (.next (cportTrained s k ok rtt))

/-- CTL_PORT_DISABLE (R343): a write of CTL_PORT_k with DISABLE. -/
def execCtlPortDisable (k : Nat) (value : Word) (s : State) : Out :=
  onUnit (cportOk k) "CTL_PORT_DISABLE" (.next (ctlPortWrite s k (value ||| 0x200)))

/-- CTL_PORT_RETRAIN (R343): a write of CTL_PORT_k with RETRAIN, its DISABLE bit as it stands. -/
def execCtlPortRetrain (k : Nat) (s : State) : Out :=
  onUnit (cportOk k) "CTL_PORT_RETRAIN"
    (.next (ctlPortWrite s k (BitVec.ofNat 64 (0x100 + b2n (rflag s (rCTL_PORT k) fCTL_PORT_DISABLE) * 0x200))))

end Sys2Proof.Machine
end

