-- ==== Sys2Proof/Machine/Coll.lean ====
section
/-! DEFINITION. Collective engines (R240–R247, R477): group descriptors, the fixed tree, combining,
results with their status unit, and the handling of RED_WR and RED_RES at a hub. -/

namespace Sys2Proof.Machine

/-! ### Group descriptors (R241) -/

/-- A group descriptor. -/
structure GroupD where
  valid : Bool
  op : Nat
  lfmt : Nat
  rfmt : Nat
  shift : Int
  norm : Bool
  part : Nat
  tc : Nat
  n : Nat
  mc : Nat
  members : Nat
  e : Nat
  fanout : Nat
  result : Nat
  tokV : Bool
  tok : Nat
  badBits : Bool
  deriving DecidableEq, Repr

def groupAddr (s : State) (g : Nat) : Nat := rget s rCOLL_TABLE fCOLL_TABLE_BASE * 2 ^ 14 + 64 * g

def readGroup (s : State) (g : Nat) : GroupD :=
  let w := fun i => memWord s (groupAddr s g + 8 * i)
  { valid := wbit (w 0) 63, op := wfld (w 0) 62 60, lfmt := wfld (w 0) 59 56, rfmt := wfld (w 0) 55 52,
    shift := signedOf 8 (wfld (w 0) 51 44), norm := wbit (w 0) 43, part := wfld (w 0) 42 40,
    tc := wfld (w 0) 39 37, n := wfld (w 0) 19 0 + 1, mc := wfld (w 1) 63 48, members := wfld (w 1) 47 0,
    e := wfld (w 2) 56 32 + 1, fanout := wfld (w 3) 63 56 + 1, result := wfld (w 3) 47 0,
    tokV := wbit (w 4) 10, tok := wfld (w 4) 9 0,
    badBits := decide (wfld (w 0) 36 20 ≠ 0 ∨ wfld (w 2) 63 57 ≠ 0 ∨ wfld (w 2) 31 0 ≠ 0 ∨
      wfld (w 3) 55 48 ≠ 0 ∨ wfld (w 4) 63 11 ≠ 0 ∨ w 5 ≠ 0 ∨ w 6 ≠ 0 ∨ w 7 ≠ 0) }

/-- Core of result copy `j`, when it lies in a scratchpad window. -/
def copyCore (d : GroupD) (j : Nat) : Option Nat := (spmWindow (d.result + j * 0x2000000)).map (·.1)

/-- Does a descriptor keep the rules of R241? -/
def groupOk (s : State) (d : GroupD) : Bool :=
  let int := d.op = 2
  !d.badBits && decide (d.op ≤ 2) &&
  (if int then d.lfmt = 9 && d.rfmt = 9
   else (d.lfmt = 0 || d.lfmt = 1 || d.lfmt = 8) && (decide (d.rfmt ≤ 3) || d.rfmt = 8)) &&
  decide (d.tc ≤ 4) && decide (d.members % 256 = 0) && isTier1 d.members && decide (d.result % 32 = 0) &&
  decide (d.fanout ≤ 160) && (d.rfmt ≠ 8 || (copyCore d 0).isSome) &&
  (List.range d.fanout).all (fun j => match spmWindow (d.result) with
    | none => true
    | some _ => match copyCore d j with
      | some c => partHasCore s d.part c
      | none => false)

/-- Node of member `i`; none where the table does not read. -/
def memberNode (s : State) (d : GroupD) (i : Nat) : Option Nat := nodeAt s (d.members + 2 * i)

/-! ### The fixed tree (R242) -/

/-- ⌈log2 n⌉. -/
def clog2 (n : Nat) : Nat := if n ≤ 1 then 0 else Nat.log2 (n - 1) + 1

/-- Where a node (a, b) of two members or more splits. -/
def splitOf (a b : Nat) : Nat := a + 2 ^ (clog2 (b - a) - 1)

/-- The parent of node (a, b) below (lo, hi): its bounds and split. -/
def parentIn (a b : Nat) : Nat → Nat → Nat → Option (Nat × Nat × Nat)
  | 0, _, _ => none
  | fuel + 1, lo, hi =>
    if hi - lo ≤ 1 then none
    else
      let m := splitOf lo hi
      if (a = lo ∧ b = m) ∨ (a = m ∧ b = hi) then some (lo, m, hi)
      else if b ≤ m then parentIn a b fuel lo m else parentIn a b fuel m hi

/-- The parent of a node of a tree of `n` members. -/
def parentNode (n a b : Nat) : Option (Nat × Nat × Nat) := parentIn a b 21 0 n

/-- Trailing zero bits of `m`. -/
def trailZ : Nat → Nat → Nat
  | 0, _ => 0
  | fuel + 1, m => if m % 2 = 1 then 0 else trailZ fuel (m / 2) + 1

/-- End of the right-hand node that starts at member `m` of `n`. -/
def rightEnd (n m : Nat) : Nat := m + min (2 ^ trailZ 20 m) (n - m)

/-! ### Combining (R243) -/

def special32 (w : W32) : Bool := (fv32 w).special

/-- Combine two elements: the value and whether an IADD saturated. -/
def combine1 (op : Nat) (a b : W32) : W32 × Bool :=
  if op = 0 then (rne32 ((fv32 a).add (fv32 b)), false)
  else if op = 1 then (if a = 0x80000000 ∧ b = 0 then b else f32max a b, false)
  else satInt32 ((fvInt32 a).toInt + (fvInt32 b).toInt)

/-- Combine two children of a node; the left one first. -/
def combineChunk (d : GroupD) (now : Nat) (x y : Chunk) : Chunk :=
  let vs := (x.vals.zip y.vals).map (fun (a, b) => combine1 d.op a b)
  { x with b := y.b, vals := vs.map (·.1), since := now,
           flag := x.flag || y.flag || vs.any (fun (v, sat) => sat || (d.op ≠ 2 && special32 v)) }

/-- The result element of the root: shift, then conversion to RFMT by RNE; the code and its flag. -/
def rootElem (d : GroupD) (v : W32) : Nat × Bool :=
  if d.op = 2 then
    let i := (fvInt32 v).toInt
    if 0 ≤ d.shift then
      let (w, sat) := satInt32 (i * (2 ^ d.shift.toNat : Nat))
      (w.toNat, sat)
    else ((satInt32 (intShiftRne i (-d.shift).toNat)).1.toNat, false)
  else
    let w := rne32 ((fv32 v).scale d.shift)
    if d.rfmt = 8 then (w.toNat, special32 w)
    else convFv d.rfmt none false (fv32 w)

/-! ### Results (R245, R477) -/

/-- Bytes of the result, and the offset of its status unit. -/
def resultBytes (d : GroupD) : Nat := d.e * fmtBits d.rfmt / 8
def statusOff (d : GroupD) : Nat := (resultBytes d + 31) / 32 * 32

/-- The group whose result range holds an address: none found, or a descriptor that does not read. -/
def matchGroup (s : State) (a : Nat) : Except Unit (Option GroupD) :=
  if memBadIn s (groupAddr s 0) (256 * 64) then .error ()
  else
    .ok ((List.range 256).findSome? (fun g =>
      if wbit (memWord s (groupAddr s g)) 63 then
        let d := readGroup s g
        if decide (d.result ≤ a) && decide (a < d.result + statusOff d + 32) then some d else none
      else none))

/-- Mark a stamp as poisoned at a partition's commit unit (R110, R246). -/
def poisonStamp (s : State) (p st : Nat) : State :=
  modPart s p (fun k => if k.poisoned.contains st then k else { k with poisoned := k.poisoned ++ [st] })

/-- Write the copies of a RED_RES: each is checked as a request of its own (R16, R227); the status of the first
refused copy. -/
def writeCopies (s : State) (d : GroupD) (q : Packet) : State × Nat :=
  (List.range d.fanout).foldl (fun (u, st) j =>
    let k := { q with addr := q.addr + j * 0x2000000, tokV := d.tokV, token := d.tok }
    let (u1, st1) := match reqCheck u k with
      | (0, _) => performWrite u k
      | (e, _) => (u, e)
    (u1, if st = 0 then st1 else st)) (s, 0)

/-- The scratchpad places of a RED_RES: those of its copies. -/
def resPlaces (d : Option GroupD) (q : Packet) : List (Nat × Nat) :=
  match d with
  | none => storePlace q
  | some d => (List.range d.fanout).flatMap (fun j => storePlace { q with addr := q.addr + j * 0x2000000 })

/-- The status unit of a NORM group with FLAG poisons its stamp (R246). -/
def normPoison (s : State) (d : GroupD) (q : Packet) : State :=
  let bs := payloadBytes q.payload
  if decide (q.addr = d.result + statusOff d) && d.norm && (bs.getD 4 0).toNat % 2 = 1 then
    poisonStamp s d.part (ofBytesLE (bs.take 4))
  else s

/-- Perform a RED_RES at a hub (R477, R246): it waits as a whole while one of its copies must (log entry 108). -/
def handleRes (s : State) (v : Via) (q : Packet) : State × Option Packet :=
  match reqCheck s q with
  | (0, _) =>
    match matchGroup s q.addr with
    | .error _ => (countDev s 0x4704 1, some (answerOf s q 4 [] 0))
    | .ok od =>
      let n := 8 * q.payload.length
      if extWaits s (resPlaces od q) n then (holdExt s (resPlaces od q) n (.perform v q), none)
      else
        let (s1, st) := match od with
          | none => performWrite s q
          | some d => writeCopies (normPoison s d q) d q
        (if st = 0 then s1 else countDev s1 (0x4700 + st) 1, some (answerOf s q st [] 0))
  | (st, _) => (refuse s (viaHub v) q st, some (answerOf s q st [] 0))

/-- A request performed at this device, RED_WR excepted. -/
def handleReq1 (s : State) (v : Via) (q : Packet) : State × Option Packet :=
  if q.ty = 0x0E then handleRes s v q else handleReq s v q

/-- Bytes as payload words, whole flits (R217). -/
def asPayload (bs : List Byte) : List (Word × Bool) :=
  asWords (bs ++ List.replicate ((32 - bs.length % 32) % 32) 0)

/-- Cut bytes that go to address `a` into pieces of at most 256 bytes that cross no 256-byte boundary;
`fuel` bounds their number. -/
def cutAt : Nat → Nat → List Byte → List (Nat × List Byte)
  | 0, _, _ => []
  | _ + 1, _, [] => []
  | fuel + 1, a, bs =>
    let n := 256 - a % 256
    (a, bs.take n) :: cutAt fuel (a + n) (bs.drop n)

/-- Send one result packet: to a multicast group, or to each member device. -/
def sendRes (s : State) (g : Nat) (d : GroupD) (nodes : List Nat) (addr : Nat) (first last : Bool)
    (bs : List Byte) : State :=
  let mk := fun (u : State) (dst : Nat) =>
    { reqPacket u 0x0E d.tc dst d.part addr 0xFF 0 (asPayload bs) with
      first := first, last := last, tokV := d.tokV, token := d.tok }
  if d.mc ≠ 0xFFFF then
    let k := { mk s 0 with mc := true, dst := d.mc }
    let r : ErgReq := ⟨k, .engine g, d.part, 0xFF, 0, mcastList s d.mc, none, none, now s, true, 0⟩
    let s0 := { s with ergReqs := s.ergReqs ++ [r] }
    if 0xFFF < d.mc then respBase { s0 with ergReqs := s.ergReqs } r (answerOf s0 k 6 [] 0)
    else
      let s1 := if fabValid s0 then replicate s0 (4 + g % 2) k else s0
      if mcastLocal s1 d.mc then
        match handleRes s1 (.own (g % 2)) k with
        | (s2, some a) => respBase s2 r a
        | (s2, none) => s2
      else s1
  else
    nodes.foldl (fun u n =>
      let k := mk u n
      sendReq handleReq1 u (isSelf u n) ⟨k, .engine g, d.part, 0xFF, 0, [n], none, none, now u, true, 0⟩) s

/-- The status unit (R245). -/
def statusUnit (d : GroupD) (stamp : Nat) (flag nonfin : Bool) : List Byte :=
  bytesLE 4 stamp ++ bytesLE 4 (b2n flag + 2 * b2n nonfin) ++ bytesLE 4 d.n ++ bytesLE 20 0

/-- The nodes of every member, or of the multicast group where the result has one; none where a table does not
read. -/
def resultNodes (s : State) (d : GroupD) : Option (List Nat) :=
  if d.mc = 0xFFFF then ((List.range d.n).mapM (memberNode s d)).map (·.eraseDups)
  else if 0xFFF < d.mc then some [] else mcastMembers s d.mc

/-- The root's last chunk has been combined: the result goes to every member device (R245). An unreadable table
fails the reduction (R247). -/
def sendResult (s : State) (g : Nat) (d : GroupD) (roots : List Chunk) : State :=
  match resultNodes s d with
  | none => collFail s d.part g 0 3 true
  | some nodes =>
  let els := (roots.flatMap (·.vals)).map (rootElem d)
  let nonfin := d.op ≠ 2 && (els.any (fun (v, _) =>
    if d.rfmt ≤ 3 then (fvOf d.rfmt v).special else (fvOf 8 v).special))
  let flag := roots.any (·.flag) || els.any (·.2) || nonfin
  let bs := packElems d.rfmt (els.map (·.1))
  let pieces := cutAt (bs.length + 1) d.result bs
  let s1 := pieces.zipIdx.foldl (fun u ((a, b), i) => sendRes u g d nodes a (i = 0) false b) s
  sendRes s1 g d nodes (d.result + statusOff d) false true
    (statusUnit d ((roots.map (·.stamp)).headD 0) flag nonfin)

/-! ### Staging (R244) -/

/-- Chunks of a reduction. -/
def chunkCount (d : GroupD) : Nat := (d.e + 63) / 64

/-- The reduction key (R244). -/
def redKey (flag : Bool) (g m c : Nat) : Nat := b2n flag <<< 47 + g <<< 39 + m <<< 19 + c

/-- Put a node's chunk into staging; a right-hand node whose parent belongs to another device is sent
there; the root's last chunk sends the result. -/
def stageAdd (s : State) (g : Nat) (d : GroupD) (k : Chunk) : State :=
  let put := fun (u : State) (l : List Chunk) => { u with erg := { u.erg with staging := l } }
  if k.a = 0 ∧ k.b = d.n then
    let l := s.erg.staging ++ [k]
    let roots := (List.range (chunkCount d)).filterMap (fun c =>
      l.find? (fun x => x.group = g && x.chunk = c && x.a = 0 && x.b = d.n))
    if roots.length = chunkCount d then
      sendResult (put s (l.filter (fun x => !(x.group = g && x.a = 0 && x.b = d.n)))) g d roots
    else put s l
  else
    match parentNode d.n k.a k.b with
    | some (lo, m, _) =>
      match memberNode s d lo with
      | none => collFail s d.part g k.a 3 true
      | some node =>
        if k.a = m && !isSelf s node then
          let q := reqPacket s 0x0D d.tc node d.part (redKey k.flag g k.a k.chunk) 0xFF 0
            (asPayload (k.vals.flatMap (fun v => bytesLE 4 v.toNat)))
          sendReq handleReq1 s false ⟨q, .engine g, d.part, 0xFF, 0, [node], none, none, now s, true, 0⟩
        else put s (s.erg.staging ++ [k])
    | none => put s (s.erg.staging ++ [k])

/-- A BF16 or FP16 element widened exactly to binary32 (R98, R243): BF16 is its high half; every FP16 value,
subnormals and −0 included, has a binary32 encoding. -/
def widenLeaf (fmt code : Nat) : W32 :=
  if fmt = 0 then (if (fvOf 0 code).isNan then nan32 else widenBf16 code)
  else if code % 0x8000 = 0 then BitVec.ofNat 32 (code * 65536)
  else rne32 (fvOf fmt code)

/-- Elements of a leaf or partial payload as 32-bit values. -/
def redVals (fmt n : Nat) (bs : List Byte) : List W32 :=
  (List.range n).map (fun i =>
    if fmt = 0 ∨ fmt = 1 then widenLeaf fmt (elemBits (fun a => bs.getD a 0) fmt 0 i)
    else BitVec.ofNat 32 (ofBytesLE ((bs.drop (4 * i)).take 4)))

/-- A RED_WR reaches the group's engine (R244, R247).  `stamp` is the step stamp of the leaf where this
device knows it; a packet carries none, and it is then a free value. -/
def handleRed (s : State) (v : Via) (q : Packet) (stamp : Option Nat) : State × Option Packet :=
  let g := bitsOf q.addr 46 39
  let m := bitsOf q.addr 38 19
  let c := bitsOf q.addr 18 0
  let d := readGroup s g
  let bad := fun (u : State) (st : Nat) => (refuse u (viaHub v) q st, some (answerOf u q st [] 0))
  if ctlState s = 2 then bad s 7
  else if malformed q then bad s 1
  else if !d.valid || memBadIn s (groupAddr s g) 64 then bad (collFail s d.part g m 1 true) 2
  else if !groupOk s d || decide (d.n ≤ m) || decide (chunkCount d ≤ c) then bad (collFail s d.part g m 2 true) 2
  else if partState s d.part ≠ 1 then bad s 7
  else if !jobSrcOk s q d.part then bad s 2
  else if payloadBad q.payload then (countDev s 0x4704 1, some (answerOf s q 4 [] 0))
  else
    match memberNode s d m with
    | none => (collFail s d.part g m 3 true, some (answerOf s q 4 [] 0))
    | some node =>
      let leaf := isSelf s node
      let n := min 64 (d.e - 64 * c)
      let vals := redVals (if leaf then d.lfmt else 8) n (payloadBytes q.payload)
      let (f, s0) := useFree s
      let st := match stamp with
        | some n => n
        | none => (Config.freeWord f 0).toNat % 2 ^ 32
      let k : Chunk := ⟨g, c, m, if leaf then m + 1 else rightEnd d.n m, vals,
        decide (bitsOf q.addr 47 47 = 1) || (d.op ≠ 2 && vals.any special32), st, now s⟩
      (stageAdd s0 g d k, some (answerOf s q 0 [] 0))

/-- Any request performed at this device. -/
def handleAny (s : State) (v : Via) (q : Packet) : State × Option Packet :=
  if q.ty = 0x0D then handleRed s v q none else handleReq1 s v q

/-- REDUCTION_COMBINE (R244): combine one node's chunk whose children are both present. -/
def reductionCombine (s : State) (hub g c : Nat) : State :=
  if g % 2 ≠ hub then s
  else
    let d := readGroup s g
    let l := s.erg.staging.filter (fun k => k.group = g && k.chunk = c)
    let pair := l.findSome? (fun x =>
      match parentNode d.n x.a x.b with
      | some (lo, m, hi) =>
        if x.a = lo then (l.find? (fun y => y.a = m && y.b = hi)).map (fun y => (x, y)) else none
      | none => none)
    match pair with
    | none => s
    | some (x, y) =>
      let s1 := { s with erg := { s.erg with staging := (s.erg.staging.erase x).erase y } }
      stageAdd s1 g d (combineChunk d (now s) x y)

/-- Is a child chunk's sibling staged beside it? -/
def siblingIn (d : GroupD) (l : List Chunk) (k : Chunk) : Bool :=
  match parentNode d.n k.a k.b with
  | some (lo, m, hi) => l.any (fun y => y.group = k.group && y.chunk = k.chunk &&
      (if k.a = lo then y.a = m && y.b = hi else y.a = lo && y.b = m))
  | none => false

/-- COLL_SIBLING_TIMEOUT (R247): a child chunk has waited for its sibling, which has not come. -/
def collTimeout (s : State) (hub g c : Nat) : State :=
  if g % 2 ≠ hub then s
  else
    let d := readGroup s g
    match s.erg.staging.find? (fun k => k.group = g && k.chunk = c && !(k.a = 0 && k.b = d.n) &&
        !siblingIn d s.erg.staging k) with
    | none => s
    | some k => collFail s d.part g k.a 0 true

end Sys2Proof.Machine
end

