-- ==== Sys2Proof/Machine/Checkpoint.lean ====
section
/-! DEFINITION. The checkpoint engines (R365–R377, R381): opening an epoch, the page copies, the relay,
the fill and the repair of a version table.  Commands: CKPT_GO, CKPT_PAGE_READ_START,
CKPT_PAGE_COPY_DONE, CKPT_COPY0_COMPLETE, CKPT_RELAY_COMPLETE, CKPT_CANCEL, CKPT_FILL_GO,
CKPT_FILL_COMPLETE, CKPT_VFIX, CKPT_PSTATE_SET. -/

namespace Sys2Proof.Machine

def pageBytes : Nat := 0x200000

/-- Does page number `n` exist and lie in the stacks of partition `p` (R366)? -/
def pageOk (s : State) (p n : Nat) : Bool :=
  if n ≤ 0xBFFFF then
    (List.range 6).all (fun i => partReachesStack s p (6 * (n * pageBytes / 0x006000000000) + i))
  else if 0x100000 ≤ n ∧ n ≤ 0x13FFFF then
    (List.range 4).all (fun i => partReachesStack s p (24 + 4 * ((n - 0x100000) * pageBytes / 0x004000000000) + i))
  else false

/-- The pages of a run list, in list order; none past the limit of an epoch. -/
def runPages : List Word → Nat → Option (List Nat)
  | [], _ => some []
  | w :: t, left =>
    let n := wfld w 19 0 + 1
    if left < n then none
    else (runPages t (left - n)).map (fun l => (List.range n).map (· + wfld w 52 32) ++ l)

/-- The pages of a valid run list (R365, R366). -/
def listPages (s : State) (p : Nat) (runs : List Word) : Option (List Nat) :=
  match runPages runs 261632 with
  | some l => if l.all (pageOk s p) && decide l.Nodup then some l else none
  | none => none

/-- Page images begin here in a store of `n` pages (R370). -/
def storeData (n : Nat) : Nat := pageBytes * (1 + (n + 65535) / 65536)

/-- A store header (R370). -/
def storeHeader (s : State) (valid : Bool) (copy : Nat) : List Byte :=
  let k := s.ckpt
  let dig := k.pages.zipIdx.flatMap (fun (_, i) => digestBytes (kGet 0 k.digests i))
  let h := bytesLE 4 0x54504B43 ++ bytesLE 1 (b2n valid + 2 * copy) ++ bytesLE 1 (ckptPart s) ++
    bytesLE 2 (nodeId s) ++ bytesLE 4 (rget s rCKPT_EPOCH fCKPT_EPOCH_GEN) ++ bytesLE 4 k.closed ++
    bytesLE 1 (wrapTo 8 k.l) ++ bytesLE 1 0 ++ bytesLE 2 k.clean ++ bytesLE 2 k.raise ++
    bytesLE 2 0x0101 ++ bytesLE 4 k.pages.length ++ bytesLE 4 k.runs.length ++
    bytesLE 8 (rget s rCKPT_TIME fCKPT_TIME_TIME_OPEN) ++ bytesLE 8 (if valid then k.timeDone else 0) ++
    (if valid then digestBytes (shake256 dig) else bytesLE 32 0)
  h ++ bytesLE (256 - h.length) 0

/-! ### Requests of the engines (R371, R376) -/

/-- Failure cause of a request that is refused or times out: 4 for a fill, else 3. -/
def reqCause (s : State) : Nat := if ckptState s = 3 then 4 else 3

/-- The node and base address of the store a request goes to: the stores of the epoch, or the fill's. -/
def storeAt (s : State) (store : Nat) : Nat × Nat × Nat :=
  if ckptState s = 3 then
    (rget s rCKPT_FILL fCKPT_FILL_NODE, rget s rCKPT_FILL fCKPT_FILL_BASE * pageBytes,
      rget s rCKPT_DJOB fCKPT_DJOB_FILL_JOB)
  else
    (rget s (rCKPT_DEST store) fCKPT_DEST_NODE, rget s (rCKPT_DEST store) fCKPT_DEST_BASE * pageBytes,
      if store = 0 then rget s rCKPT_DJOB fCKPT_DJOB_JOB0 else rget s rCKPT_DJOB fCKPT_DJOB_JOB1)

def modCkpt (s : State) (f : Ckpt → Ckpt) : State := { s with ckpt := f s.ckpt }

/-- A request of an engine is answered: a read's payload is kept (fill) or written on to store 1 (relay). -/
def ckptResp (s : State) (r : ErgReq) (q : Packet) : State :=
  let s1 := { s with ergReqs := s.ergReqs.erase r }
  if q.status ≠ 0 then ckptFail s1 (reqCause s1)
  else if r.pkt.ty ≠ 0x08 then s1
  else if payloadBad q.payload then ckptFail s1 7
  else
    let (_, base, _) := storeAt s1 0
    let off := r.pkt.addr - base
    let bs := payloadBytes q.payload
    if ckptState s1 = 3 then modCkpt s1 (fun k => { k with buf := memPutBytes k.buf off bs })
    else modCkpt s1 (fun k => { k with wrq := k.wrq ++ [(1, off, bs)] })

/-- The engine of a place in a store (R214, R369): page `i` belongs to H(i mod 2), what stands before the pages
to H0. -/
def ckptHub (s : State) (off : Nat) : Nat :=
  let d := storeData s.ckpt.pages.length
  if off < d then 0 else (off - d) / pageBytes % 2

/-- Send one request of an engine: class 5, the JOB of its store. -/
def ckptSend (s : State) (store off : Nat) (data : Option (List Byte)) (len : Nat) : State :=
  let (node, base, job) := storeAt s store
  let k := { reqPacket s (if data.isSome then 0x09 else 0x08) 5 node (ckptPart s) (base + off) 0xFF
      (if data.isSome then 0 else BitVec.ofNat 64 ((len + 31) / 32)) (asPayload (data.getD [])) with job := job }
  let hub := ckptHub s off
  let r : ErgReq := ⟨k, .ckpt hub, ckptPart s, 0xFF, 0, [k.dst], none, none, now s, true, 0⟩
  let s1 := { s with ergReqs := s.ergReqs ++ [r] }
  if isSelf s1 node then
    match handleReq1 s1 (.own hub) k with
    | (s2, some a) => ckptResp s2 r a
    | (s2, none) => s2
  else if !fabValid s1 then s1
  else
    match routeOf s1 k.dst 5 with
    | some p => enq s1 (4 + hub) p k
    | none => ckptResp s1 r (answerOf s1 k 6 [] 0)

/-- Send waiting writes and reads, in pieces of at most 256 bytes, while fewer than 256 requests of the
engines await a response. -/
def ckptPump : Nat → State → State
  | 0, s => s
  | fuel + 1, s =>
    if 256 ≤ (ckptReqs s).length then s
    else
      match s.ckpt.wrq, s.ckpt.rdq with
      | (store, off, bs) :: t, _ =>
        let n := 256 - off % 256
        let rest := if bs.length ≤ n then t else (store, off + n, bs.drop n) :: t
        ckptPump fuel (ckptSend (modCkpt s (fun k => { k with wrq := rest })) store off (some (bs.take n)) 0)
      | [], (store, off, len) :: t =>
        let n := min len (256 - off % 256)
        let rest := if len ≤ n then t else (store, off + n, len - n) :: t
        ckptPump fuel (ckptSend (modCkpt s (fun k => { k with rdq := rest })) store off none n)
      | [], [] => s

/-- Requests that the queues hold. -/
def ckptPieces (s : State) : Nat :=
  ((s.ckpt.wrq.map (fun (q : Nat × Nat × List Byte) => (q.2.1 % 256 + q.2.2.length) / 256 + 1)) ++
    (s.ckpt.rdq.map (fun (q : Nat × Nat × Nat) => (q.2.1 % 256 + q.2.2) / 256 + 1))).sum

def ckptIdle (s : State) : Bool := s.ckpt.wrq.isEmpty && s.ckpt.rdq.isEmpty && (ckptReqs s).isEmpty

/-- Count a page of epoch index `i` as done. -/
def pageDone (s : State) (i : Nat) : State :=
  let e := rCKPT_ENG (i % 2)
  rput (rput s e fCKPT_ENG_PAGES (rget s e fCKPT_ENG_PAGES + 1)) rCKPT_CTRL fCKPT_CTRL_PAGES_DONE
    (rget s rCKPT_CTRL fCKPT_CTRL_PAGES_DONE + 1)

/-- SHAKE256 over a page's number and content (R370). -/
def pageDigest (n : Nat) (bs : List Byte) : BitVec 256 := shake256 (bytesLE 4 n ++ bs)

/-- Bytes of what a fill has read. -/
def bufBytes (k : Ckpt) (off n : Nat) : List Byte := (List.range n).map (fun i => smGet 0 k.buf (off + i))

def bufNat (k : Ckpt) (off n : Nat) : Nat := ofBytesLE (bufBytes k off n)

/-- The bytes of the run list of a store, in whole read units. -/
def runBytes (runs : Nat) : Nat := (8 * runs + 31) / 32 * 32

/-- Copy 0: once every page is acknowledged, the digests; then the complete header (R371). -/
def copyAdvance (s : State) : Option State :=
  let k := s.ckpt
  if k.phase = 0 ∧ k.copied.length = k.pages.length then
    let dig := k.pages.zipIdx.flatMap (fun (_, i) => digestBytes (kGet 0 k.digests i))
    some (modCkpt s (fun k => { k with timeDone := now s, phase := 1, wrq := [(0, 0x100000, dig)] }))
  else if k.phase = 1 then
    some (modCkpt s (fun k => { k with phase := 2, wrq := [(0, 0, storeHeader s true 0)] }))
  else none

/-- The relay: once the same bytes stand in store 1, its complete header (R372). -/
def relayAdvance (s : State) : Option State :=
  if s.ckpt.phase = 0 then
    let s1 := modCkpt s (fun k => { k with timeDone := now s })
    some (modCkpt s1 (fun k => { k with phase := 1, wrq := [(1, 0, storeHeader s1 true 1)] }))
  else none

/-- The fill (R376): header, run list, digests, then page by page, each written to its address and its
digest checked. -/
def fillAdvance (s : State) : Option State :=
  let k := s.ckpt
  let p := ckptPart s
  if k.phase = 0 then
    let runs := bufNat k 28 4
    if bufNat k 0 4 ≠ 0x54504B43 || (bufNat k 4 1) % 2 ≠ 1 || runs = 0 || decide (65536 < runs) then some (ckptFail s 2)
    else some (modCkpt s (fun k => { k with phase := 1, rdq := [(0, 0x1000, runBytes runs)] }))
  else if k.phase = 1 then
    let runs := (List.range (bufNat k 28 4)).map (fun i => BitVec.ofNat 64 (bufNat k (0x1000 + 8 * i) 8))
    match listPages s p runs with
    | none => some (ckptFail s 2)
    | some l => some (modCkpt s (fun k => { k with phase := 2, runs := runs, pages := l
                                                   rdq := [(0, 0x100000, 32 * l.length)] }))
  else if k.phase = 2 then
    some (modCkpt s (fun k => { k with phase := 3, rdq := [(0, storeData k.pages.length, pageBytes)] }))
  else if k.phase = 3 then
    let i := k.copied.length
    let n := k.pages.getD i 0
    let bs := bufBytes k (storeData k.pages.length + i * pageBytes) pageBytes
    let s1 := pageDone (memWrite s (n * pageBytes) bs) i
    let d := pageDigest n bs
    let keep := smKeep (fun o => decide (o < storeData k.pages.length))
    let s2 := modCkpt s1 (fun k => { k with copied := k.copied ++ [i], digests := kSet k.digests i d
                                            buf := keep k.buf })
    if BitVec.ofNat 256 (bufNat k (0x100000 + 32 * i) 32) ≠ d then some (ckptFail s2 5)
    else if i + 1 < k.pages.length then
      some (modCkpt s2 (fun k => { k with rdq := [(0, storeData k.pages.length + (i + 1) * pageBytes, pageBytes)] }))
    else some (modCkpt s2 (fun k => { k with phase := 4 }))
  else none

/-- The next step of the job at hand, when there is one. -/
def ckptAdvance (s : State) : Option State :=
  if ckptState s = 1 then copyAdvance s
  else if ckptState s = 2 then relayAdvance s
  else if ckptState s = 3 then fillAdvance s
  else none

/-- Send what waits; when all is answered, take the next step of the job; `fuel` bounds the steps. -/
def ckptRun : Nat → State → State
  | 0, s => s
  | fuel + 1, s =>
    let s1 := ckptPump (ckptPieces s) s
    if ckptIdle s1 then
      match ckptAdvance s1 with
      | some s2 => ckptRun fuel s2
      | none => s1
    else s1

/-- The most steps a job takes. -/
def ckptFuel : Nat := 262144

/-! ### Requests of the driver -/

/-- A refused request: ERR and CAUSE only (R365). -/
def ckptRefuse (s : State) (cause : Nat) : State :=
  rput (rset s rCKPT_CTRL fCKPT_CTRL_ERR) rCKPT_CTRL fCKPT_CTRL_CAUSE cause

/-- Does a partition's version table hold a PENDING slot? -/
def hasPending (s : State) (p : Nat) : Bool :=
  (List.range (rget s (rPART_VCOUNT p) fPART_VCOUNT_COUNT)).any (fun i =>
    let a := descAddr s p i
    let d := readDesc s a
    (d.kind = 1 || d.kind = 2) && isTier a && (ringSlots d).any (fun (_, v) => v.st = 2))

/-- The run list of the epoch in tier memory; none where it lies outside tier 1 or does not read. -/
def epochRuns (s : State) : Option (List Word) :=
  let a := rget s rCKPT_LIST fCKPT_LIST_BASE * 8
  let n := rget s rCKPT_LIST fCKPT_LIST_RUNS_M1 + 1
  if isTier1 a && isTier1 (a + 8 * n - 1) && !memBadIn s a (8 * n) then
    some ((List.range n).map (fun i => memWord s (a + 8 * i)))
  else none

/-- Start a job: its state, and the counts of pages at zero. -/
def ckptBegin (s : State) (st : Nat) : State :=
  let s1 := rput (rput s rCKPT_CTRL fCKPT_CTRL_STATE st) rCKPT_CTRL fCKPT_CTRL_PAGES_DONE 0
  rput (rput s1 (rCKPT_ENG 0) fCKPT_ENG_PAGES 0) (rCKPT_ENG 1) fCKPT_ENG_PAGES 0

/-- CKPT_GO (R365, R367): the epoch opens in one operation, or is refused. -/
def ckptGo (s : State) : State :=
  let p := ckptPart s
  let k := partOf s p
  if partState s p ≠ 1 || hasPending s p || !k.poisoned.isEmpty || ckptState s ≠ 0 then ckptRefuse s 1
  else
    match epochRuns s with
    | none => ckptRefuse s 2
    | some runs =>
      match listPages s p runs with
      | none => ckptRefuse s 2
      | some l =>
        let s1 := rwr (ckptBegin s 1) rCKPT_TIME (nowW s)
        let c : Ckpt := { Ckpt.reset with
          pages := l, runs := runs, prot := l, image := s.mem, imageBad := s.memBad, imageUndef := s.memUndef
          closed := k.closed.getD 0, l := k.lscale, clean := k.lsC, raise := k.lsN }
        let s2 := { s1 with ckpt := c }
        ckptRun ckptFuel (modCkpt s2 (fun c => { c with
          wrq := [(0, 0, storeHeader s2 false 0), (0, 0x1000, runs.flatMap (fun w => bytesLE 8 w.toNat))] }))

/-- Pages whose read data an engine still holds: being read, or not yet wholly sent. -/
def bufHeld (s : State) (hub : Nat) : Nat :=
  let k := s.ckpt
  let d := storeData k.pages.length
  (k.reading.filter (fun (_, h) => h = hub)).length +
    ((k.wrq.filter (fun (_, o, _) => decide (d ≤ o))).filter (fun (_, o, _) => ((o - d) / pageBytes) % 2 = hub)).length

/-- The page an engine reads next (R369), as an epoch index: pages on which writes wait, in order of first
wait, then the rest in ascending order. -/
def nextPage (k : Ckpt) (hub : Nat) : Option Nat :=
  let free := fun i => i % 2 = hub && !k.copied.contains i && !k.reading.any (fun (j, _) => j = i)
  match (k.waiting.filterMap (fun n => k.pages.findIdx? (· = n))).find? free with
  | some i => some i
  | none => (List.range k.pages.length).find? free

/-- CKPT_PAGE_READ_START (R369). -/
def pageReadStart (s : State) (hub i : Nat) : State :=
  if ckptState s = 1 && decide (bufHeld s hub < 8) && nextPage s.ckpt hub = some i then
    modCkpt s (fun k => { k with reading := k.reading ++ [(i, hub)] })
  else s

/-- CKPT_PAGE_COPY_DONE (R368–R370): the page as it stood at TIME_OPEN goes to the store, its protection
clears and held writes go on; a codeword that does not read ends the epoch. -/
def pageCopyDone (s : State) (hub i : Nat) : State :=
  if ckptState s = 1 && s.ckpt.reading.contains (i, hub) then
    let k := s.ckpt
    let n := k.pages.getD i 0
    let a := n * pageBytes
    let bad := k.imageBad.any (fun (w, _) => pageOf (8 * w) = n) ||
      (List.range 8192).any (fun j => tierDown s (a + 256 * j))
    if bad then ckptFail s 7
    else
      let bs := (List.range pageBytes).map (fun j => cellByte k.image k.imageUndef (a + j))
      let s1 := modCkpt s (fun k => { k with
        reading := k.reading.erase (i, hub), copied := k.copied ++ [i], prot := k.prot.erase n
        waiting := k.waiting.erase n, digests := kSet k.digests i (pageDigest n bs)
        wrq := k.wrq ++ [(0, storeData k.pages.length + i * pageBytes, bs)] })
      ckptRun ckptFuel (releaseHeld (pageDone s1 i))
  else s

/-- CKPT_COPY_DONE of copy `c`. -/
def copyEvent (s : State) (c : Nat) : State :=
  raisePart s (ckptPart s) 0x30 0xFF 0
    [BitVec.ofNat 64 (rget s rCKPT_EPOCH fCKPT_EPOCH_GEN <<< 32 + c), BitVec.ofNat 64 s.ckpt.timeDone]

/-- CKPT_COPY0_COMPLETE (R371, R372): copy 0 is complete; the relay starts, or the epoch ends. -/
def copy0Complete (s : State) : State :=
  if ckptState s = 1 && s.ckpt.phase = 2 && ckptIdle s then
    let s1 := copyEvent s 0
    if rflag s rCKPT_EPOCH fCKPT_EPOCH_NCOPY2 then
      let k := s1.ckpt
      let n := k.pages.length
      let s2 := rput s1 rCKPT_CTRL fCKPT_CTRL_STATE 2
      ckptRun ckptFuel (modCkpt s2 (fun k => { k with
        phase := 0, wrq := [(1, 0, storeHeader s2 false 1)]
        rdq := [(0, 0x1000, runBytes k.runs.length), (0, 0x100000, 32 * n), (0, storeData n, n * pageBytes)] }))
    else rput (ckptStop s1) rCKPT_CTRL fCKPT_CTRL_STATE 0
  else s

/-- CKPT_RELAY_COMPLETE (R372). -/
def relayComplete (s : State) : State :=
  if ckptState s = 2 && s.ckpt.phase = 1 && ckptIdle s then
    rput (ckptStop (copyEvent s 1)) rCKPT_CTRL fCKPT_CTRL_STATE 0
  else s

/-- CKPT_FILL_GO (R376). -/
def ckptFillGo (s : State) : State :=
  if ckptState s ≠ 0 || !(poursOf s (ckptPart s)).isEmpty then ckptRefuse s 1
  else ckptRun ckptFuel { ckptBegin s 3 with ckpt := { Ckpt.reset with rdq := [(0, 0, 256)] } }

/-- CKPT_FILL_COMPLETE (R376): IMAGE_DIGEST is checked and the fill ends. -/
def fillComplete (s : State) : State :=
  if ckptState s = 3 && s.ckpt.phase = 4 && ckptIdle s then
    let k := s.ckpt
    let dig := shake256 (bufBytes k 0x100000 (32 * k.pages.length))
    if BitVec.ofNat 256 (bufNat k 48 32) ≠ dig then ckptFail s 5
    else
      let s1 := rput (ckptStop s) rCKPT_CTRL fCKPT_CTRL_STATE 0
      raisePart s1 (ckptPart s1) 0x32 0xFF 0
        [BitVec.ofNat 64 (rget s rCKPT_EPOCH fCKPT_EPOCH_GEN <<< 32), rd s rCKPT_FILL]
  else s

/-- A descriptor as the repair leaves it (R377). -/
def fixDesc (d : VDesc) : VDesc :=
  { d with slots := d.slots.map (fun v => { v with hold := 0, st := if v.st = 1 ∨ v.st = 2 then 0 else v.st }) }

/-- CKPT_VFIX (R377). -/
def ckptVfix (s : State) : State :=
  let p := ckptPart s
  if !(poursOf s p).isEmpty then ckptRefuse s 1 else mapDescs s p fixDesc

/-- A write of CKPT_CTRL: the W1C bit, then CANCEL, GO, FILL_GO and VFIX. -/
def ckptCtrlWrite (s : State) (v : Word) : State :=
  let s1 := if wbit v 16 then rput s rCKPT_CTRL fCKPT_CTRL_ERR 0 else s
  let s2 := if wbit v 1 then ckptFail s1 6 else s1
  let s3 := if wbit v 0 then ckptGo s2 else s2
  let s4 := if wbit v 2 then ckptFillGo s3 else s3
  if wbit v 3 then ckptVfix s4 else s4

/-- A write of CKPT_PSTATE (R377): with SET, the partition's C, L and highest closed stamp. -/
def ckptPstateWrite (s : State) (v : Word) : State :=
  let s1 := regSet s rCKPT_PSTATE v
  let p := ckptPart s1
  if !wbit v 0 then s1
  else if !(poursOf s1 p).isEmpty then ckptRefuse s1 1
  else
    mirrorLscale (modPart s1 p (fun k => { k with
      closed := some (wfld v 63 32), lsC := wfld v 31 16, lscale := signedOf 8 (wfld v 15 8), poisoned := [] }))
      p none

/-- CKPT_ENG_h as read: WAITING counts the protected pages on which writes wait (R382). -/
def ckptEngW (s : State) (h : Nat) : Word :=
  let n := (s.ckpt.waiting.filter (fun g => match s.ckpt.pages.findIdx? (· = g) with
    | some i => i % 2 = h
    | none => false)).length
  wput (rd s (rCKPT_ENG h)) 63 48 n

/-! ### Commands -/

/-- CKPT_GO (R365): a write of CKPT_CTRL with GO. -/
def execCkptGo (value : Word) (s : State) : Out := .next (ckptCtrlWrite s (value ||| 1))

/-- CKPT_PAGE_READ_START (R369). -/
def execCkptPageReadStart (hub page : Nat) (s : State) : Out :=
  onUnit (hub < 2) "CKPT_PAGE_READ_START" (.next (pageReadStart s hub page))

/-- CKPT_PAGE_COPY_DONE (R368). -/
def execCkptPageCopyDone (hub page : Nat) (s : State) : Out :=
  onUnit (hub < 2) "CKPT_PAGE_COPY_DONE" (.next (pageCopyDone s hub page))

/-- CKPT_COPY0_COMPLETE (R371). -/
def execCkptCopy0Complete (s : State) : Out := .next (copy0Complete s)

/-- CKPT_RELAY_COMPLETE (R372). -/
def execCkptRelayComplete (s : State) : Out := .next (relayComplete s)

/-- CKPT_CANCEL (R373): a write of CKPT_CTRL with CANCEL. -/
def execCkptCancel (value : Word) (s : State) : Out := .next (ckptCtrlWrite s (value ||| 2))

/-- CKPT_FILL_GO (R376): a write of CKPT_CTRL with FILL_GO. -/
def execCkptFillGo (value : Word) (s : State) : Out := .next (ckptCtrlWrite s (value ||| 4))

/-- CKPT_FILL_COMPLETE (R376). -/
def execCkptFillComplete (s : State) : Out := .next (fillComplete s)

/-- CKPT_VFIX (R377): a write of CKPT_CTRL with VFIX. -/
def execCkptVfix (value : Word) (s : State) : Out := .next (ckptCtrlWrite s (value ||| 8))

/-- CKPT_PSTATE_SET (R377): a write of CKPT_PSTATE with SET. -/
def execCkptPstateSet (value : Word) (s : State) : Out := .next (ckptPstateWrite s (value ||| 1))

end Sys2Proof.Machine
end

