-- ==== Sys2Proof/Machine/Faults.lean ====
section
/-! DEFINITION. Fences, self-test during work, the health monitor, driver reports and the CPER ring
(R348–R364, R478).  Commands: FLT_FENCE_WRITE, UNFENCE_COMPLETE, FLT_ST_GO, FLT_ST_CANCEL,
SELFTEST_REQUEST_START, RUNTIME_SELFTEST_PHASE_DONE, HEALTH_MONITOR_TICK,
FLT_HM_CTRL_WRITE, FLT_REPORT, CE_SUMMARY_PERIOD, FLT_CPER_HEAD_WRITE, FLT_STATE_CLEAR. -/

namespace Sys2Proof.Machine

/-! ### Self-test requests (R349–R352) -/

/-- The cores a self-test request names. -/
def stNamed (s : State) : List Nat := coreMaskList s rFLT_ST_CORES

def stQueued (s : State) : Bool := rflag s rFLT_ST_CTRL fFLT_ST_CTRL_QUEUED
def stRunning (s : State) : Bool := rflag s rFLT_ST_CTRL fFLT_ST_CTRL_RUNNING

/-- Write the failure mask FLT_ST_FAIL_i. -/
def setFailMask (s : State) (l : List Nat) : State :=
  (List.range 3).foldl (fun t i => rwr t (rFLT_ST_FAIL i) (BitVec.ofNat 64
    (ofBitList ((l.filter (fun c => c / 64 = i)).map (· % 64))))) s

/-- Every scratchpad word of a core is zero with valid check bits and its sequencer caches are
empty (R176, R54). -/
def cleanCore (k : Core) : Core := { k with spm := [], spmBad := [], spmCtl := [], spmOver := [], iLines := [], dLines := [] }

/-- The end of a request: the failure mask and SELFTEST_DONE (R350). -/
def stFinish (s : State) (failed : List Nat) : State :=
  let s1 := setFailMask s failed
  let s2 := rput (rput s1 rFLT_ST_CTRL fFLT_ST_CTRL_RUNNING 0) rFLT_ST_CTRL fFLT_ST_CTRL_QUEUED 0
  let s3 := { s2 with flt := { s2.flt with selfTest := ⟨0, 0, []⟩ } }
  raiseDev s3 0x24 0xFF [rd s3 rFLT_ST_CTRL, rd s3 (rFLT_ST_FAIL 0), rd s3 (rFLT_ST_FAIL 1), rd s3 (rFLT_ST_FAIL 2)]

/-- A named core that becomes FAULT or unfenced ends the request: every core that did not complete
is reported failed with cause ENDED (R349). -/
def stEndedBy (s : State) (c : Nat) : State :=
  if (stQueued s || stRunning s) && (stNamed s).contains c then
    stFinish s (stNamed s)
  else s

/-- The RW fields of FLT_ST_CTRL and its W1C bit (R364). -/
def stCtrlFields (s : State) (value : Word) : State :=
  let s1 := rput (rput s rFLT_ST_CTRL fFLT_ST_CTRL_ROUNDS (wfld value 63 48)) rFLT_ST_CTRL
    fFLT_ST_CTRL_CONTENT (wfld value 10 8)
  if wbit value 5 then rput s1 rFLT_ST_CTRL fFLT_ST_CTRL_REJECT 0 else s1

/-- GO (R349): one request is queued, or refused with REJECT. -/
def stGo (s : State) : State :=
  if stQueued s || stRunning s || decide ((stNamed s).length < 2) then
    rset s rFLT_ST_CTRL fFLT_ST_CTRL_REJECT
  else
    rset (setFailMask { s with flt := { s.flt with selfTest := ⟨0, 0, []⟩ } } [])
      rFLT_ST_CTRL fFLT_ST_CTRL_QUEUED

/-- CANCEL (R349): the queued or running request ends. -/
def stCancel (s : State) : State :=
  let s1 := rput (rput s rFLT_ST_CTRL fFLT_ST_CTRL_QUEUED 0) rFLT_ST_CTRL fFLT_ST_CTRL_RUNNING 0
  { s1 with flt := { s1.flt with selfTest := ⟨0, 0, []⟩ } }

/-- A write of FLT_ST_CTRL. -/
def stCtrlWrite (s : State) (value : Word) : State :=
  let s1 := stCtrlFields s value
  let s2 := if wbit value 1 then stCancel s1 else s1
  if wbit value 0 then stGo s2 else s2

/-- The first phase at or after `n` that CONTENT selects: 0 SRAM, 1 PARITY, 2 ARRAY; 3 when none is
left (R350). -/
def stPhaseFrom (content n : Nat) : Nat :=
  if n ≤ 0 ∧ content.testBit 0 then 0 else if n ≤ 1 ∧ content.testBit 1 then 1
  else if n ≤ 2 ∧ content.testBit 2 then 2 else 3

/-- After the last phase: scratchpads scrubbed, sequencer caches dropped, SELFTEST_DONE (R350). -/
def stComplete (s : State) : State :=
  let s1 := (stNamed s).foldl (fun t c => modCore t c cleanCore) s
  stFinish s1 s.flt.selfTest.failed

/-- SELFTEST_REQUEST_START (R349): once every named core is fenced TEST.  The test leaves the scratchpads of
its cores undefined until it ends (log entry 79). -/
def stStart (s : State) : State :=
  if stQueued s && (stNamed s).all (fun c => fenceOf s c = 2) then
    let s1 := rset (rput s rFLT_ST_CTRL fFLT_ST_CTRL_QUEUED 0) rFLT_ST_CTRL fFLT_ST_CTRL_RUNNING
    let ph := stPhaseFrom (rget s rFLT_ST_CTRL fFLT_ST_CTRL_CONTENT) 0
    let s2 := { s1 with flt := { s1.flt with selfTest := ⟨ph, 0, []⟩ } }
    if ph = 3 then stComplete s2
    else
      let (n, s3) := useFree s2
      (stNamed s).foldl (fun t c => modCore t c (fun k => undefSpm k n 0 0x1000000)) s3
  else s

/-- RUNTIME_SELFTEST_PHASE_DONE (R350): the phase ends with the cores that failed it; the ARRAY
phase ends after its ROUNDS rounds. -/
def stPhaseDone (s : State) (failed : List Nat) : State :=
  let t := s.flt.selfTest
  if stRunning s && (t.phase < 2 || decide (rget s rFLT_ST_CTRL fFLT_ST_CTRL_ROUNDS ≤ t.round)) then
    let bad := t.failed ++ failed.filter (fun c => (stNamed s).contains c && !t.failed.contains c)
    let ph := stPhaseFrom (rget s rFLT_ST_CTRL fFLT_ST_CTRL_CONTENT) (t.phase + 1)
    let s1 := { s with flt := { s.flt with selfTest := { t with phase := ph, failed := bad } } }
    if ph = 3 then stComplete s1 else s1
  else s

/-! ### Fences (R348, R355, R356) -/

/-- FLT_FENCE_STATUS with its counts (R364). -/
def fenceStatusW (s : State) : Word :=
  wput (wput (rd s rFLT_FENCE_STATUS) 7 0 (fencedCores s 1).length) 15 8 (fencedCores s 2).length

/-- A core's fence has changed: FENCE_CHANGED (R363). -/
def fenceChanged (s : State) (c v : Nat) : State :=
  raiseDev s 0x22 c [BitVec.ofNat 64 (c + v <<< 8), fenceStatusW s]

/-- Write one core's fence field with the value `v`. -/
def fenceCore (s : State) (c v : Nat) : State :=
  let old := fenceOf s c
  if v = 1 then
    let s0 := { s with flt := { s.flt with unfencing := s.flt.unfencing.filter (· ≠ c) } }
    if old = 1 then s0
    else
      let s1 := killCore (setFence s0 c 1) c 0x03
      let s2 := cperWrite s1 { cperInfo 0 0x10 (dieOfCore c) 11 0 with core := c }
      stEndedBy (fenceChanged s2 c 1) c
  else if v = 2 then
    if old = 2 then s
    else if coreQuiet (coreOf s c) then fenceChanged (setFence s c 2) c 2
    else rset s rFLT_FENCE_STATUS fFLT_FENCE_STATUS_REJECT
  else if v = 0 then
    if old = 2 then stEndedBy (fenceChanged (setFence s c 0) c 0) c
    else if old = 1 ∧ !s.flt.unfencing.contains c then
      { s with flt := { s.flt with unfencing := s.flt.unfencing ++ [c] } }
    else s
  else s

/-- FLT_FENCE_WRITE (R355, R357): every field of the register, then DRAIN when more than 8 cores are
fenced FAULT. -/
def fenceWrite (s : State) (i : Nat) (value : Word) : State :=
  let s1 := ((List.range 32).filter (fun j => decide (32 * i + j < nCores))).foldl
    (fun t j => fenceCore t (32 * i + j) (wfld value (2 * j + 1) (2 * j))) s
  if (fencedCores s1 1).length > 8 then enterDrain s1 else s1

/-- UNFENCE_COMPLETE (R356): the scratchpad is scrubbed, the sequencer caches dropped, and the core
is unfenced. -/
def unfenceComplete (s : State) (c : Nat) : State :=
  if s.flt.unfencing.contains c then
    let s1 := { s with flt := { s.flt with unfencing := s.flt.unfencing.filter (· ≠ c) } }
    stEndedBy (fenceChanged (setFence (modCore s1 c cleanCore) c 0) c 0) c
  else s

/-! ### The health monitor (R353, R354) -/

/-- Weight of monitor input `i` (R364: input 4k + j in bits [16j+15:16j] of FLT_HM_W_k). -/
def hmWeight (s : State) (i : Nat) : Nat := wfld (rd s (rFLT_HM_W (i / 4))) (16 * (i % 4) + 15) (16 * (i % 4))

/-- Highest junction reading over all dies. -/
def tjMax (s : State) : Nat := ((List.range 7).map (fun d => rget s (rPWR_DIE d) fPWR_DIE_TJ)).foldl max 0

/-- The accumulator after a tick (R353). -/
def hmAccum (s : State) (h : Nat) : Nat :=
  let sh := max 1 (rget s rFLT_HM_CTRL fFLT_HM_CTRL_DECAY_SHIFT)
  let h1 := h - h >>> sh
  let h2 := h1 + ((List.range 11).map (fun i => hmWeight s i * kGet 0 s.flt.events i)).foldl (· + ·) 0
  let h3 := h2 + hmWeight s 11 * (tjMax s - rget s rFLT_HM_CTRL fFLT_HM_CTRL_TREF)
  min h3 0xFFFFFFFF

/-- HEALTH_MONITOR_TICK (R353, R354). -/
def hmTick (s : State) : State :=
  let h := hmAccum s (rget s rFLT_HM_RISK fFLT_HM_RISK_H)
  let risk := min 255 (h >>> 8)
  let th := rget s rFLT_HM_CTRL fFLT_HM_CTRL_THRESH
  let hy := rget s rFLT_HM_CTRL fFLT_HM_CTRL_HYST
  let s1 := { s with flt := { s.flt with events := [] } }
  let s2 := rput (rput s1 rFLT_HM_RISK fFLT_HM_RISK_H h) rFLT_HM_RISK fFLT_HM_RISK_RISK risk
  if rflag s rFLT_HM_RISK fFLT_HM_RISK_ARMED then
    if th ≠ 0 ∧ th ≤ risk then
      let s3 := rput (rset s2 rFLT_HM_RISK fFLT_HM_RISK_SECURE) rFLT_HM_RISK fFLT_HM_RISK_ARMED 0
      raiseDev s3 0x21 0xFF [rd s3 rFLT_HM_RISK]
    else s2
  else if th ≠ 0 ∧ (if th ≤ hy then risk = 0 else risk < th - hy) then
    rset s2 rFLT_HM_RISK fFLT_HM_RISK_ARMED
  else s2

/-- FLT_HM_CTRL_WRITE (R354): THRESH 0 disarms, THRESH becoming non-zero arms at once. -/
def hmCtrlWrite (s : State) (value : Word) : State :=
  let old := rget s rFLT_HM_CTRL fFLT_HM_CTRL_THRESH
  let v := wput (wput value 63 32 0) 23 20 0
  let s1 := rwr s rFLT_HM_CTRL v
  if wfld value 7 0 = 0 then rput s1 rFLT_HM_RISK fFLT_HM_RISK_ARMED 0
  else if old = 0 then rset s1 rFLT_HM_RISK fFLT_HM_RISK_ARMED else s1

/-- FLT_REPORT (R364): an input-10 event and an informational CPER record. -/
def fltReport (s : State) (value : Word) : State :=
  let c := wfld value 39 32
  cperWrite (monEvent s 10 1)
    { cperInfo 3 10 (if c < nCores then dieOfCore c else 6) 11 0 with core := c, stamp := wfld value 31 0 }

/-- CE_SUMMARY_PERIOD (R361): one corrected summary record for each structure whose corrected count
rose. -/
def ceSummary (s : State) : State :=
  let s1 := s.flt.ceRise.foldl (fun t ((d, c, u, i), n) =>
    cperWrite t { cperInfo 2 0 d u i with core := c, count := n }) s
  { s1 with flt := { s1.flt with ceRise := [] } }

/-- FLT_CPER_HEAD_WRITE (R478). -/
def cperHeadWrite (s : State) (value : Word) : State :=
  let v := wfld value 31 0
  if headMoveOk (rget s rFLT_CPER_HEAD fFLT_CPER_HEAD_HEAD) (rget s rFLT_CPER_PTR fFLT_CPER_PTR_NEXT) v then
    rput s rFLT_CPER_HEAD fFLT_CPER_HEAD_HEAD v
  else s

/-- FLT_STATE_CLEAR (R358): CLEAR with KEY 0x5A clears the replacement mark and REPLACE. -/
def fltStateClear (s : State) (value : Word) : State :=
  if wfld value 15 8 = 0x5A ∧ wbit value 2 then
    rput { s with mram := { s.mram with replaceMark := false } } rFLT_STATE fFLT_STATE_REPLACE 0
  else s

/-! ### Commands -/

def execFltFenceWrite (i : Nat) (value : Word) (s : State) : Out :=
  onUnit (i < 5) "FLT_FENCE_WRITE" (.next (fenceWrite s i value))

def execUnfenceComplete (c : Nat) (s : State) : Out :=
  onUnit (c < nCores) "UNFENCE_COMPLETE" (.next (unfenceComplete s c))

/-- FLT_ST_GO (R349): a write of FLT_ST_CTRL. -/
def execFltStGo (value : Word) (s : State) : Out := .next (stCtrlWrite s (value ||| 1))

/-- FLT_ST_CANCEL (R349): a write of FLT_ST_CTRL. -/
def execFltStCancel (value : Word) (s : State) : Out := .next (stCtrlWrite s (value ||| 2))

def execSelftestRequestStart (s : State) : Out := .next (stStart s)

def execRuntimeSelftestPhaseDone (failed : List Nat) (s : State) : Out := .next (stPhaseDone s failed)

def execHealthMonitorTick (s : State) : Out := .next (hmTick s)

def execFltHmCtrlWrite (value : Word) (s : State) : Out := .next (hmCtrlWrite s value)

def execFltReport (value : Word) (s : State) : Out := .next (fltReport s value)

def execCeSummaryPeriod (s : State) : Out := .next (ceSummary s)

def execFltCperHeadWrite (value : Word) (s : State) : Out := .next (cperHeadWrite s value)

def execFltStateClear (value : Word) (s : State) : Out := .next (fltStateClear s value)

end Sys2Proof.Machine
end

