-- ==== Sys2Proof/Machine/Tier.lean ====
section
/-! DEFINITION. The tier controllers (R196–R212): requests and slots, calendars, refresh, temperature,
training, soft repair, the meters a request passes on its way (R14, R319), and the die-to-die links (R13).
Commands: TUYERE_REFILL, TIER_REQUEST_ARRIVAL, TIER_SLOT, REFRESH_DEBT_TICK, STACK_TEMP_READ, STACK_TEMP_LOST, TIER_CAL_ARM, TIER_CAL_ACTIVATE,
TIER_TRAINING_LOSS, TIER_RETRAIN_TIMEOUT, TIER_PPR_GO, TIER_PPR_COMPLETE, D2D_FRAME_RECEIVE,
D2D_LANE_LOCK_LOSS. -/

namespace Sys2Proof.Machine

/-- Channels and banks per channel of a controller (R196). -/
def ctlChans (n : Nat) : Nat := if n < 24 then 32 else 16
def ctlBanks (n : Nat) : Nat := if n < 24 then 64 else 32

/-- The greatest source code of a controller's sources (Table: Calendar sources). -/
def ctlSources (n : Nat) : Nat := if n < 24 then 4 else 5

/-- The channel number of the counters, and its unit number of doze (R469). -/
def chanIndex (n c : Nat) : Nat := if n < 24 then 32 * n + c else 768 + 16 * (n - 24) + c
def chanUnit (n c : Nat) : Nat := if n < 24 then 3052 + 32 * n + c else 3820 + 16 * (n - 24) + c

def chanCount (s : State) (n c k : Nat) : State := countDev s (16 * chanIndex n c + k) 1

def ctlDie (n : Nat) : Nat := if n < 24 then n / 6 else 4 + (n - 24) / 4

/-- The calendar in force: 0 default mode, 1 and 2 the stores. -/
def calActive (s : State) (n : Nat) : Nat := rget s (rTIER_CAL_CTRL n) fTIER_CAL_CTRL_ACTIVE

/-! ### Calendars (R202, R206) -/

/-- Entry `i` of store `st`. -/
def tierEntry (s : State) (n st i : Nat) : Nat := wfld (rd s (rTIER_CAL n st (i / 4))) (16 * (i % 4) + 15) (16 * (i % 4))

def tierF (s : State) (n st : Nat) : Nat := rget s (rTIER_CAL_LEN n st) fTIER_CAL_LEN_F_M1 + 1

/-- The entry of a channel's next slot; in default mode every slot is OPEN with no REF mark. -/
def chanEntry (s : State) (n c : Nat) : Nat :=
  let a := calActive s n
  if a = 0 ∨ a = 3 then 0xF
  else
    let skew := rget s (rTIER_CAL_LEN n (a - 1)) fTIER_CAL_LEN_SKEW
    tierEntry s n (a - 1) (((chanOf (tctlOf s n) c).slot + c * skew) % tierF s n (a - 1))

/-- Is an entry free of reserved codes and bits? -/
def entryOk (n e : Nat) : Bool := decide (e < 64) && (decide (e % 16 ≤ ctlSources n) || e % 16 = 15)

/-- The check at ARM (R206). -/
def tierCalOk (s : State) (n st : Nat) : Bool :=
  let f := tierF s n st
  let es := (List.range f).map (tierEntry s n st)
  es.all (entryOk n) &&
  (List.range f).all (fun i => (List.range 64).any (fun j => es.getD ((i + j) % f) 0 % 16 = 15))

/-- Is store `st` the active one, whose entries and length take no write (R206)? -/
def tierStoreBusy (s : State) (n st : Nat) : Bool := decide (calActive s n = st + 1)

/-- A write of TIER_CAL_CTRL (R206). -/
def tierCalWrite (s : State) (n : Nat) (v : Word) : State :=
  let s1 := regSet s (rTIER_CAL_CTRL n) v
  if !wbit v 0 then s1
  else
    let tgt := if !wbit v 1 then 0 else if calActive s1 n = 1 then 2 else 1
    if tgt ≠ 0 && !tierCalOk s1 n (tgt - 1) then rset s1 (rTIER_CAL_CTRL n) fTIER_CAL_CTRL_BAD
    else rput (modTctl s1 n (fun t => { t with armed := some tgt })) (rTIER_CAL_CTRL n) fTIER_CAL_CTRL_PENDING 1

/-- TIER_CAL_ACTIVATE: the armed calendar is in force and slots are numbered anew. -/
def tierCalActivate (s : State) (n : Nat) : State :=
  match (tctlOf s n).armed with
  | none => s
  | some tgt =>
    let s1 := modTctl s n (fun t => { t with
      armed := none
      chans := t.chans.map (fun (c, k) => (c, { k with slot := 0 })) })
    let s2 := rput (rput s1 (rTIER_CAL_CTRL n) fTIER_CAL_CTRL_PENDING 0) (rTIER_CAL_CTRL n) fTIER_CAL_CTRL_ACTIVE tgt
    traceRec s2 7 (ctlDie n) 0xFF 0 false (BitVec.ofNat 64 (tierBase n)) (BitVec.ofNat 64 tgt)

/-! ### Answers -/

/-- The controller answers a request: `status` in the codes of R220, `poison` where the codewords it delivers are
poisoned (R200).  A pour of a core that meets an error response or a poisoned codeword aborts with UNCORRECTED
(R26, R199, R201; for a controller that is down, log entry 91). -/
def tierAnswer (s : State) (n : Nat) (r : TierReq) (status : Nat) (poison : Bool) : State :=
  let s1 := modTctl s n (fun t => { t with answers := t.answers ++ [⟨r, status, poison⟩] })
  match r.agent with
  | .core c x => if status = 0 && !poison then s1 else beginAbort s1 c x 0x04 0
  | _ => s1

/-- Every request in the queues of a controller, channel by channel. -/
def tierWaiting (t : TCtl) : List TierReq := t.chans.flatMap (fun (_, k) => k.queues.flatMap (·.2))

/-- Every request queued or held at a controller is answered with an error (R210, R211). -/
def tierFlush (s : State) (n : Nat) : State :=
  let t := tctlOf s n
  let l := tierWaiting t ++ t.held.map (fun (_, _, r) => r)
  let s1 := modTctl s n (fun t => { t with
    held := []
    chans := t.chans.map (fun (c, k) => (c, { k with queues := [], rmw := [], tries := [] })) })
  l.foldl (fun u r => tierAnswer u n r 4 false) s1

/-! ### Controller faults (R210) -/

/-- A controller fault: FAULT, every waiting request answered with an error, and a shared-structure
fault. -/
def tierFault (s : State) (n : Nat) : State :=
  if (tctlOf s n).faulted then s
  else
    let s1 := tierFlush (modTctl s n (fun t => { t with faulted := true, retraining := false })) n
    let s2 := rput s1 (rTIER_ERR n) fTIER_ERR_FAULT 1
    sharedFault s2 (ctlDie n) 5 (if n < 24 then n else n - 24) (rd s2 (rTIER_ERR n))

/-- The poison marks of a line (log entry 46): the line reads as poisoned until it is written, or until a
read of it passes. -/
def markLine (s : State) (line : Nat) (b : Bool) : State :=
  (List.range 32).foldl (fun u i => setBad u (line * 256 + 8 * i) b) s

/-- A line is delivered poisoned (R200): the flags, the first line's channel and address, the count, the
monitor and a CPER record.  Sixteen distinct lines poisoned by CRC within 1 ms fault the controller. -/
def poisonLine (s : State) (n c : Nat) (r : TierReq) (crc : Bool) : State :=
  let line := r.addr / 256
  let s1 := if rflag s (rTIER_ERR n) fTIER_ERR_POISON then s
    else rwr (rput s (rTIER_ERR n) fTIER_ERR_CHANNEL c) (rTIER_ERR_ADDR n) (BitVec.ofNat 64 (line * 256))
  let s2 := chanCount (rset s1 (rTIER_ERR n) fTIER_ERR_POISON) n c 3
  let s3 := markLine s2 line true
  let s4 := cperWrite (monEvent s3 2 1)
    { cperInfo 0 2 (ctlDie n) 5 (if n < 24 then n else n - 24) with
      part := r.part, addr := line * 256, detail := rd s3 (rTIER_ERR n), memAddr := some (line * 256) }
  if !crc then s4
  else
    let keep := (tctlOf s4 n).poison.filter (fun (l, t) => l ≠ line && decide (now s4 < t + 1000000))
    let s5 := modTctl s4 n (fun t => { t with poison := keep ++ [(line, now s4)] })
    if 16 ≤ (tctlOf s5 n).poison.length then tierFault s5 n else s5

/-! ### Requests (R14, R202, R203, R319, R368) -/

/-- The source of a request at a controller (Table: Calendar sources). -/
def sourceOf (n : Nat) (r : TierReq) : Nat :=
  match r.agent with
  | .core c _ =>
    if n < 24 ∧ dieOfCore c ≠ n / 6 then 3 else if r.data.isSome then 2 else 1
  | .coll _ => if n < 24 then 4 else 3
  | .ckpt _ => 4
  | .erg _ => if n < 24 then 4 else 5
  | .control _ => if n < 24 then 4 else 5

/-- The die a requester is on; a request of the control node comes through a hub (R202, R214). -/
def agentDie : Agent → Nat
  | .core c _ => dieOfCore c
  | .erg p => 4 + p / 6
  | .coll h => 4 + h
  | .ckpt h => 4 + h
  | .control _ => 4 + localHub 0xFF

/-- Does the device have the requester? -/
def agentOk : Agent → Bool
  | .core c x => decide (c < nCores) && decide (x < 4)
  | .erg p => decide (p < 12)
  | .coll h => decide (h < 2)
  | .ckpt h => decide (h < 2)
  | .control k => decide (k < 2)

/-- Payload bytes of a request: what it writes, or the line it reads. -/
def tierBytes (r : TierReq) : Nat :=
  match r.data with
  | some bs => bs.length
  | none => 256

/-- The links the payload of a request crosses: from the requester's die for a write, to it for a read (R12). -/
def tierRoute (n : Nat) (r : TierReq) : List Nat :=
  if r.data.isSome then dieRoute (agentDie r.agent) (ctlDie n) else dieRoute (ctlDie n) (agentDie r.agent)

/-- The metered paths of a request with what each takes: its payload on each link, and a line of 256 bytes at
a tier-2 controller (Table: Metered paths). -/
def tierPaths (n : Nat) (r : TierReq) : List (Nat × Nat) :=
  ((hopsOf (tierRoute n r)).filterMap (fun (x, y) => hopMeter x y)).map (fun p => (p, tierBytes r)) ++
  (if n < 24 then [] else [(20 + (n - 24) / 4, 256)])

/-- A request that has passed its meters reaches its controller: it joins its source's queue, or is held at a
protected page or behind a held request of its requester; a dozing channel begins to wake.  A controller that
has faulted or is under repair answers it with an error. -/
def tierEnter (s : State) (n : Nat) (r : TierReq) : State :=
  let t := tctlOf s n
  if t.faulted || t.repair.isSome then tierAnswer s n r 4 false
  else
    let c := channelOf r.addr
    let src := sourceOf n r
    let s1 := wakeUnit s (chanUnit n c)
    if t.held.any (fun (_, _, q) => q.agent = r.agent) || (r.data.isSome && ckptProtected s1 r.addr) then
      let p := pageOf r.addr
      let s2 := modTctl s1 n (fun t => { t with held := t.held ++ [(c, src, r)] })
      if r.data.isSome && ckptProtected s2 r.addr && !s2.ckpt.waiting.contains p then
        { s2 with ckpt := { s2.ckpt with waiting := s2.ckpt.waiting ++ [p] } }
      else s2
    else modTctl s1 n (fun t => joinQueue t c src r)

/-- TIER_REQUEST_ARRIVAL: a request whose meters pass it enters; another waits for credit (R319). -/
def tierArrival (s : State) (n : Nat) (r : TierReq) : State :=
  let s0 := modTctl s n (fun t => { t with answers := [] })
  if pathsPass s0 r.part (tierPaths n r) then tierEnter (pathsTake s0 r.part (tierPaths n r)) n r
  else { s0 with metered := s0.metered ++ [(n, r)] }

/-- Waiting requests whose meters now pass them enter, in order of arrival. -/
def tierRelease : List (Nat × TierReq) → State → State
  | [], s => s
  | (n, r) :: l, s =>
    if pathsPass s r.part (tierPaths n r) then tierRelease l (tierEnter (pathsTake s r.part (tierPaths n r)) n r)
    else tierRelease l { s with metered := s.metered ++ [(n, r)] }

/-- TUYERE_REFILL: the credit rises, and requests that waited for it go on. -/
def tuyereTick (s : State) (p path : Nat) : State :=
  let s1 := tuyereRefill s p path
  let s2 := tierRelease s1.metered { s1 with metered := [] }
  ergRelease s2.erg.metered { s2 with erg := { s2.erg with metered := [] } }

/-! ### Refresh (R208) -/

/-- Refresh the next bank of the rotation; it is busy for RFC_SLOTS slots. -/
def refreshBank (n : Nat) (k : TChan) : TChan :=
  { k with debt := k.debt - 1, nextBank := (k.nextBank + 1) % ctlBanks n,
           busy := k.busy.filter (fun (b, _) => b ≠ k.nextBank) ++ [(k.nextBank, if n < 24 then 42 else 12)] }

/-- Does a REF mark apply at the refresh rate in force? -/
def refApplies (s : State) (n ref : Nat) : Bool :=
  let r := rget s (rTIER_TEMP n) fTIER_TEMP_RATE
  ref = 1 || (ref = 2 && decide (1 ≤ r)) || (ref = 3 && decide (2 ≤ r))

/-- REFRESH_DEBT_TICK: the debt rises by one; at the threshold (8, or 1 in default mode) the next bank is
refreshed at once, counted as forced while a calendar is active.  A channel that dozes in DZ2 wakes for it; one
in self-refresh (DZ3) gains no debt (R406). -/
def debtTick (s : State) (n c : Nat) : State :=
  let u := dozeOf s (chanUnit n c)
  let k := chanOf (tctlOf s n) c
  let k1 := { k with debt := min 8 (k.debt + 1) }
  let dflt := decide (calActive s n = 0)
  if u.dz = 3 then s
  else if (if dflt then 1 else 8) ≤ k1.debt then
    let s0 := if u.dz ≠ 0 ∧ u.waking = false then setDoze s (chanUnit n c) { u with waking := true } else s
    let s1 := modTctl s0 n (fun t => setChan t c (refreshBank n k1))
    if dflt then s1 else chanCount s1 n c 4
  else modTctl s n (fun t => setChan t c k1)

/-- The REF mark of a slot's entry. -/
def slotRefresh (s : State) (n c entry : Nat) : State :=
  if !refApplies s n (entry / 16 % 4) then s
  else
    let k := chanOf (tctlOf s n) c
    if -8 < k.debt then modTctl s n (fun t => setChan t c (refreshBank n k)) else chanCount s n c 5

/-! ### Slots (R204, R205) -/

/-- Record an overrun slot in TIER_OVR_LOG and TIER_OVR_TIME (R205). -/
def overrunLog (s : State) (n c src bank cause : Nat) : State :=
  let w : Word := BitVec.ofNat 64 (c <<< 58 + bank <<< 52 + src <<< 48 + cause <<< 44 + 1)
  modTctl (rwr (rwr s (rTIER_OVR_LOG n) w) (rTIER_OVR_TIME n) (nowW s)) n (fun t => { t with eventOwed := true })

/-- Have HOLDOFF microseconds passed since the last CALENDAR_OVERRUN event? -/
def overrunDue (s : State) (n : Nat) : Bool :=
  match (tctlOf s n).lastEvent with
  | some t => decide (t + rget s (rTIER_CTRL n) fTIER_CTRL_HOLDOFF * 1000 ≤ now s)
  | none => true

/-- An overrun slot of a channel (R205): counted by cause; the first after VALID was cleared is recorded; and
CALENDAR_OVERRUN is delivered once HOLDOFF has passed since the last one, where VALID was cleared meanwhile. -/
def tierOverrun (s : State) (n c src bank cause : Nat) : State :=
  if calActive s n = 0 then s
  else
    let s1 := countDev s (16 * chanIndex n c + 8 + cause) 1
    let s2 := if rflag s1 (rTIER_OVR_LOG n) fTIER_OVR_LOG_VALID then s1 else overrunLog s1 n c src bank cause
    if (tctlOf s2 n).eventOwed && overrunDue s2 n then
      let s3 := modTctl s2 n (fun t => { t with lastEvent := some (now s2), eventOwed := false })
      raiseDev (monEvent s3 9 1) 0x01 0xFF [BitVec.ofNat 64 (tierBase n), rd s3 (rTIER_OVR_LOG n)]
    else s2

/-- Is a request performed as read, merge and write (R201): a write of part of a 32-byte unit, or an atomic
add? -/
def partialWrite (r : TierReq) : Bool :=
  match r.data with
  | none => false
  | some bs => r.add.isSome || r.addr % 32 ≠ 0 || bs.length % 32 ≠ 0

/-- Is the line of a request held by a read-merge-write of another source? -/
def lineHeld (k : TChan) (src : Nat) (r : TierReq) : Bool :=
  k.rmw.any (fun q => q ≠ src && (match kGet [] k.queues q with
    | h :: _ => h.addr / 256 = r.addr / 256
    | [] => false))

/-- Why a bank cannot take the access of a queue's head, if it cannot; `busy` are the banks whose timing the
stack has not yet met. -/
def headBlocked (k : TChan) (src : Nat) (busy : List Nat) (r : TierReq) : Option Nat :=
  if k.busy.any (fun (b, _) => b = bankOf r.addr) then some 1
  else if lineHeld k src r then some 3
  else if busy.contains (bankOf r.addr) then some 0
  else none

/-- The head of a queue leaves it. -/
def popHead (s : State) (n c src : Nat) : State :=
  modTctl s n (fun t =>
    let k := chanOf t c
    setChan t c { k with
      queues := kSet k.queues src ((kGet [] k.queues src).drop 1)
      rmw := k.rmw.filter (· ≠ src)
      tries := kSet k.tries src 0 })

/-- The head of a queue leaves it, answered. -/
def headDone (s : State) (n c src : Nat) (r : TierReq) (status : Nat) (poison : Bool) : State :=
  tierAnswer (popHead s n c src) n r status poison

/-- Failed attempts of the head of a queue so far. -/
def headTries (k : TChan) (src : Nat) : Nat := kGet 0 k.tries src

/-- One more failed attempt of the head of a queue: a reread or a resend is to come. -/
def tryAgain (s : State) (n c src kind : Nat) : State :=
  let s1 := modTctl s n (fun u =>
    let k := chanOf u c
    setChan u c { k with tries := kSet k.tries src (headTries k src + 1) })
  monEvent (chanCount s1 n c kind) 8 1

/-- A read of the head of a queue (R200): `result` is 0 when it passes, 1 with a corrected on-die error, 2 when
a CRC check fails, 3 when the stack reports it uncorrected; `done` follows a read that passes, `failed` one
whose line is delivered poisoned. -/
def serveRead (s : State) (n c src result : Nat) (r : TierReq) (done failed : State → State) : State :=
  let t := headTries (chanOf (tctlOf s n) c) src
  if result = 2 then
    if t < rget s (rTIER_CTRL n) fTIER_CTRL_RETRIES then tryAgain s n c src 1
    else failed (poisonLine s n c r true)
  else if result = 3 then failed (poisonLine (rset s (rTIER_ERR n) fTIER_ERR_ONDIE_UE) n c r false)
  else
    let s1 := if result = 1 then chanCount (rset s (rTIER_ERR n) fTIER_ERR_ONDIE_CE) n c 0 else s
    let s2 := if memBadIn s1 (r.addr / 256 * 256) 256 then markLine s1 (r.addr / 256) false else s1
    done (if 0 < t then rset s2 (rTIER_ERR n) fTIER_ERR_REREAD else s2)

/-- The bytes the write of a request stores: what it carries, or the sum with what is stored (R229). -/
def writtenBytes (s : State) (r : TierReq) : List Byte :=
  match r.data, r.add with
  | some bs, some ty => (atomicAdd ty (memBytes s r.addr bs.length) bs).1
  | some bs, none => bs
  | none, _ => []

/-- A write of the head of a queue: `result` 4 is a write-link error, resent at most 8 times (R199, R210). -/
def serveWrite (s : State) (n c src result : Nat) (r : TierReq) : State :=
  if result = 4 then
    if headTries (chanOf (tctlOf s n) c) src < 8 then tryAgain (rset s (rTIER_ERR n) fTIER_ERR_RESEND) n c src 2
    else tierFault s n
  else memWrite (headDone s n c src r 0 false) r.addr (writtenBytes s r)

/-- Serve the head of a queue: a write with an uncorrectable codeword is not performed (R199); a poisoned merge
read writes nothing (R201).  A request served shows that a retraining has succeeded. -/
def serveHead (s : State) (n c src result : Nat) (r : TierReq) : State :=
  let s0 := chanCount (modTctl s n (fun t => { t with retraining := false })) n c 6
  let k := chanOf (tctlOf s0 n) c
  if r.data.isNone then
    serveRead s0 n c src result r (fun u => headDone u n c src r 0 false) (fun u => headDone u n c src r 0 true)
  else if r.bad then headDone s0 n c src r 4 false
  else if partialWrite r && !k.rmw.contains src then
    serveRead s0 n c src result r
      (fun u => modTctl u n (fun t =>
        let k := chanOf t c
        setChan t c { k with rmw := k.rmw ++ [src], tries := kSet k.tries src 0 }))
      (fun u => headDone u n c src r 4 false)
  else serveWrite s0 n c src result r

/-- Sources in the order an OPEN slot takes them (R204): from the highest code down. -/
def openOrder (n : Nat) : List Nat := ((List.range (ctlSources n)).map (· + 1)).reverse

/-- The data access of a slot: in an OPEN slot the first queue whose head can be served. -/
def slotAccess (s : State) (n c src : Nat) (busy : List Nat) (result : Nat) : State :=
  let k := chanOf (tctlOf s n) c
  if src = 0 then s
  else if src = 15 then
    match (openOrder n).findSome? (fun q => match kGet [] k.queues q with
      | r :: _ => if (headBlocked k q busy r).isNone then some (q, r) else none
      | [] => none) with
    | some (q, r) => serveHead s n c q result r
    | none => s
  else
    match kGet [] k.queues src with
    | [] => s
    | r :: _ =>
      match headBlocked k src busy r with
      | some cause => tierOverrun s n c src (bankOf r.addr) cause
      | none =>
        let s1 := if 0 < headTries k src then tierOverrun s n c src (bankOf r.addr) 2 else s
        serveHead s1 n c src result r

/-- The end of a slot: slots advance, and the banks under refresh have one slot less to go. -/
def slotEnd (s : State) (n c : Nat) : State :=
  modTctl s n (fun t =>
    let k := chanOf t c
    setChan t c { k with
      slot := k.slot + 1
      busy := (k.busy.map (fun (b, m) => (b, m - 1))).filter (fun (_, m) => decide (0 < m)) })

/-- TIER_SLOT: one slot of a channel. `busy` names the banks whose timing does not admit an access, and
`result` tells how the stack performs the access.  A channel in doze serves nothing; one of a faulted controller
or of a stack under repair has nothing to serve, and its slots and refreshes go on (R202, R208). -/
def tierSlot (s : State) (n c : Nat) (busy : List Nat) (result : Nat) : State :=
  let s0 := modTctl s n (fun t => { t with answers := [] })
  let e := chanEntry s0 n c
  let src := e % 16
  let u := dozeOf s0 (chanUnit n c)
  let s1 :=
    if u.dz ≠ 0 ∨ u.waking = true then
      (match kGet [] (chanOf (tctlOf s0 n) c).queues src with
       | r :: _ => if src = 15 then s0 else tierOverrun s0 n c src (bankOf r.addr) 4
       | [] => s0)
    else slotAccess (slotRefresh s0 n c e) n c src busy result
  slotEnd s1 n c

/-! ### Temperature (R209) -/

/-- The refresh rate after a reading. -/
def rateAfter (old t : Nat) : Nat :=
  if 95 ≤ t ∨ (old = 2 ∧ 92 < t) then 2
  else if 85 ≤ t ∨ (1 ≤ old ∧ 82 < t) then 1
  else 0

/-- STACK_TEMP_READ. -/
def stackTemp (s : State) (n t : Nat) : State :=
  let r := rateAfter (rget s (rTIER_TEMP n) fTIER_TEMP_RATE) (t % 256)
  rput (rput s (rTIER_TEMP n) fTIER_TEMP_TEMP t) (rTIER_TEMP n) fTIER_TEMP_RATE r

/-- STACK_TEMP_LOST. -/
def stackTempLost (s : State) (n : Nat) : State :=
  rset (rput s (rTIER_TEMP n) fTIER_TEMP_RATE 2) (rTIER_ERR n) fTIER_ERR_TEMP_LOST

/-- The highest refresh debt of a controller's channels, for TIER_TEMP.DEBT_MAX. -/
def debtMax (s : State) (n : Nat) : Int :=
  ((List.range (ctlChans n)).map (fun c => (chanOf (tctlOf s n) c).debt)).foldl max (-8)

/-! ### Training and repair (R210, R211) -/

/-- TIER_TRAINING_LOSS: one retraining starts. -/
def trainingLoss (s : State) (n : Nat) : State :=
  if (tctlOf s n).faulted then s else modTctl s n (fun t => { t with retraining := true })

/-- TIER_RETRAIN_TIMEOUT. -/
def retrainTimeout (s : State) (n : Nat) : State := if (tctlOf s n).retraining then tierFault s n else s

/-- TIER_PPR_GO: the soft repair of the row named starts; the stack answers every request with an error until
it ends. -/
def pprGo (s : State) (n : Nat) (v : Word) : State :=
  let s1 := regSet s (rTIER_PPR n) v
  if wbit v 0 && (tctlOf s1 n).repair.isNone && !(tctlOf s1 n).faulted then
    tierFlush (modTctl s1 n (fun t => { t with answers := [], repair := some (wfld v 63 58, wfld v 57 52, wfld v 51 36) })) n
  else s1

/-- The tier address of byte `i` of a row of a channel and bank, the inverse of R197 and R198. -/
def rowByteAddr (n c bank row i : Nat) : Nat :=
  if n < 24 then
    let b := row <<< 8 + (bank / 16) <<< 6 + (bank % 4) <<< 4 + (bank / 4 % 4) <<< 2 + i / 256
    (n / 6) * 0x006000000000 + (6 * (32 * b + c) + n % 6) * 256 + i % 256
  else
    let m := n - 24
    let b := row <<< 8 + (bank / 16) <<< 7 + (bank % 4) <<< 5 + (bank / 4 % 4) <<< 3 + i / 256
    0x020000000000 + (m / 4) * 0x004000000000 + (4 * (16 * b + c) + m % 4) * 256 + i % 256

/-- TIER_PPR_COMPLETE: DONE or FAIL; the content of the row repaired is undefined until it is written. -/
def pprComplete (s : State) (n : Nat) (ok : Bool) : State :=
  match (tctlOf s n).repair with
  | none => s
  | some (c, b, r) =>
    let s1 := modTctl s n (fun t => { t with repair := none })
    if !ok then rset s1 (rTIER_PPR n) fTIER_PPR_FAIL
    else
      let (f, s2) := useFree s1
      let lines := if n < 24 then 4 else 8
      let s3 := (List.range lines).foldl (fun u j =>
        memUndefine u f (rowByteAddr n c b r (256 * j)) 256) s2
      rset s3 (rTIER_PPR n) fTIER_PPR_DONE

/-! ### Die-to-die links (R13) -/

/-- Die of a link's first end, for its CPER record. -/
def linkDie (l : Nat) : Nat := (linkEnds l).1

/-- D2D_FRAME_RECEIVE: a frame that fails its CRC is replayed and counted at the receiving end; its ninth
failure is a link fault. -/
def d2dFrame (s : State) (l dir : Nat) (ok : Bool) : State :=
  let key := 2 * l + dir
  if ok then { s with d2d := kSet s.d2d key 0 }
  else
    let n := kGet 0 s.d2d key + 1
    let s1 := { s with d2d := kSet s.d2d key n }
    if 9 ≤ n then sharedFault s1 (linkDie l) 6 l 0
    else monEvent (countDev s1 (0x4400 + key) 1) 7 1

/-! ### Commands -/

def tierOk (n c : Nat) : Bool := decide (n < 32) && decide (c < ctlChans n)

/-- TUYERE_REFILL (R319). -/
def execTuyereRefill (p path : Nat) (s : State) : Out :=
  onUnit (decide (p < nParts) && decide (path < 22)) "TUYERE_REFILL" (.next (tuyereTick s p path))

/-- TIER_REQUEST_ARRIVAL (R203): the channel is the address's, and the source the requester's. -/
def execTierRequestArrival (n c src : Nat) (r : TierReq) (s : State) : Out :=
  onUnit (decide (n < 32) && stackOf r.addr = some n && decide (c = channelOf r.addr) && agentOk r.agent &&
      decide (src = sourceOf n r))
    "TIER_REQUEST_ARRIVAL" (.next (tierArrival s n r))

def execTierSlot (n c : Nat) (busy : List Nat) (result : Nat) (s : State) : Out :=
  onUnit (tierOk n c) "TIER_SLOT" (.next (tierSlot s n c busy result))

def execRefreshDebtTick (n c : Nat) (s : State) : Out :=
  onUnit (tierOk n c) "REFRESH_DEBT_TICK" (.next (debtTick s n c))

def execStackTempRead (n t : Nat) (s : State) : Out := onUnit (n < 32) "STACK_TEMP_READ" (.next (stackTemp s n t))

def execStackTempLost (n : Nat) (s : State) : Out := onUnit (n < 32) "STACK_TEMP_LOST" (.next (stackTempLost s n))

/-- TIER_CAL_ARM (R206): a write of TIER_CAL_CTRL with ARM. -/
def execTierCalArm (n : Nat) (value : Word) (s : State) : Out :=
  onUnit (n < 32) "TIER_CAL_ARM" (.next (tierCalWrite s n (value ||| 1)))

def execTierCalActivate (n : Nat) (s : State) : Out := onUnit (n < 32) "TIER_CAL_ACTIVATE" (.next (tierCalActivate s n))

def execTierTrainingLoss (n : Nat) (s : State) : Out := onUnit (n < 32) "TIER_TRAINING_LOSS" (.next (trainingLoss s n))

def execTierRetrainTimeout (n : Nat) (s : State) : Out :=
  onUnit (n < 32) "TIER_RETRAIN_TIMEOUT" (.next (retrainTimeout s n))

/-- TIER_PPR_GO (R211): a write of TIER_PPR with GO. -/
def execTierPprGo (n : Nat) (value : Word) (s : State) : Out :=
  onUnit (n < 32) "TIER_PPR_GO" (.next (pprGo s n (value ||| 1)))

def execTierPprComplete (n : Nat) (ok : Bool) (s : State) : Out :=
  onUnit (n < 32) "TIER_PPR_COMPLETE" (.next (pprComplete s n ok))

def execD2dFrameReceive (l dir : Nat) (ok : Bool) (s : State) : Out :=
  onUnit (decide (l < 19) && decide (dir < 2)) "D2D_FRAME_RECEIVE" (.next (d2dFrame s l dir ok))

def execD2dLaneLockLoss (l : Nat) (s : State) : Out :=
  onUnit (l < 19) "D2D_LANE_LOCK_LOSS" (.next (sharedFault s (linkDie l) 6 l 0))

end Sys2Proof.Machine
end

