-- ==== Sys2Proof/Machine/Clocks.lean ====
section
/-! DEFINITION. PLLs, clock domains, the divider ramp, crossings and CLKOUT (R383–R398, R410).
Commands: PLL_LOCK, DIVIDER_RAMP_DWELL, PLL_LOSS_OF_LOCK, PLL_RELOCK_TIMEOUT, CLK_DOM_GO,
CLK_OUT_WRITE, CROSSING_TIMEOUT, CROSSING_RESUME. -/

namespace Sys2Proof.Machine

/-- The domain code that PLL `pll` of a die drives (R387). -/
def domOfPll (die pll : Nat) : Option Nat :=
  if die = 6 then (if pll = 0 then some 1 else if pll = 1 then some 2 else none)
  else if die < 4 then (if pll = 0 then some 3 else if pll = 1 then some 4 else if pll = 2 then some 5 else none)
  else if die < 6 then (if pll = 0 then some 6 else if pll = 1 then some 7 else none)
  else none

/-- The PLL that drives a domain code. -/
def pllOfDom (x : Nat) : Nat := if x = 2 ∨ x = 4 ∨ x = 7 then 1 else if x = 5 then 2 else 0

def pllRun (s : State) (die pll : Nat) : PllRun := kGet .off s.clk.plls (8 * die + pll)

def setPll (s : State) (die pll : Nat) (v : PllRun) : State :=
  { s with clk := { s.clk with plls := kSet s.clk.plls (8 * die + pll) v } }

def domRun (s : State) (die dom : Nat) : DomRun := kGet .held s.clk.doms (8 * die + dom)

def setDom (s : State) (die dom : Nat) (v : DomRun) : State :=
  { s with clk := { s.clk with doms := kSet s.clk.doms (8 * die + dom) v } }

/-- Does a domain instance run: ramping or at its full rate? -/
def domRuns (s : State) (die dom : Nat) : Bool :=
  match domRun s die dom with
  | .full => true
  | .rampUp => true
  | .rampDown => true
  | .onRef => true
  | .held => false
  | .gated => false

/-- The first start of a PLL domain (R390): the PLL is started and the domain waits on the
reference at ÷32. -/
def startDom (s : State) (die dom : Nat) : State :=
  let s1 := setDom (setPll s die (pllOfDom dom) .locking) die dom .onRef
  rput (rset s1 (rCLK_DOM die dom) fCLK_DOM_BUSY) (rCLK_DOM die dom) fCLK_DOM_DIV 5

/-- Output in kHz of the PLL settings in force: those of the last GO (R389), or the rated ones (R388). -/
def domSetKhz (s : State) (die dom : Nat) : Nat :=
  let r := regReset (rCLK_DOM die dom)
  kGet (pllKhz (wfld r 53 47) (wfld r 46 31) (wfld r 55 54)) s.clk.tuned (8 * die + dom)

/-- The clock of a domain changes back to its locked PLL at ÷32 and begins the upward ramp
(R390). -/
def domLocked (s : State) (die dom : Nat) : State :=
  let s1 := rput (rset s (rCLK_DOM die dom) fCLK_DOM_BUSY) (rCLK_DOM die dom) fCLK_DOM_DIV 5
  setDom (rput s1 (rCLK_DOM die dom) fCLK_DOM_KHZ (domSetKhz s die dom)) die dom .rampUp

/-- Record an unlock in CLK_PLL_ERR, whose fields hold while VALID is set, and raise PLL_UNLOCK
(R391, R411). -/
def pllUnlock (s : State) (die pll : Nat) (dead : Bool) : State :=
  let s1 := if rflag s rCLK_PLL_ERR fCLK_PLL_ERR_VALID then s
    else rwr s rCLK_PLL_ERR (BitVec.ofNat 64 (die <<< 13 + pll <<< 10 + b2n (!dead) <<< 9 + b2n dead <<< 8 + 1))
  raiseDev s1 0x41 0xFF [rd s1 rCLK_PLL_ERR]

/-- PLL_LOCK (R390, R391): a PLL that was started, retuned or lost reaches lock. -/
def pllLock (s : State) (die pll : Nat) : State :=
  match domOfPll die pll, pllRun s die pll with
  | some dom, .locking => domLocked (setPll s die pll .locked) die dom
  | some dom, .lost => pllUnlock (domLocked (setPll s die pll .locked) die dom) die pll false
  | _, _ => s

/-- DIVIDER_RAMP_DWELL (R390): one dwell ends. -/
def rampDwell (s : State) (die dom : Nat) : State :=
  let r := rCLK_DOM die dom
  let div := rget s r fCLK_DOM_DIV
  match domRun s die dom with
  | .rampDown =>
    if div < 4 then rput s r fCLK_DOM_DIV (div + 1)
    else
      let s1 := rput (rput s r fCLK_DOM_DIV 5) r fCLK_DOM_KHZ 50000
      setPll (setDom s1 die dom .onRef) die (pllOfDom dom) .locking
  | .rampUp =>
    if 1 < div then rput s r fCLK_DOM_DIV (div - 1)
    else setDom (rput (rput s r fCLK_DOM_DIV 0) r fCLK_DOM_BUSY 0) die dom .full
  | _ => s

/-- PLL_LOSS_OF_LOCK (R391): the PLL's outputs are gated at once and a relock is tried. -/
def pllLoss (s : State) (die pll : Nat) : State :=
  match domOfPll die pll, pllRun s die pll with
  | some dom, .locked => setDom (setPll s die pll .lost) die dom .gated
  | _, _ => s

/-- What a dead domain means for the rest of the device (R391): a fault of every tier controller that it clocks, or
of the hub's engines (R210, R357). -/
def deadDomain (s : State) (die dom : Nat) : State :=
  if dom = 1 ∨ dom = 2 then { s with pins := { s.pins with fault := true } }
  else if dom = 5 then (List.range 6).foldl (fun t i => tierFault t (6 * die + i)) s
  else if dom = 6 then sharedFault s die 7 0 0
  else if dom = 7 then (List.range 4).foldl (fun t i => tierFault t (24 + 4 * (die - 4) + i)) s
  else s

/-- PLL_RELOCK_TIMEOUT (R391): the PLL stays off until a cold reset. -/
def pllRelockTimeout (s : State) (die pll : Nat) : State :=
  match domOfPll die pll, pllRun s die pll with
  | some dom, .lost => deadDomain (pllUnlock (setPll s die pll .dead) die pll true) die dom
  | _, _ => s

/-! ### CLK_DOM (R388, R389) -/

/-- Settable range of a domain in kHz (R387). -/
def domRange (dom : Nat) : Option (Nat × Nat) :=
  if dom = 3 then some (262500, 1050000) else if dom = 4 then some (400000, 1600000) else none

/-- Are settings N, F and P code within R388 and the domain's range? -/
def domSettingOk (dom n f p : Nat) : Bool :=
  match domRange dom with
  | none => false
  | some (lo, hi) =>
    decide (40 ≤ n ∧ n ≤ 79 ∧ p ≤ 2) &&
    decide (lo * 65536 * 2 ^ (p + 1) ≤ 50000 * (n * 65536 + f)) &&
    decide (50000 * (n * 65536 + f) ≤ hi * 65536 * 2 ^ (p + 1))

/-- A write of CLK_DOM_d_x (R389): the settings, the W1C bit, and with GO the change or REJECT. -/
def clkDomWrite (s : State) (die dom : Nat) (value : Word) : State :=
  let r := rCLK_DOM die dom
  let s1 := rput (rput (rput s r fCLK_DOM_P (wfld value 55 54)) r fCLK_DOM_N (wfld value 53 47)) r
    fCLK_DOM_F (wfld value 46 31)
  let s2 := if wbit value 62 then rput s1 r fCLK_DOM_REJECT 0 else s1
  if !wbit value 61 then s2
  else if domSettingOk dom (wfld value 53 47) (wfld value 46 31) (wfld value 55 54) &&
      !rflag s r fCLK_DOM_BUSY && (domRun s die dom = .full) &&
      ((List.range nCores).filter (fun c => dieOfCore c = die)).all (fun c => coreQuiet (coreOf s c)) then
    let k := pllKhz (wfld value 53 47) (wfld value 46 31) (wfld value 55 54)
    let s3 := { s2 with clk := { s2.clk with tuned := kSet s2.clk.tuned (8 * die + dom) k } }
    setDom (rput (rset s3 r fCLK_DOM_BUSY) r fCLK_DOM_DIV 1) die dom .rampDown
  else rset s2 r fCLK_DOM_REJECT

/-! ### CLKOUT (R398) -/

/-- Frequency in kHz (rounded up) of a CLKOUT source; none where the instance does not exist. -/
def clkoutKhz (s : State) (src inst : Nat) : Option Nat :=
  if src = 0 then (if inst = 6 then some 3125 else none)
  else if src ≤ 7 then (if clkDomListed inst src then some (rget s (rCLK_DOM inst src) fCLK_DOM_KHZ) else none)
  else if src = 8 then (if inst < 12 then some 1000000 else none)
  else if src = 9 then (if inst < 2 then some 830079 else none)
  else if src = 10 ∨ src = 11 then some 50000
  else none

/-- Divisor of a CLKOUT setting: 2^DIV in mode 0 (with [27:20] zero), DIV + 1 in mode 1. -/
def clkoutDiv (value : Word) : Option Nat :=
  if wbit value 29 then some (wfld value 27 16 + 1)
  else if wfld value 27 20 = 0 then some (2 ^ wfld value 19 16) else none

/-- CLK_OUT_WRITE (R398): the setting is taken, or refused with REJECT. -/
def clkOutWrite (s : State) (value : Word) : State :=
  let s1 := if wbit value 30 then rput s rCLK_OUT fCLK_OUT_REJECT 0 else s
  match clkoutKhz s (wfld value 15 12) (wfld value 11 8), clkoutDiv value with
  | some f, some d =>
    if f ≤ 200000 * d then
      let keep := rget s1 rCLK_OUT fCLK_OUT_REJECT
      let v := wput (wput (wput value 30 30 keep) 63 32 0) 28 28 0
      { rwr s1 rCLK_OUT (wput v 7 0 0) with pins := { s1.pins with
        clkoutHz := if wbit value 31 then some (wfld value 15 12, wfld value 11 8, d, true) else none } }
    else rset s1 rCLK_OUT fCLK_OUT_REJECT
  | _, _ => rset s1 rCLK_OUT fCLK_OUT_REJECT

/-- High and low times of CLKOUT in source cycles for a divisor (R398). -/
def clkoutShape (d : Nat) : Nat × Nat := ((d + 1) / 2, d / 2)

/-! ### Crossings (R397) -/

/-- Abort with CROSSING_TIMEOUT a pour that a stopped clock has caught; it is quiet from that
moment. -/
def crossAbort (s : State) (c x : Nat) : State :=
  if beforeCommit (ctxOf s c x) then pourAbort (beginAbort s c x 0x06 0) c x else s

/-- The contexts of cores whose CORE or SEQ domain has stopped (R397). -/
def stoppedCores (s : State) : List (Nat × Nat) :=
  ((List.range nCores).filter (fun c =>
    domRun s (dieOfCore c) 3 = .gated || domRun s (dieOfCore c) 4 = .gated)).flatMap
    (fun c => (List.range 4).map (fun x => (c, x)))

/-- CROSSING_TIMEOUT (R397): transfers are dropped, the pours that had one there abort, as do those
on cores whose clock stopped; input 6 is counted, and the first timeout is recorded. -/
def crossingTimeout (s : State) (x : Crossing) (pours : List (Nat × Nat)) : State :=
  let hit := (pours ++ (if x.dFrom = 3 ∨ x.dFrom = 4 then stoppedCores s else [])).filter
    (fun (c, n) => beforeCommit (ctxOf s c n))
  let s1 := { s with clk := { s.clk with lostCrossings := s.clk.lostCrossings.filter (· ≠ x) ++ [x] } }
  let s2 := hit.foldl (fun t (c, n) => crossAbort t c n) s1
  let s3 := monEvent s2 6 1
  if rflag s3 rCRS_ERR fCRS_ERR_VALID then s3
  else
    let w := BitVec.ofNat 64 (x.die <<< 61 + x.dFrom <<< 56 + x.dTo <<< 52 + (x.index % 2 ^ 16) <<< 32 +
      b2n (!hit.isEmpty) <<< 1 + 1)
    let s4 := rwr (rwr s3 rCRS_ERR w) rCRS_ERR_TIME (nowW s3)
    raiseDev s4 0x40 0xFF [w, nowW s3]

/-- CROSSING_RESUME (R397): the crossing resets both sides and resumes. -/
def crossingResume (s : State) (x : Crossing) : State :=
  { s with clk := { s.clk with lostCrossings := s.clk.lostCrossings.filter (· ≠ x) } }

/-! ### Commands -/

def pllOk (die pll : Nat) : Bool := (domOfPll die pll).isSome

def execPllLock (die pll : Nat) (s : State) : Out := onUnit (pllOk die pll) "PLL_LOCK" (.next (pllLock s die pll))

def execDividerRampDwell (die dom : Nat) (s : State) : Out :=
  onUnit (clkDomListed die dom) "DIVIDER_RAMP_DWELL" (.next (rampDwell s die dom))

def execPllLossOfLock (die pll : Nat) (s : State) : Out :=
  onUnit (pllOk die pll) "PLL_LOSS_OF_LOCK" (.next (pllLoss s die pll))

def execPllRelockTimeout (die pll : Nat) (s : State) : Out :=
  onUnit (pllOk die pll) "PLL_RELOCK_TIMEOUT" (.next (pllRelockTimeout s die pll))

/-- CLK_DOM_GO (R389): a write of CLK_DOM with GO set. -/
def execClkDomGo (die dom : Nat) (value : Word) (s : State) : Out :=
  onUnit (clkDomListed die dom) "CLK_DOM_GO" (.next (clkDomWrite s die dom (value ||| (1 <<< 61))))

def execClkOutWrite (value : Word) (s : State) : Out := .next (clkOutWrite s value)

def crossingOk (die a b : Nat) : Bool := decide (die < 7) && decide (a < 10) && decide (b < 10)

def execCrossingTimeout (die dFrom dTo index : Nat) (pours : List (Nat × Nat)) (s : State) : Out :=
  onUnit (crossingOk die dFrom dTo && pours.all (fun (c, x) => ctxOk c x)) "CROSSING_TIMEOUT"
    (.next (crossingTimeout s ⟨die, dFrom, dTo, index⟩ pours))

def execCrossingResume (die dFrom dTo index : Nat) (s : State) : Out :=
  onUnit (crossingOk die dFrom dTo) "CROSSING_RESUME" (.next (crossingResume s ⟨die, dFrom, dTo, index⟩))

end Sys2Proof.Machine
end

