-- ==== Sys2Proof/Machine/Security.lean ====
section
/-! DEFINITION. The signing engine, quotes, authority slots and rollback protection (R414–R424).
Commands: EXTEND_DEV, EXTEND_PART, QUOTE_DEV, QUOTE_PART, AUTH_SET, AUTH_CLEAR, SIGNATURE_COMPLETE,
SEC_SVN_RAISE, SEC_SVN_SET_DISABLE0. -/

namespace Sys2Proof.Machine

/-! ### The device key (R416, R417) -/

def keyLimit : Nat := 1048576

/-- The newer valid index record, as its number (0 is A) and content. -/
def newerRec (m : Mram) : Option (Nat × IndexRec) :=
  match m.recA, m.recB with
  | some a, some b => if a.count < b.count then some (1, b) else some (0, a)
  | some a, none => some (0, a)
  | none, some b => some (1, b)
  | none, none => none

/-- Next key index; the limit where neither record is valid. -/
def nextIndex (s : State) : Nat := match newerRec s.mram with | some (_, r) => r.next | none => keyLimit

def keyExhausted (s : State) : Bool := decide (keyLimit ≤ nextIndex s)

/-- Bytes `8k` to `8k + 7` of a 32-byte value as a word. -/
def word256 (d : BitVec 256) (k : Nat) : Word := BitVec.ofNat 64 (d.toNat / 2 ^ (64 * k))

/-- The operand of SEC_DATA_0 to SEC_DATA_3. -/
def secData (s : State) : BitVec 256 :=
  BitVec.ofNat 256 ((List.range 4).map (fun k => (rd s (rSEC_DATA k)).toNat * 2 ^ (64 * k))).sum

def authSlot (s : State) (i : Nat) : BitVec 256 := kGet 0 s.mram.auth i

/-- The filled authority slots. -/
def authFilled (s : State) : List Nat := (List.range 4).filter (fun i => authSlot s i ≠ 0)

/-! ### Views (R427) -/

def secStatusW (s : State) : Word :=
  let w := rd s rSEC_STATUS
  let w1 := wput (wput w 41 41 (b2n s.sec.rngFail)) 40 40 (b2n (keyExhausted s))
  wput (wput w1 36 36 (b2n (!(authFilled s).isEmpty))) 20 0 (min keyLimit (nextIndex s))

def secImageW (s : State) : Word := BitVec.ofNat 64 (s.sec.imageSvn <<< 32 + s.mram.minSvn)

def secSvnW (s : State) : Word := wput (rd s rSEC_SVN) 34 34 (b2n s.mram.disable0)

/-- Word `w` of a log entry. -/
def logWord (l : List LogEntry) (i w : Nat) : Word :=
  match l[i]? with
  | none => 0
  | some e =>
    if w = 0 then BitVec.ofNat 64 (e.ty <<< 48)
    else if w = 5 then BitVec.ofNat 64 e.time
    else word256 e.digest (w - 1)

/-- Bytes `8j` to `8j + 7` of a byte list. -/
def wordOfBytes (l : List Byte) (j : Nat) : Word := BitVec.ofNat 64 (ofBytesLE ((l.drop (8 * j)).take 8))

/-- A byte list brought to length `n`. -/
def fitBytes (n : Nat) (l : List Byte) : List Byte := (l ++ List.replicate n 0).take n

/-! ### Quotes (R422) -/

/-- Bytes 0–135 of a quote, as the device stands when its request is accepted. -/
def quoteHead (s : State) (kind part : Nat) (nonce chain : BitVec 256) (count : Nat) : List Byte :=
  bytesLE 4 0x54515853 ++ bytesLE 2 1 ++ bytesLE 2 kind ++ digestBytes nonce ++ digestBytes chain ++
  bytesLE 8 (now s) ++ bytesLE 2 (if rflag s rFAB_NODE fFAB_NODE_VALID then nodeId s else 0xFFFF) ++
  bytesLE 2 0x0101 ++ bytesLE 2 0x4101 ++ bytesLE 1 (ctlState s) ++
  bytesLE 1 (if kind = 3 then part else 0xFF) ++ bytesLE 4 (rget s rCTL_SESSION fCTL_SESSION_EPOCH) ++
  bytesLE 4 count ++ bytesLE 4 s.sec.imageSvn ++
  bytesLE 4 (b2n (rflag s rFLT_STATE fFLT_STATE_DRAIN) + 2 * b2n (rflag s rFLT_STATE fFLT_STATE_REPLACE) +
    4 * b2n (!(authFilled s).isEmpty)) ++ digestBytes s.mram.keyId

/-- The 2,960 bytes of a quote signed with index `i`. -/
def quoteBytes (head : List Byte) (i : Nat) : List Byte :=
  let body := head ++ bytesLE 4 i
  body ++ (bytesLE 4 i).reverse ++ fitBytes 2816 (Config.deviceSig i body)

/-- A request joins the signing engine's queue. -/
def signReq (s : State) (kind part : Nat) (nonce chain : BitVec 256) (count : Nat) : State :=
  let r : SignReq := ⟨kind, part, nonce, chain, count, now s, quoteHead s kind part nonce chain count⟩
  { s with sec := { s.sec with signing := s.sec.signing ++ [r] } }

/-- End a SEC_OP request with an ERR code. -/
def secErr (s : State) (e : Nat) : State := rput (rput s rSEC_OP fSEC_OP_ERR e) rSEC_OP fSEC_OP_BUSY 0

/-- SEC_OP EXTEND_DEV and EXTEND_PART (R421). -/
def secExtend (s : State) (part : Option Nat) : State :=
  let ty := rget s rSEC_OP fSEC_OP_TYPE
  if ty < 0x8000 then secErr s 5
  else
    match part with
    | none => if 224 ≤ s.sec.log.length then secErr s 2 else secErr (extendDevice s ty (secData s)) 0
    | some p =>
      if partState s p ≠ 1 then secErr s 3
      else if 32 ≤ (plogOf s p).length then secErr s 2
      else secErr (extendPartition s p ty (secData s)) 0

/-- SEC_OP QUOTE_DEV and QUOTE_PART (R422). -/
def secQuote (s : State) (part : Option Nat) : State :=
  let bad := match part with | some p => decide (partState s p ≠ 1) | none => false
  if bad then secErr s 3
  else if keyExhausted s then secErr s 4
  else if s.sec.rngFail then secErr s 7
  else
    let s1 := rset s rSEC_OP fSEC_OP_BUSY
    match part with
    | none => signReq s1 2 0 (secData s) s.sec.chain s.sec.log.length
    | some p => signReq s1 3 p (secData s) (pchainOf s p) (plogOf s p).length

/-- Fill or empty an authority slot in MRAM. -/
def setAuth (s : State) (i : Nat) (v : BitVec 256) : State :=
  { s with mram := { s.mram with auth := kSet s.mram.auth i v } }

/-- SEC_OP AUTH_CLEAR (R424). -/
def secAuthClear (s : State) (i : Nat) : State :=
  if authFilled s = [i] then secErr s 6 else secErr (setAuth s i 0) 0

/-- A write of SEC_OP (R421–R424, R427). -/
def secOpWrite (s : State) (v : Word) : State :=
  if !wbit v 0 then regSet s rSEC_OP v
  else if rflag s rSEC_OP fSEC_OP_BUSY then rput s rSEC_OP fSEC_OP_ERR 1
  else
    let s1 := regSet s rSEC_OP v
    let op := wfld v 4 2
    let p := wfld v 44 42
    let i := wfld v 41 40
    if op = 1 then secExtend s1 none
    else if op = 2 then secExtend s1 (some p)
    else if op = 3 then secQuote s1 none
    else if op = 4 then secQuote s1 (some p)
    else if op = 5 then secErr (setAuth s1 i (secData s1)) 0
    else if op = 6 then secAuthClear s1 i
    else s1

/-- What follows the use of an index (R417): KEY_LOW once after a start, and the end of the key. -/
def keyUsed (s : State) : State :=
  let n := nextIndex s
  let s1 := if !s.sec.lowDone && decide (keyLimit - n ≤ rget s rSEC_CTRL fSEC_CTRL_LOW_MARK) then
      raiseDev { s with sec := { s.sec with lowDone := true } } 0x50 0xFF [secStatusW s]
    else s
  if n = keyLimit then
    raiseDev { s1 with mram := { s1.mram with replaceMark := true } } 0x51 0xFF [secStatusW s1]
  else s1

/-- A response leaves on the port its request came by (R326, R330): `ty` with STATUS.  It is discarded when
that port has gone DOWN since, which ended its requests. -/
def answerMsg (s : State) (port tag ty status : Nat) (w3 : Word) (payload : List (Word × Bool)) : State :=
  if (cportOf s port).open_.contains tag then
    let m : CMsg := ⟨ty, tag, rget s rCTL_SESSION fCTL_SESSION_SESSION, 0, 0, status, w3, payload, 0⟩
    modCport (sendMsg s port m) port (fun k => { k with open_ := k.open_.erase tag })
  else s

/-- The next challenge is signed: it is the current one unless a later HELLO has replaced it (R340,
R341). -/
def challengeDone (s : State) (r : SignReq) (q : List Byte) : State :=
  match s.sec.hello with
  | [] => s
  | (port, tag) :: rest =>
    let life := max 1 (rget s rCTL_HB fCTL_HB_ADOPT_WINDOW_S) * 1000000000
    let c := if rest.isEmpty then some ⟨r.nonce, q, now s + life⟩ else none
    let s1 := { s with sec := { s.sec with hello := rest, challenge := c } }
    answerMsg s1 port tag 0x25 0 (BitVec.ofNat 64 2960)
      ((chunks 8 5 (digestBytes r.nonce)).map (fun b => (BitVec.ofNat 64 (ofBytesLE b), false)))

/-- A request that the key can no longer sign (R417). -/
def signRefused (s : State) (r : SignReq) : State :=
  if r.kind = 1 then
    match s.sec.hello with
    | [] => s
    | (port, tag) :: rest => answerMsg { s with sec := { s.sec with hello := rest } } port tag 0x25 7 0 []
  else secErr s 4

/-- SIGNATURE_COMPLETE (R416, R422): the next index goes into the older record; once it reads back valid the
signature is released, else the record is not valid and the request waits. -/
def signatureComplete (s : State) : State :=
  match s.sec.signing with
  | [] => s
  | r :: rest =>
    let s0 := { s with sec := { s.sec with signing := rest } }
    match newerRec s.mram with
    | none => signRefused s0 r
    | some (w, k) =>
      if keyLimit ≤ k.next then signRefused s0 r
      else
        let (f, s1) := useFree s
        let ok := Config.indexRecordOk f
        let new : Option IndexRec := if ok then some ⟨k.next + 1, k.count + 1⟩ else none
        let put := fun (m : Mram) => if w = 0 then { m with recB := new } else { m with recA := new }
        if !ok then { s1 with mram := put s1.mram }
        else
          let s2 := { s1 with mram := put s1.mram, sec := { s1.sec with signing := rest } }
          let q := quoteBytes r.fixed k.next
          let s3 := keyUsed s2
          if r.kind = 1 then challengeDone s3 r q
          else
            let s4 := secErr { s3 with sec := { s3.sec with qbuf := q } } 0
            raiseDev s4 0x53 0xFF [rd s4 rSEC_OP, BitVec.ofNat 64 k.next]

/-- A write of SEC_SVN (R414). -/
def secSvnWrite (s : State) (v : Word) : State :=
  let s1 := if wbit v 33 then rput s rSEC_SVN fSEC_SVN_REJECT 0 else s
  let r := wfld v 31 0
  if r ≠ 0 && !(decide (s.mram.minSvn < r) && decide (r ≤ s.sec.imageSvn)) then rset s1 rSEC_SVN fSEC_SVN_REJECT
  else
    { s1 with mram := { s1.mram with
        minSvn := if r = 0 then s1.mram.minSvn else r
        disable0 := s1.mram.disable0 || wbit v 32 } }

/-! ### Commands -/

/-- A SEC_OP write with GO and the given OP. -/
def secCmd (op : Nat) (v : Word) : Word := wput (wput v 4 2 op) 0 0 1

/-- EXTEND_DEV (R421). -/
def execExtendDev (value : Word) (s : State) : Out := .next (secOpWrite s (secCmd 1 value))

/-- EXTEND_PART (R421). -/
def execExtendPart (value : Word) (s : State) : Out := .next (secOpWrite s (secCmd 2 value))

/-- QUOTE_DEV (R422). -/
def execQuoteDev (value : Word) (s : State) : Out := .next (secOpWrite s (secCmd 3 value))

/-- QUOTE_PART (R422). -/
def execQuotePart (value : Word) (s : State) : Out := .next (secOpWrite s (secCmd 4 value))

/-- AUTH_SET (R424). -/
def execAuthSet (value : Word) (s : State) : Out := .next (secOpWrite s (secCmd 5 value))

/-- AUTH_CLEAR (R424). -/
def execAuthClear (value : Word) (s : State) : Out := .next (secOpWrite s (secCmd 6 value))

/-- SIGNATURE_COMPLETE (R416). -/
def execSignatureComplete (s : State) : Out := .next (signatureComplete s)

/-- SEC_SVN_RAISE (R414): a write of SEC_SVN. -/
def execSecSvnRaise (value : Word) (s : State) : Out := .next (secSvnWrite s value)

/-- SEC_SVN_SET_DISABLE0 (R414): a write of SEC_SVN with SET_DISABLE0. -/
def execSecSvnSetDisable0 (value : Word) (s : State) : Out := .next (secSvnWrite s (value ||| 0x100000000))

end Sys2Proof.Machine
end

