-- ==== Sys2Proof/Machine/Control.lean ====
section
/-! DEFINITION. Heartbeats, the orphan state and adoption (R329, R330, R337–R341, R423, R424).  Commands:
HEARTBEAT, HEARTBEAT_TIMEOUT, RELINQUISH, ADOPT_HELLO, ADOPT_GET, ADOPT_PUT, ADOPT_COMMIT,
CHALLENGE_EXPIRY, CTL_RUN_RESUME. -/

namespace Sys2Proof.Machine

/-! ### Requests of a port (R329, R330) -/

/-- Requests outstanding on a port: started and not answered, or answered and not yet sent; BUSY answers
and RECORD messages do not count. -/
def outstanding (s : State) (k : Nat) : Nat :=
  let e := cportOf s k
  e.open_.length + (((e.carry.map (·.1)).toList ++ e.txq).filter (fun m => m.ty ≠ 0x27 && m.status ≠ 0xB)).length

/-- The device starts a request of an UP port: `f` performs it.  One past 64 outstanding is answered BUSY and
has no effect. -/
def startReq (s : State) (k tag respTy : Nat) (f : State → State) : State :=
  if cportState s k ≠ 2 then s
  else if 64 ≤ outstanding s k then
    carCount (sendMsg s k ⟨respTy, tag, rget s rCTL_SESSION fCTL_SESSION_SESSION, 0, 0, 0xB, 0, [], 0⟩) k 3 1
  else f (modCport s k (fun e => { e with open_ := e.open_ ++ [tag] }))

/-- The status of a request that needs a session and may not be performed (R329); none when it may. -/
def sessionStatus (s : State) (session : Nat) : Option Nat :=
  if ctlState s = 1 then
    if session ≠ 0 ∧ session = rget s rCTL_SESSION fCTL_SESSION_SESSION then none else some 0xA
  else some 7

/-- A request that needs a session. -/
def sessionReq (s : State) (k tag session respTy : Nat) (f : State → State) : State :=
  startReq s k tag respTy (fun u =>
    match sessionStatus u session with
    | some st => answerMsg u k tag respTy st 0 []
    | none => f u)

/-! ### The heartbeat timer (R337) -/

/-- The heartbeat timer in ns; a value below 10 ms acts as 10 ms. -/
def hbSpan (s : State) : Nat := max 10 (rget s rCTL_HB fCTL_HB_TIMEOUT_MS) * 1000000

/-- Start the heartbeat timer and make port `k` active. -/
def hbStart (s : State) (k : Nat) : State :=
  rput { s with ctl := { s.ctl with hbDeadline := some (now s + hbSpan s) } } rCTL_STATE fCTL_STATE_ACTIVE_PORT k

/-- CTL_HB as read: the whole ms left on the timer. -/
def hbW (s : State) : Word :=
  wput (rd s rCTL_HB) 31 16 (match s.ctl.hbDeadline with
    | some t => min 0xFFFF ((t - now s) / 1000000)
    | none => 0)

/-- HEARTBEAT. -/
def heartbeat (s : State) (k tag session : Nat) : State :=
  sessionReq s k tag session 0x24 (fun u => answerMsg (hbStart u k) k tag 0x24 0 (nowW u) [])

/-! ### The orphan state (R338) -/

/-- The orphan transition: dispatch stops, every pour before its commit point is killed or refused, the session
ends, and ORPHANED is raised. -/
def orphan (s : State) (cause : Nat) : State :=
  let s1 := rput (rput (rput s rCTL_STATE fCTL_STATE_STATE 2) rCTL_STATE fCTL_STATE_ORPHAN_CAUSE cause)
    rCTL_STATE fCTL_STATE_RUN_HELD 1
  let s2 := rwr { s1 with ctl := { s1.ctl with hbDeadline := none } } rCTL_ORPHAN_TIME (nowW s1)
  let s3 := (List.range nCores).foldl (fun t c => (List.range 4).foldl (fun t x => killOrRefuse t c x 0x02) t) s2
  let s4 := rput s3 rCTL_SESSION fCTL_SESSION_SESSION 0
  raiseDev s4 0x0F 0xFF [rd s4 rCTL_STATE]

/-- RELINQUISH: answered with ACK first. -/
def relinquish (s : State) (k tag session : Nat) : State :=
  sessionReq s k tag session 0x22 (fun u => orphan (answerMsg u k tag 0x22 0 0 []) 2)

/-! ### Adoption (R340, R423) -/

/-- The states in which the adoption messages are handled. -/
def adoptable (s : State) : Bool := (ctlState s = 0 && bootStage s = 6) || ctlState s = 2

/-- ADOPT_HELLO: a new challenge is to be signed; it replaces any earlier one. -/
def adoptHello (s : State) (k tag : Nat) : State :=
  startReq s k tag 0x25 (fun u =>
    if !adoptable u || keyExhausted u || decide (256 ≤ u.sec.log.length) then answerMsg u k tag 0x25 7 0 []
    else
      let (f, u1) := useFree u
      if Config.freeBool f 0 then
        answerMsg { u1 with sec := { u1.sec with rngFail := true } } k tag 0x25 7 0 []
      else
        let u2 := { u1 with sec := { u1.sec with challenge := none, hello := u1.sec.hello ++ [(k, tag)] } }
        signReq u2 1 0 (Config.entropy f) u2.sec.chain u2.sec.log.length)

/-- Units of bytes as payload words. -/
def bytesPayload (bs : List Byte) : List (Word × Bool) :=
  (List.range ((bs.length + 7) / 8)).map (fun j => (wordOfBytes bs j, false))

/-- ADOPT_GET. -/
def adoptGet (s : State) (k tag offset rlen : Nat) : State :=
  startReq s k tag 0x23 (fun u =>
    if !adoptable u then answerMsg u k tag 0x23 7 0 []
    else
      match u.sec.challenge with
      | none => answerMsg u k tag 0x23 0xC 0 []
      | some c =>
        if rlen = 0 || decide (8 < rlen) || decide (94 < offset + rlen) then answerMsg u k tag 0x23 1 0 []
        else answerMsg u k tag 0x23 0 0 (bytesPayload (fitBytes (32 * rlen) (c.quote.drop (32 * offset)))))

/-- The 8 KiB token buffer with a payload stored at a unit. -/
def tokenPut (m : SMap Byte) (offset : Nat) (data : List (Word × Bool)) : SMap Byte :=
  memPutBytes m (32 * offset) (data.flatMap (fun (w, _) => bytesLE 8 w.toNat))

/-- ADOPT_PUT; LEN is the number of 32-byte units. -/
def adoptPut (s : State) (k tag offset : Nat) (data : List (Word × Bool)) : State :=
  startReq s k tag 0x22 (fun u =>
    let len := (data.length + 3) / 4
    if !adoptable u then answerMsg u k tag 0x22 7 0 []
    else if len = 0 || decide (8 < len) || decide (256 < offset + len) then answerMsg u k tag 0x22 1 0 []
    else if data.any (·.2) then answerMsg u k tag 0x22 4 0 []
    else answerMsg { u with sec := { u.sec with token := tokenPut u.sec.token offset data } } k tag 0x22 0 0 [])

/-- Bytes `o` to `o + n − 1` of the token buffer. -/
def tokBytes (s : State) (o n : Nat) : List Byte := (List.range n).map (fun i => smGet 0 s.sec.token (o + i))

def tokNat (s : State) (o n : Nat) : Nat := ofBytesLE (tokBytes s o n)

/-- Key identifier of the token's AUTH_KEY. -/
def authKeyId (s : State) : BitVec 256 := shake256 (tokBytes s 112 68)

/-- The TOKEN check (R423). -/
def tokenOk (s : State) (c : Challenge) (len : Nat) : Bool :=
  len = 3200 && tokNat s 0 4 = 0x54415853 && tokNat s 4 2 = 1 && tokNat s 6 2 = 0 && tokNat s 184 36 = 0 &&
  tokNat s 108 4 ≠ 0 &&
  ((authFilled s).isEmpty || (authFilled s).any (fun i => authSlot s i = authKeyId s)) &&
  Config.tokenSigOk (tokBytes s 112 68) (tokBytes s 0 380) (tokBytes s 380 2820) &&
  BitVec.ofNat 256 (tokNat s 40 32) = s.mram.keyId && BitVec.ofNat 256 (tokNat s 8 32) = c.nonce &&
  BitVec.ofNat 256 (tokNat s 72 32) = shake256 c.quote

/-- A successful adoption (R340, R423, R424). LABEL goes to MRAM as R423 says, which R2's list of what the device
changes there does not name (DEDUCED, log entry 110). -/
def adopted (s : State) (k : Nat) : State :=
  let s1 := extendDevice s 0x0006 (shake256 (tokBytes s 0 380))
  let s2 := { s1 with mram := { s1.mram with label := tokBytes s 220 160 } }
  let s3 := if (authFilled s).isEmpty then
      raiseDev (setAuth s2 0 (authKeyId s)) 0x52 0xFF [0, word256 (authKeyId s) 0] else s2
  let hb := tokNat s 180 4
  let s4 := if hb = 0 then s3 else rput s3 rCTL_HB fCTL_HB_TIMEOUT_MS (min 0xFFFF hb)
  let s5 := rput (rput s4 rCTL_SESSION fCTL_SESSION_EPOCH (tokNat s 104 4)) rCTL_SESSION fCTL_SESSION_SESSION
    (tokNat s 108 4)
  let s6 := hbStart (rput s5 rCTL_STATE fCTL_STATE_STATE 1) k
  raiseDev s6 0x10 0xFF [rd s6 rCTL_SESSION]

/-- The status of an ADOPT_COMMIT. -/
def commitStatus (s : State) (len : Nat) : Nat :=
  if !adoptable s then 7
  else
    match s.sec.challenge with
    | none => 0xC
    | some c =>
      if !tokenOk s c len then 0xD
      else if tokNat s 104 4 ≤ rget s rCTL_SESSION fCTL_SESSION_EPOCH then 0xE
      else 0

/-- ADOPT_COMMIT: the challenge is consumed whatever the outcome. -/
def adoptCommit (s : State) (k tag len : Nat) : State :=
  startReq s k tag 0x26 (fun u =>
    let st := commitStatus u len
    let u1 := { u with sec := { u.sec with challenge := none } }
    if st = 0 then
      let u2 := adopted u1 k
      answerMsg u2 k tag 0x26 0 (BitVec.ofNat 64 (rget u2 rCTL_SESSION fCTL_SESSION_EPOCH <<< 32)) []
    else answerMsg u1 k tag 0x26 st 0 [])

/-- A write of CTL_RUN (R339): RESUME in ADOPTED releases dispatch. -/
def ctlRunWrite (s : State) (v : Word) : State :=
  if wbit v 0 && decide (ctlState s = 1) then rput s rCTL_STATE fCTL_STATE_RUN_HELD 0 else s

/-! ### Commands -/

/-- HEARTBEAT (R337). -/
def execHeartbeat (k tag session : Nat) (s : State) : Out :=
  onUnit (cportOk k) "HEARTBEAT" (.next (heartbeat s k tag session))

/-- HEARTBEAT_TIMEOUT (R338): the timer runs only in ADOPTED. -/
def execHeartbeatTimeout (s : State) : Out := .next (if ctlState s = 1 then orphan s 1 else s)

/-- RELINQUISH (R338). -/
def execRelinquish (k tag session : Nat) (s : State) : Out :=
  onUnit (cportOk k) "RELINQUISH" (.next (relinquish s k tag session))

/-- ADOPT_HELLO (R340). -/
def execAdoptHello (k tag : Nat) (s : State) : Out := onUnit (cportOk k) "ADOPT_HELLO" (.next (adoptHello s k tag))

/-- ADOPT_GET (R340). -/
def execAdoptGet (k tag offset rlen : Nat) (s : State) : Out :=
  onUnit (cportOk k) "ADOPT_GET" (.next (adoptGet s k tag offset rlen))

/-- ADOPT_PUT (R340). -/
def execAdoptPut (k tag offset : Nat) (data : List (Word × Bool)) (s : State) : Out :=
  onUnit (cportOk k) "ADOPT_PUT" (.next (adoptPut s k tag offset data))

/-- ADOPT_COMMIT (R340). -/
def execAdoptCommit (k tag len : Nat) (s : State) : Out :=
  onUnit (cportOk k) "ADOPT_COMMIT" (.next (adoptCommit s k tag len))

/-- CHALLENGE_EXPIRY (R340). -/
def execChallengeExpiry (s : State) : Out := .next { s with sec := { s.sec with challenge := none } }

/-- CTL_RUN_RESUME (R339): a write of CTL_RUN with RESUME. -/
def execCtlRunResume (value : Word) (s : State) : Out := .next (ctlRunWrite s (value ||| 1))

end Sys2Proof.Machine
end

