-- ==== Sys2Proof/Machine/Streams.lean ====
section
/-! DEFINITION. Stream programs and gathers (R181–R190, R297).  Commands: STREAM, STREAM_STOP,
STREAM_TILE_BEGIN, STREAM_END, GATHER, GATHER_STOP, GATHER_REQUEST, GATHER_END. -/

namespace Sys2Proof.Machine

/-! ### Stream programs (R182, R183) -/

def soOp (w : Nat) : Nat := bitsOf w 31 27

/-- Unused bits of a stream operation are zero. -/
def soUnusedOk (w : Nat) : Bool :=
  let z := fun hi lo => decide (bitsOf w hi lo = 0)
  let op := soOp w
  if op = 0 then z 26 0
  else if op = 1 then z 15 12
  else if op = 2 ∨ op = 3 ∨ op = 4 then true
  else if op = 5 then z 24 0
  else if op = 6 then z 22 0
  else if op = 7 then z 13 0
  else z 26 25 -- SETA

/-- What the check of R183 knows at an operation: open levels (innermost first), shape rows, pitch
seen. -/
structure SoChk where
  lvls : List Nat
  rows : Option Nat
  pitch : Bool
  deriving DecidableEq, Repr

/-- The cause an operation fails the check with, or what is known after it. -/
def soCheckOp (k : SoChk) (w : Nat) : Except Nat SoChk :=
  let op := soOp w
  let lv := bitsOf w 26 25
  if 9 ≤ op then .error 0
  else if !soUnusedOk w then .error 1
  else if op = 0 then (if k.lvls.isEmpty then .ok k else .error 2)
  else if op = 1 then .ok { k with rows := some (bitsOf w 26 16 + 1) }
  else if op = 2 then .ok { k with pitch := true }
  else if op = 3 then (if k.lvls.contains lv then .error 2 else .ok { k with lvls := lv :: k.lvls })
  else if op = 4 then (if k.lvls.contains lv then .ok k else .error 4)
  else if op = 5 then
    (if k.lvls.head? = some lv then .ok { k with lvls := k.lvls.drop 1 } else .error 2)
  else if op = 6 ∨ op = 7 then
    match k.rows, k.pitch with
    | some r, true => if op = 7 ∧ 256 < bitsOf w 21 14 + r then .error 6 else .ok k
    | _, _ => .error 5
  else .ok k

/-- The check of a whole program: the first failing operation and its cause. -/
def soCheck : SoChk → Nat → List Nat → Option (Nat × Nat)
  | _, i, [] => some (i - 1, 3)
  | k, i, w :: ws =>
    match soCheckOp k w with
    | .error c => some (i, c)
    | .ok k' => if soOp w = 0 then none else soCheck k' (i + 1) ws

/-- The words of a program from its address: up to 16, the last of them END. -/
def soRead (s : State) (pr : Pour) (a : Nat) : Nat → Except Nat (List Nat)
  | 0 => .ok []
  | n + 1 =>
    if a < (codeBind pr).base ∨ (codeBind pr).base + (codeBind pr).units * 256 < a + 4 then .error 0x08
    else if memBadIn s a 4 then .error 0x04
    else
      let w := ofBytesLE (memBytes s a 4)
      if soOp w = 0 then .ok [w]
      else
        match soRead s pr (a + 4) n with
        | .ok ws => .ok (w :: ws)
        | .error c => .error c

/-- STR_ERR (R195). -/
def strErr (s : State) (c n op cause : Nat) : State :=
  rwr s (rSTR_ERR c) (BitVec.ofNat 64 (op <<< 12 + n <<< 9 + cause <<< 4 + 1))

/-! ### Starting a stream (R181, R297) -/

def streamOf (s : State) (c n : Nat) : Stream := kGet Stream.reset (coreOf s c).streams n

def setStream (s : State) (c n : Nat) (r : Stream) : State :=
  modCore s c (fun k => { k with streams := kSet k.streams n r })

/-- The base that a binding or an address descriptor gives. -/
def baseOf (t : Ctx) (pr : Pour) (bk : Bool) (i : Nat) : Option Nat :=
  if bk then
    if i < 64 ∧ (tdAt t i).addr then some (tdAt t i).phys else none
  else (pr.binds[i]?).map (·.base)

/-- All of a list, or none. -/
def allSome {α : Type} : List (Option α) → Option (List α)
  | [] => some []
  | none :: _ => none
  | some x :: t => (allSome t).map (x :: ·)

/-- Checks of a slot ring of `n` slots of `size` bytes (R281, R297). -/
def ringCheck (pr : Pour) (d : TD) (n size : Nat) : Option Nat :=
  lowBad (d.addr || d.nt || !ownsTok pr d.tok || !ownsTok pr (d.tok + n - 1) || decide (d.off % 64 ≠ 0) ||
      decide (d.pitch < tdRowLen d) || decide (d.pitch % 64 ≠ 0))
    (decide (spmSize < d.off + n * size))

/-- The issue check of STREAM. -/
def planStream : PlanFn := fun s c x e => withPour s c x (fun t pr =>
  let w := e.word
  let sc := wfld w 53 51
  let store := wbit w 50
  let n := wfld w 22 17 + 1
  let depth := wfld w 16 14 + 1
  let d := tdAt t (wfld w 34 29)
  let dc := tdAt t (wfld w 28 23)
  let nb := wfld w 36 35 + 1
  let bases := allSome ((List.range nb).map (fun j => baseOf t pr (wbit w 43) (wfld w 42 37 + j)))
  Issue.checked (firstBad
    [if !pr.mStream.testBit sc || decide (n < depth) || (!store && wfld w 28 23 ≠ 0) ||
        bases.isNone then some 0x0B else none,
     ringCheck pr d n (d.rows * d.pitch),
     if store then (if dc.addr || dc.nt || !ownsTok pr dc.tok || !ownsTok pr (dc.tok + n - 1) then some 0x0B
       else none) else none,
     if (srcOf e 0).toNat % 4 ≠ 0 then some 0x08 else none])
    (match soRead s pr (srcOf e 0).toNat 16 with
     | .error code => Issue.bad code
     | .ok ops =>
       match soCheck ⟨[], none, false⟩ 0 ops with
       | some (i, cause) => .stop 0x0B (fun u => strErr u c sc i cause)
       | none => .go { Plan.nop with
           units := [7]
           ready := (streamOf s c sc).owner.isNone
           run := fun u =>
             let (g, u1) := useFree u
             let given := bases.getD []
             setStream u1 c sc { Stream.reset with
               owner := some x, store := store, noalloc := wbit w 49, ops := ops,
               bases := given ++ (List.range (4 - given.length)).map (fun j => (Config.freeWord g j).toNat % 2 ^ 48),
               tok0 := d.tok, ring := n, depth := depth, compTok := dc.tok, slotOff := d.off,
               slotSize := d.rows * d.pitch } }))

def streamEff (s : State) (c x : Nat) (w : Word) : State :=
  tensorWord (fun w => wOp w = 0x1C) (fun w => [wfld w 48 44]) planStream s c x w

/-- The issue check of STREAM_STOP: no further tile begins. -/
def planStreamStop : PlanFn := fun s c x e => withPour s c x (fun _ pr =>
  let sc := wfld e.word 53 51
  let _ := s
  if !pr.mStream.testBit sc then Issue.bad 0x0B
  else .go { Plan.nop with
   run := fun u =>
    let r := streamOf u c sc
    if r.owner = some x then setStream u c sc { r with ended := true } else u })

def streamStopEff (s : State) (c x : Nat) (w : Word) : State :=
  tensorWord (fun w => wOp w = 0x1D) (fun _ => []) planStreamStop s c x w

/-! ### Running a stream program (R184) -/

def addAt : List Int → Nat → Int → List Int
  | [], _, _ => []
  | h :: t, 0, v => (h + v) :: t
  | h :: t, n + 1, v => h :: addAt t n v

/-- One operation other than END, TILE and PAGE. -/
def soStep (r : Stream) (w : Nat) : Stream :=
  let op := soOp w
  let lv := bitsOf w 26 25
  let r1 := { r with pos := r.pos + 1 }
  if op = 1 then { r1 with rows := bitsOf w 26 16 + 1, rowLen := bitsOf w 11 0 + 1 }
  else if op = 2 then { r1 with pitch := bitsOf w 21 0 * 2 ^ bitsOf w 26 22 }
  else if op = 3 then
    { r1 with loops := ⟨lv, bitsOf w 24 0 + 1, r.pos + 1, r.a, []⟩ :: r.loops }
  else if op = 4 then
    let inc := signedOf 18 (bitsOf w 17 0) * (2 ^ bitsOf w 22 18 : Nat)
    { r1 with loops := r.loops.map (fun l =>
        if l.level = lv && !(l.incs.any (fun (p, _) => p = r.pos * 4 + bitsOf w 24 23)) then
          { l with incs := l.incs ++ [(r.pos * 4 + bitsOf w 24 23, inc)] } else l) }
  else if op = 5 then
    match r.loops with
    | [] => r1
    | l :: rest =>
      if 1 < l.count then
        { r with pos := l.start
                 a := l.incs.foldl (fun a (p, v) => addAt a (p % 4) v) r.a
                 loops := { l with count := l.count - 1 } :: rest }
      else { r1 with a := l.saved, loops := rest }
  else { r1 with a := r.a.set (bitsOf w 24 23) (bitsOf w 22 0 : Nat) }

/-- Run a program to its next TILE, PAGE or END; `fuel` bounds the operations of one command. -/
def soRun : Nat → Stream → Stream
  | 0, r => r
  | fuel + 1, r =>
    let w := r.ops.getD r.pos 0
    if soOp w = 0 ∨ soOp w = 6 ∨ soOp w = 7 then r else soRun fuel (soStep r w)

/-- Operations run by one command at most. -/
def soFuel : Nat := 4096

/-- The source or target rows of the tile at hand: where its rows begin and their pitch, or why the
pour aborts. -/
def tileRows (s : State) (c x p : Nat) (r : Stream) : Except State (Nat × Nat) :=
  let w := r.ops.getD r.pos 0
  let b := r.bases.getD (bitsOf w 26 25) 0
  let a := r.a.getD (bitsOf w 24 23) 0
  if soOp w = 7 then
    if a < 0 ∨ 4096 ≤ a then
      match (ctxOf s c x).pour with
      | some pr => .error (beginAbort (limitLog s c x pr 4 (wrapTo 32 a)) c x 0x09 0)
      | none => .error s
    else if !partReachesRange s p (b + 8 * a.toNat) 8 then .error (badAddress s c x 2 (b + 8 * a.toNat))
    else
      match pteOf s p b a.toNat with
      | .error e =>
        let (code, log) := pteStop c x a.toNat 0 e
        .error (beginAbort (log s) c x code 0)
      | .ok base =>
        let pg := r.rowLen * 64
        .ok (base + (if bitsOf w 22 22 = 1 then 256 * pg else 0) + bitsOf w 21 14 * pg, pg)
  else
    let addr := (b : Int) + a
    if addr < 0 ∨ (2 : Int) ^ 48 ≤ addr then .error (badAddress s c x 2 (wrapTo 48 addr))
    else .ok (addr.toNat, r.pitch)

/-- A TILE reached whose address or pitch is not a multiple of 64 bytes (R183). -/
def tileSkew (r : Stream) : Bool :=
  let w := r.ops.getD r.pos 0
  soOp w = 6 && (decide (((r.bases.getD (bitsOf w 26 25) 0 : Nat) + r.a.getD (bitsOf w 24 23) 0 : Int) % 64 ≠ 0) ||
    decide (r.pitch % 64 ≠ 0))

/-- Copy tier bytes into the scratchpad; poisoned codewords travel as they are (R13). -/
def copyIn (s : State) (k : Core) (off a n : Nat) : Core :=
  ((List.range (n / 8)).filter (fun i => smGet false s.memBad (a / 8 + i))).foldl
    (fun k i => spmPoison k (off / 8 + i) true) (spmWrite k off (memBytes s a n))

/-- The tiles of a stream that count against its depth: begun and not released (LOAD), or not yet
complete (STORE). -/
def strOpen (k : Core) (r : Stream) : List Nat :=
  r.live.filter (fun t => if r.store then tokOf k t = .filling else tokOf k t ≠ .empty)

/-- May the stream begin its next tile (R185)? -/
def strReady (k : Core) (r : Stream) : Bool :=
  let i := r.tiles % r.ring
  decide ((strOpen k r).length < r.depth) &&
  (if r.store then tokOf k (r.tok0 + i) = .full && tokOf k (r.compTok + i) = .empty
   else tokOf k (r.tok0 + i) = .empty)

/-- STREAM_TILE_BEGIN (R184–R186).  A tile whose slot the port STR cannot reach yet is begun once it can (R172,
log entry 102). -/
def streamTileBegin (s : State) (c n : Nat) : State :=
  let r0 := streamOf s c n
  match r0.owner with
  | none => s
  | some x =>
    if r0.ended || !beforeCommit (ctxOf s c x) then s
    else
      let r := soRun soFuel r0
      let s0 := setStream s c n r
      let w := r.ops.getD r.pos 0
      if soOp w ≠ 6 ∧ soOp w ≠ 7 then s0
      else if tileSkew r then beginAbort (strErr s0 c n r.pos 7) c x 0x08 0
      else if !strReady (coreOf s c) r then s0
      else
        let p := ((ctxOf s c x).pour.map (·.part)).getD 0
        match tileRows s0 c x p r with
        | .error s' => s'
        | .ok (addr, pitch) =>
          let len := r.rowLen * 64
          let i := r.tiles % r.ring
          let off := r.slotOff + i * r.slotSize
          let bytes := r.rows * len
          let rows := List.range r.rows
          if r.slotSize < bytes then beginAbort s0 c x 0x08 0
          else
            match rows.find? (fun j => !partReachesRange s0 p (addr + j * pitch) len) with
            | some j => badAddress s0 c x 2 (addr + j * pitch)
            | none =>
              guardStore s0 c x r off addr pitch len rows
                (let tok := if r.store then r.compTok + i else r.tok0 + i
                 let s1 := setStream s0 c n { r with pos := r.pos + 1
                                                     tiles := r.tiles + 1
                                                     live := strOpen (coreOf s c) r ++ [tok] }
                 let s2 := modCore s1 c (fun k => { setTok k tok .filling with
                   tokRead := smSet false k.tokRead tok false
                   tokAt := kSet k.tokAt tok (if r.store then [] else [(off, bytes)])
                   tokTile := smSet 0 k.tokTile tok (if r.store then 0 else bytes) })
                 let s3 := countCore (countCore s2 c 0xAB 1) c 0xAC bytes
                 let own := ownSlots (ctxOf s c x)
                 let span := (r.rows - 1) * pitch + len
                 if r.store then
                   rows.foldl (fun u j =>
                     pourWrite u c x (addr + j * pitch) (spmBytes (coreOf u c) (off + j * len) len)) s3
                 else
                   let v := rawView s3 own addr span
                   modCore (rawDone s3 own addr span) c (fun k =>
                     rows.foldl (fun k j => copyIn v k (off + j * len) (addr + j * pitch) len) k))
where
  /-- The slot's quads are on and served, its words read clean for a STORE, and for a LOAD the rows' controllers
  answer (R210). -/
  guardStore (s : State) (c x : Nat) (r : Stream) (off addr pitch len : Nat) (rows : List Nat) (k : State) : State :=
    let n := rows.length * len
    if !rangeServed s c 0xA off n then wakeQuads s c (quadsOf off n)
    else if !rangeOn s c off n then bankOff s c x off n 0xA
    else if r.store && spmBadIn (coreOf s c) off n then spmUncorrected s c x off n
    else if !r.store && rows.any (fun j => tierDownIn s (addr + j * pitch) len) then beginAbort s c x 0x04 0
    else k

/-- STREAM_END (R181): the program is at END, or the stream was stopped, and every tile it has begun
is complete. -/
def streamEnd (s : State) (c n : Nat) : State :=
  let r0 := streamOf s c n
  match r0.owner with
  | none => s
  | some _ =>
    let r := if r0.ended then r0 else soRun soFuel r0
    if (r.ended || soOp (r.ops.getD r.pos 0) = 0) && r.live.all (fun t => tokOf (coreOf s c) t ≠ .filling) then
      setStream s c n { r with owner := none, live := [], ended := true }
    else s

/-! ### Gathers (R189, R190) -/

def gathOf (s : State) (c n : Nat) : Gath := kGet Gath.reset (coreOf s c).gaths n

def setGath (s : State) (c n : Nat) (r : Gath) : State :=
  modCore s c (fun k => { k with gaths := kSet k.gaths n r })

/-- The rows that an index slot names: its 32-bit records, or the rows whose bitmap bit is 1. -/
def indexRows (k : Core) (d : TD) (bitmap : Bool) : List Nat :=
  if bitmap then
    ((List.range d.rows).flatMap (fun r => (List.range d.cols).flatMap (fun j =>
      let b := (spmByte k (d.off + r * d.pitch + j)).toNat
      (bitList 8 b).map (fun i => 8 * (r * d.cols + j) + i))))
  else
    ((List.range d.rows).flatMap (fun r => (List.range d.cols).map (fun j =>
      ofBytesLE (spmBytes k (d.off + r * d.pitch + 4 * j) 4))))

/-- The issue check of GATHER. -/
def planGather : PlanFn := fun s c x e => withPour s c x (fun t pr =>
  let w := e.word
  let eng := wfld w 53 53
  let bitmap := wbit w 52
  let di := tdAt t (wfld w 49 44)
  let d := tdAt t (wfld w 35 30)
  let n := wfld w 19 14 + 1
  let depth := wfld w 13 11 + 1
  let rowLen := wfld w 10 3 + 1
  let stride := wfld (srcOf e 0) 31 0
  let base := baseOf t pr (wbit w 42) (wfld w 41 36)
  let ilen := if bitmap then di.cols else 4 * di.cols
  Issue.checked (firstBad
    [if !pr.mGather.testBit eng || decide (n < depth) || base.isNone || stride % 64 ≠ 0 ||
        decide (d.pitch < rowLen * 64) || d.pitch % 64 ≠ 0 then some 0x0B else none,
     lowBad (di.addr || !tdTok pr di || (bitmap && di.fmt ≠ 6) || decide (di.pitch < ilen) || di.pitch % 64 ≠ 0 ||
         decide (di.off % 64 ≠ 0))
       (decide (spmSize < di.off + (di.rows - 1) * di.pitch + ilen)),
     ringCheck pr d n (d.rows * d.pitch)])
    (.go { Plan.nop with
      reads := rdSlot di (wbit w 43)
      units := [8 + eng]
      ready := (gathOf s c eng).owner.isNone
      run := fun u =>
        guardRows u c x (0xB + eng) di.off di.pitch di.rows ilen
          (setGath u c eng { Gath.reset with
            owner := some x, bitmap := bitmap, store := wbit w 51, noalloc := wbit w 50,
            base := base.getD 0, stride := stride, rowLen := rowLen, bound := wfld (srcOf e 1) 31 0,
            rows := indexRows (coreOf u c) di bitmap, tok0 := d.tok, ring := n, perSlot := d.rows,
            depth := depth, slotOff := d.off, pitch := d.pitch }) }))

def gatherEff (s : State) (c x : Nat) (w : Word) : State :=
  tensorWord (fun w => wOp w = 0x34) (fun w => [wfld w 29 25, wfld w 24 20]) planGather s c x w

/-- The rows of a gather cut to those of slots already begun. -/
def cutRows (r : Gath) : List Nat :=
  if r.open_ then r.rows.take ((r.visit / r.perSlot + 1) * r.perSlot) else r.rows.take r.visit

/-- The issue check of GATHER_STOP. -/
def planGatherStop : PlanFn := fun s c x e => withPour s c x (fun _ pr =>
  let eng := wfld e.word 53 53
  let _ := s
  if !pr.mGather.testBit eng then Issue.bad 0x0B
  else .go { Plan.nop with
   run := fun u =>
    let r := gathOf u c eng
    if r.owner = some x then setGath u c eng { r with rows := cutRows r } else u })

def gatherStopEff (s : State) (c x : Nat) (w : Word) : State :=
  tensorWord (fun w => wOp w = 0x35) (fun _ => []) planGatherStop s c x w

/-- Token of the slot that the next visit falls in. -/
def gathTok (r : Gath) : Nat := r.tok0 + (r.visit / r.perSlot) % r.ring

/-- Tiles of a gather that count against its depth. -/
def gathOpen (k : Core) (r : Gath) : List Nat :=
  r.live.filter (fun t => if r.store then false else tokOf k t ≠ .empty)

/-- May the gather begin the slot its next visit falls in? -/
def gathReady (k : Core) (r : Gath) : Bool :=
  decide ((gathOpen k r).length < r.depth) &&
  (if r.store then tokOf k (gathTok r) = .full else tokOf k (gathTok r) = .empty)

/-- Begin a slot (R185). -/
def gathBegin (s : State) (c n : Nat) (r : Gath) : State × Gath :=
  let t := gathTok r
  let r1 := { r with open_ := true, live := gathOpen (coreOf s c) r ++ (if r.store then [] else [t]) }
  if r.store then (setGath s c n r1, r1)
  else
    (modCore (setGath s c n r1) c (fun k => { setTok k t .filling with
      tokRead := smSet false k.tokRead t false
      tokAt := kSet k.tokAt t
        [(r.slotOff + (r.visit / r.perSlot % r.ring) * (r.perSlot * r.pitch), r.perSlot * r.pitch)]
      tokTile := smSet 0 k.tokTile t (r.perSlot * r.rowLen * 64) }), r1)

/-- GATHER_REQUEST (R190): one request of up to a 256-byte line of a row, answered at once. -/
def gatherRequest (s : State) (c n : Nat) : State :=
  let r0 := gathOf s c n
  match r0.owner with
  | none => s
  | some x =>
    match r0.rows[r0.visit]? with
    | none => s
    | some row =>
      if !beforeCommit (ctxOf s c x) then s
      else if !r0.open_ && !gathReady (coreOf s c) r0 then s
      else if r0.bound ≤ row then beginAbort s c x 0x08 0
      else
        let p := ((ctxOf s c x).pour.map (·.part)).getD 0
        let (s1, r) := if r0.open_ then (s, r0) else gathBegin s c n r0
        let a := r.base + row * r.stride + r.byteAt
        let len := min (256 - a % 256) (r.rowLen * 64 - r.byteAt)
        let off := r.slotOff + (r.visit / r.perSlot % r.ring) * (r.perSlot * r.pitch) +
          (r.visit % r.perSlot) * r.pitch + r.byteAt
        if !partReachesRange s1 p a len then badAddress s1 c x 3 a
        else if !rangeServed s c (0xB + n) off len then wakeQuads s c (quadsOf off len)
        else if !rangeOn s1 c off len then bankOff s1 c x off len (0xB + n)
        else if r.store && spmBadIn (coreOf s1 c) off len then spmUncorrected s1 c x off len
        else if !r.store && tierDownIn s1 a len then beginAbort s1 c x 0x04 0
        else
          let done := decide (r.rowLen * 64 ≤ r.byteAt + len)
          let v := if done then r.visit + 1 else r.visit
          let r1 := { r with
            visit := v
            byteAt := if done then 0 else r.byteAt + len
            open_ := !(done && v % r.perSlot = 0) }
          let s2 := if r.byteAt = 0 then countCore s1 c 0xAF 1 else s1
          let s3 := setGath s2 c n r1
          let own := ownSlots (ctxOf s c x)
          if r.store then pourWrite s3 c x a (spmBytes (coreOf s3 c) off len)
          else modCore (rawDone s3 own a len) c (fun k => copyIn (rawView s3 own a len) k off a len)

/-- GATHER_END (R189): every row has been visited; the last slot becomes FULL. -/
def gatherEnd (s : State) (c n : Nat) : State :=
  let r := gathOf s c n
  match r.owner with
  | none => s
  | some _ =>
    if r.rows.length ≤ r.visit then
      let s1 := setGath s c n { r with owner := none, open_ := false, live := [] }
      if r.store then s1
      else modCore s1 c (fun k => r.live.foldl (fun k t =>
        if tokOf k t = .filling then setTok k t .full else k) k)
    else s

/-! ### Commands -/

def strOk (c n : Nat) : Bool := decide (c < nCores) && decide (n < 8)
def gathOk (c n : Nat) : Bool := decide (c < nCores) && decide (n < 2)

/-- STREAM (R181). -/
def execStream (c x : Nat) (w : Word) (s : State) : Out := onUnit (ctxOk c x) "STREAM" (.next (streamEff s c x w))

/-- STREAM_STOP (R181). -/
def execStreamStop (c x : Nat) (w : Word) (s : State) : Out :=
  onUnit (ctxOk c x) "STREAM_STOP" (.next (streamStopEff s c x w))

/-- STREAM_TILE_BEGIN (R185). -/
def execStreamTileBegin (c n : Nat) (s : State) : Out :=
  onUnit (strOk c n) "STREAM_TILE_BEGIN" (.next (streamTileBegin s c n))

/-- STREAM_END (R181). -/
def execStreamEnd (c n : Nat) (s : State) : Out := onUnit (strOk c n) "STREAM_END" (.next (streamEnd s c n))

/-- GATHER (R189). -/
def execGather (c x : Nat) (w : Word) (s : State) : Out := onUnit (ctxOk c x) "GATHER" (.next (gatherEff s c x w))

/-- GATHER_STOP (R189). -/
def execGatherStop (c x : Nat) (w : Word) (s : State) : Out :=
  onUnit (ctxOk c x) "GATHER_STOP" (.next (gatherStopEff s c x w))

/-- GATHER_REQUEST (R190). -/
def execGatherRequest (c n : Nat) (s : State) : Out :=
  onUnit (gathOk c n) "GATHER_REQUEST" (.next (gatherRequest s c n))

/-- GATHER_END (R189). -/
def execGatherEnd (c n : Nat) (s : State) : Out := onUnit (gathOk c n) "GATHER_END" (.next (gatherEnd s c n))

end Sys2Proof.Machine
end

