-- ==== Sys2Proof/Machine/Spop.lean ====
section
/-! DEFINITION. Scratchpad operations (R171, R175, R177, R298) through the OPS port, and the Sprue
cache (R191–R195).  Commands: FILL, COPY, SCRUB, POWER_DOWN, POWER_UP, CALENDAR_LOAD, CACHE_LOOKUP,
CACHE_FILL, CACHE_INV_ALL. -/

namespace Sys2Proof.Machine

/-- Bytes of an operation's region: ROWS × PITCH (R298). -/
def opBytes (d : TD) : Nat := d.rows * d.pitch

/-- A word of SPOP with function `fn`. -/
def spopWord (fn : Nat) (srcs : Word → List Nat) (plan : PlanFn) (s : State) (c x : Nat) (w : Word) : State :=
  tensorWord (fun w => wOp w = 0x38 && wfld w 53 50 = fn) srcs plan s c x w

/-- FILL: the pattern repeated over an 8-byte aligned region. -/
def planFill : PlanFn := fun s c x e => withPour s c x (fun t pr =>
  let d := tdAt t (wfld e.word 49 44)
  Issue.checked (firstBad [if opBytes d % 8 ≠ 0 then some 0x0B else none, tdRegion pr d (opBytes d) true])
    (.go { Plan.nop with
      writes := wrSlot d
      units := [10]
      regions := [(d.off, opBytes d)]
      run := fun u => spmStore u c x 0xE d.off
        ((List.replicate (opBytes d / 8) (bytesLE 8 (srcOf e 0).toNat)).flatten) }))

def fillEff (s : State) (c x : Nat) (w : Word) : State :=
  spopWord 0 (fun w => [wfld w 36 32]) planFill s c x w

/-- Effect of COPY: the whole source is read before any byte is written (R175). -/
def copyRun (c x : Nat) (src dst : TD) (s : State) : State :=
  spmRead s c x 0xE src.off (opBytes src) (fun bs => spmStore s c x 0xE dst.off bs)

/-- COPY: two regions of one size. -/
def planCopy : PlanFn := fun s c x e => withPour s c x (fun t pr =>
  let dst := tdAt t (wfld e.word 49 44)
  let src := tdAt t (wfld e.word 43 38)
  Issue.checked (firstBad [if opBytes src ≠ opBytes dst then some 0x0B else none,
      tdRegion pr dst (opBytes dst) true, tdRegion pr src (opBytes src) true])
    (.go { Plan.nop with
      reads := rdSlot src (wbit e.word 37)
      writes := wrSlot dst
      units := [10]
      regions := [(dst.off, opBytes dst)]
      run := copyRun c x src dst }))

def copyEff (s : State) (c x : Nat) (w : Word) : State := spopWord 1 (fun _ => []) planCopy s c x w

/-- Effect of SCRUB: every word keeps its value with fresh check bits; an uncorrectable word is left
and logged in SPM_ERR (R175). -/
def scrubRun (c x : Nat) (d : TD) (s : State) : State :=
  if !rangeServed s c 0xE d.off (opBytes d) then portWaits s c d.off (opBytes d)
  else if !rangeOn s c d.off (opBytes d) then bankOff s c x d.off (opBytes d) 0xE
  else
    ((List.range ((opBytes d + 7) / 8)).filter (fun i => smGet false (coreOf s c).spmBad (d.off / 8 + i))).foldl
      (fun u i => logSpmErr u c (some x) (d.off + 8 * i) fSPM_ERR_UE) s

/-- SCRUB. -/
def planScrub : PlanFn := fun s c x e => withPour s c x (fun t pr =>
  let d := tdAt t (wfld e.word 49 44)
  Issue.checked (lowBad (d.addr || d.off % 64 ≠ 0 || !tdTok pr d) (!d.addr && decide (spmSize < d.off + opBytes d)))
    (.go { Plan.nop with
      units := [10]
      run := scrubRun c x d }))

def scrubEff (s : State) (c x : Nat) (w : Word) : State := spopWord 2 (fun _ => []) planScrub s c x w

/-- POWER_DOWN: the quads named are off and their content lost, once EXT accesses that the core has accepted have
been done (R177). -/
def planPowerDown : PlanFn := fun _ c _ e =>
  let m := wfld e.word 31 16
  .go { Plan.nop with
    units := [10]
    run := fun u =>
      if m = 0 then u
      else if u.erg.ext.any (fun h => h.cores.contains c) then modCore u c (fun k => { k with unserved := some [] })
      else quadsDown u c m }

def powerDownEff (s : State) (c x : Nat) (w : Word) : State := spopWord 3 (fun _ => []) planPowerDown s c x w

/-- POWER_UP: the quads are requested on; the completion slot goes FULL when they are ready
(R177).  With QMASK zero it completes with no effect (R298). -/
def planPowerUp : PlanFn := fun s c x e => withPour s c x (fun t pr =>
  let d := tdAt t (wfld e.word 49 44)
  let m := wfld e.word 31 16
  if m = 0 then .go { Plan.nop with units := [10] }
  else
    Issue.checked (if d.addr || d.nt || !ownsTok pr d.tok then some 0x0B else none)
      (.go { Plan.nop with
        writes := wrSlot d
        units := [10]
        run := fun u => quadsUp u c m (some d.tok) }))

def powerUpEff (s : State) (c x : Nat) (w : Word) : State := spopWord 4 (fun _ => []) planPowerUp s c x w

/-- CALENDAR_LOAD: the calendar is checked and goes to the store not in force (R171). -/
def planCalLoad : PlanFn := fun s c x e => withPour s c x (fun _ pr =>
  let a := (srcOf e 0).toNat
  withBlock s pr a 8 8 (fun ws =>
    let w0 := ws.getD 0 0
    let n := wfld w0 5 0 + 1
    if wfld w0 63 6 ≠ 0 then Issue.bad 0x0B
    else withBlock s pr (a + 8) (8 * n) 8 (fun es =>
      if !calOk es then Issue.bad 0x0B
      else .go { Plan.nop with
        units := [10]
        run := fun u => calLoad u c es (wfld (srcOf e 1) 31 0) })))

def calLoadEff (s : State) (c x : Nat) (w : Word) : State :=
  spopWord 5 (fun w => [wfld w 36 32, wfld w 15 11]) planCalLoad s c x w

/-! ### The Sprue cache (R191–R195) -/

/-- Key of a way: (bank × 512 + set) × 16 + way. -/
def wayKey (line way : Nat) : Nat := ((line % 96) * 512 + (line / 96) % 512) * 16 + way

/-- Is a line held? -/
def sprueHas (k : Sprue) (line : Nat) : Bool :=
  (List.range 16).any (fun w => k.lines.any (fun (i, l) => i = wayKey line w && l = line))

/-- The way that holds a line. -/
def sprueWay (k : Sprue) (line : Nat) : Nat :=
  ((List.range 16).find? (fun w => k.lines.any (fun (i, l) => i = wayKey line w && l = line))).getD 0

/-- Drop what way `w` of the set of `line` holds. -/
def dropWay (s : State) (d line w : Nat) : State :=
  setSprue s d { sprueOf s d with lines := (sprueOf s d).lines.filter (fun (i, _) => i ≠ wayKey line w) }

/-- Record an error of the cache of die `d` (R195): BANK, SET and WAY of the first one since all three flags were
clear. -/
def cacheErr (s : State) (d line w : Nat) (f : Fld) : State :=
  let s1 := if wfld (rd s (rCACHE_ERR d)) 2 0 = 0 then
      rput (rput (rput s (rCACHE_ERR d) fCACHE_ERR_BANK (line % 96)) (rCACHE_ERR d) fCACHE_ERR_SET
        ((line / 96) % 512)) (rCACHE_ERR d) fCACHE_ERR_WAY w
    else s
  rset s1 (rCACHE_ERR d) f

/-- A cache-bank fault (R194): CACHE_ERR.BANK_FAULT and a shared-structure fault. -/
def bankFault (s : State) (d bank : Nat) : State :=
  let s1 := rset s (rCACHE_ERR d) fCACHE_ERR_BANK_FAULT
  sharedFault s1 d 4 bank (rd s1 (rCACHE_ERR d))

/-- A miss (R191): it joins the fill under way, or starts one unless the read is NOALLOC. -/
def cacheMiss (s : State) (d c line : Nat) (noalloc : Bool) : State :=
  let s1 := countCore (countDev s (0x4600 + 16 * d + 1) 1) c 0xB1 1
  let k := sprueOf s1 d
  if k.fills.any (fun (l, _, _) => l = line) then countDev s1 (0x4600 + 16 * d + 2) 1
  else if noalloc then s1
  else setSprue s1 d { k with fills := k.fills ++ [(line, true, (ownerOfCore s c).getD 0)] }

/-- An uncorrectable line (R194): counted, recorded, dropped and fetched again; the second within a second in one
way of one set is a bank fault. -/
def cacheUncorrected (s : State) (d c line w : Nat) (noalloc : Bool) : State :=
  let s1 := cacheErr (countDev (monEvent s 2 1) (0x4600 + 16 * d + 4) 1) d line w fCACHE_ERR_DATA_UE
  let s2 := cperWrite s1 { cperInfo 0 2 d 4 (line % 96) with addr := line * 256, detail := rd s1 (rCACHE_ERR d) }
  let again := (sprueOf s2 d).ueAt.any (fun (i, t) => i = wayKey line w && decide (now s ≤ t + 1000000000))
  let s3 := dropWay (setSprue s2 d { sprueOf s2 d with ueAt := kSet (sprueOf s2 d).ueAt (wayKey line w) (now s) })
    d line w
  cacheMiss (if again then bankFault s3 d (line % 96) else s3) d c line noalloc

/-- A lookup that finds its line (R194): `upset` tells the bits in error of the codeword read. -/
def cacheHit (s : State) (d c addr : Nat) (noalloc : Bool) (upset : BitVec 80) : State :=
  let line := addr / 256
  let w := sprueWay (sprueOf s d) line
  let hit := fun (t : State) => countCore (countDev t (0x4600 + 16 * d) 1) c 0xB0 1
  let corrected := fun (two : Bool) =>
    hit (cacheErr (countDev (ceFound s (d, 0xFF, 4, line % 96) two) (0x4600 + 16 * d + 3) 1) d line w fCACHE_ERR_DATA_CE)
  match decode80 (encode80 (memWord s (alignDown addr 8)) false ^^^ upset) with
  | .clean => hit s
  | .ce1 _ => corrected false
  | .ce2 _ _ => corrected true
  | .ue => cacheUncorrected s d c line w noalloc
  | .poison => cacheUncorrected s d c line w noalloc

/-- CACHE_LOOKUP (R191, R193, R194): a hit; a miss that joins a fill; or a miss that starts one.  `tag` is the way
whose tag parity fails, which is dropped.  Under BYPASS there is no lookup and no allocation. -/
def cacheLookup (s : State) (d c addr : Nat) (noalloc : Bool) (upset : BitVec 80) (tag : Option Nat) : State :=
  if rflag s (rCACHE_CTRL d) fCACHE_CTRL_BYPASS || !isTier addr then s
  else
    let line := addr / 256
    let s1 := match tag with
      | some w => dropWay (cacheErr (countDev s (0x4600 + 16 * d + 5) 1) d line w fCACHE_ERR_TAG_ERR) d line w
      | none => s
    if sprueHas (sprueOf s1 d) line then cacheHit s1 d c addr noalloc upset else cacheMiss s1 d c line noalloc

/-- CACHE_FILL (R191–R193, R200): the line is delivered; it is kept, in a way of the partition's
CACHE_WAYS, unless it was dropped while in flight or is poisoned.  Which of the ways allowed is
replaced is a free value (pseudo-LRU). -/
def cacheFill (s : State) (d addr p : Nat) : State :=
  let line := addr / 256
  let k := sprueOf s d
  match k.fills.find? (fun (l, _, q) => l = line && q = p) with
  | none => s
  | some f =>
    let k1 := { k with fills := k.fills.erase f }
    let ways := bitList 16 (rget s (rCACHE_WAYS d p) fCACHE_WAYS_WAYS)
    if !f.2.1 || ways.isEmpty || memBadIn s (line * 256) 256 then setSprue s d k1
    else
      let (g, s1) := useFree s
      let w := ways.getD ((Config.freeWord g 0).toNat % ways.length) 0
      setSprue s1 d { k1 with lines := kSet k1.lines (wayKey line w) line }

/-- CACHE_INV_ALL (R195): a write of CACHE_CTRL; INV_ALL drops every line. -/
def cacheInvAll (s : State) (d : Nat) (v : Word) : State :=
  let s1 := rput s (rCACHE_CTRL d) fCACHE_CTRL_BYPASS (wfld v 1 1)
  if wbit v 0 then
    let k := sprueOf s1 d
    setSprue s1 d { k with lines := [], fills := k.fills.map (fun (l, _, p) => (l, false, p)) }
  else s1

/-! ### Commands -/

/-- FILL (R175). -/
def execFill (c x : Nat) (w : Word) (s : State) : Out := onUnit (ctxOk c x) "FILL" (.next (fillEff s c x w))

/-- COPY (R175). -/
def execCopy (c x : Nat) (w : Word) (s : State) : Out := onUnit (ctxOk c x) "COPY" (.next (copyEff s c x w))

/-- SCRUB (R175). -/
def execScrub (c x : Nat) (w : Word) (s : State) : Out := onUnit (ctxOk c x) "SCRUB" (.next (scrubEff s c x w))

/-- POWER_DOWN (R177). -/
def execPowerDown (c x : Nat) (w : Word) (s : State) : Out :=
  onUnit (ctxOk c x) "POWER_DOWN" (.next (powerDownEff s c x w))

/-- POWER_UP (R177). -/
def execPowerUp (c x : Nat) (w : Word) (s : State) : Out :=
  onUnit (ctxOk c x) "POWER_UP" (.next (powerUpEff s c x w))

/-- CALENDAR_LOAD (R171). -/
def execCalendarLoad (c x : Nat) (w : Word) (s : State) : Out :=
  onUnit (ctxOk c x) "CALENDAR_LOAD" (.next (calLoadEff s c x w))

/-- CACHE_LOOKUP (R193). -/
def execCacheLookup (d c : Nat) (r : CacheReq) (s : State) : Out :=
  onUnit (decide (d < 4) && decide (c < nCores) && decide (dieOfCore c = d) && r.tag.all (fun w => decide (w < 16))) "CACHE_LOOKUP"
    (.next (cacheLookup s d c r.addr r.noalloc r.upset r.tag))

/-- CACHE_FILL (R191). -/
def execCacheFill (d addr p : Nat) (s : State) : Out :=
  onUnit (decide (d < 4) && decide (p < nParts)) "CACHE_FILL" (.next (cacheFill s d addr p))

/-- CACHE_INV_ALL (R195). -/
def execCacheInvAll (d : Nat) (value : Word) (s : State) : Out :=
  onUnit (d < 4) "CACHE_INV_ALL" (.next (cacheInvAll s d (value ||| 1)))

end Sys2Proof.Machine
end

