-- ==== Sys2Proof/Machine/Fabric.lean ====
section
/-! DEFINITION. The fabric instructions (R299, R214, R233) and the commit with its notices (R234).
Commands: FWR_WR, FWR_MCAST_WR, FWR_RED_WR, FRD, FATOM, COMMIT_ACCEPT. -/

namespace Sys2Proof.Machine

/-- The packed rows of a tile. -/
def packedRows (k : Core) (d : TD) : List Byte :=
  (List.range d.rows).flatMap (fun r => spmBytes k (d.off + r * d.pitch) (tdRowLen d))

/-- Bytes of a tile's packed rows. -/
def packedSize (d : TD) : Nat := d.rows * tdRowLen d

/-- Send a request of a pour unless the pour is aborting. -/
def pourSend (c x : Nat) (s : State) (toSelf : Bool) (r : ErgReq)
    (local_ : State → Via → Packet → State × Option Packet) : State :=
  if beforeCommit (ctxOf s c x) then sendReq local_ s toSelf r else s

/-- A pour's request record. -/
def pourReq (s : State) (pr : Pour) (c x : Nat) (k : Packet) (wait : List Nat) (fill : Option Nat)
    (spmAt : Option (Nat × Nat × Nat × Nat)) : ErgReq :=
  ⟨k, .pour, pr.part, c, x, wait, fill, spmAt, now s, true, 0⟩

/-- The node of a global address, with this device's own in place of 0xFFFF. -/
def realNode (s : State) (node : Nat) : Nat := if node = 0xFFFF then nodeId s else node

/-- Send the pieces of a write: FIRST on the first packet, LAST on the last (R299). -/
def sendWrites (c x : Nat) (pr : Pour) (w : Word) (node addr : Nat) (fill : Option Nat) (bs : List Byte)
    (s : State) : State :=
  let ps := cutAt (bs.length + 1) addr bs
  ps.zipIdx.foldl (fun u ((a, b), i) =>
    let k := { reqPacket u 0x09 (wfld w 39 37) node pr.part a c 0 (asPayload b) with
      token := wfld w 35 26, tokV := wbit w 36, first := i = 0, last := i + 1 = ps.length }
    pourSend c x u (isSelf u node) (pourReq u pr c x k [realNode u node] fill none) handleReq1) s

/-- Send the pieces of a multicast write, one transfer: they wait in the retained buffer for the window (R249).
A reserved group has no route (R248), so its write is unreachable; a member list that does not read ends the
write the same way (log entry 94). -/
def sendMcast (c x : Nat) (pr : Pour) (w : Word) (g addr : Nat) (fill : Option Nat) (bs : List Byte)
    (s : State) : State :=
  match mcastMembers s g with
  | none => beginAbort s c x 0x14 0
  | some nodes =>
    let ps := cutAt (bs.length + 1) addr bs
    let n := s.erg.nextXfer
    let s0 := { s with erg := { s.erg with nextXfer := n + 1 } }
    let s1 := ps.zipIdx.foldl (fun u ((a, b), i) =>
      let k := { reqPacket u 0x0C (wfld w 39 37) 0 pr.part a c 0 (asPayload b) with
        mc := true, dst := g, token := wfld w 35 26, tokV := wbit w 36, first := i = 0, last := i + 1 = ps.length }
      { u with ergReqs := u.ergReqs ++ [⟨k, .pour, pr.part, c, x, nodes, fill, none, now u, false, n⟩] }) s0
    mcastPumpAll s1 g

/-- Send the chunks of a reduction leaf: numbered by the device, with FLAG from the NUM_OVF bits that
g[GM] selects. -/
def sendLeaf (c x : Nat) (pr : Pour) (tc node key mask : Nat) (fill : Option Nat) (bs : List Byte) (s : State) :
    State :=
  let g := bitsOf key 46 39
  let d := readGroup s g
  let size := if d.lfmt = 0 ∨ d.lfmt = 1 then 128 else 256
  let flag := (rd s (rNUM_OVF c x)).toNat &&& mask ≠ 0
  let local_ := fun (u : State) (v : Via) (q : Packet) => handleRed u v q (some pr.stamp)
  (chunks size (bs.length + 1) bs).zipIdx.foldl (fun u (b, i) =>
    let k := reqPacket u 0x0D tc node pr.part (redKey flag g (bitsOf key 38 19) i) c 0 (asPayload b)
    pourSend c x u (isSelf u node) (pourReq u pr c x k [realNode u node] fill none) local_) s

/-- The completion slot of FWR. -/
def fwrFill (t : Ctx) (w : Word) : Option Nat := if wbit w 19 then some (tdAt t (wfld w 25 20)).tok else none

/-- The payload goes out. -/
def fwrRun (c x : Nat) (t : Ctx) (pr : Pour) (e : QEnt) (s : State) : State :=
  let w := e.word
  let ga := srcOf e 0
  let d := tdAt t (wfld w 51 46)
  let fill := fwrFill t w
  guardRows s c x 0xD d.off d.pitch d.rows (tdRowLen d)
    (let bs := packedRows (coreOf s c) d
     let fn := wfld w 53 52
     if fn = 0 then sendWrites c x pr w (wfld ga 63 48) (wfld ga 47 0) fill bs s
     else if fn = 1 then sendMcast c x pr w (wfld ga 63 48) (wfld ga 47 0) fill bs s
     else sendLeaf c x pr (wfld w 39 37) (wfld ga 63 48) (wfld ga 47 0) (srcOf e 1).toNat fill bs s)

/-- A completion slot: a token of the pour's range, no NT, region not used. -/
def slotCheck (pr : Pour) (d : TD) : Option Nat :=
  if d.addr || d.nt || !ownsTok pr d.tok then some 0x0B else none

/-- The issue check of FWR. -/
def planFwr : PlanFn := fun s c x e => withPour s c x (fun t pr =>
  let w := e.word
  let ga := srcOf e 0
  let d := tdAt t (wfld w 51 46)
  let dc := tdAt t (wfld w 25 20)
  let fn := wfld w 53 52
  let _ := s
  Issue.checked (firstBad
    [tdCheck pr d (decide (d.fmt < 8)) 1 1 true,
     if wbit w 19 then slotCheck pr dc else none,
     if packedSize d % 32 ≠ 0 then some 0x0B else none,
     if fn = 2 ∧ wfld ga 18 0 ≠ 0 then some 0x0B else none,
     if fn ≠ 1 ∧ !nodeOk (wfld ga 63 48) then some 0x08 else none])
    (.go { Plan.nop with
      reads := rdSlot d (wbit w 45)
      writes := if wbit w 19 then [dc.tok] else []
      units := [11]
      run := fwrRun c x t pr e }))

/-- A word of FWR with function `fn`. -/
def fwrEff (fn : Nat) (s : State) (c x : Nat) (w : Word) : State :=
  tensorWord (fun w => wOp w = 0x3C && wfld w 53 52 = fn) (fun w => [wfld w 44 40, wfld w 18 14]) planFwr s c x w

/-- Pieces of a read of `n` bytes at address `a`, with their places. -/
def readPieces : Nat → Nat → Nat → Nat → List (Nat × Nat × Nat)
  | 0, _, _, _ => []
  | fuel + 1, a, o, n =>
    if n = 0 then []
    else
      let k := min n (256 - a % 256)
      (a, o, k) :: readPieces fuel (a + k) (o + k) (n - k)

/-- The reads go out. -/
def frdRun (c x : Nat) (t : Ctx) (pr : Pour) (e : QEnt) (s : State) : State :=
  let w := e.word
  let ga := srcOf e 0
  let d := tdAt t (wfld w 53 48)
  let node := wfld ga 63 48
  (readPieces (packedSize d + 1) (wfld ga 47 0) 0 (packedSize d)).foldl (fun u (a, o, n) =>
    let k := reqPacket u 0x08 (wfld w 42 40) node pr.part a c (BitVec.ofNat 64 ((n + 31) / 32)) []
    pourSend c x u (isSelf u node)
      (pourReq u pr c x k [realNode u node] (some d.tok) (some (d.off, d.pitch, tdRowLen d, o))) handleReq1) s

/-- The issue check of FRD. -/
def planFrd : PlanFn := fun s c x e => withPour s c x (fun t pr =>
  let w := e.word
  let d := tdAt t (wfld w 53 48)
  let _ := s
  Issue.checked (firstBad
    [tdCheck pr d (decide (d.fmt < 8)) 1 1 false,
     if packedSize d % 32 ≠ 0 then some 0x0B else none,
     if !nodeOk (wfld (srcOf e 0) 63 48) then some 0x08 else none])
    (.go { Plan.nop with
      writes := wrSlot d
      units := [11]
      regions := [(d.off, tdEnd d - d.off)]
      run := frdRun c x t pr e }))

def frdEff (s : State) (c x : Nat) (w : Word) : State :=
  tensorWord (fun w => wOp w = 0x3D) (fun w => [wfld w 47 43]) planFrd s c x w

/-- The atomic goes out. -/
def fatomRun (c x : Nat) (t : Ctx) (pr : Pour) (e : QEnt) (s : State) : State :=
  let w := e.word
  let ga := srcOf e 0
  let ds := tdAt t (wfld w 49 44)
  let dd := tdAt t (wfld w 42 37)
  let node := wfld ga 63 48
  let ret := wbit w 50
  guardRows s c x 0xD ds.off ds.pitch ds.rows (tdRowLen ds)
    (let bs := (packedRows (coreOf s c) ds).take 32
     let w3 : Word := BitVec.ofNat 64 (wfld w 53 51 <<< 61 + b2n ret <<< 60)
     let k := reqPacket s 0x0A (wfld w 31 29) node pr.part (wfld ga 47 0) c w3 (asPayload bs)
     pourSend c x s (isSelf s node)
       (pourReq s pr c x k [realNode s node] (some dd.tok)
         (if ret then some (dd.off, dd.pitch, tdRowLen dd, 0) else none)) handleReq1)

/-- The issue check of FATOM. -/
def planFatom : PlanFn := fun s c x e => withPour s c x (fun t pr =>
  let w := e.word
  let ds := tdAt t (wfld w 49 44)
  let dd := tdAt t (wfld w 42 37)
  let ret := wbit w 50
  let _ := s
  Issue.checked (firstBad
    [tdCheck pr ds (decide (ds.fmt < 8)) 1 1 true,
     if ret then tdCheck pr dd (decide (dd.fmt < 8)) 1 1 false else slotCheck pr dd,
     if packedSize ds < 32 || (ret && decide (packedSize dd < 32)) then some 0x0B else none,
     if !nodeOk (wfld (srcOf e 0) 63 48) then some 0x08 else none])
    (.go { Plan.nop with
      reads := rdSlot ds (wbit w 43)
      writes := [dd.tok]
      units := [11]
      regions := if ret then [(dd.off, tdEnd dd - dd.off)] else []
      run := fatomRun c x t pr e }))

def fatomEff (s : State) (c x : Nat) (w : Word) : State :=
  tensorWord (fun w => wOp w = 0x3E) (fun w => [wfld w 36 32]) planFatom s c x w

/-! ### Commit notices (R234) -/

/-- The notice of one target of a pour that has committed. -/
def sendNotice (s : State) (pr : Pour) (n : Notice) : State :=
  let w3 : Word := BitVec.ofNat 64 (pr.stamp <<< 32 + n.ctr <<< 28 + n.part <<< 24)
  let k := reqPacket s 0x10 7 n.node pr.part 0 0xFF w3 []
  sendReq handleReq1 s (isSelf s n.node)
    ⟨k, .notice n.part n.ctr pr.stamp, pr.part, 0xFF, 0, [realNode s n.node], none, none, now s, true, 0⟩

/-- The first protected page that a commit's descriptor writes meet (R369). -/
def commitHeld (s : State) (c x : Nat) : Option Nat :=
  match (ctxOf s c x).pour with
  | none => none
  | some pr => (pr.binds.find? (fun b => ckptProtected s (descAddr s pr.part b.buf))).map
      (fun b => pageOf (descAddr s pr.part b.buf))

/-- A write waits on a protected page. -/
def ckptWaits (s : State) (page : Nat) : State :=
  if s.ckpt.waiting.contains page then s else { s with ckpt := { s.ckpt with waiting := s.ckpt.waiting ++ [page] } }

/-- COMMIT_ACCEPT (R32–R36, R234): the commit point, then one notice to each target.  While a descriptor
write meets a protected page the commit is held (R369). -/
def commitAcceptAll (s : State) (c x : Nat) : State :=
  match commitHeld s c x with
  | some page => ckptWaits s page
  | none =>
  match commitAccept s c x with
  | (s1, some pr) => pr.notices.foldl (fun u n => sendNotice u pr n) s1
  | (s1, none) => s1

/-! ### Commands -/

/-- FWR with FN 0 (R299). -/
def execFwrWr (c x : Nat) (w : Word) (s : State) : Out := onUnit (ctxOk c x) "FWR_WR" (.next (fwrEff 0 s c x w))

/-- FWR with FN 1 (R299). -/
def execFwrMcastWr (c x : Nat) (w : Word) (s : State) : Out :=
  onUnit (ctxOk c x) "FWR_MCAST_WR" (.next (fwrEff 1 s c x w))

/-- FWR with FN 2 (R299). -/
def execFwrRedWr (c x : Nat) (w : Word) (s : State) : Out :=
  onUnit (ctxOk c x) "FWR_RED_WR" (.next (fwrEff 2 s c x w))

/-- FRD (R299). -/
def execFrd (c x : Nat) (w : Word) (s : State) : Out := onUnit (ctxOk c x) "FRD" (.next (frdEff s c x w))

/-- FATOM (R299). -/
def execFatom (c x : Nat) (w : Word) (s : State) : Out := onUnit (ctxOk c x) "FATOM" (.next (fatomEff s c x w))

/-- COMMIT_ACCEPT (R36). -/
def execCommitAccept (c x : Nat) (s : State) : Out :=
  onUnit (ctxOk c x) "COMMIT_ACCEPT" (.next (commitAcceptAll s c x))

end Sys2Proof.Machine
end

