-- ==== Sys2Proof/Machine/Update.lean ====
section
/-! DEFINITION. The update engine (R153–R164, R267, R294): the check of an update program, its sweeps
over the part, the update-state record, and the norm program's reduction write.  The data effect of a
sweep takes place when it starts (log entry 25).  Commands: UPDATE, URESUME, UPDATE_SWEEP_COMPLETE. -/

namespace Sys2Proof.Machine

/-! ### The update block (R294) -/

structure UBlk where
  kcount : Nat
  prog : Nat
  ktab : Nat
  fgroup : Nat
  sched : Nat
  ovfMask : Nat
  bmv : Bool
  bitmap : Nat
  smask : Nat
  states : List Nat
  record : Nat
  param : Nat
  part : Nat
  group : Nat
  wv : Bool
  dw : Nat
  dn : Nat
  dg : Nat
  rowLen : Nat
  rows : Nat
  erow0 : Nat
  deriving DecidableEq, Repr

/-- The fields of an update block. -/
def ublkOf (w : List Word) : UBlk :=
  let f := fun i hi lo => wfld (w.getD i 0) hi lo
  { kcount := f 0 51 48, prog := f 0 47 0, ktab := f 1 47 0, fgroup := f 2 53 48, sched := f 2 47 0,
    ovfMask := f 3 63 0, bmv := f 4 60 60 = 1, bitmap := f 4 59 54, smask := f 4 51 48,
    states := [f 4 21 16, f 4 29 24, f 4 37 32, f 4 45 40], record := f 4 13 8, param := f 4 5 0,
    part := f 5 51 32, group := f 5 31 24, wv := f 5 22 22 = 1, dw := f 5 21 16, dn := f 5 13 8,
    dg := f 5 5 0, rowLen := f 6 63 32, rows := f 6 31 0, erow0 := f 7 47 0 }

/-- Are the reserved bits of the block zero and its count a legal one? -/
def ublkOk (w : List Word) : Bool :=
  let z := fun i hi lo => zb (w.getD i 0) hi lo
  z 0 63 52 && decide (wfld (w.getD 0 0) 51 48 ≤ 8) && z 1 63 48 && z 2 63 54 && z 4 63 61 && z 4 53 52 &&
  z 4 47 46 && z 4 39 38 && z 4 31 30 && z 4 23 22 && z 4 15 14 && z 4 7 6 && z 5 63 52 && z 5 23 23 &&
  z 5 15 14 && z 5 7 6 && z 7 63 48

/-! ### Programs and their check (R154–R156) -/

def uOp (w : Nat) : Nat := bitsOf w 31 26
def uDst (w : Nat) : Nat := bitsOf w 25 22
def uA (w : Nat) : Nat := bitsOf w 21 18
def uB (w : Nat) : Nat := bitsOf w 17 14
def uC (w : Nat) : Nat := bitsOf w 13 10
def uImm (w : Nat) : Nat := bitsOf w 9 0

/-- The fields an operation uses: DST, A, B, C and the bits of IMM; none for a reserved OP. -/
def uUses (op : Nat) : Option (Bool × Bool × Bool × Bool × Nat) :=
  if op = 0x00 then some (false, false, false, false, 0)
  else if op = 0x01 ∨ op = 0x02 ∨ op = 0x05 then some (true, false, false, false, 0)
  else if op = 0x03 then some (true, false, false, false, 2)
  else if op = 0x04 then some (true, false, false, false, 5)
  else if op = 0x08 ∨ op = 0x09 ∨ op = 0x0A ∨ op = 0x0C ∨ op = 0x0F ∨ op = 0x10 then
    some (true, true, true, false, 0)
  else if op = 0x0B then some (true, true, true, true, 0)
  else if op = 0x0D ∨ op = 0x0E ∨ op = 0x11 ∨ op = 0x12 then some (true, true, false, false, 0)
  else if op = 0x18 ∨ op = 0x1D then some (false, true, false, false, 0)
  else if op = 0x1A then some (false, true, false, false, 3)
  else if op = 0x1B then some (false, true, true, false, 0)
  else if op = 0x20 then some (false, false, false, false, 3)
  else none

/-- The first failure of one operation, or the registers written in the sweep after it.  `seen` lists
the operation codes before it. -/
def uCheckOp (b : UBlk) (seen written : List Nat) (w : Nat) : Except Nat (List Nat) :=
  let op := uOp w
  match uUses op with
  | none => .error 0
  | some (d, a, bb, c, n) =>
    if (!d && uDst w ≠ 0) || (!a && uA w ≠ 0) || (!bb && uB w ≠ 0) || (!c && uC w ≠ 0) ||
        decide (2 ^ n ≤ uImm w) then .error 1
    else if (op = 0x03 ∨ op = 0x1A) ∧ !b.smask.testBit (uImm w % 4) then .error 1
    else if (op = 0x05 ∨ op = 0x1D) ∧ !b.wv then .error 1
    else if (a && !written.contains (uA w)) || (bb && !written.contains (uB w)) ||
        (c && !written.contains (uC w)) then .error 2
    else if op = 0x04 ∧ 19 ≤ uImm w then .error 4
    else if op = 0x20 ∧ b.kcount ≤ uImm w then .error 5
    else if (op = 0x18 && (seen.contains 0x1A || seen.contains 0x1B)) ||
        ((op = 0x1A || op = 0x1B) && seen.contains 0x18) then .error 6
    else if op = 0x20 ∧ 8 ≤ (seen.filter (· = 0x20)).length then .error 7
    else .ok (if op = 0x20 then [] else if d then uDst w :: written else written)

/-- The check of a program's words from index `i` (R154): the first failing operation and its cause, or
the number of operations up to END. -/
def uCheck (b : UBlk) : List Nat → Nat → List Nat → List Nat → Except (Nat × Nat) Nat
  | [], i, _, _ => .error (i - 1, 3)
  | w :: ws, i, seen, written =>
    match uCheckOp b seen written w with
    | .error cause => .error (i, cause)
    | .ok written' => if uOp w = 0 then .ok (i + 1) else uCheck b ws (i + 1) (seen ++ [uOp w]) written'

/-- Word `i` of a program. -/
def uWord (s : State) (prog i : Nat) : Nat := ofBytesLE (memBytes s (prog + 4 * i) 4)

/-- A program's 32 words, those past the code binding left out; none where it starts outside. -/
def uWords (s : State) (pr : Pour) (prog : Nat) : List Nat :=
  if prog < (codeBind pr).base then []
  else ((List.range 32).filter (fun i =>
    decide (prog + 4 * i + 4 ≤ (codeBind pr).base + (codeBind pr).units * 256))).map (uWord s prog)

/-- The operations of a sweep that starts at operation `i`: up to its CALL or END. -/
def sweepOps (ws : List Nat) (i : Nat) : List Nat := (ws.drop i).takeWhile (fun w => uOp w ≠ 0 && uOp w ≠ 0x20)

/-- Does the program contain an operation? -/
def hasOp (ws : List Nat) (op : Nat) : Bool := (ws.takeWhile (fun w => uOp w ≠ 0)).any (fun w => uOp w = op)

/-! ### Bindings (R294) -/

/-- The base of the version a binding index reads: that of the pour's input binding of its buffer. -/
def readBase (pr : Pour) (i : Nat) : Option Nat :=
  match pr.binds[i]? with
  | none => none
  | some b => if b.out then (pr.binds.find? (fun a => !a.out && a.buf = b.buf)).map (·.base) else some b.base

/-- The slot a binding index writes, and its buffer. -/
def writeBase (pr : Pour) (i : Nat) : Option (Nat × Nat) :=
  match pr.binds[i]? with
  | none => none
  | some b => if b.out then some (b.base, b.buf) else none

def bufOf (pr : Pour) (i : Nat) : Nat := ((pr.binds[i]?).map (·.buf)).getD 0

/-- Format of a persistent tensor. -/
def bufFmt (pr : Pour) (i : Nat) : Nat := Config.tensorFmt (bufOf pr i) % 8

/-- Do the bindings a program uses exist as it uses them? -/
def bindsOk (pr : Pour) (b : UBlk) (ws : List Nat) : Bool :=
  let norm := hasOp ws 0x18
  let both := fun i => (readBase pr i).isSome && (writeBase pr i).isSome
  (!hasOp ws 0x01 || (readBase pr b.param).isSome) && (!hasOp ws 0x1B || (writeBase pr b.param).isSome) &&
  (List.range 4).all (fun i => !b.smask.testBit i || both (b.states.getD i 0)) &&
  (if norm then !hasOp ws 0x03 || (readBase pr b.record).isSome else both b.record) &&
  (!b.bmv || (readBase pr b.bitmap).isSome)

/-! ### Constants (R162, R163) -/

/-- A value of binary32 scaled by 2^k; a zero keeps its sign. -/
def scale32 (k : Int) (v : W32) : W32 := if (fv32 v).isZero then v else rne32 ((fv32 v).scale k)

/-- Address of the schedule entry of a step stamp. -/
def schedEntry (s : State) (b : UBlk) (stamp : Nat) : Nat :=
  let h := memWord s b.sched
  let i : Int := max 0 (min ((stamp : Int) - (wfld h 31 0 : Int)) ((wfld h 63 32 : Int) - 1))
  b.sched + 64 + 64 * i.toNat

def lPour (s : State) (c x : Nat) : Int := signedOf 8 (rget s (rNUM_CTX c x) fNUM_CTX_L_POUR)

/-- k0–k15. -/
def schedK (s : State) (b : UBlk) (stamp j : Nat) : W32 :=
  BitVec.ofNat 32 (ofBytesLE (memBytes s (schedEntry s b stamp + 4 * j) 4))

/-- k16: S of the norm slot × 2^(−2 L_POUR). -/
def k16 (s : State) (c x : Nat) (b : UBlk) : W32 :=
  scale32 (-2 * lPour s c x)
    (BitVec.ofNat 32 (ofBytesLE (spmBytes (coreOf s c) (tdAt (ctxOf s c x) b.dn).off 4)))

/-- k17: the clip factor. -/
def k17 (k15 sp : W32) : W32 :=
  if (fv32 k15).isZero || (fv32 sp).isZero then 0x3F800000
  else if (fv32 sp).special then 0
  else f32min 0x3F800000 (rne32 ((fv32 k15).mul (fv32 (f32rsqrt sp))))

/-- The constants k0–k16 as the UPDATE instruction finds them. -/
def uConsts (s : State) (c x : Nat) (pr : Pour) (b : UBlk) : List W32 :=
  (List.range 16).map (schedK s b pr.stamp) ++ [k16 s c x b]

/-- A constant of LDK (R162). -/
def uConst (u : UpdRun) (i : Nat) : W32 :=
  if i < 17 then u.consts.getD i 0
  else if i = 17 then k17 (u.consts.getD 15 0) (u.consts.getD 16 0)
  else 0x3F800000

/-! ### The update-state record (R164) -/

/-- U of the record version the engine resolves. -/
def recU (s : State) (pr : Pour) (b : UBlk) : Int :=
  match readBase pr b.record with
  | some a => signedOf 8 (memByte s a).toNat
  | none => 0

def recEfmt (s : State) (pr : Pour) (b : UBlk) : Nat :=
  match readBase pr b.record with
  | some a => (memByte s (a + 4)).toNat
  | none => 0

/-- EMAX of an update-path format (R113). -/
def updEmax (f : Nat) : Int := if f = 0 then 127 else if f = 2 then 8 else 15

/-- U_NEXT (R164). -/
def uNext (s : State) (c : Nat) (pr : Pour) (b : UBlk) (m : Option Int) : Int :=
  match m with
  | none => recU s pr b
  | some m =>
    max (-128) (min 127 (m - updEmax (recEfmt s pr b) + (rget s (rNUM_UPD c) fNUM_UPD_HEADROOM : Int)))

/-- The 256 bytes of the new record. -/
def recordBytes (s : State) (c : Nat) (pr : Pour) (b : UBlk) (u : UpdRun) : List Byte :=
  bytesLE 1 (wrapTo 8 (uNext s c pr b u.mMax)) ++ bytesLE 1 (b2n u.sat) ++
  bytesLE 2 (match u.mMax with | some m => wrapTo 16 m | none => 0x8000) ++ bytesLE 1 (recEfmt s pr b) ++
  bytesLE 3 0 ++ bytesLE 4 b.part ++ bytesLE 244 0

/-! ### One element (R156, R157) -/

/-- What the operations of a sweep do with one element, in program order. -/
structure ElOut where
  x : List W32
  ssq : List FV
  sts : List (Nat × Bool × W32)
  upd : List (W32 × W32)
  stw : List W32

/-- A value that binary32 holds exactly, subnormals included. -/
def exact32 : FV → W32
  | .fin n m e =>
    if m = 0 then (if n then 0x80000000 else 0)
    else if (Nat.log2 m : Int) + e < -126 ∧ -149 ≤ e then BitVec.ofNat 32 (m * pow2 (e + 149) + b2n n * 2 ^ 31)
    else rne32Of n m e false
  | v => rne32 v

/-- Where the elements of a part are read. -/
structure URead where
  param : Nat → W32
  grad : Nat → W32
  state : Nat → Nat → W32
  work : Nat → W32
  const : Nat → W32

/-- An arithmetic operation. -/
def uArith (op : Nat) (a b c : W32) : W32 :=
  if op = 0x08 then rne32 ((fv32 a).add (fv32 b))
  else if op = 0x09 then rne32 ((fv32 a).sub (fv32 b))
  else if op = 0x0A then rne32 ((fv32 a).mul (fv32 b))
  else if op = 0x0B then rne32 (((fv32 a).mul (fv32 b)).add (fv32 c))
  else if op = 0x0C then f32div a b
  else if op = 0x0D then f32sqrt a
  else if op = 0x0E then f32rsqrt a
  else if op = 0x0F then rne32 (fv32 (f32max a b))
  else if op = 0x10 then rne32 (fv32 (f32min a b))
  else if op = 0x11 then rne32 (fv32 a).abs
  else rne32 (fv32 a).neg

/-- One operation on element `i` of a row; LDW after STW in one sweep reads what STW wrote. -/
def uStep (r : URead) (i : Nat) (o : ElOut) (w : Nat) : ElOut :=
  let op := uOp w
  let a := o.x.getD (uA w) 0
  let b := o.x.getD (uB w) 0
  let c := o.x.getD (uC w) 0
  let put := fun v => { o with x := o.x.set (uDst w) v }
  if op = 0x01 then put (r.param i)
  else if op = 0x02 then put (r.grad i)
  else if op = 0x03 then put (r.state (uImm w) i)
  else if op = 0x04 then put (r.const (uImm w))
  else if op = 0x05 then
    put (match o.stw.getLast? with
      | some v => enc32 0 (convFv 0 none false (fv32 v)).1
      | none => r.work i)
  else if op = 0x18 then { o with ssq := o.ssq ++ [(fv32 a).mul (fv32 a)] }
  else if op = 0x1A then { o with sts := o.sts ++ [(uImm w % 4, (uImm w).testBit 2, a)] }
  else if op = 0x1B then { o with upd := o.upd ++ [(a, b)] }
  else if op = 0x1D then { o with stw := o.stw ++ [a] }
  else put (uArith op a b c)

/-- The sweep's operations on one element. -/
def uElem (r : URead) (ops : List Nat) (i : Nat) : ElOut :=
  ops.foldl (uStep r i) ⟨List.replicate 16 0, [], [], [], []⟩

/-! ### One row -/

/-- Where row `r` of a persistent tensor starts, relative to its base. -/
def rowAt (f rowLen r : Nat) : Nat := r * rowBytes f rowLen

/-- Where the scale of block `j` of stored row `r` stands: the row is row m of an A operand, or column n of a B
operand (R97). -/
def scaleAt (base : Nat) (l : Nat × Nat × Bool) (r j : Nat) : Nat :=
  base + l.1 + (if l.2.2 then j * l.2.1 + r else r * l.2.1 + j)

/-- The parameter element (r, i), with its block scale (R97, R156). -/
def paramElem (s : State) (pr : Pour) (b : UBlk) (r i : Nat) : W32 :=
  match readBase pr b.param with
  | none => 0
  | some base =>
    let f := bufFmt pr b.param
    let bits := elemBits (memByte s) f (base + rowAt f b.rowLen r) i
    match Config.tensorScale (bufOf pr b.param) with
    | none => enc32 f bits
    | some l => exact32 ((fvOf f bits).mul (fvScale (memByte s (scaleAt base l r (i / 32))).toNat))

/-- The reads of row `r`. -/
def rowReads (s : State) (c x : Nat) (pr : Pour) (b : UBlk) (run : UpdRun) (r : Nat) : URead :=
  let k := coreOf s c
  let l := lPour s c x
  let u := recU s pr b
  { param := paramElem s pr b r
    grad := fun i => scale32 (-l) (tile32 k (tdOf run.dg) r i)
    state := fun j i => match readBase pr (b.states.getD j 0) with
      | none => 0
      | some base =>
        let f := bufFmt pr (b.states.getD j 0)
        scale32 u (enc32 f (elemBits (memByte s) f (base + rowAt f b.rowLen r) i))
    work := fun i => tile32 k (tdOf run.dw) r i
    const := uConst run }

/-- Store converted codes of row `r` of a persistent tensor, from element `i0` on. -/
def storeCodes (s : State) (c x base f rowLen r : Nat) (codes : List Nat) : State :=
  let a := base + rowAt f rowLen r
  pourWrite s c x a (packRow (memByte s) f a codes)

/-- The draw of element `i` of row `r` of a written tensor (R105, R158). -/
def updDraw (s : State) (c : Nat) (pr : Pour) (b : UBlk) (buf r i : Nat) : Option Nat :=
  some (srDraw (rd s (rNUM_SEED c)) buf pr.stamp (((b.erow0 + r) * b.rowLen + i) % 2 ^ 48))

/-- EMAX of a block-scaled element format (R159). -/
def blockEmax (f : Nat) : Int := if f = 2 then 8 else if f = 3 then 15 else if f = 4 then 4 else 2

/-- The scale byte of a block of sums (R159). -/
def blockScale (f : Nat) (sums : List FV) : Nat :=
  if sums.any (·.special) then 254
  else
    match sums.filterMap FV.log2 with
    | [] => 127
    | l :: ls => (max 0 (min 254 (ls.foldl max l - blockEmax f + 128))).toNat

/-- A row's updates: codes, scale bytes and whether one saturated. -/
def updRow (s : State) (c : Nat) (pr : Pour) (b : UBlk) (f buf r : Nat) (scaled : Bool) (l : List (W32 × W32)) :
    List Nat × List Nat × Bool :=
  let sums := l.map (fun (p, d) => (fv32 p).add (fv32 d))
  if scaled then
    let blocks := (chunks 32 (sums.length + 1) sums).zipIdx.map (fun (bl, j) =>
      let e := blockScale f bl
      (e, bl.zipIdx.map (fun (v, i) =>
        convFv f (updDraw s c pr b buf r (32 * j + i)) false (FV.scale (127 - (e : Int)) v))))
    let cs := blocks.flatMap (·.2)
    (cs.map (·.1), blocks.map (·.1), cs.any (·.2))
  else
    let cs := sums.zipIdx.map (fun (v, i) => convFv f (updDraw s c pr b buf r i) false v)
    (cs.map (·.1), [], cs.any (·.2))

/-- What a sweep gathers over the rows it has visited: the state of the device, M_s, saturation and the
running sum of SSQ. -/
structure SweepAcc where
  st : State
  m : Option Int
  sat : Bool
  ssq : W32

/-- Take a value of ⌊log2 |B|⌋ into M_s. -/
def mMaxOf (m : Option Int) (l : List (W32 × W32)) : Option Int :=
  l.foldl (fun m (_, d) => match m, (fv32 d).log2 with
    | none, v => v
    | some a, some v => some (max a v)
    | some a, none => some a) m

/-- Sum of SSQ over a row: each strip of 512 exact and rounded once (R161). -/
def ssqRow (acc : W32) (els : List ElOut) : W32 :=
  (chunks 512 (els.length + 1) els).foldl (fun acc l =>
    (List.range ((l.headD ⟨[], [], [], [], []⟩).ssq.length)).foldl (fun acc j =>
      rne32 ((fv32 acc).add (fv32 (rne32 (FV.sum (l.map (fun e => e.ssq.getD j FV.zero)))))) ) acc) acc

/-- Store what the j-th STS of a sweep leaves for row `r`: A × 2^(−U) in binary32, converted (R112, R157). -/
def storeState (c x : Nat) (pr : Pour) (b : UBlk) (u : Int) (r : Nat) (els : List ElOut) (a : SweepAcc) (j : Nat) :
    SweepAcc :=
  match els.map (fun e => e.sts.getD j (0, false, 0)) with
  | [] => a
  | (n, sr, v) :: t =>
    match writeBase pr (b.states.getD n 0) with
    | none => a
    | some (base, buf) =>
      let f := bufFmt pr (b.states.getD n 0)
      let cs := ((n, sr, v) :: t).zipIdx.map (fun ((_, sr, v), i) =>
        convFv f (if sr then updDraw a.st c pr b buf r i else none) false (fv32 (scale32 (-u) v)))
      { a with st := storeCodes a.st c x base f b.rowLen r (cs.map (·.1)), sat := a.sat || cs.any (·.2) }

/-- Store what the j-th UPD of a sweep leaves for row `r`. -/
def storeUpd (c x : Nat) (pr : Pour) (b : UBlk) (r : Nat) (els : List ElOut) (a : SweepAcc) (j : Nat) : SweepAcc :=
  match writeBase pr b.param with
  | none => a
  | some (base, buf) =>
    let f := bufFmt pr b.param
    let l := els.map (fun e => e.upd.getD j (0, 0))
    match Config.tensorScale buf with
    | none =>
      let (codes, _, sat) := updRow a.st c pr b f buf r false l
      { a with st := storeCodes a.st c x base f b.rowLen r codes, sat := a.sat || sat, m := mMaxOf a.m l }
    | some sc =>
      let (codes, scales, sat) := updRow a.st c pr b f buf r true l
      let s1 := storeCodes a.st c x base f b.rowLen r codes
      let s2 := scales.zipIdx.foldl (fun u (e, j) => pourWrite u c x (scaleAt base sc r j) [BitVec.ofNat 8 e]) s1
      { a with st := s2, sat := a.sat || sat, m := mMaxOf a.m l }

/-- Store what the j-th STW of a sweep leaves for row `r`. -/
def storeWork (c x : Nat) (run : UpdRun) (r : Nat) (els : List ElOut) (a : SweepAcc) (j : Nat) : SweepAcc :=
  let d := tdOf run.dw
  let cs := els.map (fun e => convFv 0 none false (fv32 (e.stw.getD j 0)))
  { a with st := spmStore a.st c x 9 (d.off + r * d.pitch) (packElems 0 (cs.map (·.1))),
           sat := a.sat || cs.any (·.2) }

/-- A sweep over one row. -/
def sweepRow (c x : Nat) (pr : Pour) (b : UBlk) (run : UpdRun) (ops : List Nat) (a : SweepAcc) (r : Nat) : SweepAcc :=
  let rd_ := rowReads a.st c x pr b run r
  let els := (List.range b.rowLen).map (uElem rd_ ops)
  let n := fun op => (ops.filter (fun w => uOp w = op)).length
  let u := recU a.st pr b
  let a1 := { a with ssq := ssqRow a.ssq els }
  let a2 := (List.range (n 0x1A)).foldl (storeState c x pr b u r els) a1
  let a3 := (List.range (n 0x1B)).foldl (storeUpd c x pr b r els) a2
  (List.range (n 0x1D)).foldl (storeWork c x run r els) a3

/-- The rows a sweep visits (R160). -/
def sweepRows (s : State) (pr : Pour) (b : UBlk) : List Nat :=
  match b.bmv, readBase pr b.bitmap with
  | true, some base => (List.range b.rows).filter (fun r => (memByte s (base + r / 8)).toNat.testBit (r % 8))
  | _, _ => List.range b.rows

/-- Does every tensor row the sweep reads from tier memory read clean? -/
def updClean (s : State) (pr : Pour) (b : UBlk) (ops : List Nat) (rows : List Nat) : Bool :=
  let uses := fun op => ops.any (fun w => uOp w = op)
  let ok := fun i => match readBase pr i with
    | none => true
    | some base =>
      let f := bufFmt pr i
      rows.all (fun r => !memBadIn s (base + rowAt f b.rowLen r) (rowBytes f b.rowLen))
  (!uses 0x01 || ok b.param) &&
  ((List.range 4).filter (fun j => ops.any (fun w => uOp w = 0x03 && uImm w = j))).all (fun j => ok (b.states.getD j 0)) &&
  (match readBase pr b.record with | some a => !memBadIn s a 8 | none => true) &&
  (!b.bmv || (match readBase pr b.bitmap with | some a => !memBadIn s a ((b.rows + 7) / 8) | none => true))

/-- Run the sweep that starts at operation `u.opAt` of the program. -/
def runSweep (c x : Nat) (pr : Pour) (u : UpdRun) (s : State) : State :=
  let b := ublkOf u.blk
  let ops := sweepOps u.prog u.opAt
  let rows := sweepRows s pr b
  let dg := tdOf u.dg
  let dw := tdOf u.dw
  let uses := fun op => ops.any (fun w => uOp w = op)
  let go : State :=
    if !updClean s pr b ops rows then beginAbort s c x 0x04 0
    else
      let s0 := countCore (countCore s c 0xBC 1) c 0xBD (if b.bmv then rows.length else 0)
      let a := rows.foldl (sweepRow c x pr b u ops) ⟨s0, u.mMax, false, u.ssq⟩
      let s1 := if a.sat then raiseOvf a.st c x b.fgroup else a.st
      modCtx s1 c x (fun t => { t with
        updRun := some { u with inKernel := false, busy := true, mMax := a.m, sat := u.sat || a.sat, ssq := a.ssq } })
  let reads := fun (op port : Nat) (d : TD) (len : Nat) (k : State) =>
    if uses op then guardSpans s c x port (rows.map (fun r => (d.off + r * d.pitch, len))) k else k
  reads 0x05 8 dw (2 * b.rowLen) (reads 0x02 7 dg (rowBytes dg.fmt b.rowLen) go)

/-! ### UPDATE and URESUME at issue -/

/-- Record a failed check (R167). -/
def updErr (s : State) (c i cause : Nat) : State := rwr s (rUPD_ERR c) (BitVec.ofNat 64 (i <<< 8 + cause <<< 4 + 1))

/-- Read the kernel table: none of a block without kernels (R294). -/
def withKtab (s : State) (pr : Pour) (b : UBlk) (k : List Word → Issue) : Issue :=
  if b.kcount = 0 then k [] else withBlock s pr b.ktab (8 * b.kcount) 8 k

/-- Read and check the program (R154): `k` takes its operations up to END. -/
def withProg (s : State) (pr : Pour) (c : Nat) (b : UBlk) (k : List Nat → Issue) : Issue :=
  let words := uWords s pr b.prog
  let upTo := (words.takeWhile (fun w => uOp w ≠ 0)).length + 1
  if b.prog % 4 ≠ 0 ∨ words = [] then Issue.bad 0x08
  else if memBadIn s b.prog (4 * min upTo words.length) then Issue.bad 0x04
  else
    match uCheck b words 0 [] [] with
    | .error (i, cause) =>
      if cause = 3 && decide (words.length < 32) then Issue.bad 0x08
      else .stop 0x0B (fun u => updErr u c i cause)
    | .ok n => k (words.take n)

/-- The issue check of UPDATE. -/
def planUpdate : PlanFn := fun s c x e => withPour s c x (fun t pr =>
  withBlock s pr (srcOf e 0).toNat 64 64 (fun ws =>
    let b := ublkOf ws
    let dg := tdAt t b.dg
    let dn := tdAt t b.dn
    let dw := tdAt t b.dw
    if !ublkOk ws then Issue.bad 0x0B
    else Issue.checked (firstBad
      [tdCheck pr dg (decide (dg.fmt < 8)) b.rows b.rowLen true, scaleCheck pr t dg b.rows ((b.rowLen + 31) / 32),
       tdRegion pr dn 4 true,
       if b.wv then firstBad [illegalIf (!dw.nt), tdCheck pr dw (decide (dw.fmt = 0)) b.rows b.rowLen true] else none])
      (withKtab s pr b (fun kt => withBlock s pr b.sched 64 64 (fun h =>
        let count := wfld (h.getD 0 0) 63 32
        if count = 0 ∨ 2 ^ 31 < count ∨ (h.drop 1).any (fun v => v ≠ 0) then Issue.bad 0x0B
        else
          withBlock s pr b.sched (64 + 64 * count) 64 (fun _ => withProg s pr c b (fun ops =>
            Issue.checked (illegalIf (!bindsOk pr b ops))
              (.go { Plan.nop with
                reads := rdOperand t dg false ++ rdSlot dn false
                units := [6]
                regions := if b.wv then tdSpan dw else []
                run := fun v => guardRows v c x 8 dn.off 0 1 4 (runSweep c x pr
                  { blk := ws, prog := ops, ktab := kt, consts := uConsts v c x pr b, dg := dRead t b.dg,
                    dw := dRead t b.dw, opAt := 0, sweep := 0, retPc := e.pc + 8, inKernel := false,
                    busy := true, mMax := none, sat := false, ssq := 0 } v) }))))))))

/-- The issue check of URESUME: every earlier tensor instruction of the context has completed. -/
def planUresume : PlanFn := fun s c x _ => withPour s c x (fun t pr =>
  match t.updRun with
  | none => Issue.bad 0x0B
  | some u =>
    .go { Plan.nop with
      ready := !(coreOf s c).flights.any (fun f => f.ctx = x && f.op ≠ 0x2F)
      run := runSweep c x pr u })

/-- UPDATE (R267, R294): inside a kernel it is illegal. -/
def updateEff (s : State) (c x : Nat) (w : Word) : State :=
  if (ctxOf s c x).updRun.isSome then
    runWord (fun w => wOp w = 0x2F) (fun s _ _ => illegal s c x) s c x w
  else tensorWord (fun w => wOp w = 0x2F) (fun w => [wfld w 53 49]) planUpdate s c x w

/-- URESUME (R267): outside a kernel it is illegal. -/
def uresumeEff (s : State) (c x : Nat) (w : Word) : State :=
  if (ctxOf s c x).updRun.isNone then
    runWord (fun w => wOp w = 0x05) (fun s _ _ => illegal s c x) s c x w
  else tensorWord (fun w => wOp w = 0x05) (fun _ => []) planUresume s c x w

/-! ### The end of a sweep (R154, R161, R164, R267) -/

/-- UPD_LAST and UPD_NORM at a program's END. -/
def updDone (s : State) (c : Nat) (pr : Pour) (b : UBlk) (u : UpdRun) : State :=
  let m := match u.mMax with | some m => wrapTo 16 m | none => 0x8000
  let w := m <<< 32 + wrapTo 8 (recU s pr b) <<< 16 + wrapTo 8 (uNext s c pr b u.mMax) <<< 8 + b2n u.sat
  rwr (rwr s (rUPD_LAST c) (BitVec.ofNat 64 w)) (rUPD_NORM c)
    (BitVec.ofNat 64 ((uConst u 17).toNat <<< 32 + (uConst u 16).toNat))

/-- The END of a program: the reduction write of a norm program or the new record, and the context
continues at its saved address. -/
def updEnd (s : State) (c x : Nat) (pr : Pour) (b : UBlk) (u : UpdRun) (norm : Bool) : State :=
  let s1 := updDone s c pr b u
  let s2 := modCore s1 c (fun k => { k with flights := k.flights.filter (fun f => !(f.ctx = x && f.op = 0x2F)) })
  let s3 := modCtx s2 c x (fun t => { t with updRun := none, pc := u.retPc })
  if norm then
    sendLeaf c x pr (readGroup s3 b.group).tc 0xFFFF
      (redKey false b.group b.part 0) b.ovfMask none (bytesLE 4 u.ssq.toNat) s3
  else
    match writeBase pr b.record with
    | some (a, _) => pourWrite s3 c x a (recordBytes s c pr b u)
    | none => s3

/-- UPDATE_SWEEP_COMPLETE: a sweep that ended at CALL k starts kernel k; one that ended at END ends the
program. -/
def sweepComplete (s : State) (c x : Nat) : State :=
  let t := ctxOf s c x
  match t.pour, t.updRun with
  | some pr, some u =>
    if !u.busy || !beforeCommit t then s
    else
      let i := u.opAt + (sweepOps u.prog u.opAt).length
      let w := u.prog.getD i 0
      if uOp w = 0x20 then
        modCtx s c x (fun t => { t with
          pc := BitVec.ofNat 48 (u.ktab.getD (uImm w) 0).toNat
          updRun := some { u with opAt := i + 1, sweep := u.sweep + 1, inKernel := true, busy := false } })
      else updEnd s c x pr (ublkOf u.blk) u (hasOp u.prog 0x18)
  | _, _ => s

/-! ### Commands -/

/-- UPDATE (R294). -/
def execUpdate (c x : Nat) (w : Word) (s : State) : Out := onUnit (ctxOk c x) "UPDATE" (.next (updateEff s c x w))

/-- URESUME (R267). -/
def execUresume (c x : Nat) (w : Word) (s : State) : Out := onUnit (ctxOk c x) "URESUME" (.next (uresumeEff s c x w))

/-- UPDATE_SWEEP_COMPLETE (R154). -/
def execUpdateSweepComplete (c x : Nat) (s : State) : Out :=
  onUnit (ctxOk c x) "UPDATE_SWEEP_COMPLETE" (.next (sweepComplete s c x))

end Sys2Proof.Machine
end

