-- ==== Sys2Proof/Machine/Issue.lean ====
section
/-! DEFINITION. The issue stage (R58–R63, R179, R272): the head of the active context's queue, the
switch of the active context, YIELD, and the slot watchdog.  Commands: TENSOR_ISSUE, CONTEXT_SWITCH,
YIELD, SLOT_WATCHDOG_EXPIRY, TENSOR_COMPLETE. -/

namespace Sys2Proof.Machine

/-- The issue check of a queue entry by its opcode. -/
def planOf : PlanFn := fun s c x e =>
  let op := wOp e.word
  let fn := wfld e.word 53 50
  if op = 0x05 then planUresume s c x e
  else if op = 0x14 then planToksync s c x e
  else if op = 0x15 then planWaitall s c x e
  else if op = 0x1C then planStream s c x e
  else if op = 0x1D then planStreamStop s c x e
  else if op = 0x20 then planMma s c x e
  else if op = 0x21 then planConv s c x e
  else if op = 0x22 then planDrain s c x e
  else if op = 0x23 then planSpill s c x e
  else if op = 0x24 then planAccld s c x e
  else if op = 0x25 then planAssay s c x e
  else if op = 0x28 then planVew s c x e
  else if op = 0x29 then planVred s c x e
  else if op = 0x2A then planVrot s c x e
  else if op = 0x2F then planUpdate s c x e
  else if op = 0x30 then planFwd s c x e
  else if op = 0x31 then planNorm s c x e
  else if op = 0x32 then (if wbit e.word 53 then planBwdDs s c x e else planBwdP s c x e)
  else if op = 0x33 then planMerge s c x e
  else if op = 0x34 then planGather s c x e
  else if op = 0x35 then planGatherStop s c x e
  else if op = 0x38 then
    (if fn = 0 then planFill s c x e else if fn = 1 then planCopy s c x e else if fn = 2 then planScrub s c x e
     else if fn = 3 then planPowerDown s c x e else if fn = 4 then planPowerUp s c x e else planCalLoad s c x e)
  else if op = 0x3B then planDset s c x e
  else if op = 0x3C then planFwr s c x e
  else if op = 0x3D then planFrd s c x e
  else if op = 0x3E then planFatom s c x e
  else .go Plan.nop

/-- The head of a context's queue. -/
def queueHead (s : State) (c x : Nat) : Option QEnt := (ctxOf s c x).queue.head?

/-- Does the head of a context meet every condition of R59?  A head that is to abort its pour issues
too. -/
def headReady (s : State) (c x : Nat) : Bool :=
  match queueHead s c x with
  | none => false
  | some e =>
    queueLive (ctxOf s c x) &&
      (match planOf s c x e with
       | .stop _ _ => true
       | .go p => planReady (coreOf s c) p)

/-- The scan of R62: contexts after `a` in cyclic order, ending with `a`. -/
def scanFrom (s : State) (c a : Nat) : Option Nat :=
  ((List.range 4).map (fun i => (a + 1 + i) % 4)).find? (headReady s c)

/-- Make context `x` the active one. -/
def activate (s : State) (c x : Nat) : State :=
  let s1 := modCore s c (fun k => { k with active := x, selecting := false })
  if x = (coreOf s c).active then s1 else countCore s1 c 0xA5 1

/-- Take a new active context by the scan; while no head meets R59 the selection stays pending (R62). -/
def selectNext (s : State) (c : Nat) : State :=
  match scanFrom s c (coreOf s c).active with
  | none => modCore s c (fun k => { k with selecting := true })
  | some x => activate s c x

/-- Is there a cause of R62 to switch from the active context?  COMMIT, by which it leaves RUNNING with work still
queued, sets the selection pending itself. -/
def switchCause (s : State) (c : Nat) : Bool :=
  let k := coreOf s c
  let x := k.active
  let t := ctxOf s c x
  if t.st ≠ .running ∧ t.st ≠ .committing then true
  else
    match t.queue.head? with
    | none => waitallOpen k x
    | some e =>
      match planOf s c x e with
      | .stop _ _ => false
      | .go p => !slotsReady k p || ((wOp e.word = 0x14 || wOp e.word = 0x15) && !p.ready)

/-- YIELD leaves the head of the active context's queue, and the scan selects; where no head meets R59 the
yielding context stays active (R272). -/
def yieldNow (s : State) (c x : Nat) : State :=
  let s1 := countCore (modCtx s c x (fun t => { t with queue := t.queue.drop 1 })) c (0xA1 + x) 1
  match scanFrom s1 c x with
  | none => s1
  | some y => activate s1 c y

/-- TENSOR_ISSUE (R59): the head of the active context's queue issues if it may and no selection is pending. -/
def tensorIssue (s : State) (c : Nat) : State :=
  let x := (coreOf s c).active
  match queueHead s c x with
  | none => s
  | some e =>
    if !queueLive (ctxOf s c x) || (coreOf s c).selecting then s
    else if wOp e.word = 0x16 then yieldNow s c x
    else tryIssue s c x e (planOf s c x e)

/-- YIELD (R272): placed in its queue, and taken at once where it is the head of the active context. -/
def yieldEff (s : State) (c x : Nat) (w : Word) : State :=
  runWord (fun w => wOp w = 0x16)
    (fun s _ _ =>
      let s1 := placeWord s c x w []
      if atHead s1 c x then yieldNow s1 c x else s1) s c x w

/-! ### Completion (R59, R172, R271) -/

/-- May the flight at `i` complete: it is the oldest on each of its units, no update program, and, for WAITALL,
nothing its context issued before it is still at work? -/
def flightDone (s : State) (c i : Nat) (f : Flight) : Bool :=
  let before := (coreOf s c).flights.take i
  f.op ≠ 0x2F && before.all (fun g => f.units.all (fun u => !g.units.contains u)) &&
    (f.op ≠ 0x15 || (before.all (fun g => g.ctx ≠ f.ctx) &&
      !s.ergReqs.any (fun r => r.core = c && r.ctx = f.ctx)))

/-- The flight `f` leaves the core: its sets are released; an assay window closes and its tokens return to EMPTY
(R283, R290). -/
def flightGone (s : State) (c : Nat) (f : Flight) : State :=
  modCore s c (fun k =>
    let k1 := { k with flights := k.flights.erase f }
    if f.op = 0x25 then f.fills.foldl (fun k t => setTok k t .empty) { k1 with window := none } else k1)

/-- Run the effect of an instruction that waited at its ports, under the descriptors it issued with; it goes on
waiting while a port is still not served or a quad dozes (R172, R177). -/
def runHeld (s : State) (c : Nat) (f : Flight) (h : Held) : State :=
  let cur := (ctxOf s c f.ctx).d
  let s1 := modCtx (modCore s c (fun k => { k with
      flights := k.flights.map (fun g => if g = f then { g with held := none } else g) }))
    c f.ctx (fun t => { t with d := h.d })
  match planOf s1 c f.ctx h.ent with
  | .stop code log => beginAbort (log (modCtx s1 c f.ctx (fun t => { t with d := cur }))) c f.ctx code 0
  | .go p =>
    match (coreOf (p.run s1) c).unserved with
    | some l => wakeQuads s c l
    | none => modCtx (p.run s1) c f.ctx (fun t => { t with d := cur })

/-- TENSOR_COMPLETE (R59): the effect of an instruction that waited at its ports, once they are served; else the
completion of the instruction. -/
def tensorComplete (s : State) (c i : Nat) : State :=
  match (coreOf s c).flights[i]? with
  | none => s
  | some f =>
    match f.held with
    | some h => if flightDone s c i { f with op := 0 } then runHeld s c f h else s
    | none => if flightDone s c i f then flightGone s c f else s

/-! ### The slot watchdog (R179) -/

/-- The slot that the head of a context's queue waits on: agent 0 (read) or 1 (write), and the token. -/
def headWait (s : State) (c x : Nat) : Option (Nat × Nat × Nat) :=
  match queueHead s c x with
  | none => none
  | some e =>
    if !queueLive (ctxOf s c x) then none
    else
      let k := coreOf s c
      match planOf s c x e with
      | .stop _ _ => none
      | .go p =>
        if wOp e.word = 0x14 then
          (if p.ready then none else some (if wfld e.word 33 32 = 1 then 1 else 0, 0, syncTok e))
        else
          match p.reads.find? (fun (t, _) => tokOf k t ≠ .full) with
          | some (t, _) => some (0, 0, t)
          | none => (p.writes.find? (fun t => tokOf k t ≠ .empty)).map (fun t => (1, 0, t))

/-- Has a stream a tile to begin: its program stands at a TILE or PAGE? -/
def strNext (r : Stream) : Bool :=
  let q := soRun soFuel r
  !r.ended && (soOp (q.ops.getD q.pos 0) = 6 || soOp (q.ops.getD q.pos 0) = 7)

/-- The context and slot that stream `n` waits on. -/
def streamWait (k : Core) (n : Nat) : Option (Nat × Nat × Nat) :=
  let r := kGet Stream.reset k.streams n
  match r.owner with
  | none => none
  | some x =>
    if !strNext r then none
    else if (strOpen k r).length < r.depth then
      let t := r.tok0 + r.tiles % r.ring
      if r.store then (if tokOf k t = .full then none else some (x, 3, t))
      else if tokOf k t = .empty then none else some (x, 2, t)
    else if r.store then none
    else (strOpen k r).head?.map (fun t => (x, 2, t))

/-- The context and slot that gather engine `n` waits on, with a row still to visit. -/
def gatherWait (k : Core) (n : Nat) : Option (Nat × Nat × Nat) :=
  let r := kGet Gath.reset k.gaths n
  match r.owner with
  | none => none
  | some x =>
    if !r.open_ && decide (r.visit < r.rows.length) && !gathReady k r then some (x, 4, gathTok r) else none

/-- What a waiting agent waits for: the context, SPM_WAIT_INFO.AGENT, its UNIT and the token. -/
def agentWait (s : State) (c : Nat) : SlotAgent → Option (Nat × Nat × Nat × Nat)
  | .head x => (headWait s c x).map (fun w => (x, w.1, 0, w.2.2))
  | .stream n => (streamWait (coreOf s c) n).map (fun w => (w.1, w.2.1, n, w.2.2))
  | .gather n => (gatherWait (coreOf s c) n).map (fun w => (w.1, w.2.1, n, w.2.2))

/-- The agents that a core has. -/
def slotAgentOk : SlotAgent → Bool
  | .head x => decide (x < 4)
  | .stream n => decide (n < 8)
  | .gather n => decide (n < 2)

/-- SLOT_WATCHDOG_EXPIRY (R179): an agent that waits for a slot ends its pour. -/
def watchdogExpiry (s : State) (c : Nat) (a : SlotAgent) : State :=
  match agentWait s c a with
  | some (x, agent, u, t) => if beforeCommit (ctxOf s c x) then slotWait s c x agent u t else s
  | none => s

/-! ### Commands -/

/-- TENSOR_ISSUE (R59). -/
def execTensorIssue (c : Nat) (s : State) : Out := onUnit (c < nCores) "TENSOR_ISSUE" (.next (tensorIssue s c))

/-- CONTEXT_SWITCH (R62). -/
def execContextSwitch (c : Nat) (s : State) : Out :=
  onUnit (c < nCores) "CONTEXT_SWITCH" 
    (.next (if (coreOf s c).selecting || switchCause s c then selectNext s c else s))

/-- TENSOR_COMPLETE (R59). -/
def execTensorComplete (c i : Nat) (s : State) : Out :=
  onUnit (c < nCores) "TENSOR_COMPLETE" (.next (tensorComplete s c i))

/-- YIELD (R272). -/
def execYield (c x : Nat) (w : Word) (s : State) : Out := onUnit (ctxOk c x) "YIELD" (.next (yieldEff s c x w))

/-- SLOT_WATCHDOG_EXPIRY (R179). -/
def execSlotWatchdogExpiry (c : Nat) (a : SlotAgent) (s : State) : Out :=
  onUnit (decide (c < nCores) && slotAgentOk a) "SLOT_WATCHDOG_EXPIRY" (.next (watchdogExpiry s c a))

end Sys2Proof.Machine
end

