-- ==== Sys2Proof/Machine/Doze.lean ====
section
/-! DEFINITION. Doze (R399–R406): horizons, entry, wake and the units.  Commands: DOZE_ENTRY,
DOZE_WAKE_START, WAKE_COMPLETE, PWR_HZ_WRITE, WAKE_REQUEST, HORIZON_EXPIRY,
PORT_WAKE_LOCK_TIMEOUT. -/

namespace Sys2Proof.Machine

/-- Number of dozing units (R469). -/
def nUnits : Nat := 3948

/-- The kind of a unit as PWR_LATE codes it, and its index within its kind. -/
def unitKind (u : Nat) : Nat × Nat :=
  if u < 160 then (0, u) else if u < 480 then (1, u - 160) else if u < 3040 then (2, u - 480)
  else if u < 3052 then (3, u - 3040) else if u < 3820 then (4, u - 3052) else (5, u - 3820)

/-- The controller and channel of a tier channel's unit number. -/
def unitChan (u : Nat) : Nat × Nat :=
  if u < 3820 then ((u - 3052) / 32, (u - 3052) % 32) else (24 + (u - 3820) / 16, (u - 3820) % 16)

/-- The PWR_HZ register of a unit; a bank quad has none. -/
def hzReg (u : Nat) : Option Nat :=
  match unitKind u with
  | (0, i) => some (rPWR_HZ_CORE i)
  | (1, i) => some (rPWR_HZ_ARR (i / 2) (i % 2))
  | (2, _) => none
  | (3, i) => some (rPWR_HZ_PORT i)
  | (4, i) => some (rPWR_HZ_T1 (i / 32) (i % 32))
  | (_, i) => some (rPWR_HZ_T2 (i / 16) (i % 16))

/-- Wake time in ns of a doze state (R399). -/
def wakeNs (st : Nat) : Nat := [0, 20, 1000, 40000, 350000].getD st 0

def guardNs (s : State) : Nat := rget s rPWR_CTRL fPWR_CTRL_GUARD_NS

/-- The states allowed for a unit (R399, R404), shallowest first. -/
def allowedDz (s : State) (u : Nat) : List Nat :=
  match unitKind u with
  | (0, i) => if rflag s (rPWR_HZ_CORE i) fPWR_HZ_CORE_DZ4_ALLOW then [1, 2, 3, 4] else [1, 2, 3]
  | (3, _) => [2, 3]
  | _ => [1, 2, 3]

/-- Does an instruction queued in a core name unit `a`? -/
def queuedOn (s : State) (c a : Nat) : Bool :=
  (List.range 4).any (fun x => (ctxOf s c x).queue.any (fun e =>
    match planOf s c x e with
    | .go p => p.units.contains a || p.units.contains (2 + a)
    | .stop _ _ => false))

/-- Is a unit idle (R399, Table: Dozing units)? -/
def unitIdle (s : State) (u : Nat) : Bool :=
  match unitKind u with
  | (0, c) => coreQuiet (coreOf s c)
  | (1, i) =>
    !((coreOf s (i / 2)).flights.any (fun f => f.units.contains (i % 2) || f.units.contains (2 + i % 2))) &&
      !queuedOn s (i / 2) (i % 2)
  | (2, i) => quadOn s (i / 16) (i % 16) && (calInForce s (i / 16)).all (fun e => entryPort e (i % 16) = 0xF)
  | (3, p) =>
    let e := eportOf s p
    e.txq.all (fun (_, l) => l.isEmpty) && e.carry.isNone && e.due.all (· = 0) && e.link.replay.isEmpty
  | _ =>
    let k := chanOf (tctlOf s (unitChan u).1) (unitChan u).2
    k.queues.all (fun (_, l) => l.isEmpty) && k.busy.isEmpty

/-- The horizon a calendar gives a unit (R400); `f` numbers the free time at which an armed bank calendar
comes into force. -/
def derivedHz (s : State) (u f : Nat) : Option Horizon :=
  match unitKind u with
  | (2, i) =>
    match (coreOf s (i / 16)).cal.waiting with
    | none => some .noKnown
    | some (t, _) =>
      let es := if t = 0 then (coreOf s (i / 16)).cal.store0 else (coreOf s (i / 16)).cal.store1
      if es.any (fun e => entryPort e (i % 16) ≠ 0xF) then some (.at (now s + (Config.freeWord f 0).toNat)) else some .noKnown
  | (4, _) => tierHz (unitChan u).1 (unitChan u).2
  | (5, _) => tierHz (unitChan u).1 (unitChan u).2
  | _ => none
where
  /-- The first slot from now with work for the channel; a slot lasts the line time of its stack. -/
  tierHz (n c : Nat) : Option Horizon :=
    let a := calActive s n
    if a = 0 ∨ a = 3 then none
    else
      let k := chanOf (tctlOf s n) c
      let sk := rget s (rTIER_CAL_LEN n (a - 1)) fTIER_CAL_LEN_SKEW
      let work := fun j =>
        let e := tierEntry s n (a - 1) ((k.slot + j + c * sk) % tierF s n (a - 1))
        e % 16 ≠ 0 || refApplies s n (e / 16 % 4)
      match (List.range (tierF s n (a - 1))).find? work with
      | some j => some (.at (now s + (if n < 24 then 20 * j / 3 else 25600 * j / 2140)))
      | none => some .noKnown

/-- The earlier of a written and a derived horizon (R400, R401). -/
def joinHz (w : Horizon) (d : Option Horizon) : Horizon :=
  match w, d with
  | _, none => w
  | .cleared, some h => h
  | .noKnown, some h => h
  | .at t, some (.at v) => .at (min t v)
  | .at t, some _ => .at t

def unitHz (s : State) (u f : Nat) : Horizon := joinHz (dozeOf s u).hz (derivedHz s u f)

/-- The state a horizon gives an idle unit (R401); 0 where no state fits. -/
def targetDz (s : State) (u : Nat) (h : Horizon) : Nat :=
  let l := allowedDz s u
  match h with
  | .cleared => l.headD 0
  | .noKnown => l.getLastD 0
  | .at t => ((l.filter (fun st => decide (wakeNs st + guardNs s + now s ≤ t))).getLast?).getD 0

/-- The doze state of a unit: a core's arrays and quads are at least as deep as the core (R399). -/
def effDz (s : State) (u : Nat) : Nat :=
  let own := (dozeOf s u).dz
  match unitKind u with
  | (1, i) => max own (min 3 (dozeOf s (i / 2)).dz)
  | (2, i) => max own (min 3 (dozeOf s (i / 16)).dz)
  | _ => own

/-- The units that a unit holds in its doze state: a core's arrays and quads (R399). -/
def heldUnits (u : Nat) : List Nat :=
  if u < 160 then
    (List.range 2).map (fun a => 160 + 2 * u + a) ++ (List.range 16).map (fun q => 480 + 16 * u + q)
  else []

/-- Count the whole microseconds a unit has spent in its state (R466). -/
def countDz (s : State) (u : Nat) : State :=
  let us := (now s - (dozeOf s u).since) / 1000
  let s1 := if us = 0 then s else countDev s (0x10000 + 8 * u + 2 + effDz s u) us
  setDoze s1 u { dozeOf s1 u with since := now s }

/-- A change of doze state: time in the old state is counted, and the trace record of kind 6. -/
def changeDz (s : State) (u st : Nat) : State :=
  let k := dozeOf s u
  let (kind, i) := unitKind u
  let s0 := (heldUnits u).foldl countDz (countDz s u)
  let s1 := setDoze s0 u { k with dz := st, since := now s }
  let (die, core) := match kind with
    | 0 => (dieOfCore i, i)
    | 1 => (dieOfCore (i / 2), i / 2)
    | 2 => (dieOfCore (i / 16), i / 16)
    | 3 => (4 + i / 6, 0xFF)
    | _ => (ctlDie (unitChan u).1, 0xFF)
  traceRec s1 6 die core 0 false (BitVec.ofNat 64 (i <<< 48 + kind <<< 45 + k.dz <<< 4 + st)) 0

/-- A unit goes into a doze state; a tier channel in DZ3 refreshes itself (R406). -/
def enterDz (s : State) (u st : Nat) : State :=
  let s1 := changeDz s u st
  if 3052 ≤ u ∧ st = 3 then
    modTctl s1 (unitChan u).1 (fun t => setChan t (unitChan u).2 { chanOf t (unitChan u).2 with debt := 0 })
  else s1

/-- DOZE_ENTRY (R401). -/
def dozeEntry (s : State) (u : Nat) : State :=
  let k := dozeOf s u
  if rflag s rPWR_CTRL fPWR_CTRL_ENABLE && k.dz = 0 && !k.waking && unitIdle s u then
    let (f, s1) := useFree s
    let st := targetDz s1 u (unitHz s1 u f)
    if st = 0 then s1 else enterDz s1 u st
  else s

/-- DOZE_WAKE_START (R401): a dozing unit with a known event begins its scheduled wake. -/
def wakeStart (s : State) (u : Nat) : State :=
  let k := dozeOf s u
  let (f, s1) := useFree s
  match unitHz s1 u f with
  | .at _ => if k.dz ≠ 0 ∧ k.waking = false then setDoze s1 u { k with waking := true } else s1
  | _ => s1

/-- A core that was off comes back with a scrubbed scratchpad, EMPTY tokens, the default calendar and
undefined accumulators (R404). -/
def coreFromDz4 (s : State) (c : Nat) : State :=
  let (n, s1) := useFree s
  calDefault (modCore s1 c (fun k =>
    undefAccs { k with
      spm := [], spmBad := [], spmCtl := [], spmOver := [], toks := [], tokRead := [], tokTile := [], tokSrc := []
      iLines := [], dLines := [] } (List.range 8) n)) c

/-- WAKE_COMPLETE (R399, R402, R404, R405): lateness against the event is counted and recorded. -/
def wakeComplete (s : State) (u : Nat) : State :=
  let k := dozeOf s u
  if !k.waking then s
  else
    let (kind, i) := unitKind u
    let s1 := changeDz s u 0
    let late := match k.hz with | .at t => now s - t | _ => 0
    let s2 := setDoze s1 u { dozeOf s1 u with waking := false, hz := if late = 0 then k.hz else .cleared }
    let s3 := if late = 0 then s2
      else countDev (rwr s2 rPWR_LATE (BitVec.ofNat 64 (i <<< 48 + kind <<< 45 + (late % 2 ^ 31) <<< 1 + 1)))
        (0x10000 + 8 * u + 1) 1
    let s4 := if k.dz = 4 then coreFromDz4 s3 i else s3
    if kind = 3 then modEport s4 i (fun e => { e with link := { e.link with retryOwed := true } }) else s4

/-- The horizon that a written value sets (R400). -/
def hzOf (s : State) (v : Nat) : Horizon :=
  if v = 0 then .cleared else if v = 0xFFFFFFFFFFFF then .noKnown else .at (now s + v)

/-- PWR_HZ_WRITE (R402): the horizon is set, and evaluated at once against a doze state. -/
def hzWrite (s : State) (u off : Nat) (v : Word) : State :=
  let s1 := regSet s off v
  let s0 := rput s1 off fPWR_HZ_CORE_HORIZON 0
  let s2 := if u < 160 then s0 else rput s0 off fPWR_HZ_CORE_DZ4_ALLOW 0
  let k := dozeOf s2 u
  let s3 := setDoze s2 u { k with hz := hzOf s2 (wfld v 47 0) }
  if k.dz = 0 || k.waking then s3
  else
    let (f, s4) := useFree s3
    match unitHz s4 u f with
    | .cleared => s4
    | .at t =>
      if wakeNs k.dz + guardNs s4 + now s4 ≤ t then
        let st := targetDz s4 u (.at t)
        if k.dz < st then enterDz s4 u st else s4
      else setDoze s4 u { dozeOf s4 u with waking := true }
    | .noKnown =>
      let st := targetDz s4 u .noKnown
      if k.dz < st then enterDz s4 u st else s4

/-- HORIZON_EXPIRY (R401): the horizon is cleared; a unit that is still waking keeps it until it is awake, so
that its lateness is known. -/
def horizonExpiry (s : State) (u : Nat) : State :=
  let k := dozeOf s u
  match k.hz with
  | .at _ => if k.waking then s else setDoze s u { k with hz := .cleared }
  | _ => s

/-! ### Views (R412) -/

/-- A PWR_HZ register as read: STATE and the time remaining. -/
def hzW (s : State) (u off : Nat) : Word :=
  let left := match (dozeOf s u).hz with
    | .cleared => 0
    | .at t => t - now s
    | .noKnown => 0xFFFFFFFFFFFF
  wput (wput (rd s off) 62 60 (effDz s u)) 47 0 left

/-- PWR_QUAD_c as read: a quad that is off reads 0. -/
def quadW (s : State) (c : Nat) : Word :=
  BitVec.ofNat 64 (((List.range 16).map (fun q =>
    if quadOn s c q then (effDz s (480 + 16 * c + q)) <<< (2 * q) else 0)).foldl (· + ·) 0)

/-- The unit of a PWR_HZ register, by its name and indices. -/
def hzUnit (name : String) (ix : List Nat) : Option Nat :=
  let i := ix.getD 0 0
  let j := ix.getD 1 0
  if name = "PWR_HZ_CORE" then some i
  else if name = "PWR_HZ_ARR" then some (160 + 2 * i + j)
  else if name = "PWR_HZ_PORT" then some (3040 + i)
  else if name = "PWR_HZ_T1" then some (3052 + 32 * i + j)
  else if name = "PWR_HZ_T2" then some (3820 + 16 * i + j)
  else none

/-! ### Commands -/

def unitKnown (u : Nat) : Bool := decide (u < nUnits)

/-- DOZE_ENTRY (R401). -/
def execDozeEntry (u : Nat) (s : State) : Out := onUnit (unitKnown u) "DOZE_ENTRY" (.next (dozeEntry s u))

/-- DOZE_WAKE_START (R401). -/
def execDozeWakeStart (u : Nat) (s : State) : Out := onUnit (unitKnown u) "DOZE_WAKE_START" (.next (wakeStart s u))

/-- PWR_HZ_WRITE (R402): a unit that has a PWR_HZ register. -/
def execPwrHzWrite (u : Nat) (value : Word) (s : State) : Out :=
  match (if unitKnown u then hzReg u else none) with
  | some off => .next (hzWrite s u off value)
  | none => .refused (.noSuchUnit "PWR_HZ_WRITE")

/-- WAKE_REQUEST (R403). -/
def execWakeRequest (u : Nat) (s : State) : Out := onUnit (unitKnown u) "WAKE_REQUEST" (.next (wakeUnit s u))

/-- HORIZON_EXPIRY (R401). -/
def execHorizonExpiry (u : Nat) (s : State) : Out := onUnit (unitKnown u) "HORIZON_EXPIRY" (.next (horizonExpiry s u))

end Sys2Proof.Machine
end

