-- ==== Sys2Proof/Machine/ErgCmd.lean ====
section
/-! DEFINITION. Packets that arrive at a port and collective events (R219–R235, R244–R249).  Commands:
RD, WR, ATOMIC_ADD, MCAST_WR, RED_WR, RED_RES, COMMIT_NOTICE, RELEASE, DISCARD, PACKET_FORWARD,
REDUCTION_COMBINE, COLL_SIBLING_TIMEOUT, MCAST_LAG_TIMEOUT, MCAST_RESEND, FAB_QSEND_GO,
QUENCH_ACK_TIMEOUT. -/

namespace Sys2Proof.Machine

/-! ### Arrival -/

/-- A packet leaves the input buffer of its port, and its credits are due (R222). -/
def takeRx (s : State) (p : Nat) (k : Packet) : State :=
  modEport s p (fun e =>
    if e.rxq.contains k then
      { e with rxq := e.rxq.erase k, due := e.due.set k.tc (e.due.getD k.tc 0 + pktFlits k) }
    else e)

/-- Has a packet outlived LIFETIME_US (R232)? -/
def aged (s : State) (k : Packet) : Bool :=
  decide (rget s rFAB_CTRL fFAB_CTRL_LIFETIME_US * 1000 < (now s % 2 ^ 32 + 2 ^ 32 - k.timeLo % 2 ^ 32) % 2 ^ 32)

/-- A packet in transit takes the port of its route; with none, a request is answered UNREACHABLE and
another packet is dropped and counted at the port it came by (R225, R226).  A multicast packet comes here
only with a reserved group, which has no route. -/
def transit (s : State) (p : Nat) (k : Packet) : State :=
  match (if k.mc then none else routeOf s k.dst k.tc) with
  | some o => enq s (4 + p / 6) o k
  | none => if isRequest k.ty then sendFree s (p / 6) (answerOf s k 6 [] 0) else ergCount s p 31 1

/-- Perform a request here and answer it, once its access no longer waits. -/
def serve (s : State) (p : Nat) (k : Packet) : State :=
  match handleAny s (.port p) k with
  | (s1, some a) => sendFree s1 (p / 6) a
  | (s1, none) => s1

/-- A packet arrives at port `p` (R213, R214, R219, R223, R225, R232, R248). `here` is what the device
does with a packet addressed to it. -/
def arrive (here : State → State) (s : State) (p : Nat) (k : Packet) : State :=
  if portState s p ≠ 2 then s
  else
    let s0 := takeRx s p k
    if !fabValid s0 then ergCount s0 p 35 1
    else if !knownType k.ty || k.dst = 0xFFFF then ergCount s0 p 29 1
    else if aged s0 k then ergCount s0 p 30 1
    else if k.mc && decide (k.dst < 0x1000) then
      let s1 := replicate s0 (4 + p / 6) k
      if mcastLocal s1 k.dst then here s1 else s1
    else if !k.mc && k.dst = nodeId s0 then here s0
    else transit s0 p k

/-- A request of a type arrives. -/
def arriveReq (s : State) (p ty : Nat) (k : Packet) : State :=
  let q := { k with ty := ty }
  arrive (fun u => serve u p q) s p q

/-- A QUENCH with an ACTION arrives. -/
def arriveQuench (s : State) (p action : Nat) (k : Packet) : State :=
  arriveReq s p 0x11 { k with w3 := wput k.w3 31 30 action }

/-! ### Multicast recovery (R249) -/

/-- Drops of transfers that are over are forgotten. -/
def tidyDrops (s : State) : State :=
  { s with erg := { s.erg with dropped := s.erg.dropped.filter (fun d =>
      s.ergReqs.any (fun r => r.pkt.mc && r.pkt.dst = d.group && r.xfer = d.xfer)) } }

/-- MCAST_LAG_TIMEOUT: the members that block a full window are dropped from that transfer, and the sender goes
on. -/
def mcastLag (s : State) (g : Nat) : State :=
  let l := mcastReqs s g
  match l.find? (fun r => r.sent && !(liveWait s r).isEmpty), l.find? (fun r => !r.sent) with
  | some r, some nxt =>
    if windowFlits s g + pktFlits nxt.pkt ≤ 64 then s
    else
      let ms := liveWait s r
      let hub := reqHub r
      let s0 := tidyDrops s
      let s1 := { s0 with erg := { s0.erg with
        dropped := s0.erg.dropped ++ ms.map (fun m => ⟨g, m, r.xfer, now s, false⟩) } }
      let s2 := if rflag s1 (rMCAST_DROP_LOG hub) fMCAST_DROP_LOG_VALID then s1
        else rwr (rwr s1 (rMCAST_DROP_LOG hub) (BitVec.ofNat 64 (ms.headD 0 <<< 48 + g <<< 36 + 1)))
          (rMCAST_DROP_TIME hub) (nowW s1)
      mcastPumpAll (raiseDev s2 0x09 0xFF [rd s2 (rMCAST_DROP_LOG hub)]) g
  | _, _ => s

/-- A packet that a dropped member has not acknowledged goes to it as unicast WR. -/
def resendTo (m : Nat) (s : State) (r : ErgReq) : State :=
  let k := { r.pkt with ty := 0x09, mc := false, dst := m, timeLo := now s % 2 ^ 32 }
  match routeOf s m k.tc with
  | some p => enq s (reqDie r) p k
  | none => respBase s r (answerOf s k 6 [] 0)

/-- MCAST_RESEND: the first transfer of the group that dropped a member, once every packet of it has been sent,
goes in order to each member dropped from it, as far as that member has not acknowledged it. -/
def mcastResend (s : State) (g : Nat) : State :=
  let s0 := tidyDrops s
  match s0.erg.dropped.find? (fun d => d.group = g && !d.resent) with
  | none => s0
  | some d0 =>
    let l := (mcastReqs s0 g).filter (fun r => r.xfer = d0.xfer)
    if l.any (fun r => !r.sent) || !fabValid s0 then s0
    else
      let mine := fun (d : MDrop) => d.group = g && d.xfer = d0.xfer && !d.resent
      let s1 := { s0 with erg := { s0.erg with
        dropped := s0.erg.dropped.map (fun d => if mine d then { d with resent := true } else d) } }
      (s0.erg.dropped.filter mine).foldl (fun u d =>
        (l.filter (fun r => r.wait.contains d.node)).foldl (resendTo d.node) u) s1

/-! ### Quenches sent (R235) -/

/-- The acks a quench expects: 1 for a node, the member count of a group (0 for a reserved group). -/
def quenchExpected (s : State) (mc : Bool) (dst : Nat) : Nat :=
  if !mc then 1 else if dst < 0x1000 then rget s (rMCAST_LIST dst) fMCAST_LIST_COUNT else 0

/-- Send a quench to a group: copies to its ports, and performed here where LOCAL is set.  A reserved group has no
route: the packet is dropped and counted.  With a member list that does not read nothing is sent (log entry 94). -/
def quenchGroup (s : State) (hub : Nat) (r : ErgReq) : State :=
  let k := r.pkt
  if 0xFFF < k.dst then ergCount s (6 * hub) 31 1
  else
    match mcastMembers s k.dst with
    | none => s
    | some nodes =>
      let r1 := { r with wait := nodes }
      let u := { s with ergReqs := s.ergReqs ++ [r1] }
      let u1 := if fabValid u then replicate u (4 + hub) k else u
      if mcastLocal u1 k.dst then
        match handleReq u1 (.own hub) k with
        | (u2, some a) => respBase u2 r1 a
        | (u2, none) => u2
      else u1

/-- A write of FAB_QSEND of a hub. -/
def qsendWrite (s : State) (hub : Nat) (v : Word) : State :=
  let s0 := rwr s (rFAB_QSEND hub) (v &&& 0xFFFFFFFFFFFFFC00)
  if !wbit v 0 || rflag s0 (rFAB_QSTATUS hub) fFAB_QSTATUS_BUSY then s0
  else
    let mc := wbit v 15
    let dst := wfld v 31 16
    let part := wfld v 14 12
    let due := quenchExpected s0 mc dst
    let s1 := rwr (rwr s0 (rFAB_QCOUNT hub) 0) (rFAB_QSTATUS hub) (BitVec.ofNat 64 (due <<< 48 + 1))
    let w3 : Word := BitVec.ofNat 64 (wfld v 63 32 <<< 32 + wfld v 11 10 <<< 30 + part <<< 24)
    let node := if dst = 0xFFFF then nodeId s0 else dst
    let k := { reqPacket s1 0x11 7 dst part 0 0xFF w3 [] with mc := mc, dst := if mc then dst else node }
    let r : ErgReq := ⟨k, .quench hub, part, 0xFF, 0, [node], none, none, now s1, true, 0⟩
    let s2 := if mc then quenchGroup s1 hub r else sendReq handleReq s1 (isSelf s1 dst) r
    if due = 0 && rflag s2 (rFAB_QSTATUS hub) fFAB_QSTATUS_BUSY then quenchEnd s2 hub false else s2

/-! ### Commands -/

def portKnown (p : Nat) : Bool := decide (p < 12)

/-- RD (R228). -/
def execRd (p : Nat) (k : Packet) (s : State) : Out := onUnit (portKnown p) "RD" (.next (arriveReq s p 0x08 k))

/-- WR (R228, R230). -/
def execWr (p : Nat) (k : Packet) (s : State) : Out := onUnit (portKnown p) "WR" (.next (arriveReq s p 0x09 k))

/-- ATOMIC_ADD (R229). -/
def execAtomicAdd (p : Nat) (k : Packet) (s : State) : Out :=
  onUnit (portKnown p) "ATOMIC_ADD" (.next (arriveReq s p 0x0A k))

/-- MCAST_WR (R248). -/
def execMcastWr (p : Nat) (k : Packet) (s : State) : Out :=
  onUnit (portKnown p) "MCAST_WR" (.next (arriveReq s p 0x0C k))

/-- RED_WR (R244). -/
def execRedWr (p : Nat) (k : Packet) (s : State) : Out :=
  onUnit (portKnown p) "RED_WR" (.next (arriveReq s p 0x0D k))

/-- RED_RES (R477). -/
def execRedRes (p : Nat) (k : Packet) (s : State) : Out :=
  onUnit (portKnown p) "RED_RES" (.next (arriveReq s p 0x0E k))

/-- COMMIT_NOTICE (R234). -/
def execCommitNotice (p : Nat) (k : Packet) (s : State) : Out :=
  onUnit (portKnown p) "COMMIT_NOTICE" (.next (arriveReq s p 0x10 k))

/-- QUENCH RELEASE (R40, R235). -/
def execRelease (p : Nat) (k : Packet) (s : State) : Out :=
  onUnit (portKnown p) "RELEASE" (.next (arriveQuench s p 1 k))

/-- QUENCH DISCARD (R40, R235). -/
def execDiscard (p : Nat) (k : Packet) (s : State) : Out :=
  onUnit (portKnown p) "DISCARD" (.next (arriveQuench s p 2 k))

/-- A packet that its own command takes: one for this device of a type the device performs, and the types that
are not forwarded (IDLE, LINK, BEACON). -/
def ownCommand (s : State) (k : Packet) : Bool :=
  fabValid s && knownType k.ty && (k.ty = 0x00 || k.ty = 0x01 || k.ty = 0x12 ||
    (if k.mc then mcastLocal s k.dst else k.dst = nodeId s))

/-- PACKET_FORWARD (R219, R225): a packet that is not for this device, or of no type. -/
def execPacketForward (p : Nat) (k : Packet) (s : State) : Out :=
  onUnit (portKnown p) "PACKET_FORWARD" (.next (if ownCommand s k then s else arrive (fun u => u) s p k))

/-- REDUCTION_COMBINE (R244). -/
def execReductionCombine (hub g c : Nat) (s : State) : Out :=
  onUnit (decide (hub < 2) && decide (g < 256)) "REDUCTION_COMBINE" (.next (reductionCombine s hub g c))

/-- COLL_SIBLING_TIMEOUT (R247). -/
def execCollSiblingTimeout (hub g c : Nat) (s : State) : Out :=
  onUnit (decide (hub < 2) && decide (g < 256)) "COLL_SIBLING_TIMEOUT" (.next (collTimeout s hub g c))

/-- MCAST_LAG_TIMEOUT (R249). -/
def execMcastLagTimeout (g : Nat) (s : State) : Out :=
  onUnit (g < 0x1000) "MCAST_LAG_TIMEOUT" (.next (mcastLag s g))

/-- MCAST_RESEND (R249). -/
def execMcastResend (g : Nat) (s : State) : Out := onUnit (g < 0x1000) "MCAST_RESEND" (.next (mcastResend s g))

/-- FAB_QSEND_GO (R235): a write of FAB_QSEND with GO. -/
def execFabQsendGo (hub : Nat) (value : Word) (s : State) : Out :=
  onUnit (hub < 2) "FAB_QSEND_GO" (.next (qsendWrite s hub (value ||| 1)))

/-- QUENCH_ACK_TIMEOUT (R235). -/
def execQuenchAckTimeout (hub : Nat) (s : State) : Out :=
  onUnit (hub < 2) "QUENCH_ACK_TIMEOUT"
    (.next (if rflag s (rFAB_QSTATUS hub) fFAB_QSTATUS_BUSY then quenchEnd s hub true else s))

end Sys2Proof.Machine
end

