-- ==== Sys2Proof/Machine/Resp.lean ====
section
/-! DEFINITION. Responses to this device's requests and their timeouts (R229, R232–R235, R330).  Commands:
RD_RSP, WR_ACK, ATOMIC_RSP, NOTICE_ACK, QUENCH_ACK, REQUEST_TIMEOUT, CARAVAN_FORWARD_TIMEOUT. -/

namespace Sys2Proof.Machine

/-- The Caravan message of a forwarded request is answered (R330): MEM_RSP or ACK with the Erg status, or
TIMEOUT. -/
def answerFwd (s : State) (ergTag status : Nat) (payload : List (Word × Bool)) : State :=
  match s.ctl.fwd.find? (fun f => f.ergTag = ergTag) with
  | none => s
  | some f =>
    let s1 := { s with ctl := { s.ctl with fwd := s.ctl.fwd.erase f } }
    answerMsg s1 f.port f.tag (if f.isRead then 0x23 else 0x22) status 0 (if f.isRead && status = 0 then payload else [])

/-- The response `q` to request `r` (R232–R235, R244, R330, R373). -/
def respFor (s : State) (r : ErgReq) (q : Packet) : State :=
  match r.origin with
  | .ckpt _ => ckptRun ckptFuel (ckptResp s r q)
  | .caravan => answerFwd { s with ergReqs := s.ergReqs.erase r } r.pkt.tag q.status q.payload
  | _ => if r.pkt.mc && r.pkt.ty = 0x0C then mcastPumpAll (respBase s r q) r.pkt.dst else respBase s r q

/-- The request that a response answers: by tag, type and the node that sent it; UNREACHABLE may come from any hop
(R226). -/
def reqFor (s : State) (q : Packet) : Option ErgReq :=
  s.ergReqs.find? (fun r => r.pkt.tag = q.tag && respType r.pkt.ty = q.ty && (r.wait.contains q.src || q.status = 6))

/-- An answer of a hop stands for the one node awaited. -/
def asAwaited (r : ErgReq) (q : Packet) : Packet :=
  match r.wait with
  | [n] => { q with src := n }
  | _ => q

/-- A response addressed to this device: one that answers no request is dropped and counted (R232). -/
def respHere (p : Nat) (q : Packet) (s : State) : State :=
  match reqFor s q with
  | some r => respFor s r (asAwaited r q)
  | none => ergCount s p 32 1

/-- A response of a type arrives at port `p`. -/
def arriveResp (s : State) (p ty : Nat) (k : Packet) : State :=
  let q := { k with ty := ty }
  arrive (respHere p q) s p q

/-- A request has had no response within TIMEOUT_US (R232): it has failed. -/
def reqTimeout (s : State) (r : ErgReq) : State :=
  let s1 := { s with ergReqs := s.ergReqs.erase r }
  match r.origin with
  | .pour => beginAbort s1 r.core r.ctx 0x14 0
  | .engine g => if r.pkt.ty = 0x0E then collFail s1 r.part g 0 4 false else s1
  | .notice t c st => respNotice s r t c st 0xF
  | .ckpt _ => ckptRun ckptFuel (ckptFail s1 (reqCause s1))
  | .caravan => answerFwd s1 r.pkt.tag 0xF []
  | .quench _ => s

/-- REQUEST_TIMEOUT of the request with a tag. -/
def requestTimeout (s : State) (tag : Nat) : State :=
  match s.ergReqs.find? (fun r => r.pkt.tag = tag) with
  | some r =>
    let s1 := reqTimeout s r
    if r.pkt.mc && r.pkt.ty = 0x0C then mcastPumpAll s1 r.pkt.dst else s1
  | none => s

/-- CARAVAN_FORWARD_TIMEOUT of the forwarded request with an Erg tag (R330). -/
def forwardTimeout (s : State) (tag : Nat) : State :=
  match s.ergReqs.find? (fun r => r.pkt.tag = tag && r.origin = .caravan) with
  | some r => reqTimeout s r
  | none => s

/-! ### Commands -/

/-- RD_RSP (R228, R233). -/
def execRdRsp (p : Nat) (k : Packet) (s : State) : Out :=
  onUnit (portKnown p) "RD_RSP" (.next (arriveResp s p 0x20 k))

/-- WR_ACK (R233). -/
def execWrAck (p : Nat) (k : Packet) (s : State) : Out :=
  onUnit (portKnown p) "WR_ACK" (.next (arriveResp s p 0x21 k))

/-- ATOMIC_RSP (R229). -/
def execAtomicRsp (p : Nat) (k : Packet) (s : State) : Out :=
  onUnit (portKnown p) "ATOMIC_RSP" (.next (arriveResp s p 0x22 k))

/-- NOTICE_ACK (R234). -/
def execNoticeAck (p : Nat) (k : Packet) (s : State) : Out :=
  onUnit (portKnown p) "NOTICE_ACK" (.next (arriveResp s p 0x23 k))

/-- QUENCH_ACK (R235). -/
def execQuenchAck (p : Nat) (k : Packet) (s : State) : Out :=
  onUnit (portKnown p) "QUENCH_ACK" (.next (arriveResp s p 0x24 k))

/-- REQUEST_TIMEOUT (R232). -/
def execRequestTimeout (tag : Nat) (s : State) : Out := .next (requestTimeout s tag)

/-- CARAVAN_FORWARD_TIMEOUT (R330). -/
def execCaravanForwardTimeout (tag : Nat) (s : State) : Out := .next (forwardTimeout s tag)

end Sys2Proof.Machine
end

