-- ==== Sys2Proof/Machine/ErgLoss.lean ====
section
/-! DEFINITION. The commands that can take an Erg port DOWN, and what becomes of the packets that wait there
(R221, R223, R226, R405).  Commands: ERG_FRAME_SEND, ERG_FRAME_RECEIVE, ERG_RETRY_REQUEST, ERG_LANE_LOCK_LOSS,
ERG_ACK_STALL, PORT_CTRL_DISABLE, PORT_CTRL_RETRAIN, PORT_TRAINING_COMPLETE, PORT_WAKE_LOCK_TIMEOUT. -/

namespace Sys2Proof.Machine

/-- A packet that waits at a DOWN port (R226, R248): a request is answered UNREACHABLE where it stands; a
multicast copy or another packet is dropped and counted. -/
def strand (s : State) (p : Nat) (k : Packet) : State :=
  if k.mc then ergCount s p 34 1
  else if !isRequest k.ty then ergCount s p 31 1
  else
    let a := answerOf s k 6 [] 0
    match (if k.src = nodeId s then reqFor s { a with src := k.dst } else none) with
    | some r => respFor s r { a with src := k.dst }
    | none => sendFree s (p / 6) a

/-- Packets that wait for port `p`, in its queues or at a tuyere. -/
def portWaiting (s : State) (p : Nat) : List Packet :=
  (List.range 8).flatMap (fun c => kGet [] (eportOf s p).txq c) ++
    ((s.erg.metered.filter (fun m => m.2.1 = p)).map (·.2.2))

/-- No packet waits at a DOWN port. -/
def portFlush (s : State) (p : Nat) : State :=
  let l := portWaiting s p
  if portState s p ≠ 0 || l.isEmpty then s
  else
    let s1 := modEport s p (fun e => { e with txq := [] })
    l.foldl (fun u k => strand u p k)
      { s1 with erg := { s1.erg with metered := s1.erg.metered.filter (fun m => m.2.1 ≠ p) } }

/-! ### Commands -/

/-- ERG_FRAME_SEND (R236). -/
def execErgFrameSend (p : Nat) (s : State) : Out :=
  onUnit (portOk p) "ERG_FRAME_SEND" (.next (portFlush (frameSlot s p) p))

/-- ERG_FRAME_RECEIVE (R221). -/
def execErgFrameReceive (p : Nat) (a : FrameArrival) (s : State) : Out :=
  onUnit (portOk p) "ERG_FRAME_RECEIVE" (.next (portFlush (frameReceive s p a.frame a.fixed) p))

/-- ERG_RETRY_REQUEST (R221). -/
def execErgRetryRequest (p seq : Nat) (s : State) : Out :=
  onUnit (portOk p) "ERG_RETRY_REQUEST"
    (.next (if portState s p = 2 && portDozes s p then wakeUnit s (3040 + p) else portFlush (retryRequest s p seq) p))

/-- The lanes of port `p` lose lock (R223); a port in doze is not taken DOWN for it (R405). -/
def laneLoss (s : State) (p : Nat) : State :=
  if portState s p = 2 && !portDozes s p then portFlush (portDown s p 2) p else s

/-- ERG_LANE_LOCK_LOSS (R223). -/
def execErgLaneLockLoss (p : Nat) (s : State) : Out :=
  onUnit (portOk p) "ERG_LANE_LOCK_LOSS" (.next (laneLoss s p))

/-- ERG_ACK_STALL (R223): frames have been outstanding with no progress for 10 µs; not of a port in doze (R405). -/
def execErgAckStall (p : Nat) (s : State) : Out :=
  onUnit (portOk p) "ERG_ACK_STALL"
    (.next (if portState s p = 2 && !portDozes s p && !(eportOf s p).link.replay.isEmpty then portFlush (portDown s p 4) p else s))

/-- PORT_CTRL_DISABLE (R223). -/
def execPortCtrlDisable (p : Nat) (s : State) : Out :=
  onUnit (portOk p) "PORT_CTRL_DISABLE" (.next (portFlush (portCtrlWrite s p (rd s (rPORT_CTRL p) ||| 2)) p))

/-- PORT_CTRL_RETRAIN (R223). -/
def execPortCtrlRetrain (p : Nat) (s : State) : Out :=
  onUnit (portOk p) "PORT_CTRL_RETRAIN" (.next (portCtrlWrite s p (rd s (rPORT_CTRL p) ||| 1)))

/-- PORT_TRAINING_COMPLETE (R223). -/
def execPortTrainingComplete (p : Nat) (ok : Bool) (rtt : Nat) (s : State) : Out :=
  onUnit (portOk p) "PORT_TRAINING_COMPLETE" (.next (portFlush (portTrained s p ok rtt) p))

/-- PORT_WAKE_LOCK_TIMEOUT (R405): the port goes DOWN for want of lock. -/
def execPortWakeLockTimeout (p : Nat) (s : State) : Out :=
  onUnit (decide (p < 12)) "PORT_WAKE_LOCK_TIMEOUT" (.next (portFlush (portDown s p 2) p))

end Sys2Proof.Machine
end

