-- ==== Sys2Proof/Machine/StartUp.lean ====
section
/-! DEFINITION. Start-up, the self-test, readiness, resets and the Cairn state (R383–R386, R408, R409,
R413, R428–R440, R463, R464).  Commands: RST_N_ASSERT, RST_N_DEASSERT, PWRGOOD_FALL, PWRGOOD_RISE,
RAIL_UNDERVOLTAGE, RAIL_RECOVERY, STRAP_DELAY_EXPIRY, REFERENCE_CHECK_DONE, CRYSTAL_MONITOR_TICK,
CRYSTAL_EDGE_LOSS, PLL_LOCK_TIMEOUT, ROM_STAGE_COMPLETE, BOOT_IMG_DATA_WRITE, BOOT_CTRL_GO,
IMAGE_WAIT_TIMEOUT, VERIFY_COMPLETE, SELFTEST_PHASE_COMPLETE, BOOT_CTRL_RESTART, CTL_RESET_WARM,
THERMAL_SENSOR_READ, LOGIC_FAULT. -/

namespace Sys2Proof.Machine

/-! ### Cold events (R7, R409, R428) -/

/-- Every domain except AON is held: all state is as after a cold reset but MRAM, what the pins see, the
waiting commands, and the rails found low.  Tier content stays where `keepMem`; else it is undefined. -/
def coldHold (s : State) (keepMem : Bool) : State :=
  { State.reset with
    mram := s.mram, pending := s.pending, free := if keepMem then s.free else s.free + 1
    mem := if keepMem then s.mem else []
    memBad := if keepMem then s.memBad else []
    memUndef := if keepMem then s.memUndef else [(0, 2 ^ 48, s.free)]
    pins := { Pins.reset with
      rstN := s.pins.rstN, pwrgood := s.pins.pwrgood, strapPins := s.pins.strapPins
      thermtrip := s.pins.thermtrip, sensors := s.pins.sensors, uvHold := s.pins.uvHold, tap := s.pins.tap } }

/-- Enter a stage: BOOT_STATUS.STAGE and BOOT_TIME (R428). -/
def enterStage (s : State) (k : Nat) : State :=
  rwr (rput s rBOOT_STATUS fBOOT_STATUS_STAGE k) (rBOOT_TIME k) (nowW s)

/-- Does some junction sensor still read 115 °C or more (R464)? -/
def stillHot (s : State) : Bool := s.pins.thermtrip && s.pins.sensors.any (fun (_, t) => decide (115 ≤ t))

/-- Start-up leaves stage RESET: RST_N and PWRGOOD high, every rail within tolerance, and no trip that is
still hot.  The straps are sampled, and stage CRYSTAL waits for the strap delay (R429, R384, R385). -/
def leaveReset (s : State) : State :=
  if !s.pins.rstN || !s.pins.pwrgood || !s.pins.uvHold.isEmpty || stillHot s then s
  else
    let w := s.pins.strapPins
    let s1 := { s with pins := { s.pins with strapsHeld := w, thermtrip := false, tap := { s.pins.tap with ir := 0x3F } } }
    let s2 := rput (rput (rput s1 rID_STRAPS fID_STRAPS_STRAPS w.toNat) rCLK_STATUS fCLK_STATUS_BYPASS (bitsOf w.toNat 3 3))
      rCLK_STATUS fCLK_STATUS_DELAY (bitsOf w.toNat 2 0)
    enterStage (rput s2 rFLT_STATE fFLT_STATE_REPLACE (b2n s2.mram.replaceMark)) 1

/-- RST_N_ASSERT. -/
def rstAssert (s : State) : State := coldHold { s with pins := { s.pins with rstN := false } } true

/-- RST_N_DEASSERT with the levels of STRAP[7:0]. -/
def rstDeassert (s : State) (straps : BitVec 8) : State :=
  if s.pins.rstN then s
  else leaveReset { s with pins := { s.pins with rstN := true, strapPins := straps, tap := { s.pins.tap with ir := 0x3F } } }

/-- PWRGOOD_FALL. -/
def pwrFall (s : State) : State := coldHold { s with pins := { s.pins with pwrgood := false } } false

/-- PWRGOOD_RISE. -/
def pwrRise (s : State) : State :=
  if s.pins.pwrgood then s else leaveReset { s with pins := { s.pins with pwrgood := true } }

/-- RAIL_UNDERVOLTAGE (R409): a hold that resets every register but PWR_STATUS. -/
def railLow (s : State) (r : Nat) : State :=
  let st := rd s rPWR_STATUS
  let s1 := coldHold { s with pins := { s.pins with uvHold := s.pins.uvHold ++ [r] } } false
  rset (rput (rwr s1 rPWR_STATUS st) rPWR_STATUS fPWR_STATUS_UV_RAIL r) rPWR_STATUS fPWR_STATUS_UV

/-- RAIL_RECOVERY. -/
def railBack (s : State) : State :=
  if s.pins.uvHold.isEmpty then s else leaveReset { s with pins := { s.pins with uvHold := [] } }

/-! ### The Cairn state (R438) -/

/-- BOOT_FAIL of a failure in phase `ph`. -/
def bootFailW (ph : Nat) (f : FoundFault) : Word :=
  BitVec.ofNat 64 ((f.inst % 2 ^ 16) <<< 48 + (f.die % 256) <<< 40 + (f.unit % 256) <<< 32 + (ph % 16) <<< 4 + 1)

/-- Record a failure: BOOT_FAIL holds the one that decides the Cairn state, or else the first. -/
def noteFail (s : State) (ph : Nat) (f : FoundFault) (decides : Bool) : State :=
  let s1 := { s with boot := { s.boot with
    fails := s.boot.fails ++ [(ph, f)]
    fatal := if decides && s.boot.fatal.isNone then some (ph, f) else s.boot.fatal } }
  match s1.boot.fatal, s1.boot.fails.head? with
  | some (p, g), _ => rwr s1 rBOOT_FAIL (bootFailW p g)
  | none, some (p, g) => rwr s1 rBOOT_FAIL (bootFailW p g)
  | none, none => s1

/-- A failure of no unit of the table (crystal, image): the spec gives no UNIT code and no INSTANCE, so they
are free. -/
def plainFail (s : State) (ph : Nat) : State :=
  let (f, s1) := useFree s
  noteFail s1 ph ⟨(Config.freeWord f 0).toNat % 256, 6, (Config.freeWord f 1).toNat % 2 ^ 16⟩ true

/-- The phase of a failure in an image stage: the crystal's where that has failed (R437). -/
def imagePhase (s : State) : Nat := if s.boot.xtalPending then 8 else 9

/-- Is a failure the fault of a core (R433)? -/
def coreFault (u : Nat) : Bool := decide (u ≤ 3) || u = 9 || u = 11

/-- The CPER record of a start-up failure. -/
def startCper (s : State) (f : FoundFault) : State :=
  cperWrite s { cperInfo 1 0x13 f.die f.unit f.inst with
    core := if coreFault f.unit then f.inst else 0xFF, detail := rd s rBOOT_FAIL }

/-- Stop every clock domain but MGMT and TIME; the stacks are idle and the Erg ports DOWN. -/
def stopForCairn (s : State) : State :=
  let keep := fun (n : Nat) => n / 8 = 6
  { s with
    clk := { s.clk with plls := s.clk.plls.filter (fun (n, _) => keep n), doms := s.clk.doms.filter (fun (n, _) => keep n) }
    mem := [], memBad := [], memUndef := [(0, 2 ^ 48, s.free)], free := s.free + 1, tier := [], cores := [], sprue := [], ergReqs := [], ckpt := Ckpt.reset
    erg := Erg.reset, metered := [], pins := { s.pins with fault := true, ergTxIdle := true } }

/-- Entry to CAIRN. -/
def enterCairn (s : State) : State :=
  let s1 := rput (enterStage s 7) rCTL_STATE fCTL_STATE_STATE 3
  let s2 := (List.range 12).foldl (fun u p => rput u (rPORT_STATUS p) fPORT_STATUS_STATE 0) s1
  let s3 := stopForCairn s2
  (s3.boot.fails.map (·.2)).foldl startCper s3

/-- A start-up stage fails. -/
def stageFails (s : State) (ph : Nat) (f : FoundFault) : State := enterCairn (noteFail s ph f true)

/-! ### Stages CRYSTAL and ROM (R385, R386, R428) -/

/-- STRAP_DELAY_EXPIRY: the count of reference edges begins. -/
def strapDelay (s : State) : State :=
  if bootStage s = 1 && s.boot.phase = 0 then { s with boot := { s.boot with phase := 1 } } else s

/-- Does a count lie within 2% of `n`? -/
def within2 (count n : Nat) : Bool := decide (98 * n ≤ 100 * count) && decide (100 * count ≤ 102 * n)

/-- REFERENCE_CHECK_DONE: the changeover and stage ROM, or the end of start-up. -/
def referenceDone (s : State) (count : Nat) : State :=
  if bootStage s = 1 && s.boot.phase = 1 then
    let s0 := { s with boot := { s.boot with phase := 0 } }
    if within2 count 8192 then
      let s1 := enterStage (rput s0 rCLK_STATUS fCLK_STATUS_SRC 1) 2
      let s2 := startDom (startDom s1 6 1) 6 2
      cportTrain (cportTrain { s2 with pins := { s2.pins with lasersOn := true } } 0) 1
    else enterCairn (plainFail (rset s0 rCLK_STATUS fCLK_STATUS_XTAL_FAIL) 8)
  else s

/-- Every Erg and Caravan port loses lock (R386): those that are UP go DOWN (R223, R325), the active Caravan port
last. -/
def lanesLost (s : State) : State :=
  let car := fun (t : State) k => if cportState t k = 2 then cportDown t k 2 else t
  let s1 := (List.range 12).foldl laneLoss s
  car (car s1 (1 - activePort s1)) (activePort s1)

/-- A crystal failure after the changeover (R386, R437). -/
def crystalFail (s : State) : State :=
  if rflag s rCLK_STATUS fCLK_STATUS_SRC then
    let s1 := rset (rput s rCLK_STATUS fCLK_STATUS_SRC 0) rCLK_STATUS fCLK_STATUS_XTAL_FAIL
    let s2 := lanesLost (raiseDev s1 0x42 0xFF [rd s1 rCLK_STATUS])
    if 2 ≤ bootStage s ∧ bootStage s ≤ 5 then { s2 with boot := { s2.boot with xtalPending := true } } else s2
  else s

/-- CRYSTAL_MONITOR_TICK: `count` crystal edges in the millisecond. -/
def crystalTick (s : State) (count : Nat) : State := if within2 count 50000 then s else crystalFail s

/-- PLL_LOCK_TIMEOUT (R428, R433): a PLL that is started or retuned does not lock. -/
def pllLockTimeout (s : State) (die pll : Nat) : State :=
  match domOfPll die pll, pllRun s die pll with
  | some dom, .locking =>
    let s1 := setDom (setPll s die pll .dead) die dom .gated
    let (f, s2) := useFree s1
    let found : FoundFault := ⟨(Config.freeWord f 0).toNat % 256, die, pll⟩
    if bootStage s = 2 then stageFails s2 10 found
    else if bootStage s = 5 then noteFail s2 1 found true
    else deadDomain (pllUnlock s2 die pll true) die dom
  | _, _ => s

/-- ROM_STAGE_COMPLETE: ROM and STRAPS are measured (R420), and the image is awaited; a crystal failure
ends start-up here. -/
def romDone (s : State) : State :=
  if bootStage s = 2 && domRun s 6 1 = .full && domRun s 6 2 = .full && cportState s 0 ≠ 1 && cportState s 1 ≠ 1 then
    let s1 := extendDevice s 0x0001 Config.romDigest
    let s2 := extendDevice s1 0x0002 (shake256 (bytesLE 1 (rget s rID_STRAPS fID_STRAPS_STRAPS)))
    if s2.boot.xtalPending then enterCairn (plainFail s2 8) else enterStage s2 3
  else s

/-! ### Image (R413, R431) -/

def imageSize : Nat := 0x400000

def imgBytes (s : State) (o n : Nat) : List Byte := (List.range n).map (fun i => smGet 0 s.boot.image (o + i))

def imgNat (s : State) (o n : Nat) : Nat := ofBytesLE (imgBytes s o n)

/-- BOOT_IMG_DATA_WRITE. -/
def imgWrite (s : State) (v : Word) : State :=
  if bootStage s ≠ 3 || s.boot.phase = 1 then rset s rBOOT_CTRL fBOOT_CTRL_REJECT
  else
    let o := rget s rBOOT_IMG_PTR fBOOT_IMG_PTR_OFFSET * 8
    let s1 := { s with boot := { s.boot with
      image := memPutBytes s.boot.image o (bytesLE 8 v.toNat), phase := if o + 8 = imageSize then 1 else 0 } }
    rput s1 rBOOT_IMG_PTR fBOOT_IMG_PTR_OFFSET (o / 8 + 1)

/-- A write of BOOT_IMG_PTR. -/
def imgPtrWrite (s : State) (v : Word) : State :=
  if bootStage s ≠ 3 then rset s rBOOT_CTRL fBOOT_CTRL_REJECT
  else rput { s with boot := { s.boot with phase := 0 } } rBOOT_IMG_PTR fBOOT_IMG_PTR_OFFSET (wfld v 21 3)

/-- BOOT_CTRL_GO: VERIFY begins, or a crystal failure ends start-up with the stage (R437). -/
def bootGo (s : State) : State :=
  if bootStage s ≠ 3 then rset s rBOOT_CTRL fBOOT_CTRL_REJECT
  else if s.boot.xtalPending then enterCairn (plainFail s 8)
  else enterStage s 4

/-- IMAGE_WAIT_TIMEOUT. -/
def imageTimeout (s : State) : State :=
  if bootStage s = 3 then enterCairn (plainFail (rput s rSEC_STATUS fSEC_STATUS_BOOT_CAUSE 7) (imagePhase s)) else s

/-- The first image check that fails (R413); 0 when all pass. -/
def imageCause (s : State) : Nat :=
  let len := imgNat s 8 4
  let slot := imgNat s 14 1
  if imgNat s 0 4 ≠ 0x474D5853 || len = 0 || decide (3145728 < len) || imgNat s 15 1 ≠ 0 || imgNat s 48 16 ≠ 0 then 1
  else if imgNat s 12 2 ≠ 0x4101 then 2
  else if decide (1 < slot) || (slot = 0 && s.mram.disable0) then 3
  else if !Config.imageSigOk slot (imgBytes s 0 64) (imgBytes s 64 9893) then 4
  else if shake256 (imgBytes s 9957 len) ≠ BitVec.ofNat 256 (imgNat s 16 32) then 5
  else if imgNat s 4 4 < s.mram.minSvn then 6
  else 0

/-- Start the PLL domains of self-test phase 1 (R432). -/
def startDomains (s : State) : State :=
  let s1 := (List.range 4).foldl (fun u d => startDom (startDom (startDom u d 3) d 4) d 5) s
  (List.range 2).foldl (fun u h => startDom (startDom u (4 + h) 6) (4 + h) 7) s1

/-- The seed of the ARRAYS phase: from the entropy source, or serial bytes 0–7 when that has failed its
health test (R432). -/
def drawSeed (s : State) : State :=
  let (f, s1) := useFree s
  let bad := Config.freeBool f 0
  let seed : Word := if bad then BitVec.ofNat 64 s.mram.serial.toNat else BitVec.ofNat 64 (Config.entropy f).toNat
  rwr { s1 with boot := { s1.boot with seed := seed }, sec := { s1.sec with rngFail := bad } } rFLT_ST_SEED seed

/-- VERIFY_COMPLETE. -/
def verifyDone (s : State) : State :=
  if bootStage s ≠ 4 then s
  else
    let slot := imgNat s 14 1
    match imageCause s with
    | 0 =>
      let d := BitVec.ofNat 256 (imgNat s 16 32)
      let s1 := extendDevice (extendDevice s 0x0003 (shake256 (imgBytes s 0 64))) 0x0004 d
      let s2 := rput (rput s1 rSEC_STATUS fSEC_STATUS_KEY_SLOT slot) rSEC_STATUS fSEC_STATUS_BOOT_CAUSE 0
      let s3 := { s2 with sec := { s2.sec with imageSvn := imgNat s 4 4, imageDigest := d } }
      if s3.boot.xtalPending then enterCairn (plainFail s3 8)
      else startDomains (drawSeed (enterStage { s3 with boot := { s3.boot with phase := 1 } } 5))
    | c =>
      let s1 := rput s rSEC_STATUS fSEC_STATUS_BOOT_CAUSE c
      enterCairn (plainFail (if c = 1 ∨ c = 3 then s1 else rput s1 rSEC_STATUS fSEC_STATUS_KEY_SLOT slot) (imagePhase s))

/-! ### Self-test (R432–R435) -/

/-- Count a fault found in phase `ph` against its unit (R433). -/
def countFault (ph : Nat) (s : State) (f : FoundFault) : State :=
  if coreFault f.unit then
    let s1 := noteFail s ph f false
    if s1.boot.failedCores.contains f.inst then s1
    else { s1 with boot := { s1.boot with failedCores := s1.boot.failedCores ++ [f.inst] } }
  else if f.unit = 6 ∧ ph = 6 then
    let s1 := noteFail s ph f false
    { s1 with boot := { s1.boot with failedPorts := s1.boot.failedPorts ++ [f.inst] } }
  else noteFail s ph f true

/-- The self-test summary (R434). -/
def summaryBytes (s : State) (result phase rounds : Nat) : List Byte :=
  bytesLE 2 1 ++ bytesLE 1 result ++ bytesLE 1 phase ++ bytesLE 20 (ofBitList s.boot.failedCores) ++
  bytesLE 2 (ofBitList s.boot.failedPorts) ++ bytesLE 2 0 ++ bytesLE 4 rounds ++ bytesLE 8 s.boot.seed.toNat ++
  bytesLE 8 (now s) ++ bytesLE 16 0

/-- SELFTEST ends: summary, RESULT, and the SELFTEST measurement (R420, R434). -/
def selftestEnd (s : State) (result phase rounds : Nat) : State :=
  let bs := summaryBytes s result phase rounds
  let s1 := (List.range 8).foldl (fun u k => rwr u (rBOOT_ST k) (wordOfBytes bs k)) s
  extendDevice (rput s1 rBOOT_STATUS fBOOT_STATUS_RESULT result) 0x0005 (shake256 bs)

/-- Fence the failed cores and disable the failed ports; the other Erg ports train (R435, R436). -/
def applyFailed (s : State) : State :=
  let s1 := s.boot.failedCores.foldl (fun u c => fenceCore u c 1) s
  let s2 := s.boot.failedPorts.foldl (fun u p => rput u (rPORT_CTRL p) fPORT_CTRL_DISABLE 1) s1
  ((List.range 12).filter (fun p => !s.boot.failedPorts.contains p)).foldl portTrain s2

/-- READY (R435). -/
def enterReady (s : State) : State :=
  let s1 := enterStage s 6
  let s2 := { s1 with pins := { s1.pins with ergTxIdle := false } }
  rput (applyFailed s2) rCTL_STATE fCTL_STATE_STATE 0

/-- Are the domains of phase 1 all at their full rate, or their PLL dead? -/
def domainsSettled (s : State) : Bool :=
  ((List.range 6).flatMap (fun d => (List.range 3).map (fun p => (d, p)))).all (fun (d, p) =>
    match domOfPll d p with
    | none => true
    | some x => domRun s d x = .full || pllRun s d p = .dead)

/-- SELFTEST_PHASE_COMPLETE: the faults found count; then the next phase, READY or CAIRN. -/
def phaseDone (s : State) (found : List FoundFault) : State :=
  if bootStage s ≠ 5 || (s.boot.phase = 1 && !domainsSettled s) then s
  else
    let ph := s.boot.phase
    let s1 := found.foldl (countFault ph) s
    let rounds := if 5 ≤ ph then 16 else 0
    let s2 := if 8 < s1.boot.failedCores.length && s1.boot.fatal.isNone then
        match (s1.boot.fails.filter (fun (_, f) => coreFault f.unit)).getLast? with
        | some (p, f) => rwr { s1 with boot := { s1.boot with fatal := some (p, f) } } rBOOT_FAIL (bootFailW p f)
        | none => s1
      else s1
    if s2.boot.fatal.isSome then enterCairn (selftestEnd s2 3 ph rounds)
    else if s2.boot.xtalPending then enterCairn (selftestEnd (plainFail s2 8) 3 8 rounds)
    else if ph < 7 then { s2 with boot := { s2.boot with phase := ph + 1 } }
    else
      let clean := s2.boot.failedCores.isEmpty && s2.boot.failedPorts.isEmpty
      enterReady (selftestEnd s2 (if clean then 1 else 2) 0 rounds)

/-- BOOT_CTRL_RESTART (R440): as an assertion and release of RST_N. -/
def bootRestart (s : State) (straps : BitVec 8) : State :=
  if bootStage s = 7 then rstDeassert (rstAssert s) straps else s

/-- A write of BOOT_CTRL. -/
def bootCtrlWrite (s : State) (v : Word) (straps : BitVec 8) : State :=
  let s1 := if wbit v 2 then rput s rBOOT_CTRL fBOOT_CTRL_REJECT 0 else s
  let s2 := if wbit v 0 then bootGo s1 else s1
  if wbit v 1 && wfld v 15 8 = 0xC3 then bootRestart s2 straps else s2

/-! ### Warm reset (R7, R436) -/

/-- What registers hold after a warm reset: those of the Cold domain and RWS fields keep their values. -/
def warmRegs (m : SMap Word) : SMap Word :=
  m.filterMap (fun (off, w) =>
    match regDom off with
    | some (.cold, _, _) => some (off, w)
    | _ =>
      let k := BitVec.ofNat 64 (regMask (fun a => a = .rws) off)
      let v := (regReset off &&& ~~~k) ||| (w &&& k)
      if v = regReset off then none else some (off, v))

/-- A warm reset: image, device chain, session, heartbeat timer, time base and tier content are kept;
scratchpads are scrubbed, an open epoch ends, failed cores and ports are fenced and disabled again, and
every port that is not disabled trains. -/
def warmReset (s : State) : State :=
  let s1 := { s with
    regs := warmRegs s.regs
    doze := (List.range nUnits).map (fun u => (u, { DozeUnit.reset with since := now s }))
    sec := { s.sec with pchain := [], plog := [], signing := [], qbuf := [], hello := [] }
    cores := (List.range nCores).map (fun c => (c, { Core.reset with scrubbing := true }))
    sprue := [], ckpt := Ckpt.reset, parts := [], recq := [], trc := ⟨[], false, false⟩
    tier := s.tier.map (fun (n, t) => (n, { TCtl.reset with faulted := t.faulted, poison := t.poison }))
    flt := { s.flt with events := [], ceRise := [], selfTest := ⟨0, 0, []⟩, unfencing := [] }
    ctl := { s.ctl with ports := [], fwd := [] }
    erg := Erg.reset, metered := [], ergReqs := []
    clk := { s.clk with
      plls := s.clk.plls.map (fun (n, r) => (n, match r with | .locking => .locked | r => r))
      doms := s.clk.doms.map (fun (n, r) => (n, match r with | .gated => .gated | .held => .held | _ => .full))
      tuned := [] }
    pins := { s.pins with clkoutHz := none } }
  cportTrain (cportTrain (applyFailed s1) 0) 1

/-- A write of CTL_RESET. -/
def ctlResetWrite (s : State) (v : Word) : State :=
  if wbit v 0 && wfld v 15 8 = 0xA5 && bootStage s = 6 then warmReset s else s

/-! ### The thermal trip (R463) -/

/-- The die of a junction sensor: 16 on each compute die, 4 on each hub, 2 on M. -/
def sensorDie (i : Nat) : Nat := if i < 64 then i / 16 else if i < 72 then 4 + (i - 64) / 4 else 6

/-- The trip: every clock domain except AON stops, with all that it clocks. -/
def thermalTrip (s : State) : State :=
  let r := coldHold s false
  { r with
    regs := s.regs.filter (fun (k, _) => decide (k < 0x40000))
    sec := s.sec, boot := s.boot, time := s.time
    pins := { r.pins with thermtrip := true, fault := true, strapsHeld := s.pins.strapsHeld } }

/-- THERMAL_SENSOR_READ: sensors over 125 °C on two consecutive readings trip the device; PWR_DIE shows the
highest reading of each die, and its power as a free value. -/
def thermalRead (s : State) (l : List (Nat × Nat)) : State :=
  let hot := l.any (fun (i, t) => decide (125 ≤ t) && s.pins.sensors.any (fun (j, v) => j = i && decide (125 ≤ v)))
  let s1 := { s with pins := { s.pins with sensors := l } }
  if s.pins.thermtrip then s1
  else if hot then thermalTrip s1
  else
    let (f, s2) := useFree s1
    (List.range 7).foldl (fun u d =>
      let ts := (l.filter (fun (i, _) => sensorDie i = d)).map (·.2)
      if ts.isEmpty then u
      else rput (rput u (rPWR_DIE d) fPWR_DIE_TJ (ts.foldl max 0)) (rPWR_DIE d) fPWR_DIE_POWER (Config.freeWord f d).toNat) s2

/-! ### Internal logic faults (R357) -/

/-- LOGIC_FAULT: kind 0 a tier controller, 1 a bank of a Sprue cache (96 to a die), 2 a hub's engines or
router, 3 the commit unit or the register router. -/
def logicFault (s : State) (kind i : Nat) : State :=
  if kind = 0 then tierFault s i
  else if kind = 1 then bankFault s (i / 96) (i % 96)
  else if kind = 2 then sharedFault s (4 + i) 7 0 0
  else sharedFault s 6 10 0 0

/-- Does the device have the unit that a logic fault names? -/
def logicUnit (kind i : Nat) : Bool :=
  if kind = 0 then decide (i < 32) else if kind = 1 then decide (i < 384) else if kind = 2 then decide (i < 2)
  else kind = 3 && i = 0

/-! ### Commands -/

/-- RST_N_ASSERT (R428). -/
def execRstNAssert (s : State) : Out := .next (rstAssert s)

/-- RST_N_DEASSERT (R429). -/
def execRstNDeassert (straps : BitVec 8) (s : State) : Out := .next (rstDeassert s straps)

/-- PWRGOOD_FALL (R409). -/
def execPwrgoodFall (s : State) : Out := .next (pwrFall s)

/-- PWRGOOD_RISE (R408). -/
def execPwrgoodRise (s : State) : Out := .next (pwrRise s)

/-- RAIL_UNDERVOLTAGE (R409): a rail of groups 2 to 5. -/
def execRailUndervoltage (rail : Nat) (s : State) : Out :=
  onUnit (decide (2 ≤ rail) && decide (rail ≤ 17)) "RAIL_UNDERVOLTAGE" (.next (railLow s rail))

/-- RAIL_RECOVERY (R409). -/
def execRailRecovery (s : State) : Out := .next (railBack s)

/-- STRAP_DELAY_EXPIRY (R385). -/
def execStrapDelayExpiry (s : State) : Out := .next (strapDelay s)

/-- REFERENCE_CHECK_DONE (R385). -/
def execReferenceCheckDone (count : Nat) (s : State) : Out := .next (referenceDone s count)

/-- CRYSTAL_MONITOR_TICK (R386). -/
def execCrystalMonitorTick (count : Nat) (s : State) : Out := .next (crystalTick s count)

/-- CRYSTAL_EDGE_LOSS (R386). -/
def execCrystalEdgeLoss (s : State) : Out := .next (crystalFail s)

/-- PLL_LOCK_TIMEOUT (R428). -/
def execPllLockTimeout (die pll : Nat) (s : State) : Out :=
  onUnit (domOfPll die pll).isSome "PLL_LOCK_TIMEOUT" (.next (pllLockTimeout s die pll))

/-- ROM_STAGE_COMPLETE (R428). -/
def execRomStageComplete (s : State) : Out := .next (romDone s)

/-- BOOT_IMG_DATA_WRITE (R431). -/
def execBootImgDataWrite (value : Word) (s : State) : Out := .next (imgWrite s value)

/-- BOOT_CTRL_GO (R431). -/
def execBootCtrlGo (s : State) : Out := .next (bootGo s)

/-- IMAGE_WAIT_TIMEOUT (R431). -/
def execImageWaitTimeout (s : State) : Out := .next (imageTimeout s)

/-- VERIFY_COMPLETE (R413). -/
def execVerifyComplete (s : State) : Out := .next (verifyDone s)

/-- SELFTEST_PHASE_COMPLETE (R432). -/
def execSelftestPhaseComplete (found : List FoundFault) (s : State) : Out := .next (phaseDone s found)

/-- BOOT_CTRL_RESTART (R440): a write of BOOT_CTRL, with the levels of STRAP[7:0]. -/
def execBootCtrlRestart (value : Word) (straps : BitVec 8) (s : State) : Out :=
  .next (bootCtrlWrite s (value ||| 2) straps)

/-- CTL_RESET_WARM (R436): a write of CTL_RESET. -/
def execCtlResetWarm (value : Word) (s : State) : Out := .next (ctlResetWrite s value)

/-- THERMAL_SENSOR_READ (R463). -/
def execThermalSensorRead (readings : List (Nat × Nat)) (s : State) : Out := .next (thermalRead s readings)

/-- LOGIC_FAULT (R357). -/
def execLogicFault (kind index : Nat) (s : State) : Out :=
  onUnit (logicUnit kind index) "LOGIC_FAULT" (.next (logicFault s kind index))

end Sys2Proof.Machine
end

