-- ==== Sys2Proof/Machine/Time.lean ====
section
/-! DEFINITION. The time base (R250–R255): beacons from the parent port, beacons sent, HOLDOVER and
TIME_SET.  Commands: BEACON, BEACON_SEND, BEACON_TIMEOUT, TIME_SET. -/

namespace Sys2Proof.Machine

/-- TIME_STATUS.STATE: 0 FREE, 1 ACQUIRING, 2 LOCKED, 3 HOLDOVER. -/
def timeState (s : State) : Nat := rget s rTIME_STATUS fTIME_STATUS_STATE

def isMaster (s : State) : Bool := rflag s rTIME_CTRL fTIME_CTRL_MASTER

/-- The offset of a beacon in ns (R252); DELAY and ASYM count sixteenths of a ns. -/
def beaconOffset (s : State) (p beaconTime : Nat) : Int :=
  let d : Int := rget s (rTIME_PDLY p) fTIME_PDLY_DELAY
  let a : Int := signedOf 16 (rget s (rTIME_PDLY p) fTIME_PDLY_ASYM)
  (beaconTime : Int) - (now s : Int) + (d + a) / 16

/-- ±500 ppm in units of 2^−32 ns per ns. -/
def slewMax : Int := 2147483

def clampSlew (x : Int) : Int := max (-slewMax) (min slewMax x)

/-- The mean of a list of offsets; 0 for an empty one. -/
def meanOf (l : List Int) : Int := if l.isEmpty then 0 else l.foldl (· + ·) 0 / (l.length : Int)

/-- A step or a half-rate run: STEP and TIME_STEP (R252). -/
def timeStepped (s : State) : State :=
  let s1 := rset s rTIME_STATUS fTIME_STATUS_STEP
  raiseDev s1 0x0A 0xFF [rd s1 rTIME_STATUS]

/-- Correct the time base for an offset (R252): a slew that removes it within one period, a step forward, or a
half-rate run that lasts until the offset is within STEP_NS; at half rate each ns of the clock removes half a
nanosecond of it. -/
def correctTime (s : State) (off : Int) : State :=
  let t := s.time
  let last := (t.offsets ++ [off]).drop (t.offsets.length + 1 - 8)
  let good := if -5 ≤ off ∧ off ≤ 5 then t.good + 1 else 0
  let step : Int := rget s rTIME_CTRL fTIME_CTRL_STEP_NS
  let period : Int := max 1 (rget s rTIME_CTRL fTIME_CTRL_PERIOD_US * 1000)
  let s1 := rput (rput s rTIME_STATUS fTIME_STATUS_OFFSET (wrapTo 32 off)) rTIME_STATUS fTIME_STATUS_STATE
    (if 8 ≤ good then 2 else 1)
  let t1 : TimeB := { t with offsets := last, good := good, half := 0, slew := 0, slewLeft := 0 }
  if -step ≤ off ∧ off ≤ step then
    let rate := clampSlew (t.rate + meanOf last * 2 ^ 32 / period)
    let total := clampSlew (rate + off * 2 ^ 32 / period)
    { s1 with time := { t1 with rate := rate, slew := total - rate, slewLeft := period.toNat } }
  else if step < off then
    timeStepped { s1 with time := { t1 with now := (t.now + off.toNat) % 2 ^ 64 } }
  else timeStepped { s1 with time := { t1 with half := 2 * (-off - step).toNat } }

/-- A BEACON arrives at port `p` (R251, R252): only the parent port's are taken. -/
def beacon (s : State) (p : Nat) (k : Packet) : State :=
  if portState s p ≠ 2 then s
  else
    let s0 := modEport s p (fun e => { e with
      rxq := e.rxq.erase k
      due := if e.rxq.contains k then e.due.set 7 (e.due.getD 7 0 + 1) else e.due })
    if !fabValid s0 then ergCount s0 p 35 1
    else if rget s0 rTIME_CTRL fTIME_CTRL_PARENT ≠ p then ergCount s0 p 33 1
    else correctTime s0 (beaconOffset s0 p (k.job * 2 ^ 48 + k.addr))

/-- A beacon is to leave on child port `p` (R251); the frame whose first flit it is takes it (`buildFrame`). -/
def beaconSend (s : State) (p : Nat) : State :=
  if fabValid s && (timeState s = 2 || isMaster s) && wbit (rd s rTIME_CTRL) (20 + p) && portState s p = 2 then
    modEport s p (fun e => { e with beaconDue := true })
  else s

/-- No beacon for 10 periods (R253): HOLDOVER at the last rate. -/
def beaconTimeout (s : State) : State :=
  if timeState s = 1 || timeState s = 2 then
    let s1 := rput s rTIME_STATUS fTIME_STATUS_STATE 3
    let s2 := rset { s1 with time := { s1.time with slew := 0, slewLeft := 0, half := 0, good := 0, offsets := [] } }
      rTIME_STATUS fTIME_STATUS_HOLDOVER_EVENT
    raiseDev s2 0x0B 0xFF [rd s2 rTIME_STATUS]
  else s

/-- A write of TIME_SET (R255). -/
def timeSet (s : State) (v : Word) : State :=
  if now s < v.toNat ∧ (timeState s = 0 ∨ isMaster s) then { s with time := { s.time with now := v.toNat, frac := 0 } }
  else rset s rTIME_STATUS fTIME_STATUS_SET_REJECT

def execBeacon (p : Nat) (k : Packet) (s : State) : Out :=
  onUnit (p < 12) "BEACON" (.next (beacon s p k))

def execBeaconSend (p : Nat) (s : State) : Out := onUnit (p < 12) "BEACON_SEND" (.next (beaconSend s p))

def execBeaconTimeout (s : State) : Out := .next (beaconTimeout s)

def execTimeSet (value : Word) (s : State) : Out := .next (timeSet s value)

end Sys2Proof.Machine
end

