-- ==== Sys2Proof/Machine/RegAccess.lean ====
section
/-! DEFINITION. Reads and writes of register space and memory by the control node (R6, R8, R17, R329,
R330, R430, R439).  Commands: REGISTER_WRITE, REG_RD, REG_WR, MEM_RD, MEM_WR. -/

namespace Sys2Proof.Machine

/-! ### The registers -/

/-- The listed register at an offset of register space: its row, its indices, and the offset it is kept under
(R8, R17). -/
def regAt (off : Nat) : Option (RegRow × List Nat × Nat) :=
  if off % 8 ≠ 0 then none
  else (findReg (canonOff off)).map (fun (r, ix) => (r, ix, canonOff off))

/-- Number of the tier controller of a TIER register. -/
def tierOfReg (off : Nat) (ix : List Nat) : Nat :=
  if off < 0x2000000 then 6 * ix.getD 0 0 + ix.getD 1 0 else 24 + 4 * ix.getD 0 0 + ix.getD 1 0

/-- Erg port of a PORT register. -/
def portOfReg (ix : List Nat) : Nat := 6 * ix.getD 0 0 + ix.getD 1 0

/-- The registers of the ID and SEC blocks that show state held elsewhere; none for another register. -/
def secRegView (s : State) (name : String) (ix : List Nat) : Option Word :=
  let i := ix.getD 0 0
  let j := ix.getD 1 0
  if name = "ID_SERIAL" then some (BitVec.ofNat 64 (s.mram.serial.toNat / 2 ^ (64 * i)))
  else if name = "SEC_STATUS" then some (secStatusW s)
  else if name = "SEC_IMAGE" then some (secImageW s)
  else if name = "SEC_SVN" then some (secSvnW s)
  else if name = "SEC_CHAIN" then some (word256 s.sec.chain i)
  else if name = "SEC_COUNT" then some (BitVec.ofNat 64 s.sec.log.length)
  else if name = "SEC_PCHAIN" then some (word256 (pchainOf s i) j)
  else if name = "SEC_PCOUNT" then some (BitVec.ofNat 64 (plogOf s i).length)
  else if name = "SEC_AUTH" then some (word256 (authSlot s i) j)
  else if name = "SEC_LOG" then some (logWord s.sec.log i j)
  else if name = "SEC_PLOG" then some (logWord (plogOf s i) j (ix.getD 2 0))
  else if name = "SEC_QBUF" then some (wordOfBytes s.sec.qbuf i)
  else if name = "SEC_CERT" then some (wordOfBytes ((List.range 8).map (fun b => smGet 0 s.mram.certs (8 * i + b))) 0)
  else none

/-- The other device registers that show state held elsewhere. -/
def devRegView (s : State) (name : String) (ix : List Nat) (off : Nat) : Option Word :=
  let i := ix.getD 0 0
  if name = "CTL_HB" then some (hbW s)
  else if name = "TIME_NOW" then some (nowW s)
  else if name = "TRC_STATUS" then some (wput (rd s off) 2 2 (b2n (trcFull s)))
  else if name = "FLT_FENCE_STATUS" then some (fenceStatusW s)
  else if name = "CKPT_ENG" then some (ckptEngW s i)
  else if name = "TIER_TEMP" then some (wput (rd s off) 23 16 (wrapTo 8 (debtMax s (tierOfReg off ix))))
  else if name = "PWR_STATUS" then some (wput (rd s off) 0 0 (b2n s.pins.pwrgood))
  else if name = "PWR_QUAD" then some (quadW s i)
  else if name = "BOOT_CPER" then some (wordOfBytes (kGet [] s.mram.cper (i / 64)) (i % 64))
  else if name = "RES_KEY" ∨ name = "RES_VER" then
    if partHasCore s i (ix.getD 1 0) then none else some 0
  else
    match hzUnit name ix with
    | some u => some (hzW s u off)
    | none => none

/-- The value of a listed register. -/
def regView (s : State) (name : String) (ix : List Nat) (off : Nat) : Word :=
  readMask off (match secRegView s name ix with
    | some w => w
    | none =>
      match devRegView s name ix off with
      | some w => w
      | none => coreRegView s name ix off)

/-- A register access that reaches a dozing core or port wakes it (R403). -/
def regTouch (s : State) (name : String) (ix : List Nat) (off : Nat) : State :=
  if 0x1000000 ≤ off ∧ off < 0x1A00000 then wakeUnit s ((off - 0x1000000) / 0x10000)
  else if name = "PORT_CTRL" ∨ name = "PORT_STATUS" ∨ name = "PORT_PEER" ∨ name = "PORT_CAL_CTRL" ∨
      name = "PORT_CAL_AT" ∨ name = "PORT_CAL" then wakeUnit s (3040 + portOfReg ix)
  else s

/-! ### Writes of registers with effects -/

/-- A write of PART_CTRL (R302, R307, R321). -/
def partCtrlWrite (s : State) (p : Nat) (v : Word) : State :=
  let s1 := if wbit v 7 then rput s (rPART_CTRL p) fPART_CTRL_BAD 0 else s
  let s2 := if wbit v 0 then partActivate s1 p else s1
  let s3 := if wbit v 1 then partRelease s2 p else s2
  if wbit v 2 then partResume s3 p else s3

/-- May the ring-configuration registers of a partition be written (chapter 14, Partition registers)? -/
def ringCfgOpen (s : State) (p : Nat) : Bool :=
  partState s p = 0 || ((partOf s p).head % 2 ^ 32 = ringTail s p && (poursOf s p).isEmpty)

/-- A write of PREEMPT (R313). -/
def preemptWrite (s : State) (p : Nat) (v : Word) : State :=
  let s1 := regSet s (rPREEMPT p) v
  if wbit v 0 then preemptGo s1 p v else s1

/-- A write of CQ_CFG_q: ENABLE takes effect only while its partition is FREE, or for queue 8 (R343). -/
def cqCfgWrite (s : State) (q : Nat) (v : Word) : State :=
  let en := rget s (rCQ_CFG q) fCQ_CFG_ENABLE
  let s1 := regSet s (rCQ_CFG q) v
  if q = 8 || partState s q = 0 then s1 else rput s1 (rCQ_CFG q) fCQ_CFG_ENABLE en

/-- A write of TRC_PTR (R473). -/
def trcPtrWrite (s : State) (v : Word) : State :=
  let h := wfld v 31 0
  if headMoveOk (rget s rTRC_PTR fTRC_PTR_HEAD) (rget s rTRC_PTR fTRC_PTR_TAIL) h then
    rput s rTRC_PTR fTRC_PTR_HEAD h
  else s

/-- A write of FLT_DIG_CTRL (R359): GO starts a job unless one runs. -/
def digCtrlWrite (s : State) (v : Word) : State :=
  let s1 := regSet s rFLT_DIG_CTRL v
  if wbit v 0 then rset s1 rFLT_DIG_CTRL fFLT_DIG_CTRL_BUSY else s1

/-- A mask of 160 cores has reserved bits in its third register. -/
def coreMaskWrite (s : State) (last off : Nat) (v : Word) : State :=
  regSet s off (if last = 2 then v &&& 0xFFFFFFFF else v)

/-- Writes of the partition blocks and record queues; none for another register. -/
def partRegWrite (s : State) (name : String) (ix : List Nat) (off : Nat) (v : Word) : Option State :=
  let p := ix.getD 0 0
  if name = "PART_CTRL" then some (partCtrlWrite s p v)
  else if name = "PART_CORES" then some (if partState s p = 0 then coreMaskWrite s (ix.getD 1 0) off v else s)
  else if name = "PART_STACKS" then some (if partState s p = 0 then regSet s off v else s)
  else if name = "PART_VTABLE" ∨ name = "PART_VCOUNT" ∨ name = "RING_BASE" then
    some (if ringCfgOpen s p then regSet s off v else s)
  else if name = "RING_TAIL" then some (ringTailWrite s p v)
  else if name = "PREEMPT_MASK" then some (coreMaskWrite s (ix.getD 1 0) off v)
  else if name = "PREEMPT" then some (preemptWrite s p v)
  else if name = "RES_KEY" ∨ name = "RES_VER" then
    some (if !partHasCore s p (ix.getD 1 0) then s
      else regSet s off (if name = "RES_KEY" then wput v 5 0 0 else v))
  else if name = "CQ_CFG" then some (cqCfgWrite s p v)
  else if name = "CQ_PTR" then some (cqHeadWrite s p v)
  else none

/-- Writes of the FLT, CKPT, SEC, BOOT and CTL blocks. -/
def mgmtRegWrite (s : State) (name : String) (ix : List Nat) (off : Nat) (v : Word) : Option State :=
  let i := ix.getD 0 0
  if name = "FLT_STATE" then some (fltStateClear s v)
  else if name = "FLT_FENCE" then some (fenceWrite s i v)
  else if name = "FLT_HM_CTRL" then some (hmCtrlWrite s v)
  else if name = "FLT_REPORT" then some (fltReport s v)
  else if name = "FLT_ST_CTRL" then some (stCtrlWrite s v)
  else if name = "FLT_ST_CORES" then some (coreMaskWrite s i off v)
  else if name = "FLT_DIG_CTRL" then some (digCtrlWrite s v)
  else if name = "FLT_CPER_HEAD" then some (cperHeadWrite s v)
  else if name = "CKPT_CTRL" then some (ckptCtrlWrite s v)
  else if name = "CKPT_PSTATE" then some (ckptPstateWrite s v)
  else if name = "SEC_SVN" then some (secSvnWrite s v)
  else if name = "SEC_OP" then some (secOpWrite s v)
  else if name = "BOOT_CTRL" then some (bootCtrlWrite s v s.pins.strapPins)
  else if name = "BOOT_IMG_PTR" then some (imgPtrWrite s v)
  else if name = "BOOT_IMG_DATA" then some (imgWrite s v)
  else if name = "CTL_RUN" then some (ctlRunWrite s v)
  else if name = "CTL_RESET" then some (ctlResetWrite s v)
  else if name = "CTL_PORT" then some (ctlPortWrite s i v)
  else none

/-- Writes of the clock, power, time, trace, fabric, tier and cache blocks. -/
def unitRegWrite (s : State) (name : String) (ix : List Nat) (off : Nat) (v : Word) : Option State :=
  let i := ix.getD 0 0
  if name = "CLK_DOM" then some (clkDomWrite s i (ix.getD 1 0 + 1) v)
  else if name = "CLK_OUT" then some (clkOutWrite s v)
  else if name = "TIME_SET" then some (timeSet s v)
  else if name = "TRC_PTR" then some (trcPtrWrite s v)
  else if name = "TRC_MARK" then some (trcMark s v)
  else if name = "FAB_NODE" then some (fabNodeWrite s v)
  else if name = "FAB_QSEND" then some (qsendWrite s i v)
  else if name = "PORT_CTRL" then some (portFlush (portCtrlWrite s (portOfReg ix) v) (portOfReg ix))
  else if name = "PORT_CAL_CTRL" then some (portCalWrite s (portOfReg ix) v)
  else if name = "TIER_CAL_CTRL" then some (tierCalWrite s (tierOfReg off ix) v)
  else if name = "TIER_PPR" then some (pprGo s (tierOfReg off ix) v)
  else if name = "CACHE_CTRL" then
    some (if wbit v 0 then cacheInvAll s i v else rput s off fCACHE_CTRL_BYPASS (wfld v 1 1))
  else (hzUnit name ix).map (fun u => hzWrite s u off v)

/-- A write of a listed register. -/
def regWrite (s : State) (name : String) (ix : List Nat) (off : Nat) (v : Word) : State :=
  match partRegWrite s name ix off v with
  | some t => t
  | none =>
    match mgmtRegWrite s name ix off v with
    | some t => t
    | none =>
      match unitRegWrite s name ix off v with
      | some t => t
      | none => coreRegWrite s name (ix.getD 0 0) off v

/-- A write to a calendar store in force: it is answered with an error and has no effect (R206, R237). -/
def regRefused (s : State) (name : String) (ix : List Nat) (off : Nat) : Bool :=
  if name = "TIER_CAL" ∨ name = "TIER_CAL_LEN" then tierStoreBusy s (tierOfReg off ix) (ix.getD 2 0)
  else name = "PORT_CAL" && rget s (rPORT_CAL_CTRL (portOfReg ix)) fPORT_CAL_CTRL_ACTIVE = ix.getD 2 0 + 1

/-- A write at an offset of register space: a reserved offset has no effect (R8). -/
def regStore (s : State) (off : Nat) (v : Word) : State :=
  match regAt off with
  | none => s
  | some (r, ix, o) => if regRefused s r.name ix o then s else regWrite (regTouch s r.name ix o) r.name ix o v

/-- A read at an offset of register space, where it is listed. -/
def regLoad (s : State) (off : Nat) : Option Word := (regAt off).map (fun (r, ix, o) => regView s r.name ix o)

/-! ### Which requests need no session (R329, R430, R439) -/

/-- An offset in the ID or SEC block. -/
def idOrSec (off : Nat) : Bool := decide (off < 0x10000) || (decide (0x40000 ≤ off) && decide (off < 0x50000))

/-- Registers that R430 lets be read in UNADOPTED and CAIRN. -/
def bootRead (off : Nat) : Bool :=
  (decide (0x30000 ≤ off) && decide (off < 0x40000)) ||
  [rCTL_STATE, rFLT_STATE, rCLK_STATUS, rPWR_STATUS, rTIME_NOW].contains off ||
  (List.range 7).any (fun d => rPWR_DIE d = off)

/-- Does a read need no session in this state? -/
def readOpen (s : State) (off : Nat) : Bool :=
  idOrSec off || ((ctlState s = 0 || ctlState s = 3) && bootRead off)

/-- Does a write need no session in this state? -/
def writeOpen (s : State) (off : Nat) (v : Word) : Bool :=
  (ctlState s = 0 && bootStage s = 3 &&
    (off = rBOOT_IMG_PTR || off = rBOOT_IMG_DATA || (off = rBOOT_CTRL && wbit v 0))) ||
  (ctlState s = 3 && bootStage s = 7 && off = rBOOT_CTRL && wbit v 1 && wfld v 15 8 = 0xC3)

/-! ### Caravan requests (R330) -/

/-- REG_RD. -/
def regRd (s : State) (k tag session off : Nat) : State :=
  startReq s k tag 0x21 (fun u =>
    match (if readOpen u off then none else sessionStatus u session) with
    | some st => answerMsg u k tag 0x21 st 0 []
    | none =>
      match regAt off with
      | none => answerMsg u k tag 0x21 1 0 []
      | some (r, ix, o) =>
        let u1 := regTouch u r.name ix o
        answerMsg u1 k tag 0x21 0 (regView u1 r.name ix o) [])

/-- REG_WR: acknowledged once applied. -/
def regWr (s : State) (k tag session off : Nat) (v : Word) : State :=
  startReq s k tag 0x22 (fun u =>
    match (if writeOpen u off v then none else sessionStatus u session) with
    | some st => answerMsg u k tag 0x22 st 0 []
    | none =>
      match regAt off with
      | none => answerMsg u k tag 0x22 1 0 []
      | some (r, ix, o) =>
        if regRefused u r.name ix o then answerMsg u k tag 0x22 1 0 []
        else answerMsg (regStore u off v) k tag 0x22 0 0 [])

/-- Bytes of a local read: status and payload.  A poisoned tier word is returned marked (R228); a scratchpad
quad that is off or not ready answers BANK_OFF (R178). -/
def localRead (s : State) (a units : Nat) : State × Nat × List (Word × Bool) :=
  match spmWindow a with
  | some (c, o) =>
    if !rangeOn s c o (32 * units) then (logOff s c 0xFFFF o 0xD, 3, [])
    else
      (if spmBadIn (coreOf s c) o (32 * units) then
         logSpmErr s c none (spmFirstBad (coreOf s c) o (32 * units)) fSPM_ERR_EXT_UE
       else s, 0, (List.range (4 * units)).map (fun i =>
        (wordOfBytes (spmBytes (coreOf s c) (o + 8 * i) 8) 0, spmBadIn (coreOf s c) (o + 8 * i) 8)))
  | none =>
    if tierDown s a then (s, 4, [])
    else (rawDone s [] a (32 * units), 0, memWords (rawView s [] a (32 * units)) a (4 * units))

/-- A local write by the control node: its status. -/
def localWrite (s : State) (a : Nat) (data : List (Word × Bool)) : State × Nat :=
  performWrite s ⟨0x09, 5, false, 0, nodeId s, 0, 0, a, 0, 0, false, false, false, 0xFF, 0, 0, data⟩

/-- A request at a global address: BAD_ADDRESS for a reserved node, a misaligned or crossing range, register
space or a reserved range; performed here; or forwarded in class 5. -/
def memReq (s : State) (k tag part addr units : Nat) (data : Option (List (Word × Bool))) : State :=
  let respTy := if data.isNone then 0x23 else 0x22
  let node := addr / 2 ^ 48
  let a := addr % 2 ^ 48
  if !nodeOk node || units = 0 || decide (8 < units) || a % 32 ≠ 0 || decide (256 < a % 256 + 32 * units) then
    answerMsg s k tag respTy 1 0 []
  else if isSelf s node then
    if isRegSpace a || isReservedAddr a then answerMsg s k tag respTy 1 0 []
    else if extWaits s (spmWindow a).toList (32 * units) then
      holdExt s (spmWindow a).toList (32 * units) (.caravan k tag part addr units data)
    else
      match data with
      | none =>
        let (s1, st, w) := localRead s a units
        answerMsg s1 k tag respTy st 0 (if st = 0 then w else [])
      | some d =>
        let (s1, st) := localWrite s a d
        answerMsg s1 k tag respTy st 0 []
  else
    let w3 : Word := if data.isNone then BitVec.ofNat 64 units else 0
    let q := reqPacket s (if data.isNone then 0x08 else 0x09) 5 node part a 0xFF w3 (data.getD [])
    let r : ErgReq := ⟨q, .caravan, part, 0xFF, 0, [node], none, none, now s, true, 0⟩
    let s1 := { s with ergReqs := s.ergReqs ++ [r], ctl := { s.ctl with fwd := s.ctl.fwd ++ [⟨k, tag, q.tag, data.isNone⟩] } }
    if !fabValid s1 then s1
    else
      match routeOf s1 node 5 with
      | some p => enq s1 4 p q
      | none => respFor s1 r (answerOf s1 q 6 [] 0)

/-- MEM_RD. -/
def memRd (s : State) (k tag session part addr rlen : Nat) : State :=
  sessionReq s k tag session 0x23 (fun u => memReq u k tag part addr rlen none)

/-- MEM_WR; LEN is the number of 32-byte units. -/
def memWr (s : State) (k tag session part addr : Nat) (data : List (Word × Bool)) : State :=
  sessionReq s k tag session 0x22 (fun u => memReq u k tag part addr ((data.length + 3) / 4) (some data))

/-! ### Accesses that waited at EXT ports (R176, R177) -/

/-- A waiting access goes on, or waits again. -/
def extRun (s : State) : ExtReq → State
  | .perform (.port p) q => serve s p q
  | .perform (.own h) q =>
    match handleReq1 s (.own h) q with
    | (s1, some a) => match reqFor s1 a with
      | some r => respFor s1 r a
      | none => s1
    | (s1, none) => s1
  | .store q =>
    match reqFor s q with
    | some r => respFor s r q
    | none => s
  | .caravan k tag part addr units data => memReq s k tag part addr units data
  | .down c mask => quadsDown s c mask

/-- The accesses that waited go on in their order of arrival. -/
def extRelease (s : State) : State :=
  (s.erg.ext.map (·.req)).foldl extRun { s with erg := { s.erg with ext := [] } }

/-! ### Commands -/

/-- SCRATCHPAD_SCRUB_COMPLETE (R176). -/
def execScratchpadScrubComplete (c : Nat) (s : State) : Out :=
  onUnit (c < nCores) "SCRATCHPAD_SCRUB_COMPLETE" (.next (extRelease (scrubComplete s c)))

/-- WAKE_COMPLETE (R399, R177). -/
def execWakeComplete (u : Nat) (s : State) : Out :=
  onUnit (unitKnown u) "WAKE_COMPLETE" (.next (extRelease (wakeComplete s u)))

/-- REGISTER_WRITE (R6): an accepted write of register space. -/
def execRegisterWrite (offset : Nat) (value : Word) (s : State) : Out := .next (regStore s offset value)

/-- REG_RD (R330). -/
def execRegRd (k tag session offset : Nat) (s : State) : Out :=
  onUnit (cportOk k) "REG_RD" (.next (regRd s k tag session offset))

/-- REG_WR (R330). -/
def execRegWr (k tag session offset : Nat) (value : Word) (s : State) : Out :=
  onUnit (cportOk k) "REG_WR" (.next (regWr s k tag session offset value))

/-- MEM_RD (R330). -/
def execMemRd (k tag session part addr rlen : Nat) (s : State) : Out :=
  onUnit (cportOk k) "MEM_RD" (.next (memRd s k tag session part addr rlen))

/-- MEM_WR (R330). -/
def execMemWr (k tag session part addr : Nat) (data : List (Word × Bool)) (s : State) : Out :=
  onUnit (cportOk k) "MEM_WR" (.next (memWr s k tag session part addr data))

end Sys2Proof.Machine
end

