-- ==== Sys2Proof/Machine/Digest.lean ====
section
/-! DEFINITION. Digest jobs (R359).  Commands: FLT_DIG_GO, DIGEST_COMPLETE. -/

namespace Sys2Proof.Machine

/-- The slot that an entry of a digest list selects. -/
def digSlot (d : VDesc) (sel stamp : Nat) : Option VSlot :=
  if d.kind = 0 ∨ 2 < d.kind then none
  else if sel = 0 then ((ringSlots d).find? (fun (_, v) => v.st = 3)).map (·.2)
  else if sel = 1 then ((ringSlots d).find? (fun (_, v) => v.st = 2 && v.stamp = stamp)).map (·.2)
  else if sel = 2 then
    (highest d ((ringSlots d).filter (fun (_, v) => (v.st = 3 || v.st = 4) && v.stamp = stamp))).map (·.2)
  else none

/-- Bytes hashed for entry `i` at address `a`; none where the entry ends the job. -/
def digEntry (s : State) (p i a : Nat) : Option (List Byte) :=
  let w0 := memWord s a
  let w1 := memWord s (a + 8)
  let buf := wfld w0 63 32
  let da := descAddr s p buf
  if !isTier1 a || memBadIn s a 16 || decide (rget s (rPART_VCOUNT p) fPART_VCOUNT_COUNT ≤ buf) ||
      !isTier da || memBadIn s da 64 then none
  else
    let d := readDesc s da
    match digSlot d (wfld w0 1 0) (wfld w1 63 32) with
    | none => none
    | some v =>
      let b := v.base
      let n := d.units * 256
      if isTier b && (n = 0 || isTier (b + n - 1)) && !memBadIn s b n then
        some (bytesLE 4 i ++ bytesLE 8 n ++ memBytes s b n)
      else none

/-- The partition whose version table a digest list names: the owner of the list's stack (log entry 19). -/
def digPart (s : State) (a : Nat) : Option Nat := (stackOf a).bind (ownerOfStack s)

/-- The concatenation over the whole list. -/
def digAll (s : State) (p a : Nat) : Nat → Nat → Option (List Byte)
  | 0, _ => some []
  | n + 1, i =>
    match digEntry s p i (a + 16 * i) with
    | none => none
    | some bs => (digAll s p a n (i + 1)).map (bs ++ ·)

/-- DIGEST_COMPLETE: the running job ends with its digest, or with ERR. -/
def digestDone (s : State) : State :=
  if !rflag s rFLT_DIG_CTRL fFLT_DIG_CTRL_BUSY then s
  else
    let a := rget s rFLT_DIG_CTRL fFLT_DIG_CTRL_LIST * 16
    let n := rget s rFLT_DIG_CTRL fFLT_DIG_CTRL_COUNT
    let s1 := rput s rFLT_DIG_CTRL fFLT_DIG_CTRL_BUSY 0
    let s2 := match (digPart s a).bind (fun p => digAll s p a n 0) with
      | some bs =>
        let d := shake256 bs
        (List.range 4).foldl (fun u k => rwr u (rFLT_DIG_OUT k) (word256 d k)) s1
      | none => rset s1 rFLT_DIG_CTRL fFLT_DIG_CTRL_ERR
    raiseDev s2 0x26 0xFF [rd s2 rFLT_DIG_CTRL]

/-- FLT_DIG_GO (R359): a write of FLT_DIG_CTRL with GO. -/
def execFltDigGo (value : Word) (s : State) : Out := .next (digCtrlWrite s (value ||| 1))

/-- DIGEST_COMPLETE (R359). -/
def execDigestComplete (s : State) : Out := .next (digestDone s)

end Sys2Proof.Machine
end

