-- ==== Sys2Proof/Machine/Sideband.lean ====
section
/-! DEFINITION. SMBus telemetry and the test access port (R441, R455–R457).  Commands: SMBUS_BLOCK_READ,
SMBUS_SCL_TIMEOUT, JTAG_EXTEST, JTAG_SAMPLE_PRELOAD, JTAG_CLAMP, JTAG_HIGHZ, JTAG_BYPASS,
TEST_LOGIC_RESET. -/

namespace Sys2Proof.Machine

/-! ### SMBus (R441, R451) -/

/-- The SMBus address: 0x48 plus the sampled STRAP[5:4]. -/
def smbAddr (s : State) : Nat := 0x48 + bitsOf s.pins.strapsHeld.toNat 5 4

/-- The register that a command byte selects (Table: SMBus telemetry). -/
def smbReg (c : Nat) : Option Nat :=
  if c = 0 then some rID_PART else if c = 1 then some rID_DCLASS
  else if c = 2 ∨ c = 3 then some (rID_SERIAL (c - 2))
  else if c = 4 then some rBOOT_STATUS else if c = 5 then some rBOOT_FAIL
  else if c = 6 then some rCTL_STATE else if c = 7 then some rFLT_STATE
  else if c = 8 then some rFLT_HM_RISK else if c = 9 then some rSEC_STATUS
  else if c = 10 then some rCLK_STATUS else if c = 11 then some rPWR_STATUS
  else if 0x10 ≤ c ∧ c ≤ 0x16 then some (rPWR_DIE (c - 0x10))
  else if 0x18 ≤ c ∧ c ≤ 0x1F then some (rBOOT_ST (c - 0x18))
  else none

/-- Does the clock domain of a register of block SEC, FLT or CTL run?  The other telemetry registers are in
the always-on domain. -/
def regRuns (s : State) (off : Nat) : Bool := decide (off < 0x40000) || domRuns s 6 1

/-- The value of a listed command, low byte first. -/
def smbValue (s : State) (c : Nat) : Option (List Byte) :=
  if 0x80 ≤ c then
    some (fitBytes 64 ((kGet [] s.mram.cper ((c - 0x80) / 8)).drop (64 * (c % 8))))
  else
    (smbReg c).map (fun off => bytesLE 8 (if regRuns s off then ((regLoad s off).getD 0).toNat else 0))

/-- One bit of the CRC-8 of SMBus: x⁸ + x² + x + 1 (PRESUMED, log entry 86). -/
def crc8Bit (v : Nat) : Nat := if v < 128 then 2 * v else (2 * v % 256) ^^^ 7

/-- The CRC-8 of bytes. -/
def crc8 (bs : List Byte) : Nat :=
  bs.foldl (fun c b =>
    crc8Bit (crc8Bit (crc8Bit (crc8Bit (crc8Bit (crc8Bit (crc8Bit (crc8Bit (c ^^^ b.toNat))))))))) 0

/-- SMBUS_BLOCK_READ: the bytes of the reply, count, value and PEC; none where the device does not answer or
NACKs the command. -/
def smbRead (s : State) (addr : BitVec 7) (c : Byte) : List Byte :=
  if bootStage s < 2 || decide (addr.toNat ≠ smbAddr s) then []
  else
    match smbValue s c.toNat with
    | none => []
    | some v =>
      let body := bytesLE 1 v.length ++ v
      let a := 2 * addr.toNat
      body ++ bytesLE 1 (crc8 (bytesLE 1 a ++ [c] ++ bytesLE 1 (a + 1) ++ body))

def setSmb (s : State) (l : List Byte) : State := { s with pins := { s.pins with smbOut := l } }

/-! ### The test access port (R455, R456) -/

/-- May EXTEST, CLAMP and HIGHZ control the pins? -/
def tapFree (s : State) : Bool := !s.pins.rstN || bootStage s = 7

/-- What the 18 cells capture: input pins as they are, outputs as the device drives them (1 is released for an
open drain).  CLKOUT data and the SMBus lines are free values. -/
def captureCells (s : State) (f : Nat) : BitVec 18 :=
  let strap := (List.range 8).map (fun i => s.pins.strapPins.getLsbD i)
  let l := [s.pins.rstN, s.pins.pwrgood] ++ strap ++
    [Config.freeBool f 0, s.pins.clkoutHz.isSome, !alertAsserted s, !s.pins.fault, true, Config.freeBool f 1,
      Config.freeBool f 2, Config.freeBool f 3]
  BitVec.ofNat 18 (ofBitList ((List.range 18).filter (fun i => l.getD i false)))

def setIr (s : State) (ir : BitVec 6) : State :=
  { s with pins := { s.pins with tap := { s.pins.tap with ir := ir } } }

/-- Load the cells, having captured them. -/
def loadCells (s : State) (cells : BitVec 18) : State :=
  let (f, s1) := useFree s
  { s1 with pins := { s1.pins with tap := { s1.pins.tap with cells := cells, captured := captureCells s f } } }

/-- Load an instruction that controls the pins; at another time it acts as BYPASS. -/
def pinInstr (s : State) (ir : BitVec 6) (k : State → State) : State :=
  if tapFree s then k (setIr s ir) else setIr s 0x3F

/-- Is an open-drain output driven low: by its cell under EXTEST and CLAMP, never under HIGHZ, and else by the
device? -/
def openDrainLow (s : State) (cell : Nat) (dev : Bool) : Bool :=
  if tapFree s && (s.pins.tap.ir = 0 || s.pins.tap.ir = 2) then !s.pins.tap.cells.getLsbD cell
  else if tapFree s && s.pins.tap.ir = 3 then false
  else dev

/-- FAULT_N and ALERT_N as driven on the board. -/
def faultPinLow (s : State) : Bool := openDrainLow s 13 s.pins.fault
def alertPinLow (s : State) : Bool := openDrainLow s 12 (alertAsserted s)

/-! ### Commands -/

/-- SMBUS_BLOCK_READ (R441). -/
def execSmbusBlockRead (addr : BitVec 7) (command : Byte) (s : State) : Out :=
  .next (setSmb s (smbRead s addr command))

/-- SMBUS_SCL_TIMEOUT (R457): the lines are released and the interface resets. -/
def execSmbusSclTimeout (s : State) : Out := .next (setSmb s [])

/-- JTAG_EXTEST (R455). -/
def execJtagExtest (cells : BitVec 18) (s : State) : Out := .next (pinInstr s 0 (fun u => loadCells u cells))

/-- JTAG_SAMPLE_PRELOAD (R455). -/
def execJtagSamplePreload (cells : BitVec 18) (s : State) : Out := .next (loadCells (setIr s 1) cells)

/-- JTAG_CLAMP (R455). -/
def execJtagClamp (s : State) : Out := .next (pinInstr s 2 (fun u => u))

/-- JTAG_HIGHZ (R455). -/
def execJtagHighz (s : State) : Out := .next (pinInstr s 3 (fun u => u))

/-- JTAG_BYPASS (R455). -/
def execJtagBypass (s : State) : Out := .next (setIr s 0x3F)

/-- TEST_LOGIC_RESET (R455): BYPASS is in force. -/
def execTestLogicReset (s : State) : Out := .next (setIr s 0x3F)

end Sys2Proof.Machine
end

