-- ==== Sys2Proof/Machine/XCheck.lean ====
section
/-! DEFINITION. Cross-check rounds of the runtime self-test (R351, R352): the operands that every named core
generates, the tile of each array and its spill, and the comparison of the spills.  Command:
XCHECK_ROUND_COMPLETE. -/

namespace Sys2Proof.Machine

/-! ### The operands and the tile of a round (R351) -/

/-- The format code of round `n`: BF16, FP8 E4M3 or INT8. -/
def xFmt (n : Nat) : Nat := if n % 3 = 0 then 0 else if n % 3 = 1 then 2 else 6

/-- The draw of element `e` of an operand, 0 for A and 1 for B, in round `n`: purpose 1 of R104. -/
def xDraw (seed : Word) (n operand e : Nat) : Nat :=
  philoxDraw (philox (e / 8) (operand + 2 ^ 29) n (xFmt n) (wfld seed 31 0) (wfld seed 63 32)) (e % 8)

/-- The element code that a draw forms in a format. -/
def xCode (fmt r : Nat) : Nat :=
  if fmt = 0 then bitsOf r 15 15 <<< 15 + (0x78 + bitsOf r 14 12) <<< 7 + bitsOf r 6 0
  else
    let v := bitsOf r 7 0
    if fmt = 2 ∧ (v = 0x7F ∨ v = 0xFF) then 0 else v

/-- An operand of a round: elements are counted row by row, A has 64 × 4,096 of them and B 4,096 × 256. -/
def xOpnd (seed : Word) (n operand : Nat) : Opnd :=
  { val := fun i q => fvOf (xFmt n) (xCode (xFmt n) (xDraw seed n operand (if operand = 0 then 4096 * i + q else 256 * q + i)))
    scale := fun _ _ => .fin false 1 0 }

/-- The tile that every array of a named core computes in INDEPENDENT mode in round `n`, as its raw spill (R79). -/
def xTile (seed : Word) (n : Nat) : List Byte :=
  let f := xFmt n
  imageBytes (product (fmtInt f) true (fun _ => true) (xOpnd seed n 0) (xOpnd seed n 1) 64 256 4096 (fmtK f) AccSet.reset) 64 256

/-! ### Pairs and referees (R352) -/

/-- The pairs of a cross-check round: first with second, third with fourth, an odd last core with
the first (R352). -/
def xPairs : List Nat → Nat → List (Nat × Nat)
  | a :: b :: t, f => (a, b) :: xPairs t f
  | [a], f => if a = f then [] else [(a, f)]
  | [], _ => []

/-- The next named core outside a pair, in ascending cyclic order after its second member. -/
def xReferee (named : List Nat) (a b : Nat) : Option Nat :=
  let l := named.filter (fun c => c ≠ a ∧ c ≠ b)
  match l.find? (fun c => decide (b < c)) with
  | some c => some c
  | none => l.head?

/-! ### The spills -/

/-- What an array of a core spills: the round's tile with the bits that the array got wrong. -/
def xSpill (tile : List Byte) (faults : List (Nat × Nat × Nat × Nat)) (c a : Nat) : List Byte :=
  (faults.filter (fun (d, b, _, _) => d = c && b = a)).foldl
    (fun l (_, _, i, m) => l.modify i (fun b => b ^^^ BitVec.ofNat 8 m)) tile

/-- Both spills of a core. -/
def spillsOf (tile : List Byte) (faults : List (Nat × Nat × Nat × Nat)) (c : Nat) : List Byte × List Byte :=
  (xSpill tile faults c 0, xSpill tile faults c 1)

/-- The cores of a pair's comparison that are marked failed, and the referee used (R352). -/
def xJudge (named : List Nat) (tile : List Byte) (faults : List (Nat × Nat × Nat × Nat)) (a b : Nat) :
    List Nat × Nat :=
  let x := spillsOf tile faults a
  let y := spillsOf tile faults b
  if x = y ∧ x.1 = x.2 then ([], 0xFF)
  else
    match xReferee named a b with
    | none => ([a, b], 0xFF)
    | some r =>
      let z := spillsOf tile faults r
      let da := decide (x ≠ z)
      let db := decide (y ≠ z)
      ((if da then [a] else []) ++ (if db then [b] else []) ++
        (if da && db && decide (x ≠ y) then [r] else []), r)

/-- XCHECK_ROUND_COMPLETE (R352): each differing pair marks failed cores, raises XCHECK_MISMATCH,
writes a CPER record and counts a monitor input 5. -/
def xcheckRound (s : State) (faults : List (Nat × Nat × Nat × Nat)) : State :=
  let t := s.flt.selfTest
  if stRunning s && decide (t.phase = 2) && decide (t.round < rget s rFLT_ST_CTRL fFLT_ST_CTRL_ROUNDS) then
    let named := (stNamed s).filter (fun c => !t.failed.contains c)
    let s1 := (xPairs named (named.headD 0)).foldl (fun u (a, b) =>
      match xJudge named (xTile (rd s rFLT_ST_SEED) t.round) faults a b with
      | ([], _) => u
      | (bad, r) =>
        let u1 := { u with flt := { u.flt with selfTest := { u.flt.selfTest with
          failed := u.flt.selfTest.failed ++ bad.filter (fun c => !u.flt.selfTest.failed.contains c) } } }
        let u2 := cperWrite (monEvent u1 5 1) { cperInfo 0 5 (dieOfCore a) 9 0 with core := a }
        raiseDev u2 0x25 a [BitVec.ofNat 64 (a <<< 56 + b <<< 48 + r <<< 40 + t.round)]) s
    { s1 with flt := { s1.flt with selfTest := { s1.flt.selfTest with round := t.round + 1 } } }
  else s

/-- XCHECK_ROUND_COMPLETE (R352). -/
def execXcheckRoundComplete (faults : List (Nat × Nat × Nat × Nat)) (s : State) : Out := .next (xcheckRound s faults)

end Sys2Proof.Machine
end

