-- ==== Sys2Proof/Machine/Dispatch.lean ====
section
/-! DEFINITION. The dispatch of commands: one arm per row of the opcode table, each one call of
the command's meaning, or a refusal by name while the row has none. -/

namespace Sys2Proof.Machine

open Sys2Proof

def exec (i : Instr) (s : State) : Host.Outcome State Fault Refusal :=
  match i with
  | .rstNAssert => Sys2Proof.Machine.execRstNAssert s
  | .rstNDeassert straps => Sys2Proof.Machine.execRstNDeassert straps s
  | .pwrgoodFall => Sys2Proof.Machine.execPwrgoodFall s
  | .pwrgoodRise => Sys2Proof.Machine.execPwrgoodRise s
  | .railUndervoltage rail => Sys2Proof.Machine.execRailUndervoltage rail s
  | .strapDelayExpiry => Sys2Proof.Machine.execStrapDelayExpiry s
  | .referenceCheckDone count => Sys2Proof.Machine.execReferenceCheckDone count s
  | .crystalMonitorTick count => Sys2Proof.Machine.execCrystalMonitorTick count s
  | .pllLock die pll => Sys2Proof.Machine.execPllLock die pll s
  | .dividerRampDwell die dom => Sys2Proof.Machine.execDividerRampDwell die dom s
  | .pllLossOfLock die pll => Sys2Proof.Machine.execPllLossOfLock die pll s
  | .pllRelockTimeout die pll => Sys2Proof.Machine.execPllRelockTimeout die pll s
  | .clkDomGo die dom value => Sys2Proof.Machine.execClkDomGo die dom value s
  | .clkOutWrite value => Sys2Proof.Machine.execClkOutWrite value s
  | .crossingTimeout die dFrom dTo index pours => Sys2Proof.Machine.execCrossingTimeout die dFrom dTo index pours s
  | .crossingResume die dFrom dTo index => Sys2Proof.Machine.execCrossingResume die dFrom dTo index s
  | .dozeEntry unit => Sys2Proof.Machine.execDozeEntry unit s
  | .dozeWakeStart unit => Sys2Proof.Machine.execDozeWakeStart unit s
  | .wakeComplete unit => Sys2Proof.Machine.execWakeComplete unit s
  | .pwrHzWrite unit value => Sys2Proof.Machine.execPwrHzWrite unit value s
  | .wakeRequest unit => Sys2Proof.Machine.execWakeRequest unit s
  | .horizonExpiry unit => Sys2Proof.Machine.execHorizonExpiry unit s
  | .portWakeLockTimeout port => Sys2Proof.Machine.execPortWakeLockTimeout port s
  | .romStageComplete => Sys2Proof.Machine.execRomStageComplete s
  | .bootImgDataWrite value => Sys2Proof.Machine.execBootImgDataWrite value s
  | .bootCtrlGo => Sys2Proof.Machine.execBootCtrlGo s
  | .imageWaitTimeout => Sys2Proof.Machine.execImageWaitTimeout s
  | .verifyComplete => Sys2Proof.Machine.execVerifyComplete s
  | .selftestPhaseComplete found => Sys2Proof.Machine.execSelftestPhaseComplete found s
  | .bootCtrlRestart value straps => Sys2Proof.Machine.execBootCtrlRestart value straps s
  | .ctlResetWarm value => Sys2Proof.Machine.execCtlResetWarm value s
  | .smbusBlockRead addr command => Sys2Proof.Machine.execSmbusBlockRead addr command s
  | .smbusSclTimeout => Sys2Proof.Machine.execSmbusSclTimeout s
  | .jtagExtest cells => Sys2Proof.Machine.execJtagExtest cells s
  | .jtagSamplePreload cells => Sys2Proof.Machine.execJtagSamplePreload cells s
  | .jtagClamp => Sys2Proof.Machine.execJtagClamp s
  | .jtagHighz => Sys2Proof.Machine.execJtagHighz s
  | .jtagBypass => Sys2Proof.Machine.execJtagBypass s
  | .thermalSensorRead readings => Sys2Proof.Machine.execThermalSensorRead readings s
  | .nop core ctx word => Sys2Proof.Machine.execNop core ctx word s
  | .br core ctx word => Sys2Proof.Machine.execBr core ctx word s
  | .jal core ctx word => Sys2Proof.Machine.execJal core ctx word s
  | .jalr core ctx word => Sys2Proof.Machine.execJalr core ctx word s
  | .trap core ctx word => Sys2Proof.Machine.execTrap core ctx word s
  | .uresume core ctx word => Sys2Proof.Machine.execUresume core ctx word s
  | .alu core ctx word => Sys2Proof.Machine.execAlu core ctx word s
  | .alui core ctx word => Sys2Proof.Machine.execAlui core ctx word s
  | .movi core ctx word => Sys2Proof.Machine.execMovi core ctx word s
  | .cmp core ctx word => Sys2Proof.Machine.execCmp core ctx word s
  | .pset core ctx word => Sys2Proof.Machine.execPset core ctx word s
  | .ld core ctx word => Sys2Proof.Machine.execLd core ctx word s
  | .st core ctx word => Sys2Proof.Machine.execSt core ctx word s
  | .toksyncWaitFull core ctx word => Sys2Proof.Machine.execToksyncWaitFull core ctx word s
  | .toksyncWaitEmpty core ctx word => Sys2Proof.Machine.execToksyncWaitEmpty core ctx word s
  | .toksyncRelease core ctx word => Sys2Proof.Machine.execToksyncRelease core ctx word s
  | .waitall core ctx word => Sys2Proof.Machine.execWaitall core ctx word s
  | .yield core ctx word => Sys2Proof.Machine.execYield core ctx word s
  | .commit core ctx word => Sys2Proof.Machine.execCommit core ctx word s
  | .vquery core ctx word => Sys2Proof.Machine.execVquery core ctx word s
  | .stream core ctx word => Sys2Proof.Machine.execStream core ctx word s
  | .streamStop core ctx word => Sys2Proof.Machine.execStreamStop core ctx word s
  | .mma core ctx word => Sys2Proof.Machine.execMma core ctx word s
  | .mmaConv core ctx word => Sys2Proof.Machine.execMmaConv core ctx word s
  | .drain core ctx word => Sys2Proof.Machine.execDrain core ctx word s
  | .spill core ctx word => Sys2Proof.Machine.execSpill core ctx word s
  | .accld core ctx word => Sys2Proof.Machine.execAccld core ctx word s
  | .assay core ctx word => Sys2Proof.Machine.execAssay core ctx word s
  | .vew core ctx word => Sys2Proof.Machine.execVew core ctx word s
  | .vred core ctx word => Sys2Proof.Machine.execVred core ctx word s
  | .vrot core ctx word => Sys2Proof.Machine.execVrot core ctx word s
  | .update core ctx word => Sys2Proof.Machine.execUpdate core ctx word s
  | .updateSweepComplete core ctx => Sys2Proof.Machine.execUpdateSweepComplete core ctx s
  | .attnFwd core ctx word => Sys2Proof.Machine.execAttnFwd core ctx word s
  | .attnNorm core ctx word => Sys2Proof.Machine.execAttnNorm core ctx word s
  | .attnBwdP core ctx word => Sys2Proof.Machine.execAttnBwdP core ctx word s
  | .attnBwdDs core ctx word => Sys2Proof.Machine.execAttnBwdDs core ctx word s
  | .attnMerge core ctx word => Sys2Proof.Machine.execAttnMerge core ctx word s
  | .gather core ctx word => Sys2Proof.Machine.execGather core ctx word s
  | .gatherStop core ctx word => Sys2Proof.Machine.execGatherStop core ctx word s
  | .fill core ctx word => Sys2Proof.Machine.execFill core ctx word s
  | .copy core ctx word => Sys2Proof.Machine.execCopy core ctx word s
  | .scrub core ctx word => Sys2Proof.Machine.execScrub core ctx word s
  | .powerDown core ctx word => Sys2Proof.Machine.execPowerDown core ctx word s
  | .powerUp core ctx word => Sys2Proof.Machine.execPowerUp core ctx word s
  | .quadReady core mask => Sys2Proof.Machine.execQuadReady core mask s
  | .calendarLoad core ctx word => Sys2Proof.Machine.execCalendarLoad core ctx word s
  | .bankCalendarActivate core => Sys2Proof.Machine.execBankCalendarActivate core s
  | .dset core ctx word => Sys2Proof.Machine.execDset core ctx word s
  | .fwrWr core ctx word => Sys2Proof.Machine.execFwrWr core ctx word s
  | .fwrMcastWr core ctx word => Sys2Proof.Machine.execFwrMcastWr core ctx word s
  | .fwrRedWr core ctx word => Sys2Proof.Machine.execFwrRedWr core ctx word s
  | .frd core ctx word => Sys2Proof.Machine.execFrd core ctx word s
  | .fatom core ctx word => Sys2Proof.Machine.execFatom core ctx word s
  | .tensorIssue core => Sys2Proof.Machine.execTensorIssue core s
  | .contextSwitch core => Sys2Proof.Machine.execContextSwitch core s
  | .tensorComplete core index => Sys2Proof.Machine.execTensorComplete core index s
  | .tokenFillComplete core token => Sys2Proof.Machine.execTokenFillComplete core token s
  | .tokenDrainComplete core token => Sys2Proof.Machine.execTokenDrainComplete core token s
  | .pourDispatch part => Sys2Proof.Machine.execPourDispatch part s
  | .barrierPass part => Sys2Proof.Machine.execBarrierPass part s
  | .pourStart core ctx => Sys2Proof.Machine.execPourStart core ctx s
  | .commitRequest core ctx => Sys2Proof.Machine.execCommitRequest core ctx s
  | .commitAccept core ctx => Sys2Proof.Machine.execCommitAccept core ctx s
  | .pourAbort core ctx => Sys2Proof.Machine.execPourAbort core ctx s
  | .pourQuiet core ctx => Sys2Proof.Machine.execPourQuiet core ctx s
  | .pourTimeWatchdog core ctx => Sys2Proof.Machine.execPourTimeWatchdog core ctx s
  | .slotWatchdogExpiry core agent => Sys2Proof.Machine.execSlotWatchdogExpiry core agent s
  | .streamTileBegin core stream => Sys2Proof.Machine.execStreamTileBegin core stream s
  | .streamEnd core stream => Sys2Proof.Machine.execStreamEnd core stream s
  | .gatherRequest core engine => Sys2Proof.Machine.execGatherRequest core engine s
  | .gatherEnd core engine => Sys2Proof.Machine.execGatherEnd core engine s
  | .scratchpadPortAccess core port offset access => Sys2Proof.Machine.execScratchpadPortAccess core port offset access s
  | .scratchpadScrubComplete core => Sys2Proof.Machine.execScratchpadScrubComplete core s
  | .spmPowerWrite core value => Sys2Proof.Machine.execSpmPowerWrite core value s
  | .cacheLookup die core req => Sys2Proof.Machine.execCacheLookup die core req s
  | .cacheFill die addr part => Sys2Proof.Machine.execCacheFill die addr part s
  | .cacheInvAll die value => Sys2Proof.Machine.execCacheInvAll die value s
  | .coreCtrlSeqInv core value => Sys2Proof.Machine.execCoreCtrlSeqInv core value s
  | .arrCtrlInjectParity core value => Sys2Proof.Machine.execArrCtrlInjectParity core value s
  | .numLscaleWrite core value => Sys2Proof.Machine.execNumLscaleWrite core value s
  | .tierRequestArrival ctl channel source req => Sys2Proof.Machine.execTierRequestArrival ctl channel source req s
  | .tierSlot ctl channel busy result => Sys2Proof.Machine.execTierSlot ctl channel busy result s
  | .refreshDebtTick ctl channel => Sys2Proof.Machine.execRefreshDebtTick ctl channel s
  | .stackTempRead ctl temp => Sys2Proof.Machine.execStackTempRead ctl temp s
  | .stackTempLost ctl => Sys2Proof.Machine.execStackTempLost ctl s
  | .tierCalArm ctl value => Sys2Proof.Machine.execTierCalArm ctl value s
  | .tierCalActivate ctl => Sys2Proof.Machine.execTierCalActivate ctl s
  | .tierTrainingLoss ctl => Sys2Proof.Machine.execTierTrainingLoss ctl s
  | .tierRetrainTimeout ctl => Sys2Proof.Machine.execTierRetrainTimeout ctl s
  | .tierPprGo ctl value => Sys2Proof.Machine.execTierPprGo ctl value s
  | .tierPprComplete ctl ok => Sys2Proof.Machine.execTierPprComplete ctl ok s
  | .d2dFrameReceive link dir ok => Sys2Proof.Machine.execD2dFrameReceive link dir ok s
  | .d2dLaneLockLoss link => Sys2Proof.Machine.execD2dLaneLockLoss link s
  | .fabNodeWrite value => Sys2Proof.Machine.execFabNodeWrite value s
  | .ergFrameSend port => Sys2Proof.Machine.execErgFrameSend port s
  | .ergFrameReceive port arrival => Sys2Proof.Machine.execErgFrameReceive port arrival s
  | .ergRetryRequest port seq => Sys2Proof.Machine.execErgRetryRequest port seq s
  | .link port credits => Sys2Proof.Machine.execLink port credits s
  | .ergLaneLockLoss port => Sys2Proof.Machine.execErgLaneLockLoss port s
  | .ergAckStall port => Sys2Proof.Machine.execErgAckStall port s
  | .portCtrlDisable port => Sys2Proof.Machine.execPortCtrlDisable port s
  | .portCtrlRetrain port => Sys2Proof.Machine.execPortCtrlRetrain port s
  | .portTrainingComplete port ok rtt => Sys2Proof.Machine.execPortTrainingComplete port ok rtt s
  | .packetForward port pkt => Sys2Proof.Machine.execPacketForward port pkt s
  | .rd port pkt => Sys2Proof.Machine.execRd port pkt s
  | .wr port pkt => Sys2Proof.Machine.execWr port pkt s
  | .atomicAdd port pkt => Sys2Proof.Machine.execAtomicAdd port pkt s
  | .mcastWr port pkt => Sys2Proof.Machine.execMcastWr port pkt s
  | .redWr port pkt => Sys2Proof.Machine.execRedWr port pkt s
  | .reductionCombine hub group chunk => Sys2Proof.Machine.execReductionCombine hub group chunk s
  | .redRes port pkt => Sys2Proof.Machine.execRedRes port pkt s
  | .collSiblingTimeout hub group chunk => Sys2Proof.Machine.execCollSiblingTimeout hub group chunk s
  | .mcastLagTimeout group => Sys2Proof.Machine.execMcastLagTimeout group s
  | .mcastResend group => Sys2Proof.Machine.execMcastResend group s
  | .commitNotice port pkt => Sys2Proof.Machine.execCommitNotice port pkt s
  | .release port pkt => Sys2Proof.Machine.execRelease port pkt s
  | .discard port pkt => Sys2Proof.Machine.execDiscard port pkt s
  | .beacon port pkt => Sys2Proof.Machine.execBeacon port pkt s
  | .beaconSend port => Sys2Proof.Machine.execBeaconSend port s
  | .beaconTimeout => Sys2Proof.Machine.execBeaconTimeout s
  | .timeSet value => Sys2Proof.Machine.execTimeSet value s
  | .rdRsp port pkt => Sys2Proof.Machine.execRdRsp port pkt s
  | .wrAck port pkt => Sys2Proof.Machine.execWrAck port pkt s
  | .atomicRsp port pkt => Sys2Proof.Machine.execAtomicRsp port pkt s
  | .noticeAck port pkt => Sys2Proof.Machine.execNoticeAck port pkt s
  | .quenchAck port pkt => Sys2Proof.Machine.execQuenchAck port pkt s
  | .fabQsendGo hub value => Sys2Proof.Machine.execFabQsendGo hub value s
  | .quenchAckTimeout hub => Sys2Proof.Machine.execQuenchAckTimeout hub s
  | .requestTimeout tag => Sys2Proof.Machine.execRequestTimeout tag s
  | .portCalArm port value => Sys2Proof.Machine.execPortCalArm port value s
  | .portCalActivate port => Sys2Proof.Machine.execPortCalActivate port s
  | .caravanFrameReceive port frame => Sys2Proof.Machine.execCaravanFrameReceive port frame s
  | .caravanRetryRequest port seq => Sys2Proof.Machine.execCaravanRetryRequest port seq s
  | .caravanLaneLockLoss port => Sys2Proof.Machine.execCaravanLaneLockLoss port s
  | .caravanAckStall port => Sys2Proof.Machine.execCaravanAckStall port s
  | .caravanTrainingComplete port ok rtt => Sys2Proof.Machine.execCaravanTrainingComplete port ok rtt s
  | .ctlPortDisable port value => Sys2Proof.Machine.execCtlPortDisable port value s
  | .ctlPortRetrain port => Sys2Proof.Machine.execCtlPortRetrain port s
  | .regRd port tag session offset => Sys2Proof.Machine.execRegRd port tag session offset s
  | .regWr port tag session offset value => Sys2Proof.Machine.execRegWr port tag session offset value s
  | .memRd port tag session part addr rlen => Sys2Proof.Machine.execMemRd port tag session part addr rlen s
  | .memWr port tag session part addr data => Sys2Proof.Machine.execMemWr port tag session part addr data s
  | .caravanForwardTimeout tag => Sys2Proof.Machine.execCaravanForwardTimeout tag s
  | .heartbeat port tag session => Sys2Proof.Machine.execHeartbeat port tag session s
  | .heartbeatTimeout => Sys2Proof.Machine.execHeartbeatTimeout s
  | .relinquish port tag session => Sys2Proof.Machine.execRelinquish port tag session s
  | .adoptHello port tag => Sys2Proof.Machine.execAdoptHello port tag s
  | .adoptGet port tag offset rlen => Sys2Proof.Machine.execAdoptGet port tag offset rlen s
  | .adoptPut port tag offset data => Sys2Proof.Machine.execAdoptPut port tag offset data s
  | .adoptCommit port tag length => Sys2Proof.Machine.execAdoptCommit port tag length s
  | .challengeExpiry => Sys2Proof.Machine.execChallengeExpiry s
  | .ctlRunResume value => Sys2Proof.Machine.execCtlRunResume value s
  | .recordWrite queue => Sys2Proof.Machine.execRecordWrite queue s
  | .recordWriteAck queue ok => Sys2Proof.Machine.execRecordWriteAck queue ok s
  | .record queue => Sys2Proof.Machine.execRecord queue s
  | .recordSendExpiry queue => Sys2Proof.Machine.execRecordSendExpiry queue s
  | .cqPtrHeadWrite queue value => Sys2Proof.Machine.execCqPtrHeadWrite queue value s
  | .partActivate part value => Sys2Proof.Machine.execPartActivate part value s
  | .partRelease part value => Sys2Proof.Machine.execPartRelease part value s
  | .partReleaseComplete part => Sys2Proof.Machine.execPartReleaseComplete part s
  | .partResume part value => Sys2Proof.Machine.execPartResume part value s
  | .ringTailWrite part value => Sys2Proof.Machine.execRingTailWrite part value s
  | .preemptGo part value => Sys2Proof.Machine.execPreemptGo part value s
  | .preemptComplete part => Sys2Proof.Machine.execPreemptComplete part s
  | .tuyereRefill part path => Sys2Proof.Machine.execTuyereRefill part path s
  | .fltFenceWrite index value => Sys2Proof.Machine.execFltFenceWrite index value s
  | .unfenceComplete core => Sys2Proof.Machine.execUnfenceComplete core s
  | .fltStGo value => Sys2Proof.Machine.execFltStGo value s
  | .fltStCancel value => Sys2Proof.Machine.execFltStCancel value s
  | .selftestRequestStart => Sys2Proof.Machine.execSelftestRequestStart s
  | .runtimeSelftestPhaseDone failed => Sys2Proof.Machine.execRuntimeSelftestPhaseDone failed s
  | .xcheckRoundComplete faults => Sys2Proof.Machine.execXcheckRoundComplete faults s
  | .healthMonitorTick => Sys2Proof.Machine.execHealthMonitorTick s
  | .fltHmCtrlWrite value => Sys2Proof.Machine.execFltHmCtrlWrite value s
  | .fltReport value => Sys2Proof.Machine.execFltReport value s
  | .ceSummaryPeriod => Sys2Proof.Machine.execCeSummaryPeriod s
  | .fltCperHeadWrite value => Sys2Proof.Machine.execFltCperHeadWrite value s
  | .fltStateClear value => Sys2Proof.Machine.execFltStateClear value s
  | .fltDigGo value => Sys2Proof.Machine.execFltDigGo value s
  | .digestComplete => Sys2Proof.Machine.execDigestComplete s
  | .ckptGo value => Sys2Proof.Machine.execCkptGo value s
  | .ckptPageReadStart hub page => Sys2Proof.Machine.execCkptPageReadStart hub page s
  | .ckptPageCopyDone hub page => Sys2Proof.Machine.execCkptPageCopyDone hub page s
  | .ckptCopy0Complete => Sys2Proof.Machine.execCkptCopy0Complete s
  | .ckptRelayComplete => Sys2Proof.Machine.execCkptRelayComplete s
  | .ckptCancel value => Sys2Proof.Machine.execCkptCancel value s
  | .ckptFillGo value => Sys2Proof.Machine.execCkptFillGo value s
  | .ckptFillComplete => Sys2Proof.Machine.execCkptFillComplete s
  | .ckptVfix value => Sys2Proof.Machine.execCkptVfix value s
  | .ckptPstateSet value => Sys2Proof.Machine.execCkptPstateSet value s
  | .extendDev value => Sys2Proof.Machine.execExtendDev value s
  | .extendPart value => Sys2Proof.Machine.execExtendPart value s
  | .quoteDev value => Sys2Proof.Machine.execQuoteDev value s
  | .quotePart value => Sys2Proof.Machine.execQuotePart value s
  | .authSet value => Sys2Proof.Machine.execAuthSet value s
  | .authClear value => Sys2Proof.Machine.execAuthClear value s
  | .signatureComplete => Sys2Proof.Machine.execSignatureComplete s
  | .secSvnRaise value => Sys2Proof.Machine.execSecSvnRaise value s
  | .secSvnSetDisable0 value => Sys2Proof.Machine.execSecSvnSetDisable0 value s
  | .trcMark value => Sys2Proof.Machine.execTrcMark value s
  | .traceRecordWrite => Sys2Proof.Machine.execTraceRecordWrite s
  | .registerWrite offset value => Sys2Proof.Machine.execRegisterWrite offset value s
  | .railRecovery => Sys2Proof.Machine.execRailRecovery s
  | .crystalEdgeLoss => Sys2Proof.Machine.execCrystalEdgeLoss s
  | .pllLockTimeout die pll => Sys2Proof.Machine.execPllLockTimeout die pll s
  | .logicFault kind index => Sys2Proof.Machine.execLogicFault kind index s
  | .testLogicReset => Sys2Proof.Machine.execTestLogicReset s
  | .caravanFrameSend port => Sys2Proof.Machine.execCaravanFrameSend port s

end Sys2Proof.Machine
end

