-- ==== Sys2Proof/Machine/Tick.lean ====
section
/-! DEFINITION. What one nanosecond of the time base does when no command waits (R250, R252): the
base advances by its nominal rate plus the rate correction, never backward.  A slew ends after its period, and
a half-rate run once the offset is within STEP_NS. -/

namespace Sys2Proof.Machine

/-- One nanosecond of the 1 GHz clock (R250): the rate accumulator adds (1 + rate) ns in units of
2^−32 ns; at half rate (R252) it adds half a nanosecond. -/
def tickNs (s : State) : State :=
  let slew : Int := if s.time.slewLeft = 0 then 0 else s.time.slew
  let step : Int := if 0 < s.time.half then 2 ^ 31 else 2 ^ 32 + s.time.rate + slew
  let acc : Nat := s.time.frac + step.toNat
  { s with time := { s.time with
      now := (s.time.now + acc / 2 ^ 32) % 2 ^ 64, frac := acc % 2 ^ 32
      slewLeft := s.time.slewLeft - 1, half := s.time.half - 1 } }

end Sys2Proof.Machine
end

