-- ==== Sys2Proof/Machine/Step.lean ====
section
/-! DEFINITION. The step: take the command at the front of the queue and run it on the state with
the queue's rest; on an empty queue one nanosecond of the time base passes (log entry 6). -/

namespace Sys2Proof.Machine

open Sys2Proof

/-- The command at the front of the queue, or one idle nanosecond. -/
def step (s : State) : Host.Outcome State Fault Refusal :=
  match s.pending with
  | [] => .next (tickNs s)
  | c :: rest => exec c { s with pending := rest }

/-- Put the command that a table word spells at the front of the queue; unchanged where the word
spells none. -/
def State.withFetchWord (s : State) (nbits w : Nat) : State :=
  match decodeTableWord nbits w with
  | some c => { s with pending := c :: s.pending }
  | none => s

end Sys2Proof.Machine
end

