-- ==== Sys2Proof/Safety.lean ====
section
/-! DEFINITION. What counts as a safe run, and the terms the statements are written in: a command
that answers a next state, the frames of a core and a context, and the state the model keeps well
formed. -/

namespace Sys2Proof.Safety

open Sys2Proof Sys2Proof.Machine

/-- The machine answers a next state from `s`. -/
def Steps (s : State) : Prop := ∃ t, Machine.step s = .next t

/-- `n` steps from `s` all answer a next state. -/
def SafeFor : Nat → State → Prop
  | 0, _ => True
  | n + 1, s => ∃ t, Machine.step s = .next t ∧ SafeFor n t

/-- The command answers a next state, of which `P` holds. -/
def Runs (i : Instr) (s : State) (P : State → Prop) : Prop :=
  ∃ t, Machine.exec i s = .next t ∧ P t

/-! ### The canonical form of the maps -/

/-- Tier memory and its poison marks are in canonical form. -/
abbrev Memory.wf (s : State) : Prop :=
  smWf (fun _ => (0 : Byte)) s.mem = true ∧ smWf (fun _ => false) s.memBad = true

/-- The registers are in canonical form. -/
abbrev Regs.wf (s : State) : Prop := smWf regReset s.regs = true

/-- Every canonical map of the state is in its canonical form. -/
abbrev Canon (s : State) : Prop := Memory.wf s ∧ Regs.wf s

/-! ### Frames -/

/-- Nothing but core `c` differs. -/
def OnlyCore (s t : State) (c : Nat) : Prop :=
  t = { s with cores := t.cores } ∧ ∀ d, d ≠ c → coreOf t d = coreOf s d

/-- Nothing but context `x` of core `c`, the lines of its sequencer caches and the context that issued last
differs. -/
def OnlyCtx (s t : State) (c x : Nat) : Prop :=
  OnlyCore s t c ∧
  coreOf t c = { coreOf s c with ctxs := (coreOf t c).ctxs, iLines := (coreOf t c).iLines,
                                 dLines := (coreOf t c).dLines, lastSeq := (coreOf t c).lastSeq } ∧
  ∀ y, y ≠ x → ctxOf t c y = ctxOf s c y

/-- No register but those listed differs, and nothing else of the state does. -/
def OnlyRegs (s t : State) (offs : List Nat) : Prop :=
  t = { s with regs := t.regs } ∧ ∀ o, o ∉ offs → rd t o = rd s o

/-- No byte of tier memory differs. -/
def SameMem (s t : State) : Prop := ∀ a, memByte t a = memByte s a

/-- The device event `code` with `body` joins queue 8, when `s` takes records and queue 8 is enabled
(R332, R335). -/
def Raises (s t : State) (code : Nat) (body : List Word) : Prop :=
  recordsOff s = false → rflag s (rCQ_CFG 8) fCQ_CFG_ENABLE = true →
    (recqOf t 8).waiting = (recqOf s 8).waiting ++ [⟨2, code, 0xFF, 0, 0, false, now t, body⟩]

/-! ### Requests of a Caravan port -/

/-- The device has started the request `tag` of port `k` (R330). -/
def started (s : State) (k tag : Nat) : State := modCport s k (fun e => { e with open_ := e.open_ ++ [tag] })

/-- One response of the given type, status, W3 and payload joins the messages of port `k`, and no other
request of the port is open that was not open before (R328, R330). -/
def Answered (s t : State) (k tag ty status : Nat) (w3 : Word) (payload : List (Word × Bool)) : Prop :=
  (∃ m : CMsg, (cportOf t k).txq = (cportOf s k).txq ++ [m] ∧ m.ty = ty ∧ m.tag = tag ∧ m.status = status ∧
    m.w3 = w3 ∧ m.payload = payload) ∧
  (tag ∉ (cportOf s k).open_ → (cportOf t k).open_ = (cportOf s k).open_) ∧
  (cportOf t k).link = (cportOf s k).link ∧ cportOf t (1 - k) = cportOf s (1 - k)

/-- The port, tag and response type of a request of the control node, its SESSION field, and whether it
needs a session in this state (R327, R329, R430, R439). -/
def request (s : State) (i : Instr) : Option (Nat × Nat × Nat × Nat × Bool) :=
  match i with
  | .regRd k tag se off => some (k, tag, 0x21, se, !readOpen s off)
  | .regWr k tag se off v => some (k, tag, 0x22, se, !writeOpen s off v)
  | .memRd k tag se _ _ _ => some (k, tag, 0x23, se, true)
  | .memWr k tag se _ _ _ => some (k, tag, 0x22, se, true)
  | .heartbeat k tag se => some (k, tag, 0x24, se, true)
  | .relinquish k tag se => some (k, tag, 0x22, se, true)
  | .adoptHello k tag => some (k, tag, 0x25, 0, false)
  | .adoptGet k tag _ _ => some (k, tag, 0x23, 0, false)
  | .adoptPut k tag _ _ => some (k, tag, 0x22, 0, false)
  | .adoptCommit k tag _ => some (k, tag, 0x26, 0, false)
  | _ => none

/-! ### The sequencer -/

/-- It is the turn of context `x` of core `c`, whose registers are `k` and whose pour is `pr`, to have its next
word run (R52, R53). -/
structure AtTurn (s : State) (c x : Nat) (k : Ctx) (pr : Pour) : Prop where
  core : c < nCores
  ctx : x < 4
  regs : ctxOf s c x = k
  pour : k.pour = some pr
  ready : seqReady (coreOf s c) x = true
  turn : seqTurn (coreOf s c) x = true

/-- The sequencer of core `c` is to run the word `w` of context `x`: the word stands at the context's PC, within
the code binding, and the fetch reads it without error (R54, R257). -/
structure AtWord (s : State) (c x : Nat) (w : Word) (k : Ctx) (pr : Pour) : Prop extends AtTurn s c x k pr where
  fetch : fetchOk pr k.pc.toNat 8 = true
  reads : lineClean s (coreOf s c).iLines k.pc.toNat 8 = true
  word : fetchWord s c k.pc.toNat = w

/-- A context whose word at the PC has been fetched. -/
def fetchedCtx (k : Ctx) : Ctx := { k with lastPc := k.pc }

/-- The word passes the check at decode and its guard is true (R258, R259). -/
def Takes (k : Ctx) (w : Word) : Prop :=
  encodingOk w = true ∧ pRead k (wPG w) ≠ wPN w

/-- After a scalar instruction of context `x`: only that context differs, its PC is at the next word,
general register `r` holds `v` (g0 reads zero still), and its other registers are as before. -/
def WritesReg (s t : State) (c x : Nat) (k : Ctx) (r : Nat) (v : Word) : Prop :=
  OnlyCtx s t c x ∧
  ctxOf t c x = { fetchedCtx k with pc := k.pc + 8, g := (ctxOf t c x).g } ∧
  ∀ i, i < 32 → gRead (ctxOf t c x) i = if i = r ∧ r ≠ 0 then v else gRead k i

/-- The same for a predicate register (p0 reads one still). -/
def WritesPred (s t : State) (c x : Nat) (k : Ctx) (r : Nat) (v : Bool) : Prop :=
  OnlyCtx s t c x ∧
  ctxOf t c x = { fetchedCtx k with pc := k.pc + 8, p := (ctxOf t c x).p } ∧
  ∀ i, i < 8 → pRead (ctxOf t c x) i = if i = r ∧ r ≠ 0 then v else pRead k i

/-- The context of a pour that aborts with `code`: ABORTING, its PC that of the word fetched last (R276, R334). -/
def abortedCtx (k : Ctx) (code trap : Nat) : Ctx :=
  { k with st := .aborting, abortCode := code, trapCode := trap, stopped := false,
           commitSent := false, abortPc := k.lastPc.toNat }

/-- The context of a pour before its commit point that a kill or refusal reaches (R24, R49): a start code in
LOADING records no PC (R334). -/
def abortedAt (k : Ctx) (code : Nat) : Ctx :=
  { abortedCtx k code 0 with abortPc := if k.st = .loading ∧ startCode code then 0 else k.lastPc.toNat }

/-- The pour of context `x` aborts at the word just fetched, and nothing else differs. -/
def Aborts (s t : State) (c x : Nat) (k : Ctx) (code trap : Nat) : Prop :=
  OnlyCtx s t c x ∧ ctxOf t c x = abortedCtx (fetchedCtx k) code trap

/-- The core's ADDR_ERR log takes an access of `agent` of context `x` to `a` while its VALID is clear, and no other
register differs (R16). -/
def LogsAccess (s t : State) (c x : Nat) (agent a : Nat) : Prop :=
  (∀ o, o ≠ rADDR_ERR c → o ≠ rADDR_ERR_TIME c → rd t o = rd s o) ∧
  if rflag s (rADDR_ERR c) fADDR_ERR_VALID then
    rd t (rADDR_ERR c) = rd s (rADDR_ERR c) ∧ rd t (rADDR_ERR_TIME c) = rd s (rADDR_ERR_TIME c)
  else
    rflag t (rADDR_ERR c) fADDR_ERR_VALID = true ∧
    rget t (rADDR_ERR c) fADDR_ERR_AGENT = agent ∧ rget t (rADDR_ERR c) fADDR_ERR_CONTEXT = x ∧
    rget t (rADDR_ERR c) fADDR_ERR_RESERVED_RANGE = b2n (decide (a < 2 ^ 48) && isReservedAddr a) ∧
    rget t (rADDR_ERR c) fADDR_ERR_ADDR = (if isRegSpace a then a - 0x040000000000 else a) % 2 ^ 48 ∧
    rd t (rADDR_ERR_TIME c) = nowW s

/-- The pour of context `x` aborts with BAD_ADDRESS at the word just fetched, for an access of `agent` to `a`: the
core's ADDR_ERR log takes the access while its VALID is clear, and nothing else differs (R16). -/
def RefusesAccess (s t : State) (c x : Nat) (k : Ctx) (agent a : Nat) : Prop :=
  OnlyCtx s { t with regs := s.regs } c x ∧ ctxOf t c x = abortedCtx (fetchedCtx k) 0x08 0 ∧ LogsAccess s t c x agent a

/-! ### Instruction commands -/

/-- The core, context and word of an instruction command, and whether the word is one of its row. -/
def instrWord (i : Instr) : Option (Nat × Nat × Word × Bool) :=
  match i with
  | .nop c x w => some (c, x, w, wOp w = 0x00)
  | .br c x w => some (c, x, w, wOp w = 0x01)
  | .jal c x w => some (c, x, w, wOp w = 0x02)
  | .jalr c x w => some (c, x, w, wOp w = 0x03)
  | .trap c x w => some (c, x, w, wOp w = 0x04)
  | .uresume c x w => some (c, x, w, wOp w = 0x05)
  | .alu c x w => some (c, x, w, wOp w = 0x08)
  | .alui c x w => some (c, x, w, wOp w = 0x09)
  | .movi c x w => some (c, x, w, wOp w = 0x0A)
  | .cmp c x w => some (c, x, w, wOp w = 0x0B)
  | .pset c x w => some (c, x, w, wOp w = 0x0C)
  | .ld c x w => some (c, x, w, wOp w = 0x10)
  | .st c x w => some (c, x, w, wOp w = 0x11)
  | .toksyncWaitFull c x w => some (c, x, w, wOp w = 0x14 && wfld w 33 32 = 0)
  | .toksyncWaitEmpty c x w => some (c, x, w, wOp w = 0x14 && wfld w 33 32 = 1)
  | .toksyncRelease c x w => some (c, x, w, wOp w = 0x14 && wfld w 33 32 = 2)
  | .waitall c x w => some (c, x, w, wOp w = 0x15)
  | .yield c x w => some (c, x, w, wOp w = 0x16)
  | .commit c x w => some (c, x, w, wOp w = 0x18)
  | .vquery c x w => some (c, x, w, wOp w = 0x19)
  | .stream c x w => some (c, x, w, wOp w = 0x1C)
  | .streamStop c x w => some (c, x, w, wOp w = 0x1D)
  | .mma c x w => some (c, x, w, wOp w = 0x20)
  | .mmaConv c x w => some (c, x, w, wOp w = 0x21)
  | .drain c x w => some (c, x, w, wOp w = 0x22)
  | .spill c x w => some (c, x, w, wOp w = 0x23)
  | .accld c x w => some (c, x, w, wOp w = 0x24)
  | .assay c x w => some (c, x, w, wOp w = 0x25)
  | .vew c x w => some (c, x, w, wOp w = 0x28)
  | .vred c x w => some (c, x, w, wOp w = 0x29)
  | .vrot c x w => some (c, x, w, wOp w = 0x2A)
  | .update c x w => some (c, x, w, wOp w = 0x2F)
  | .attnFwd c x w => some (c, x, w, wOp w = 0x30)
  | .attnNorm c x w => some (c, x, w, wOp w = 0x31)
  | .attnBwdP c x w => some (c, x, w, wOp w = 0x32 && !wbit w 53)
  | .attnBwdDs c x w => some (c, x, w, wOp w = 0x32 && wbit w 53)
  | .attnMerge c x w => some (c, x, w, wOp w = 0x33)
  | .gather c x w => some (c, x, w, wOp w = 0x34)
  | .gatherStop c x w => some (c, x, w, wOp w = 0x35)
  | .fill c x w => some (c, x, w, wOp w = 0x38 && wfld w 53 50 = 0)
  | .copy c x w => some (c, x, w, wOp w = 0x38 && wfld w 53 50 = 1)
  | .scrub c x w => some (c, x, w, wOp w = 0x38 && wfld w 53 50 = 2)
  | .powerDown c x w => some (c, x, w, wOp w = 0x38 && wfld w 53 50 = 3)
  | .powerUp c x w => some (c, x, w, wOp w = 0x38 && wfld w 53 50 = 4)
  | .calendarLoad c x w => some (c, x, w, wOp w = 0x38 && wfld w 53 50 = 5)
  | .dset c x w => some (c, x, w, wOp w = 0x3B)
  | .fwrWr c x w => some (c, x, w, wOp w = 0x3C && wfld w 53 52 = 0)
  | .fwrMcastWr c x w => some (c, x, w, wOp w = 0x3C && wfld w 53 52 = 1)
  | .fwrRedWr c x w => some (c, x, w, wOp w = 0x3C && wfld w 53 52 = 2)
  | .frd c x w => some (c, x, w, wOp w = 0x3D)
  | .fatom c x w => some (c, x, w, wOp w = 0x3E)
  | _ => none

/-- A row that goes through a tensor issue queue, the scalar operands it captures (R262, R279), and
whether it is one of the classes with an issue check of its own. -/
def tensorSrcs (w : Word) : List Nat :=
  let op := wOp w
  if op = 0x14 then [wRS1 w]
  else if op = 0x1C then [wfld w 48 44]
  else if op = 0x20 then [wfld w 11 7]
  else if op = 0x21 then [wfld w 28 24, wfld w 23 19]
  else if op = 0x22 then [wfld w 23 19, wfld w 18 14]
  else if op = 0x25 then [wfld w 31 27]
  else if op = 0x28 || op = 0x2A then [wfld w 33 29, wfld w 28 24]
  else if op = 0x2F then [wfld w 53 49]
  else if op = 0x30 then [wfld w 21 17, wfld w 16 12]
  else if op = 0x31 then [wfld w 32 28, wfld w 27 23, wfld w 22 18]
  else if op = 0x32 then [wfld w 29 25, wfld w 24 20, wfld w 11 7]
  else if op = 0x33 then [wfld w 27 23, wfld w 22 18, wfld w 17 13]
  else if op = 0x34 then [wfld w 29 25, wfld w 24 20]
  else if op = 0x38 && wfld w 53 50 = 0 then [wfld w 36 32]
  else if op = 0x38 && wfld w 53 50 = 5 then [wfld w 36 32, wfld w 15 11]
  else if op = 0x3B then [wfld w 47 43, wfld w 42 38]
  else if op = 0x3C then [wfld w 44 40, wfld w 18 14]
  else if op = 0x3D then [wfld w 47 43]
  else if op = 0x3E then [wfld w 36 32]
  else []

/-- Is a word of a class that goes through a tensor issue queue, YIELD apart? -/
def queued (w : Word) : Bool :=
  wOp w = 0x05 || wOp w = 0x14 || wOp w = 0x15 || (0x1C ≤ wOp w && wOp w ≤ 0x3E)

/-- The entry of a word placed from context `k`: its operands are the values at placement (R262). -/
def entryOf (k : Ctx) (w : Word) : QEnt := ⟨w, k.pc, (tensorSrcs w).map (gRead k)⟩

/-- The state after a fetch at the PC of context `x`. -/
def fetched (s : State) (c x : Nat) : State := iFilled (fetchedAt s c x) c (ctxOf s c x).pc.toNat

/-- The state once a tensor word of context `k` stands in its queue: only that context and what a fetch changes
differ. -/
def placed (s : State) (c x : Nat) (k : Ctx) (w : Word) : State :=
  setCtx (fetched s c x) c x { fetchedCtx k with pc := k.pc + 8, queue := k.queue ++ [entryOf k w] }

/-- The sequencer's checks at decode beyond the encoding (R267, R270, R276): URESUME runs inside a
kernel, UPDATE outside one, and TOKSYNC names a token of the pour. -/
def decodeOk (k : Ctx) (pr : Pour) (w : Word) : Bool :=
  if wOp w = 0x05 then k.updRun.isSome
  else if wOp w = 0x2F then k.updRun.isNone
  else if wOp w = 0x14 then ownsTok pr (gRead k (wRS1 w) + wIMMs w).toNat
  else true

/-- What issuing a plan does before its data effect (R58, R59, R283), from `s` to `u`: the entry leaves
the queue; the slots it releases are DRAINING, the slots it writes FILLING (a slot both released and
written is FILLING), every other token is as before; an instruction with units, or a WAITALL, is in flight with
its sets, slots and regions. -/
def IssuesFrom (s u : State) (c x : Nat) (e : QEnt) (p : Plan) : Prop :=
  ctxOf u c x = { ctxOf s c x with queue := (ctxOf s c x).queue.drop 1 } ∧
  (∀ y, y ≠ x → ctxOf u c y = ctxOf s c y) ∧ (∀ d, d ≠ c → coreOf u d = coreOf s d) ∧
  (smWf (fun _ => Tok.empty) (coreOf s c).toks = true → ∀ t, tokOf (coreOf u c) t =
    if t ∈ p.writes then .filling else if (t, true) ∈ p.reads then .draining else tokOf (coreOf s c) t) ∧
  (coreOf u c).flights = (coreOf s c).flights ++
    (if flies e p then
      [⟨x, flightOp e.word, p.units, p.accs, p.writes, p.regions, none, flightMode e.word⟩] else []) ∧
  (coreOf u c).spm = (coreOf s c).spm ∧ (coreOf u c).accs = (coreOf s c).accs ∧
  u = { s with cores := u.cores, regs := u.regs, trc := u.trc }

/-- From `u`, the state after the issue, to `t`: the data effect at once, or, where an earlier instruction on the
unit or an access of its own waits at the ports, an effect that is held back (R61, R172, R177). -/
def Effect (u t : State) (c x : Nat) (e : QEnt) (p : Plan) : Prop :=
  (unitHeld (coreOf u c) p.units = false → (coreOf (p.run u) c).unserved = none → t = p.run u) ∧
  (unitHeld (coreOf u c) p.units = true → t = holdLast u c x e p) ∧
  (∀ l, unitHeld (coreOf u c) p.units = false → (coreOf (p.run u) c).unserved = some l →
    t = wakeQuads (holdLast u c x e p) c l)

/-- No access of core `c` waits: every port is served for every quad, no quad dozes, and nothing is held back
(R172, R177). -/
structure AllServed (s : State) (c : Nat) : Prop where
  ports : ∀ p q, p < 15 → q < 16 → portServed s c p q = true
  awake : ∀ q, q < 16 → quadDozes s c q = false
  none_held : ∀ f ∈ (coreOf s c).flights, f.held = none
  none_waits : (coreOf s c).unserved = none

/-- The word `w` of context `x` stands at the PC with a true guard, its context is active with an empty queue and no
selection pending, every quad is on, awake and served, no scratchpad word is uncorrectable, its checks pass with
plan `p`, and nothing it needs is held (R59): it issues as it is placed. -/
structure Issuable (s : State) (c x : Nat) (w : Word) (k : Ctx) (pr : Pour) (p : Plan) : Prop where
  at_ : AtWord s c x w k pr
  takes : Takes k w
  decodes : decodeOk k pr w = true
  queue : k.queue = []
  active : (coreOf s c).active = x
  selecting : (coreOf s c).selecting = false
  served : AllServed s c
  canon : Canon s
  quads : ∀ q, q < 16 → quadOn s c q = true
  clean : (coreOf s c).spmBad = []
  spm : smWf (spmDflt (coreOf s c)) (coreOf s c).spm = true
  plan : planOf (placed s c x k w) c x (entryOf k w) = .go p
  ready : planReady (coreOf (placed s c x k w) c) p = true
  late : p.late (placed s c x k w) = none

/-- The word issues as it is placed, and `P` holds of the state after. -/
def Issued (i : Instr) (s : State) (c x : Nat) (w : Word) (k : Ctx) (p : Plan) (P : State → Prop) : Prop :=
  Runs i s (fun t => (∃ u, IssuesFrom (placed s c x k w) u c x (entryOf k w) p ∧ t = p.run u) ∧ P t)

/-- Every register but the counters, CNT_SAT and TRC_STATUS is as before. -/
def OnlyCounters (s t : State) : Prop :=
  ∀ o, isCounterOff o = false → o ≠ rCNT_SAT → o ≠ rTRC_STATUS → rd t o = rd s o

/-- No scratchpad byte of core `c` outside [lo, hi) has changed, and no other core has. -/
def SpmOutside (s t : State) (c lo hi : Nat) : Prop :=
  (∀ o, (o < lo ∨ hi ≤ o) → spmByte (coreOf t c) o = spmByte (coreOf s c) o) ∧ ∀ d, d ≠ c → coreOf t d = coreOf s d

/-- Every accumulator of core `c` holds what it held. -/
def SameAccs (s t : State) (c : Nat) : Prop :=
  ∀ i a b, accVal (accOf (coreOf t c) i) a b = accVal (accOf (coreOf s c) i) a b

/-- The eight words of a block of tier memory. -/
def blockAt (s : State) (a : Nat) : List Word := (List.range 8).map (fun i => memWord s (a + 8 * i))

end Sys2Proof.Safety
end

