-- ==== Sys2Proof/WellFormed.lean ====
section
/-! DEFINITION. Well-formed commands: a command names units that the device has, and its operands fit the
fields that the spec gives them.  A command that names a unit the device does not have cannot arise; the
machine refuses it by name.  An operand beyond its field cannot arise either; the machine runs it, with the
meaning the rules give its fields. -/

namespace Sys2Proof

/-! ### Units of the device (R1, R5, R387, R397, R469) -/

def hasCore (c : Nat) : Bool := decide (c < 160)

def hasCtx (c x : Nat) : Bool := hasCore c && decide (x < 4)

/-- M has PLLs 0 and 1, each compute die 0 to 2, each hub 0 and 1 (R387). -/
def hasPll (die pll : Nat) : Bool :=
  if die = 6 then decide (pll < 2) else if die < 4 then decide (pll < 3) else decide (die < 6) && decide (pll < 2)

/-- The clock domains with a PLL: MGMT, TIME; CORE, SEQ, HBM; HUB and tier 2 (R387). -/
def hasDomain (die dom : Nat) : Bool :=
  (die = 6 && (dom = 1 || dom = 2)) || (die < 4 && (dom = 3 || dom = 4 || dom = 5)) ||
  ((die = 4 || die = 5) && (dom = 6 || dom = 7))

def hasCrossing (die a b : Nat) : Bool := decide (die < 7) && decide (a < 10) && decide (b < 10)

/-- A channel of a tier controller: 32 in tier 1, 16 in tier 2 (R196). -/
def hasChannel (ctl channel : Nat) : Bool := decide (ctl < 32) && decide (channel < if ctl < 24 then 32 else 16)

/-- The tier controller that holds a local address (R15, R197, R198). -/
def tierOfAddr (a : Nat) : Option Nat :=
  if a < 0x018000000000 then some (6 * (a / 0x006000000000) + (a % 0x006000000000) / 256 % 6)
  else if 0x020000000000 ≤ a ∧ a < 0x028000000000 then
    some (24 + 4 * ((a - 0x020000000000) / 0x004000000000) +
      ((a - 0x020000000000) % 0x004000000000) / 256 % 4)
  else none

/-- The channel of a local tier address within its controller (R197, R198). -/
def tierChannel (a : Nat) : Nat :=
  if a < 0x018000000000 then a % 0x006000000000 / 256 / 6 % 32
  else (a - 0x020000000000) % 0x004000000000 / 256 / 4 % 16

/-- The source that a requester's access has at a controller (Table: Calendar sources). -/
def tierSource (ctl : Nat) (wr : Bool) : Agent → Nat
  | .core c _ => if ctl < 24 ∧ c / 40 ≠ ctl / 6 then 3 else if wr then 2 else 1
  | .coll _ => if ctl < 24 then 4 else 3
  | .ckpt _ => 4
  | .erg _ => if ctl < 24 then 4 else 5
  | .control _ => if ctl < 24 then 4 else 5

/-- Does the device have the requester? -/
def hasAgent : Agent → Bool
  | .core c x => hasCtx c x
  | .erg p => decide (p < 12)
  | .coll h => decide (h < 2)
  | .ckpt h => decide (h < 2)
  | .control k => decide (k < 2)

/-- The units whose internal logic a check can find faulty (R357): tier controllers, Sprue banks, hubs, and
the commit unit with the register router. -/
def hasLogic (kind i : Nat) : Bool :=
  if kind = 0 then decide (i < 32) else if kind = 1 then decide (i < 384) else if kind = 2 then decide (i < 2)
  else kind = 3 && i = 0

/-! ### Operand fields -/

/-- OPCODE of an instruction word (Table: Common word format). -/
def opIs (w : BitVec 64) (op : Nat) : Bool := decide (w.toNat / 2 ^ 58 = op)

/-- OPCODE and the field [hi:lo] that tells the rows of one opcode apart. -/
def opFn (w : BitVec 64) (op hi lo fn : Nat) : Bool :=
  opIs w op && decide (w.toNat / 2 ^ lo % 2 ^ (hi + 1 - lo) = fn)

def tagOk (t : Nat) : Bool := decide (t < 0x10000)

def sessionOk (s : Nat) : Bool := decide (s < 2 ^ 32)

/-- At most 8 payload units, in whole units of four words. -/
def payloadOk (d : List (BitVec 64 × Bool)) : Bool := decide (d.length ≤ 32) && decide (d.length % 4 = 0)

/-- The header fields of a packet within their widths (R218), and its payload. -/
def packetOk (p : Packet) : Bool :=
  decide (p.ty < 0x40) && decide (p.tc < 8) && decide (p.dst < 0x10000) && decide (p.src < 0x10000) &&
  tagOk p.tag && decide (p.job < 0x10000) && decide (p.addr < 2 ^ 48) && decide (p.timeLo < 2 ^ 32) &&
  decide (p.token < 0x400) && decide (p.srcCore < 0x100) && decide (p.status < 16) && payloadOk p.payload

/-- A frame holds 16 flits (R216, R325). -/
def frameOk : Option Frame → Bool
  | none => true
  | some f => decide (f.flits.length = 16)

/-- Does the device have the units that a command names? -/
def unitsOk : Instr → Bool
  | .rstNAssert => true
  | .rstNDeassert _ => true
  | .pwrgoodFall => true
  | .pwrgoodRise => true
  | .railUndervoltage rail => decide (2 ≤ rail) && decide (rail ≤ 17)
  | .strapDelayExpiry => true
  | .referenceCheckDone _ => true
  | .crystalMonitorTick _ => true
  | .pllLock die pll => hasPll die pll
  | .dividerRampDwell die dom => hasDomain die dom
  | .pllLossOfLock die pll => hasPll die pll
  | .pllRelockTimeout die pll => hasPll die pll
  | .clkDomGo die dom _ => hasDomain die dom
  | .clkOutWrite _ => true
  | .crossingTimeout die dFrom dTo _ pours => hasCrossing die dFrom dTo && pours.all (fun (c, x) => hasCtx c x)
  | .crossingResume die dFrom dTo _ => hasCrossing die dFrom dTo
  | .dozeEntry unit => decide (unit < 3948)
  | .dozeWakeStart unit => decide (unit < 3948)
  | .wakeComplete unit => decide (unit < 3948)
  | .pwrHzWrite unit _ => decide (unit < 3948) && !(decide (480 ≤ unit) && decide (unit < 3040))
  | .wakeRequest unit => decide (unit < 3948)
  | .horizonExpiry unit => decide (unit < 3948)
  | .portWakeLockTimeout port => decide (port < 12)
  | .romStageComplete => true
  | .bootImgDataWrite _ => true
  | .bootCtrlGo => true
  | .imageWaitTimeout => true
  | .verifyComplete => true
  | .selftestPhaseComplete _ => true
  | .bootCtrlRestart _ _ => true
  | .ctlResetWarm _ => true
  | .smbusBlockRead _ _ => true
  | .smbusSclTimeout => true
  | .jtagExtest _ => true
  | .jtagSamplePreload _ => true
  | .jtagClamp => true
  | .jtagHighz => true
  | .jtagBypass => true
  | .thermalSensorRead _ => true
  | .nop core ctx _ => hasCtx core ctx
  | .br core ctx _ => hasCtx core ctx
  | .jal core ctx _ => hasCtx core ctx
  | .jalr core ctx _ => hasCtx core ctx
  | .trap core ctx _ => hasCtx core ctx
  | .uresume core ctx _ => hasCtx core ctx
  | .alu core ctx _ => hasCtx core ctx
  | .alui core ctx _ => hasCtx core ctx
  | .movi core ctx _ => hasCtx core ctx
  | .cmp core ctx _ => hasCtx core ctx
  | .pset core ctx _ => hasCtx core ctx
  | .ld core ctx _ => hasCtx core ctx
  | .st core ctx _ => hasCtx core ctx
  | .toksyncWaitFull core ctx _ => hasCtx core ctx
  | .toksyncWaitEmpty core ctx _ => hasCtx core ctx
  | .toksyncRelease core ctx _ => hasCtx core ctx
  | .waitall core ctx _ => hasCtx core ctx
  | .yield core ctx _ => hasCtx core ctx
  | .commit core ctx _ => hasCtx core ctx
  | .vquery core ctx _ => hasCtx core ctx
  | .stream core ctx _ => hasCtx core ctx
  | .streamStop core ctx _ => hasCtx core ctx
  | .mma core ctx _ => hasCtx core ctx
  | .mmaConv core ctx _ => hasCtx core ctx
  | .drain core ctx _ => hasCtx core ctx
  | .spill core ctx _ => hasCtx core ctx
  | .accld core ctx _ => hasCtx core ctx
  | .assay core ctx _ => hasCtx core ctx
  | .vew core ctx _ => hasCtx core ctx
  | .vred core ctx _ => hasCtx core ctx
  | .vrot core ctx _ => hasCtx core ctx
  | .update core ctx _ => hasCtx core ctx
  | .updateSweepComplete core ctx => hasCtx core ctx
  | .attnFwd core ctx _ => hasCtx core ctx
  | .attnNorm core ctx _ => hasCtx core ctx
  | .attnBwdP core ctx _ => hasCtx core ctx
  | .attnBwdDs core ctx _ => hasCtx core ctx
  | .attnMerge core ctx _ => hasCtx core ctx
  | .gather core ctx _ => hasCtx core ctx
  | .gatherStop core ctx _ => hasCtx core ctx
  | .fill core ctx _ => hasCtx core ctx
  | .copy core ctx _ => hasCtx core ctx
  | .scrub core ctx _ => hasCtx core ctx
  | .powerDown core ctx _ => hasCtx core ctx
  | .powerUp core ctx _ => hasCtx core ctx
  | .quadReady core mask => hasCore core && decide (mask < 0x10000)
  | .calendarLoad core ctx _ => hasCtx core ctx
  | .bankCalendarActivate core => hasCore core
  | .dset core ctx _ => hasCtx core ctx
  | .fwrWr core ctx _ => hasCtx core ctx
  | .fwrMcastWr core ctx _ => hasCtx core ctx
  | .fwrRedWr core ctx _ => hasCtx core ctx
  | .frd core ctx _ => hasCtx core ctx
  | .fatom core ctx _ => hasCtx core ctx
  | .tensorIssue core => hasCore core
  | .contextSwitch core => hasCore core
  | .tensorComplete core _ => hasCore core
  | .tokenFillComplete core token => hasCore core && decide (token < 1024)
  | .tokenDrainComplete core token => hasCore core && decide (token < 1024)
  | .pourDispatch part => decide (part < 8)
  | .barrierPass part => decide (part < 8)
  | .pourStart core ctx => hasCtx core ctx
  | .commitRequest core ctx => hasCtx core ctx
  | .commitAccept core ctx => hasCtx core ctx
  | .pourAbort core ctx => hasCtx core ctx
  | .pourQuiet core ctx => hasCtx core ctx
  | .pourTimeWatchdog core ctx => hasCtx core ctx
  | .slotWatchdogExpiry core agent =>
    hasCore core && (match agent with
      | .head ctx => decide (ctx < 4)
      | .stream n => decide (n < 8)
      | .gather n => decide (n < 2))
  | .streamTileBegin core stream => hasCore core && decide (stream < 8)
  | .streamEnd core stream => hasCore core && decide (stream < 8)
  | .gatherRequest core engine => hasCore core && decide (engine < 2)
  | .gatherEnd core engine => hasCore core && decide (engine < 2)
  | .scratchpadPortAccess core port offset _ => hasCore core && decide (port < 15) && decide (offset < 0x1000000)
  | .scratchpadScrubComplete core => hasCore core
  | .spmPowerWrite core _ => hasCore core
  | .cacheLookup die core req =>
    decide (die < 4) && hasCore core && decide (core / 40 = die) && req.tag.all (fun w => decide (w < 16))
  | .cacheFill die _ part => decide (die < 4) && decide (part < 8)
  | .cacheInvAll die _ => decide (die < 4)
  | .coreCtrlSeqInv core _ => hasCore core
  | .arrCtrlInjectParity core _ => hasCore core
  | .numLscaleWrite core _ => hasCore core
  | .tierRequestArrival ctl channel source req => decide (tierOfAddr req.addr = some ctl) && decide (channel = tierChannel req.addr) &&
    hasAgent req.agent && decide (source = tierSource ctl req.data.isSome req.agent)
  | .tierSlot ctl channel _ _ => hasChannel ctl channel
  | .refreshDebtTick ctl channel => hasChannel ctl channel
  | .stackTempRead ctl _ => decide (ctl < 32)
  | .stackTempLost ctl => decide (ctl < 32)
  | .tierCalArm ctl _ => decide (ctl < 32)
  | .tierCalActivate ctl => decide (ctl < 32)
  | .tierTrainingLoss ctl => decide (ctl < 32)
  | .tierRetrainTimeout ctl => decide (ctl < 32)
  | .tierPprGo ctl _ => decide (ctl < 32)
  | .tierPprComplete ctl _ => decide (ctl < 32)
  | .d2dFrameReceive link dir _ => decide (link < 19) && decide (dir < 2)
  | .d2dLaneLockLoss link => decide (link < 19)
  | .fabNodeWrite _ => true
  | .ergFrameSend port => decide (port < 12)
  | .ergFrameReceive port _ => decide (port < 12)
  | .ergRetryRequest port _ => decide (port < 12)
  | .link port _ => decide (port < 12)
  | .ergLaneLockLoss port => decide (port < 12)
  | .ergAckStall port => decide (port < 12)
  | .portCtrlDisable port => decide (port < 12)
  | .portCtrlRetrain port => decide (port < 12)
  | .portTrainingComplete port _ _ => decide (port < 12)
  | .packetForward port _ => decide (port < 12)
  | .rd port _ => decide (port < 12)
  | .wr port _ => decide (port < 12)
  | .atomicAdd port _ => decide (port < 12)
  | .mcastWr port _ => decide (port < 12)
  | .redWr port _ => decide (port < 12)
  | .reductionCombine hub group _ => decide (hub < 2) && decide (group < 256)
  | .redRes port _ => decide (port < 12)
  | .collSiblingTimeout hub group _ => decide (hub < 2) && decide (group < 256)
  | .mcastLagTimeout group => decide (group < 0x1000)
  | .mcastResend group => decide (group < 0x1000)
  | .commitNotice port _ => decide (port < 12)
  | .release port _ => decide (port < 12)
  | .discard port _ => decide (port < 12)
  | .beacon port _ => decide (port < 12)
  | .beaconSend port => decide (port < 12)
  | .beaconTimeout => true
  | .timeSet _ => true
  | .rdRsp port _ => decide (port < 12)
  | .wrAck port _ => decide (port < 12)
  | .atomicRsp port _ => decide (port < 12)
  | .noticeAck port _ => decide (port < 12)
  | .quenchAck port _ => decide (port < 12)
  | .fabQsendGo hub _ => decide (hub < 2)
  | .quenchAckTimeout hub => decide (hub < 2)
  | .requestTimeout _ => true
  | .portCalArm port _ => decide (port < 12)
  | .portCalActivate port => decide (port < 12)
  | .caravanFrameReceive port _ => decide (port < 2)
  | .caravanRetryRequest port _ => decide (port < 2)
  | .caravanLaneLockLoss port => decide (port < 2)
  | .caravanAckStall port => decide (port < 2)
  | .caravanTrainingComplete port _ _ => decide (port < 2)
  | .ctlPortDisable port _ => decide (port < 2)
  | .ctlPortRetrain port => decide (port < 2)
  | .regRd port _ _ _ => decide (port < 2)
  | .regWr port _ _ _ _ => decide (port < 2)
  | .memRd port _ _ _ _ _ => decide (port < 2)
  | .memWr port _ _ _ _ _ => decide (port < 2)
  | .caravanForwardTimeout _ => true
  | .heartbeat port _ _ => decide (port < 2)
  | .heartbeatTimeout => true
  | .relinquish port _ _ => decide (port < 2)
  | .adoptHello port _ => decide (port < 2)
  | .adoptGet port _ _ _ => decide (port < 2)
  | .adoptPut port _ _ _ => decide (port < 2)
  | .adoptCommit port _ _ => decide (port < 2)
  | .challengeExpiry => true
  | .ctlRunResume _ => true
  | .recordWrite queue => decide (queue < 9)
  | .recordWriteAck queue _ => decide (queue < 9)
  | .record queue => decide (queue < 9)
  | .recordSendExpiry queue => decide (queue < 9)
  | .cqPtrHeadWrite queue _ => decide (queue < 9)
  | .partActivate part _ => decide (part < 8)
  | .partRelease part _ => decide (part < 8)
  | .partReleaseComplete part => decide (part < 8)
  | .partResume part _ => decide (part < 8)
  | .ringTailWrite part _ => decide (part < 8)
  | .preemptGo part _ => decide (part < 8)
  | .preemptComplete part => decide (part < 8)
  | .tuyereRefill part path => decide (part < 8) && decide (path < 22)
  | .fltFenceWrite index _ => decide (index < 5)
  | .unfenceComplete core => hasCore core
  | .fltStGo _ => true
  | .fltStCancel _ => true
  | .selftestRequestStart => true
  | .runtimeSelftestPhaseDone _ => true
  | .xcheckRoundComplete _ => true
  | .healthMonitorTick => true
  | .fltHmCtrlWrite _ => true
  | .fltReport _ => true
  | .ceSummaryPeriod => true
  | .fltCperHeadWrite _ => true
  | .fltStateClear _ => true
  | .fltDigGo _ => true
  | .digestComplete => true
  | .ckptGo _ => true
  | .ckptPageReadStart hub _ => decide (hub < 2)
  | .ckptPageCopyDone hub _ => decide (hub < 2)
  | .ckptCopy0Complete => true
  | .ckptRelayComplete => true
  | .ckptCancel _ => true
  | .ckptFillGo _ => true
  | .ckptFillComplete => true
  | .ckptVfix _ => true
  | .ckptPstateSet _ => true
  | .extendDev _ => true
  | .extendPart _ => true
  | .quoteDev _ => true
  | .quotePart _ => true
  | .authSet _ => true
  | .authClear _ => true
  | .signatureComplete => true
  | .secSvnRaise _ => true
  | .secSvnSetDisable0 _ => true
  | .trcMark _ => true
  | .traceRecordWrite => true
  | .registerWrite _ _ => true
  | .railRecovery => true
  | .crystalEdgeLoss => true
  | .pllLockTimeout die pll => hasPll die pll
  | .logicFault kind index => hasLogic kind index
  | .testLogicReset => true
  | .caravanFrameSend port => decide (port < 2)

/-- Do the operands of a command fit their fields, and is an instruction word of its row? -/
def fieldsOk : Instr → Bool
  | .rstNAssert => true
  | .rstNDeassert _ => true
  | .pwrgoodFall => true
  | .pwrgoodRise => true
  | .railUndervoltage _ => true
  | .strapDelayExpiry => true
  | .referenceCheckDone _ => true
  | .crystalMonitorTick _ => true
  | .pllLock _ _ => true
  | .dividerRampDwell _ _ => true
  | .pllLossOfLock _ _ => true
  | .pllRelockTimeout _ _ => true
  | .clkDomGo _ _ _ => true
  | .clkOutWrite _ => true
  | .crossingTimeout _ _ _ _ _ => true
  | .crossingResume _ _ _ _ => true
  | .dozeEntry _ => true
  | .dozeWakeStart _ => true
  | .wakeComplete _ => true
  | .pwrHzWrite _ _ => true
  | .wakeRequest _ => true
  | .horizonExpiry _ => true
  | .portWakeLockTimeout _ => true
  | .romStageComplete => true
  | .bootImgDataWrite _ => true
  | .bootCtrlGo => true
  | .imageWaitTimeout => true
  | .verifyComplete => true
  | .selftestPhaseComplete found => found.all (fun f => decide (f.unit < 12) && decide (f.die < 7))
  | .bootCtrlRestart _ _ => true
  | .ctlResetWarm _ => true
  | .smbusBlockRead _ _ => true
  | .smbusSclTimeout => true
  | .jtagExtest _ => true
  | .jtagSamplePreload _ => true
  | .jtagClamp => true
  | .jtagHighz => true
  | .jtagBypass => true
  | .thermalSensorRead readings => readings.all (fun (i, _) => decide (i < 74))
  | .nop _ _ word => opIs word 0x00
  | .br _ _ word => opIs word 0x01
  | .jal _ _ word => opIs word 0x02
  | .jalr _ _ word => opIs word 0x03
  | .trap _ _ word => opIs word 0x04
  | .uresume _ _ word => opIs word 0x05
  | .alu _ _ word => opIs word 0x08
  | .alui _ _ word => opIs word 0x09
  | .movi _ _ word => opIs word 0x0A
  | .cmp _ _ word => opIs word 0x0B
  | .pset _ _ word => opIs word 0x0C
  | .ld _ _ word => opIs word 0x10
  | .st _ _ word => opIs word 0x11
  | .toksyncWaitFull _ _ word => opFn word 0x14 33 32 0
  | .toksyncWaitEmpty _ _ word => opFn word 0x14 33 32 1
  | .toksyncRelease _ _ word => opFn word 0x14 33 32 2
  | .waitall _ _ word => opIs word 0x15
  | .yield _ _ word => opIs word 0x16
  | .commit _ _ word => opIs word 0x18
  | .vquery _ _ word => opIs word 0x19
  | .stream _ _ word => opIs word 0x1C
  | .streamStop _ _ word => opIs word 0x1D
  | .mma _ _ word => opIs word 0x20
  | .mmaConv _ _ word => opIs word 0x21
  | .drain _ _ word => opIs word 0x22
  | .spill _ _ word => opIs word 0x23
  | .accld _ _ word => opIs word 0x24
  | .assay _ _ word => opIs word 0x25
  | .vew _ _ word => opIs word 0x28
  | .vred _ _ word => opIs word 0x29
  | .vrot _ _ word => opIs word 0x2A
  | .update _ _ word => opIs word 0x2F
  | .updateSweepComplete _ _ => true
  | .attnFwd _ _ word => opIs word 0x30
  | .attnNorm _ _ word => opIs word 0x31
  | .attnBwdP _ _ word => opFn word 0x32 53 53 0
  | .attnBwdDs _ _ word => opFn word 0x32 53 53 1
  | .attnMerge _ _ word => opIs word 0x33
  | .gather _ _ word => opIs word 0x34
  | .gatherStop _ _ word => opIs word 0x35
  | .fill _ _ word => opFn word 0x38 53 50 0
  | .copy _ _ word => opFn word 0x38 53 50 1
  | .scrub _ _ word => opFn word 0x38 53 50 2
  | .powerDown _ _ word => opFn word 0x38 53 50 3
  | .powerUp _ _ word => opFn word 0x38 53 50 4
  | .quadReady _ _ => true
  | .calendarLoad _ _ word => opFn word 0x38 53 50 5
  | .bankCalendarActivate _ => true
  | .dset _ _ word => opIs word 0x3B
  | .fwrWr _ _ word => opFn word 0x3C 53 52 0
  | .fwrMcastWr _ _ word => opFn word 0x3C 53 52 1
  | .fwrRedWr _ _ word => opFn word 0x3C 53 52 2
  | .frd _ _ word => opIs word 0x3D
  | .fatom _ _ word => opIs word 0x3E
  | .tensorIssue _ => true
  | .contextSwitch _ => true
  | .tensorComplete _ _ => true
  | .tokenFillComplete _ _ => true
  | .tokenDrainComplete _ _ => true
  | .pourDispatch _ => true
  | .barrierPass _ => true
  | .pourStart _ _ => true
  | .commitRequest _ _ => true
  | .commitAccept _ _ => true
  | .pourAbort _ _ => true
  | .pourQuiet _ _ => true
  | .pourTimeWatchdog _ _ => true
  | .slotWatchdogExpiry _ _ => true
  | .streamTileBegin _ _ => true
  | .streamEnd _ _ => true
  | .gatherRequest _ _ => true
  | .gatherEnd _ _ => true
  | .scratchpadPortAccess _ _ _ _ => true
  | .scratchpadScrubComplete _ => true
  | .spmPowerWrite _ _ => true
  | .cacheLookup _ _ req => decide (req.addr < 2 ^ 48)
  | .cacheFill _ addr _ => decide (addr < 2 ^ 48)
  | .cacheInvAll _ _ => true
  | .coreCtrlSeqInv _ _ => true
  | .arrCtrlInjectParity _ _ => true
  | .numLscaleWrite _ _ => true
  | .tierRequestArrival _ _ _ req => decide (req.part ≤ 8)
  | .tierSlot _ _ _ _ => true
  | .refreshDebtTick _ _ => true
  | .stackTempRead _ _ => true
  | .stackTempLost _ => true
  | .tierCalArm _ _ => true
  | .tierCalActivate _ => true
  | .tierTrainingLoss _ => true
  | .tierRetrainTimeout _ => true
  | .tierPprGo _ _ => true
  | .tierPprComplete _ _ => true
  | .d2dFrameReceive _ _ _ => true
  | .d2dLaneLockLoss _ => true
  | .fabNodeWrite _ => true
  | .ergFrameSend _ => true
  | .ergFrameReceive _ arrival => frameOk arrival.frame
  | .ergRetryRequest _ seq => decide (seq < 512)
  | .link _ credits => decide (credits.length ≤ 8)
  | .ergLaneLockLoss _ => true
  | .ergAckStall _ => true
  | .portCtrlDisable _ => true
  | .portCtrlRetrain _ => true
  | .portTrainingComplete _ _ rtt => decide (rtt < 4096)
  | .packetForward _ pkt => packetOk pkt
  | .rd _ pkt => packetOk pkt
  | .wr _ pkt => packetOk pkt
  | .atomicAdd _ pkt => packetOk pkt
  | .mcastWr _ pkt => packetOk pkt
  | .redWr _ pkt => packetOk pkt
  | .reductionCombine _ _ _ => true
  | .redRes _ pkt => packetOk pkt
  | .collSiblingTimeout _ _ _ => true
  | .mcastLagTimeout _ => true
  | .mcastResend _ => true
  | .commitNotice _ pkt => packetOk pkt
  | .release _ pkt => packetOk pkt
  | .discard _ pkt => packetOk pkt
  | .beacon _ pkt => packetOk pkt
  | .beaconSend _ => true
  | .beaconTimeout => true
  | .timeSet _ => true
  | .rdRsp _ pkt => packetOk pkt
  | .wrAck _ pkt => packetOk pkt
  | .atomicRsp _ pkt => packetOk pkt
  | .noticeAck _ pkt => packetOk pkt
  | .quenchAck _ pkt => packetOk pkt
  | .fabQsendGo _ _ => true
  | .quenchAckTimeout _ => true
  | .requestTimeout tag => tagOk tag
  | .portCalArm _ _ => true
  | .portCalActivate _ => true
  | .caravanFrameReceive _ frame => frameOk frame
  | .caravanRetryRequest _ seq => decide (seq < 512)
  | .caravanLaneLockLoss _ => true
  | .caravanAckStall _ => true
  | .caravanTrainingComplete _ _ rtt => decide (rtt < 4096)
  | .ctlPortDisable _ _ => true
  | .ctlPortRetrain _ => true
  | .regRd _ tag session offset => tagOk tag && sessionOk session && decide (offset < 2 ^ 32)
  | .regWr _ tag session offset _ => tagOk tag && sessionOk session && decide (offset < 2 ^ 32)
  | .memRd _ tag session part addr rlen => tagOk tag && sessionOk session && decide (part < 8) && decide (addr < 2 ^ 64) && decide (rlen < 16)
  | .memWr _ tag session part addr data => tagOk tag && sessionOk session && decide (part < 8) && decide (addr < 2 ^ 64) && payloadOk data
  | .caravanForwardTimeout tag => tagOk tag
  | .heartbeat _ tag session => tagOk tag && sessionOk session
  | .heartbeatTimeout => true
  | .relinquish _ tag session => tagOk tag && sessionOk session
  | .adoptHello _ tag => tagOk tag
  | .adoptGet _ tag offset rlen => tagOk tag && decide (offset < 0x2000) && decide (rlen < 16)
  | .adoptPut _ tag offset data => tagOk tag && decide (offset < 0x2000) && payloadOk data
  | .adoptCommit _ tag length => tagOk tag && decide (length < 0x2000)
  | .challengeExpiry => true
  | .ctlRunResume _ => true
  | .recordWrite _ => true
  | .recordWriteAck _ _ => true
  | .record _ => true
  | .recordSendExpiry _ => true
  | .cqPtrHeadWrite _ _ => true
  | .partActivate _ _ => true
  | .partRelease _ _ => true
  | .partReleaseComplete _ => true
  | .partResume _ _ => true
  | .ringTailWrite _ _ => true
  | .preemptGo _ _ => true
  | .preemptComplete _ => true
  | .tuyereRefill _ _ => true
  | .fltFenceWrite _ _ => true
  | .unfenceComplete _ => true
  | .fltStGo _ => true
  | .fltStCancel _ => true
  | .selftestRequestStart => true
  | .runtimeSelftestPhaseDone failed => failed.all hasCore
  | .xcheckRoundComplete spills => spills.all (fun (c, _, _) => hasCore c)
  | .healthMonitorTick => true
  | .fltHmCtrlWrite _ => true
  | .fltReport _ => true
  | .ceSummaryPeriod => true
  | .fltCperHeadWrite _ => true
  | .fltStateClear _ => true
  | .fltDigGo _ => true
  | .digestComplete => true
  | .ckptGo _ => true
  | .ckptPageReadStart _ page => decide (page < 261632)
  | .ckptPageCopyDone _ page => decide (page < 261632)
  | .ckptCopy0Complete => true
  | .ckptRelayComplete => true
  | .ckptCancel _ => true
  | .ckptFillGo _ => true
  | .ckptFillComplete => true
  | .ckptVfix _ => true
  | .ckptPstateSet _ => true
  | .extendDev _ => true
  | .extendPart _ => true
  | .quoteDev _ => true
  | .quotePart _ => true
  | .authSet _ => true
  | .authClear _ => true
  | .signatureComplete => true
  | .secSvnRaise _ => true
  | .secSvnSetDisable0 _ => true
  | .trcMark _ => true
  | .traceRecordWrite => true
  | .registerWrite offset _ => decide (offset < 2 ^ 32)
  | .railRecovery => true
  | .crystalEdgeLoss => true
  | .pllLockTimeout _ _ => true
  | .logicFault _ _ => true
  | .testLogicReset => true
  | .caravanFrameSend _ => true

/-- A well-formed command. -/
def WellFormed (i : Instr) : Bool := unitsOk i && fieldsOk i

end Sys2Proof
end

