-- ==== Sys2Proof/Certificates/Slice0/Obligations.lean ====
section
/-! DEFINITION. The statements for the provers, by family of commands.  The terms of frames and of
the sequencer are those of `Safety.lean`. -/

open Sys2Proof Sys2Proof.Machine Sys2Proof.Safety

/-! ### The block as a whole -/

/-- A step takes the command at the front of the queue and runs it on the state with the queue's rest
(what a step is: log entry 6). -/
def Obligations.StepRunsFrontCommand : Prop :=
  ∀ (c : Instr) (rest : List Instr) (s : State),
    Machine.step { s with pending := c :: rest } = Machine.exec c { s with pending := rest }

/-- With no command waiting, one nanosecond passes: the time base alone advances (the model's choice,
log entry 6). -/
def Obligations.IdleStepTicks : Prop :=
  ∀ s : State, s.pending = [] →
    ∃ t, Machine.step s = .next t ∧ t = { s with time := t.time } ∧
      (let gain : Int := if 0 < s.time.half then 2 ^ 31
          else 2 ^ 32 + s.time.rate + (if s.time.slewLeft = 0 then 0 else s.time.slew)
       0 ≤ gain → t.time.now = (s.time.now + (s.time.frac + gain.toNat) / 2 ^ 32) % 2 ^ 64 ∧
         t.time.frac = (s.time.frac + gain.toNat) % 2 ^ 32) ∧
      t.time.slewLeft = s.time.slewLeft - 1 ∧ t.time.half = s.time.half - 1 ∧
      (s.time.half = 0 → s.time.rate = 0 → s.time.slew = 0 → s.time.frac < 2 ^ 32 →
        t.time.now = (s.time.now + 1) % 2 ^ 64 ∧ t.time.frac = s.time.frac)

/-- Every command that names units the device has completes; every other one is refused by name. -/
def Obligations.CommandsCompleteOnUnits : Prop :=
  ∀ (i : Instr) (s : State),
    (unitsOk i = true → ∃ t, Machine.exec i s = .next t) ∧
    (unitsOk i = false → ∃ name, Machine.exec i s = .refused (.noSuchUnit name))

/-- Every step keeps the canonical form of tier memory and of the registers, takes exactly the front
command from the queue, and keeps what MRAM holds for the device's life (R2, R414). -/
def Obligations.StepKeepsCanonAndIdentity : Prop :=
  ∀ s t : State, Canon s → Machine.step s = .next t →
    Canon t ∧ t.pending = s.pending.tail ∧
    t.mram.serial = s.mram.serial ∧ t.mram.trim = s.mram.trim ∧ t.mram.keyId = s.mram.keyId ∧
    t.mram.certs = s.mram.certs ∧ s.mram.minSvn ≤ t.mram.minSvn ∧
    (s.mram.disable0 = true → t.mram.disable0 = true)

/-- What the state is at reset (register values that a log entry names are the model's). -/
def Obligations.ResetIsCanonicalAndIdle : Prop :=
  Canon State.reset ∧ State.reset.pending = [] ∧ State.reset.pins.rstN = false ∧
  (∀ a, memByte State.reset a = 0) ∧
  (∀ c x, (ctxOf State.reset c x).st = .idle) ∧
  (∀ c t, tokOf (coreOf State.reset c) t = .empty) ∧
  (∀ p, p < nParts → partState State.reset p = 0) ∧
  bootStage State.reset = 0

/-! ### Scalar, control, commit and version instructions -/

/-- The results of Table: ALU functions. -/
def AluResult (fn : Nat) (a b v : Word) : Prop :=
  (fn = 0x0 → v.toNat = (a.toNat + b.toNat) % 2 ^ 64) ∧
  (fn = 0x1 → v.toNat = (2 ^ 64 + a.toNat - b.toNat) % 2 ^ 64) ∧
  (fn = 0x2 → v = a &&& b) ∧ (fn = 0x3 → v = a ||| b) ∧ (fn = 0x4 → v = a ^^^ b) ∧
  (fn = 0x5 → v.toNat = a.toNat * 2 ^ (b.toNat % 64) % 2 ^ 64) ∧
  (fn = 0x6 → v.toNat = a.toNat / 2 ^ (b.toNat % 64)) ∧
  (fn = 0x7 → v.toInt = a.toInt / 2 ^ (b.toNat % 64)) ∧
  (fn = 0x8 → v.toNat = a.toNat * b.toNat % 2 ^ 64) ∧
  (fn = 0x9 → v.toNat = a.toNat * b.toNat / 2 ^ 64) ∧
  (fn = 0xA → v.toInt = min a.toInt b.toInt) ∧ (fn = 0xB → v.toInt = max a.toInt b.toInt) ∧
  (fn = 0xC → v.toNat = min a.toNat b.toNat) ∧ (fn = 0xD → v.toNat = max a.toNat b.toNat)

/-- R263, R264. -/
def Obligations.AluWritesResult : Prop :=
  ∀ (s : State) (c x : Nat) (w : Word) (k : Ctx) (pr : Pour), AtWord s c x w k pr → Takes k w →
    (wOp w = 0x08 → wFN w ≤ 0xD ∧ wIMM w = 0 ∧
      ∃ v, AluResult (wFN w) (gRead k (wRS1 w)) (gRead k (wRS2 w)) v ∧
        Runs (.alu c x w) s (fun t => WritesReg s t c x k (wRD w) v)) ∧
    (wOp w = 0x09 → wFN w ≤ 0xD ∧ wRS2 w = 0 ∧
      ∃ b v : Word, b.toInt = signedOf 32 (wIMM w) ∧ AluResult (wFN w) (gRead k (wRS1 w)) b v ∧
        Runs (.alui c x w) s (fun t => WritesReg s t c x k (wRD w) v)) ∧
    (wOp w = 0x0A → ∃ v : Word,
      v.toNat = (if wbit w 32 then wIMM w * 2 ^ 32 + (gRead k (wRD w)).toNat % 2 ^ 32 else wIMM w) ∧
        Runs (.movi c x w) s (fun t => WritesReg s t c x k (wRD w) v))

/-- R265. -/
def Obligations.PredicatesWritten : Prop :=
  ∀ (s : State) (c x : Nat) (w : Word) (k : Ctx) (pr : Pour), AtWord s c x w k pr → Takes k w →
    (wOp w = 0x0B → wfld w 34 32 ≤ 5 ∧
      ∃ (b : Word) (v : Bool), (if wbit w 35 then b.toInt = signedOf 32 (wIMM w) else b = gRead k (wRS2 w)) ∧
        (let a := gRead k (wRS1 w)
         (wfld w 34 32 = 0 → v = decide (a = b)) ∧ (wfld w 34 32 = 1 → v = decide (a ≠ b)) ∧
         (wfld w 34 32 = 2 → v = decide (a.toInt < b.toInt)) ∧ (wfld w 34 32 = 3 → v = decide (b.toInt ≤ a.toInt)) ∧
         (wfld w 34 32 = 4 → v = decide (a.toNat < b.toNat)) ∧ (wfld w 34 32 = 5 → v = decide (b.toNat ≤ a.toNat))) ∧
        Runs (.cmp c x w) s (fun t => WritesPred s t c x k (wfld w 51 49) v)) ∧
    (wOp w = 0x0C → wFN w ≤ 6 ∧
      ∃ v : Bool,
        (let a := pRead k (wfld w 46 44)
         let b := pRead k (wfld w 41 39)
         (wFN w = 0 → v = (a && b)) ∧ (wFN w = 1 → v = (a || b)) ∧ (wFN w = 2 → v = (a ^^ b)) ∧
         (wFN w = 3 → v = (a && !b)) ∧ (wFN w = 4 → v = !a) ∧ (wFN w = 5 → v = true) ∧
         (wFN w = 6 → v = false)) ∧
        Runs (.pset c x w) s (fun t => WritesPred s t c x k (wfld w 51 49) v))

/-- The address PC + 8 × IMM of a control instruction, IMM signed, as a 48-bit address. -/
def branchTo (k : Ctx) (w : Word) (a : Addr) : Prop :=
  ∃ n : Int, a.toNat = ((k.pc.toNat : Int) + 8 * signedOf 32 (wIMM w)) - n * 2 ^ 48

/-- R266 (a JALR target that is no 48-bit address: log entry 40). -/
def Obligations.ControlFlowTargets : Prop :=
  ∀ (s : State) (c x : Nat) (w : Word) (k : Ctx) (pr : Pour), AtWord s c x w k pr → Takes k w →
    (wOp w = 0x00 → Runs (.nop c x w) s (fun t => OnlyCtx s t c x ∧ ctxOf t c x = { fetchedCtx k with pc := k.pc + 8 })) ∧
    (wOp w = 0x01 → Runs (.br c x w) s (fun t => OnlyCtx s t c x ∧
      ctxOf t c x = { fetchedCtx k with pc := (ctxOf t c x).pc } ∧ branchTo k w (ctxOf t c x).pc)) ∧
    (wOp w = 0x02 → Runs (.jal c x w) s (fun t => OnlyCtx s t c x ∧
      ctxOf t c x = { fetchedCtx k with pc := (ctxOf t c x).pc, g := (ctxOf t c x).g } ∧
      branchTo k w (ctxOf t c x).pc ∧
      ∀ i, i < 32 → (gRead (ctxOf t c x) i).toNat =
        if i = wRD w ∧ i ≠ 0 then (k.pc + 8).toNat else (gRead k i).toNat)) ∧
    (wOp w = 0x03 →
      let tgt := gRead k (wRS1 w) + wIMMs w
      (tgt.toNat < 2 ^ 48 → Runs (.jalr c x w) s (fun t => OnlyCtx s t c x ∧
        ctxOf t c x = { fetchedCtx k with pc := (ctxOf t c x).pc, g := (ctxOf t c x).g } ∧
        (ctxOf t c x).pc.toNat = tgt.toNat ∧
        ∀ i, i < 32 → (gRead (ctxOf t c x) i).toNat =
          if i = wRD w ∧ i ≠ 0 then (k.pc + 8).toNat else (gRead k i).toNat)) ∧
      (2 ^ 48 ≤ tgt.toNat → Canon s → Runs (.jalr c x w) s (fun t =>
        OnlyCtx s { t with regs := s.regs } c x ∧
        ctxOf t c x = abortedCtx { fetchedCtx k with g := (ctxOf t c x).g } 0x08 0 ∧
        (∀ i, i < 32 → (gRead (ctxOf t c x) i).toNat =
          if i = wRD w ∧ i ≠ 0 then (k.pc + 8).toNat else (gRead k i).toNat) ∧
        LogsAccess s t c x 0 tgt.toNat)))

/-- R273, R274, R276. -/
def Obligations.TrapCommitVquery : Prop :=
  ∀ (s : State) (c x : Nat) (w : Word) (k : Ctx) (pr : Pour), AtWord s c x w k pr → Takes k w →
    (wOp w = 0x04 → Runs (.trap c x w) s (fun t => Aborts s t c x k 0x0C (wIMM w % 2 ^ 16))) ∧
    (wOp w = 0x18 → Runs (.commit c x w) s (fun t => OnlyCore s t c ∧ (∀ y, y ≠ x → ctxOf t c y = ctxOf s c y) ∧
      ctxOf t c x = { fetchedCtx k with st := .committing, commitSent := false, updRun := none } ∧
      (coreOf t c).flights = (coreOf s c).flights.filter (fun f => !(f.ctx = x && f.op = 0x2F)) ∧
      (coreOf t c).selecting = ((coreOf s c).selecting || decide ((coreOf s c).active = x)) ∧
      coreOf t c = { coreOf s c with
        ctxs := (coreOf t c).ctxs, iLines := (coreOf t c).iLines, lastSeq := x
        flights := (coreOf t c).flights, selecting := (coreOf t c).selecting })) ∧
    (wOp w = 0x19 → wRS1 w = 0 ∧ wRS2 w = 0 ∧
      let gives (v : Nat) := Runs (.vquery c x w) s (fun t => WritesReg s t c x k (wRD w) (BitVec.ofNat 64 v))
      let stops := Runs (.vquery c x w) s (fun t => Aborts s t c x k 0x0B 0)
      (wFN w ≤ 4 →
        (∀ b, pr.binds[wfld w 5 0]? = some b →
          (wFN w = 0 → gives b.base) ∧ (wFN w = 1 → gives (if b.out then pr.stamp else b.verStamp)) ∧
          (wFN w = 2 → gives (b.units * 256)) ∧
          (wFN w = 3 → gives (if b.out then (if b.fresh then 0 else b.baseVer) else b.version)) ∧
          (wFN w = 4 → gives b.buf)) ∧
        (pr.binds.length ≤ wfld w 5 0 → stops)) ∧
      (wFN w = 5 → (∀ a, pr.args[wfld w 2 0]? = some a → gives a.toNat) ∧ (pr.args.length ≤ wfld w 2 0 → stops)) ∧
      (wFN w = 6 → gives pr.stamp))

/-- R268. -/
def Obligations.LoadStoreTier : Prop :=
  ∀ (s : State) (c x : Nat) (w : Word) (k : Ctx) (pr : Pour), AtWord s c x w k pr → Takes k w → Canon s →
    let a := (gRead k (wRS1 w) + wIMMs w).toNat
    let n := 2 ^ wfld w 33 32
    let value (bs : List Byte) (v : Word) : Prop :=
      if wbit w 34 then v.toInt = signedOf (8 * n) (ofBytesLE bs) else v.toNat = ofBytesLE bs
    (wOp w = 0x10 →
      (2 ^ 48 ≤ a → Runs (.ld c x w) s (fun t => RefusesAccess s t c x k 1 a)) ∧
      (a < 2 ^ 48 → a % n ≠ 0 → Runs (.ld c x w) s (fun t => Aborts s t c x k 0x08 0)) ∧
      (a < 2 ^ 48 → a % n = 0 →
        (seqReach s c pr.part a = .out → Runs (.ld c x w) s (fun t => RefusesAccess s t c x k 1 a)) ∧
        (isTier a = true → partReaches s pr.part a = true →
          (lineClean s (coreOf s c).dLines a n = false → Runs (.ld c x w) s (fun t => Aborts s t c x k 0x04 0)) ∧
          (lineClean s (coreOf s c).dLines a n = true → openHit s (ownSlots k) a n = [] →
            (lineOf (coreOf s c).dLines (a / 64) = none → lineBytes s (coreOf s c).dLines a n = memBytes s a n) ∧
            ∃ v : Word, value (lineBytes s (coreOf s c).dLines a n) v ∧
              Runs (.ld c x w) s (fun t => WritesReg s t c x k (wRD w) v)) ∧
          (lineClean s (coreOf s c).dLines a n = true → openHit s (ownSlots k) a n ≠ [] →
            ∃ v : Word, value (memBytes (rawView s (ownSlots k) a n) a n) v ∧
              Runs (.ld c x w) s (fun t => WritesReg s { t with free := s.free } c x k (wRD w) v))) ∧
        (∀ name ix off, seqReach s c pr.part a = .coreReg name ix off ∨ seqReach s c pr.part a = .partReg name ix off →
          (n ≠ 8 → Runs (.ld c x w) s (fun t => RefusesAccess s t c x k 1 a)) ∧
          (n = 8 → Runs (.ld c x w) s (fun t =>
            WritesReg s t c x k (wRD w) (readMask off (coreRegView (fetched s c x) name ix off))))))) ∧
    (wOp w = 0x11 →
      (2 ^ 48 ≤ a → Runs (.st c x w) s (fun t => RefusesAccess s t c x k 1 a)) ∧
      (a < 2 ^ 48 → a % n ≠ 0 → Runs (.st c x w) s (fun t => Aborts s t c x k 0x08 0)) ∧
      (a < 2 ^ 48 → a % n = 0 →
        (seqReach s c pr.part a = .out → Runs (.st c x w) s (fun t => RefusesAccess s t c x k 1 a)) ∧
        (isTier a = true → partReaches s pr.part a = true →
          ((tierDown s a = true ∨ poisonIn s (a / 32 * 32) 32 = true) →
            Runs (.st c x w) s (fun t => Aborts s t c x k 0x04 0)) ∧
          (tierDown s a = false → poisonIn s (a / 32 * 32) 32 = false →
            Runs (.st c x w) s (fun t =>
              (∀ i, i < n → memByte t (a + i) = BitVec.ofNat 8 ((gRead k (wRS2 w)).toNat / 256 ^ i)) ∧
              (∀ b, (b < a ∨ a + n ≤ b) → memByte t b = memByte s b) ∧
              ctxOf t c x = { fetchedCtx k with pc := k.pc + 8 } ∧ (∀ y, y ≠ x → ctxOf t c y = ctxOf s c y) ∧
              (∀ d, d ≠ c → coreOf t d = coreOf s d) ∧
              t = { s with cores := t.cores, mem := t.mem, memBad := t.memBad, memUndef := t.memUndef,
                           sprue := t.sprue, regs := t.regs, trc := t.trc, flt := t.flt }))) ∧
        (∀ name ix off, seqReach s c pr.part a = .coreReg name ix off →
          (n ≠ 8 → Runs (.st c x w) s (fun t => RefusesAccess s t c x k 1 a)) ∧
          (n = 8 → Runs (.st c x w) s (fun t =>
            t = modCtx (coreRegWrite (fetched s c x) name c off (gRead k (wRS2 w))) c x nextPc))) ∧
        (∀ name ix off, seqReach s c pr.part a = .partReg name ix off →
          Runs (.st c x w) s (fun t => RefusesAccess s t c x k 1 a))))

/-! ### The frame of every instruction, and the issue stage -/

/-- R258, for all the instruction rows. -/
def Obligations.FalseGuardIsNop : Prop :=
  ∀ (i : Instr) (s : State) (c x : Nat) (w : Word) (k : Ctx) (pr : Pour),
    instrWord i = some (c, x, w, true) → AtWord s c x w k pr → encodingOk w = true →
    pRead k (wPG w) = wPN w →
    Runs i s (fun t => OnlyCtx s t c x ∧ ctxOf t c x = { fetchedCtx k with pc := k.pc + 8 })

/-- R257, R259, R276, for all the instruction rows. -/
def Obligations.BadWordsAbort : Prop :=
  ∀ (i : Instr) (s : State) (c x : Nat) (w : Word) (b : Bool) (k : Ctx) (pr : Pour),
    instrWord i = some (c, x, w, b) → AtTurn s c x k pr → Canon s →
    (fetchOk pr k.pc.toNat 8 = false → Runs i s (fun t => RefusesAccess s t c x k 0 k.pc.toNat)) ∧
    (fetchOk pr k.pc.toNat 8 = true → lineClean s (coreOf s c).iLines k.pc.toNat 8 = false →
      Runs i s (fun t => Aborts s t c x k 0x04 0)) ∧
    (AtWord s c x w k pr → encodingOk w = false → Runs i s (fun t => Aborts s t c x k 0x0B 0)) ∧
    (AtWord s c x w k pr → b = true → Takes k w → decodeOk k pr w = false →
      Runs i s (fun t => Aborts s t c x k 0x0B 0))

/-- R52, R58, R59, R62, R262 for every row that goes through a tensor issue queue (YIELD apart). -/
def Obligations.TensorWordsIssue : Prop :=
  ∀ (i : Instr) (s : State) (c x : Nat) (w : Word) (k : Ctx) (pr : Pour),
    instrWord i = some (c, x, w, true) → queued w = true → c < nCores → x < 4 → ctxOf s c x = k →
    (32 ≤ k.queue.length → Runs i s (fun t => t = s)) ∧
    (AtWord s c x w k pr → Takes k w → decodeOk k pr w = true →
      let s1 := placed s c x k w
      let e := entryOf k w
      ((k.queue ≠ [] ∨ (coreOf s c).active ≠ x ∨ (coreOf s c).selecting = true) → Runs i s (fun t => t = s1)) ∧
      (k.queue = [] → (coreOf s c).active = x → (coreOf s c).selecting = false →
        (∀ code log, planOf s1 c x e = .stop code log → Runs i s (fun t => t = beginAbort (log s1) c x code 0)) ∧
        (∀ p, planOf s1 c x e = .go p →
          (planReady (coreOf s1 c) p = false → Runs i s (fun t => t = s1)) ∧
          (planReady (coreOf s1 c) p = true →
            (∀ code log, p.late s1 = some (code, log) → Runs i s (fun t => t = beginAbort (log s1) c x code 0)) ∧
            (p.late s1 = none → Runs i s (fun t => ∃ u, IssuesFrom s1 u c x e p ∧ Effect u t c x e p))))))

/-- R270, R271, R272, R282. -/
def Obligations.SyncAndDescriptors : Prop :=
  ∀ (s : State) (c x : Nat) (w : Word) (k : Ctx) (pr : Pour), AtWord s c x w k pr → Takes k w →
    k.queue = [] → (coreOf s c).active = x → (coreOf s c).selecting = false → (coreOf s c).unserved = none →
    smWf (fun _ => Tok.empty) (coreOf s c).toks = true →
    let tk := (gRead k (wRS1 w) + wIMMs w).toNat
    let tok := tokOf (coreOf s c) tk
    let s1 := placed s c x k w
    let gone (t : State) := ctxOf t c x = { fetchedCtx k with pc := k.pc + 8 } ∧
      (∀ y, y ≠ x → ctxOf t c y = ctxOf s c y) ∧ (∀ d, d ≠ c → coreOf t d = coreOf s d) ∧
      t = { s with cores := t.cores, regs := t.regs, trc := t.trc }
    let sameToks (t : State) := ∀ j, tokOf (coreOf t c) j = tokOf (coreOf s c) j
    (wOp w = 0x14 → ownsTok pr tk = true →
      (wfld w 33 32 = 0 →
        (tok = .full → Runs (.toksyncWaitFull c x w) s (fun t => gone t ∧ sameToks t)) ∧
        (tok ≠ .full → Runs (.toksyncWaitFull c x w) s (fun t => t = s1))) ∧
      (wfld w 33 32 = 1 →
        (tok = .empty → Runs (.toksyncWaitEmpty c x w) s (fun t => gone t ∧ sameToks t)) ∧
        (tok ≠ .empty → Runs (.toksyncWaitEmpty c x w) s (fun t => t = s1))) ∧
      (wfld w 33 32 = 2 →
        (tok = .full → Runs (.toksyncRelease c x w) s (fun t => gone t ∧
          ∀ j, tokOf (coreOf t c) j = if j = tk then .draining else tokOf (coreOf s c) j)) ∧
        (tok ≠ .full → Runs (.toksyncRelease c x w) s (fun t => t = s1)))) ∧
    (wOp w = 0x15 → Runs (.waitall c x w) s (fun t => gone t ∧ sameToks t ∧
      (coreOf t c).flights = (coreOf s c).flights ++ [⟨x, 0x15, [], [], [], [], none, 0⟩])) ∧
    (wOp w = 0x16 → Runs (.yield c x w) s (fun t => gone t ∧ sameToks t ∧
      (coreOf t c).flights = (coreOf s c).flights ∧
      (coreOf t c).active = (scanFrom
        (countCore (modCtx s1 c x (fun q => { q with queue := [] })) c (0xA1 + x) 1) c x).getD x)) ∧
    (wOp w = 0x3B →
      let w0 := gRead k (wfld w 47 43)
      let w1 := gRead k (wfld w 42 38)
      (dsetOk w0 w1 = true → Runs (.dset c x w) s (fun t => sameToks t ∧
        ctxOf t c x = { fetchedCtx k with pc := k.pc + 8, d := (ctxOf t c x).d } ∧
        (∀ j, j < 64 → dRead (ctxOf t c x) j = if j = wfld w 53 48 then w1 ++ w0 else dRead k j))) ∧
      (dsetOk w0 w1 = false → Runs (.dset c x w) s (fun t => OnlyCtx s t c x ∧
        ctxOf t c x = abortedCtx { fetchedCtx k with pc := k.pc + 8, queue := [entryOf k w] } 0x0B 0)))

/-- R59, R62, R172, R179, R271. -/
def Obligations.IssueStageEvents : Prop :=
  ∀ (s : State) (c : Nat), c < nCores →
    let a := (coreOf s c).active
    let counted (t : State) := (∀ d, d ≠ c → coreOf t d = coreOf s d) ∧
      t = { s with cores := t.cores, regs := t.regs, trc := t.trc }
    (∀ e, queueHead s c a = some e → queueLive (ctxOf s c a) = true → (coreOf s c).selecting = false →
      (wOp e.word = 0x3B → dsetOk (srcOf e 0) (srcOf e 1) = true → (coreOf s c).unserved = none →
        Runs (.tensorIssue c) s (fun t => counted t ∧ (∀ y, y ≠ a → ctxOf t c y = ctxOf s c y) ∧
          ctxOf t c a = { ctxOf s c a with queue := (ctxOf s c a).queue.drop 1, d := (ctxOf t c a).d } ∧
          (∀ j, j < 64 → dRead (ctxOf t c a) j =
            if j = wfld e.word 53 48 then srcOf e 1 ++ srcOf e 0 else dRead (ctxOf s c a) j))) ∧
      (wOp e.word ≠ 0x16 →
        (∀ code log, planOf s c a e = .stop code log → Runs (.tensorIssue c) s (fun t => t = beginAbort (log s) c a code 0)) ∧
        (∀ p, planOf s c a e = .go p →
          (planReady (coreOf s c) p = false → Runs (.tensorIssue c) s (fun t => t = s)) ∧
          (planReady (coreOf s c) p = true →
            (∀ code log, p.late s = some (code, log) → Runs (.tensorIssue c) s (fun t => t = beginAbort (log s) c a code 0)) ∧
            (p.late s = none → Runs (.tensorIssue c) s (fun t => ∃ u, IssuesFrom s u c a e p ∧ Effect u t c a e p))))) ∧
      (wOp e.word = 0x16 → Runs (.tensorIssue c) s (fun t => counted t ∧ (∀ y, y ≠ a → ctxOf t c y = ctxOf s c y) ∧
        ctxOf t c a = { ctxOf s c a with queue := (ctxOf s c a).queue.drop 1 }))) ∧
    ((queueHead s c a = none ∨ (coreOf s c).selecting = true) → Runs (.tensorIssue c) s (fun t => t = s)) ∧
    (((coreOf s c).selecting = true ∨ switchCause s c = true) →
      (∀ y, scanFrom s c a = some y → Runs (.contextSwitch c) s (fun t => counted t ∧
        coreOf t c = { coreOf s c with active := y, selecting := false })) ∧
      (scanFrom s c a = none → Runs (.contextSwitch c) s (fun t => OnlyCore s t c ∧
        coreOf t c = { coreOf s c with selecting := true }))) ∧
    ((coreOf s c).selecting = false → switchCause s c = false → Runs (.contextSwitch c) s (fun t => t = s)) ∧
    (∀ (n : Nat) (f : Flight), (coreOf s c).flights[n]? = some f → f.op ≠ 0x2F →
      (∀ g ∈ (coreOf s c).flights.take n, ∀ u ∈ f.units, u ∉ g.units) →
      (f.held = none → f.op ≠ 0x25 →
        (f.op = 0x15 → (∀ g ∈ (coreOf s c).flights.take n, g.ctx ≠ f.ctx) ∧
          ∀ r ∈ s.ergReqs, ¬ (r.core = c ∧ r.ctx = f.ctx)) →
        Runs (.tensorComplete c n) s (fun t => OnlyCore s t c ∧
          coreOf t c = { coreOf s c with flights := (coreOf s c).flights.erase f })) ∧
      (f.held = none → f.op = 0x25 → smWf (fun _ => Tok.empty) (coreOf s c).toks = true →
        Runs (.tensorComplete c n) s (fun t => OnlyCore s t c ∧ (coreOf t c).window = none ∧
          (coreOf t c).flights = (coreOf s c).flights.erase f ∧
          (∀ j, tokOf (coreOf t c) j = if j ∈ f.fills then .empty else tokOf (coreOf s c) j) ∧
          coreOf t c = { coreOf s c with
            flights := (coreOf t c).flights
            window := none
            toks := (coreOf t c).toks
            tokAt := (coreOf t c).tokAt })) ∧
      (∀ h, f.held = some h → Runs (.tensorComplete c n) s (fun t => t = runHeld s c f h))) ∧
    (∀ n : Nat, (coreOf s c).flights.length ≤ n → Runs (.tensorComplete c n) s (fun t => t = s)) ∧
    (∀ a : SlotAgent, slotAgentOk a = true →
      (∀ x agent u tk, agentWait s c a = some (x, agent, u, tk) → beforeCommit (ctxOf s c x) = true → Canon s →
        Runs (.slotWatchdogExpiry c a) s (fun t =>
          (∀ d, d ≠ c → coreOf t d = coreOf s d) ∧ (∀ y, y ≠ x → ctxOf t c y = ctxOf s c y) ∧
          ctxOf t c x = abortedCtx (ctxOf s c x) 0x05 0 ∧ rd t (rSPM_WAIT_TIME c) = nowW s ∧
          (∀ o, o ≠ rSPM_WAIT_INFO c → o ≠ rSPM_WAIT_TIME c → rd t o = rd s o) ∧
          t = { s with cores := t.cores, regs := t.regs })) ∧
      (agentWait s c a = none → Runs (.slotWatchdogExpiry c a) s (fun t => t = s)))

/-! ### Scratchpad, tokens, calendars, Sprue cache and the core's registers -/

/-- R171, R175, R177: what each scratchpad operation does at the head of the active context. The effect is at
issue (log entry 25). -/
def Obligations.ScratchpadOperations : Prop :=
  ∀ (s : State) (c x : Nat) (w : Word) (k : Ctx) (pr : Pour) (p : Plan), AtWord s c x w k pr → Takes k w →
    k.queue = [] → (coreOf s c).active = x → (coreOf s c).selecting = false → AllServed s c →
    wOp w = 0x38 → Canon s →
    let s1 := placed s c x k w
    let d := tdAt k (wfld w 49 44)
    let ended (i : Instr) (P : State → State → Prop) := Runs i s (fun t => ∃ u, IssuesFrom s1 u c x (entryOf k w) p ∧ t = p.run u ∧ P u t)
    planOf s1 c x (entryOf k w) = .go p → planReady (coreOf s1 c) p = true →
    (wfld w 53 50 = 0 → rangeOn s c d.off (opBytes d) = true → smWf (spmDflt (coreOf s c)) (coreOf s c).spm = true →
      ended (.fill c x w) (fun u t => OnlyCore u t c ∧ ∀ o, spmByte (coreOf t c) o =
        if d.off ≤ o ∧ o < d.off + opBytes d then BitVec.ofNat 8 ((gRead k (wfld w 36 32)).toNat / 256 ^ ((o - d.off) % 8))
        else spmByte (coreOf s c) o)) ∧
    (wfld w 53 50 = 1 → smWf (spmDflt (coreOf s c)) (coreOf s c).spm = true →
      let r := tdAt k (wfld w 43 38)
      rangeOn s c d.off (opBytes d) = true → rangeOn s c r.off (opBytes d) = true →
      spmBadIn (coreOf s c) r.off (opBytes d) = false →
      (∀ j ∈ partCodewords d.off (opBytes d), smGet false (coreOf s c).spmBad j = false) →
      ended (.copy c x w) (fun u t => OnlyCore u t c ∧ ∀ o, spmByte (coreOf t c) o =
        if d.off ≤ o ∧ o < d.off + opBytes d then spmByte (coreOf s c) (r.off + (o - d.off))
        else spmByte (coreOf s c) o)) ∧
    (wfld w 53 50 = 2 → rangeOn s c d.off (opBytes d) = true →
      (∀ j, smGet false (coreOf s c).spmBad j = false) → ended (.scrub c x w) (fun u t => t = u)) ∧
    (wfld w 53 50 = 3 → (s.erg.ext.any (fun h => h.cores.contains c)) = false → ended (.powerDown c x w) (fun u t =>
      (wfld w 31 16 = 0 → t = u) ∧
      (∀ q, q < 16 → quadOn t c q = (quadOn u c q && !(wfld w 31 16).testBit q)) ∧
      (∀ o, o ≠ rSPM_POWER c → rd t o = rd u o) ∧
      (∀ e, e ≠ c → coreOf t e = coreOf u e) ∧ t = { u with cores := t.cores, regs := t.regs, free := t.free })) ∧
    (wfld w 53 50 = 4 → ended (.powerUp c x w) (fun u t =>
      (wfld w 31 16 = 0 → t = u) ∧
      (wfld w 31 16 ≠ 0 →
        (∀ q, q < 16 → wbit (rd t (rSPM_POWER c)) q = (wbit (rd u (rSPM_POWER c)) q || (wfld w 31 16).testBit q)) ∧
        (∀ o, o ≠ rSPM_POWER c → rd t o = rd u o) ∧ (coreOf t c).spm = (coreOf u c).spm ∧
        (coreOf t c).powering = (coreOf u c).powering ++ [(wfld w 31 16, some d.tok)]))) ∧
    (wfld w 53 50 = 5 → ended (.calendarLoad c x w) (fun u t => OnlyCore u t c ∧
      calInForce t c = calInForce u c ∧ (coreOf t c).cal.waiting = some (calTarget u c, wfld (gRead k (wfld w 15 11)) 31 0) ∧
      (let a := (gRead k (wfld w 36 32)).toNat
       let es := (List.range (wfld (memWord s a) 5 0 + 1)).map (fun i => memWord s (a + 8 + 8 * i))
       calOk es = true ∧ (if calTarget u c = 0 then (coreOf t c).cal.store0 else (coreOf t c).cal.store1) = es)))

/-- R58, R171–R173, R176–R178, R195. -/
def Obligations.ScratchpadEvents : Prop :=
  ∀ (s : State) (c : Nat), c < nCores → Canon s →
    smWf (fun _ => Tok.empty) (coreOf s c).toks = true →
    (∀ tk, tk < 1024 → tokOf (coreOf s c) tk = .filling → fillBusy s c tk = false →
      Runs (.tokenFillComplete c tk) s (fun t => OnlyCore s t c ∧
        coreOf t c = { coreOf s c with toks := (coreOf t c).toks } ∧
        ∀ j, tokOf (coreOf t c) j = if j = tk then .full else tokOf (coreOf s c) j)) ∧
    (∀ tk, tk < 1024 → tokOf (coreOf s c) tk = .draining → (∀ f ∈ (coreOf s c).flights, f.held = none) →
      Runs (.tokenDrainComplete c tk) s (fun t => OnlyCore s t c ∧
        coreOf t c = { coreOf s c with toks := (coreOf t c).toks, tokAt := (coreOf t c).tokAt } ∧
        ∀ j, tokOf (coreOf t c) j = if j = tk then .empty else tokOf (coreOf s c) j)) ∧
    (∀ mask, mask < 0x10000 → Runs (.quadReady c mask) s (fun t =>
      (∀ q, q < 16 → quadOn t c q = (quadOn s c q || (wbit (rd s (rSPM_POWER c)) q && mask.testBit q))) ∧
      (∀ o, o ≠ rSPM_POWER c → rd t o = rd s o) ∧ (∀ d, d ≠ c → coreOf t d = coreOf s d) ∧
      t = { s with cores := t.cores, regs := t.regs })) ∧
    (∀ v, coreQuiet (coreOf s c) = false → Runs (.spmPowerWrite c v) s (fun t => t = s)) ∧
    (∀ v, coreQuiet (coreOf s c) = true → (s.erg.ext.any (fun h => h.cores.contains c)) = false →
      Runs (.spmPowerWrite c v) s (fun t =>
        (∀ q, q < 16 → wbit (rd t (rSPM_POWER c)) q = wbit v q) ∧ (∀ o, o ≠ rSPM_POWER c → rd t o = rd s o) ∧
        (∀ d, d ≠ c → coreOf t d = coreOf s d) ∧ t = { s with cores := t.cores, regs := t.regs, free := t.free })) ∧
    (∀ v, coreQuiet (coreOf s c) = true → (s.erg.ext.any (fun h => h.cores.contains c)) = true →
      let down := wfld (rd s (rSPM_POWER c)) 15 0 &&& (0xFFFF - wfld v 15 0)
      down ≠ 0 → Runs (.spmPowerWrite c v) s (fun t => t.erg.ext = s.erg.ext ++ [⟨[c], .down c down⟩] ∧
        (∀ q, q < 16 → wbit (rd t (rSPM_POWER c)) q = (wbit (rd s (rSPM_POWER c)) q || wbit v q)))) ∧
    (∀ n at_, (coreOf s c).cal.waiting = some (n, at_) → n < 2 → Runs (.bankCalendarActivate c) s (fun t =>
      calInForce t c = (if n = 0 then (coreOf s c).cal.store0 else (coreOf s c).cal.store1) ∧
      (coreOf t c).cal.waiting = none ∧ (∀ o, o ≠ rSPM_CTRL c → rd t o = rd s o))) ∧
    ((coreOf s c).cal.waiting = none → Runs (.bankCalendarActivate c) s (fun t => t = s)) ∧
    (∀ port o b upset, port < 15 → o < spmSize →
      (portServed s c port (quadOf o) = false → Runs (.scratchpadPortAccess c port o ⟨b, upset⟩) s (fun t => t = s)) ∧
      (portServed s c port (quadOf o) = true → quadDozes s c (quadOf o) = true →
        Runs (.scratchpadPortAccess c port o ⟨b, upset⟩) s (fun t => t = wakeUnit s (quadUnit c (quadOf o)))) ∧
      (portServed s c port (quadOf o) = true → quadDozes s c (quadOf o) = false → quadOn s c (quadOf o) = false →
        Runs (.scratchpadPortAccess c port o ⟨b, upset⟩) s (fun t =>
          OnlyRegs s t [rSPM_OFF_LOG c, rSPM_OFF_TIME c] ∧ rget t (rSPM_OFF_LOG c) fSPM_OFF_LOG_PORT = port ∧
          rget t (rSPM_OFF_LOG c) fSPM_OFF_LOG_ADDR = o ∧ rflag t (rSPM_OFF_LOG c) fSPM_OFF_LOG_VALID = true ∧
          rd t (rSPM_OFF_TIME c) = nowW s)) ∧
      (portServed s c port (quadOf o) = true → quadDozes s c (quadOf o) = false → quadOn s c (quadOf o) = true →
        (codeRead (coreOf s c) o upset = .clean → b = none →
          Runs (.scratchpadPortAccess c port o ⟨b, upset⟩) s (fun t => t = s)) ∧
        (∀ v, codeRead (coreOf s c) o upset = .clean → b = some v →
          smWf (spmDflt (coreOf s c)) (coreOf s c).spm = true →
          Runs (.scratchpadPortAccess c port o ⟨b, upset⟩) s (fun t => OnlyCore s t c ∧
            ∀ j, spmByte (coreOf t c) j = if j = o then v else spmByte (coreOf s c) j)) ∧
        (∀ v, ((∃ i, codeRead (coreOf s c) o upset = .ce1 i) ∨ (∃ i j, codeRead (coreOf s c) o upset = .ce2 i j)) →
          b = some v → 4 ≤ port →
          smWf (spmDflt (coreOf s c)) (coreOf s c).spm = true →
          Runs (.scratchpadPortAccess c port o ⟨b, upset⟩) s (fun t => rflag t (rSPM_ERR c) fSPM_ERR_CE = true ∧
            ∀ j, spmByte (coreOf t c) j = if j = o then v else spmByte (coreOf s c) j)) ∧
        ((codeRead (coreOf s c) o upset = .ue ∨ codeRead (coreOf s c) o upset = .poison) → 4 ≤ port →
          Runs (.scratchpadPortAccess c port o ⟨b, upset⟩) s (fun t =>
            rflag t (rSPM_ERR c) (if port = 0xD then fSPM_ERR_EXT_UE else fSPM_ERR_UE) = true ∧
            smGet false (coreOf t c).spmBad (o / 8) = true ∧ (coreOf t c).spm = (coreOf s c).spm)))) ∧
    ((coreOf s c).scrubbing = true → s.erg.ext = [] → Runs (.scratchpadScrubComplete c) s (fun t =>
      (∀ o, spmByte (coreOf t c) o = 0) ∧ (∀ q, q < 16 → quadOn t c q = true) ∧
      (∀ j, j < 16 → (calInForce t c)[j]? = some (defaultEntry j)) ∧ (coreOf t c).scrubbing = false ∧
      (∀ o, o ≠ rSPM_POWER c → o ≠ rSPM_CTRL c → rd t o = rd s o) ∧ (∀ d, d ≠ c → coreOf t d = coreOf s d)))

/-- R191–R195. -/
def Obligations.SprueCache : Prop :=
  ∀ (s : State) (d c a : Nat) (na : Bool) (upset : BitVec 80), d < 4 → c < nCores → dieOfCore c = d → isTier a = true →
    let k := sprueOf s d
    let n := a / 256
    let rest (t : State) := t = { s with sprue := t.sprue, regs := t.regs, trc := t.trc, free := t.free } ∧
      ∀ e, e ≠ d → sprueOf t e = sprueOf s e
    (rflag s (rCACHE_CTRL d) fCACHE_CTRL_BYPASS = true →
      ∀ tag, (∀ v, tag = some v → v < 16) → Runs (.cacheLookup d c ⟨a, na, upset, tag⟩) s (fun t => t = s)) ∧
    (rflag s (rCACHE_CTRL d) fCACHE_CTRL_BYPASS = false →
      let found := decode80 (encode80 (memWord s (alignDown a 8)) false ^^^ upset)
      (sprueHas k n = true → found = .clean →
        Runs (.cacheLookup d c ⟨a, na, upset, none⟩) s (fun t => rest t ∧ sprueOf t d = k)) ∧
      (sprueHas k n = true → (found = .ue ∨ found = .poison) →
        Runs (.cacheLookup d c ⟨a, na, upset, none⟩) s (fun t => ∀ e ∈ (sprueOf t d).lines, e.1 ≠ wayKey n (sprueWay k n))) ∧
      (sprueHas k n = false → ((∃ f ∈ k.fills, f.1 = n) ∨ na = true) →
        Runs (.cacheLookup d c ⟨a, na, upset, none⟩) s (fun t => rest t ∧ sprueOf t d = k)) ∧
      (sprueHas k n = false → (∀ f ∈ k.fills, f.1 ≠ n) → na = false →
        Runs (.cacheLookup d c ⟨a, na, upset, none⟩) s (fun t => rest t ∧
          sprueOf t d = { k with fills := k.fills ++ [(n, true, (ownerOfCore s c).getD 0)] })) ∧
      (∀ v, v < 16 → Runs (.cacheLookup d c ⟨a, na, upset, some v⟩) s (fun t =>
        ∀ e ∈ (sprueOf t d).lines, e.1 ≠ wayKey n v))) ∧
    (∀ p, p < nParts → k.fills = [(n, true, p)] → memBadIn s (n * 256) 256 = false →
      bitList 16 (rget s (rCACHE_WAYS d p) fCACHE_WAYS_WAYS) ≠ [] →
      Runs (.cacheFill d a p) s (fun t => rest t ∧ sprueHas (sprueOf t d) n = true ∧ (sprueOf t d).fills = [])) ∧
    (∀ p, p < nParts → k.fills = [(n, false, p)] →
      Runs (.cacheFill d a p) s (fun t => rest t ∧ sprueOf t d = { k with fills := [] })) ∧
    (∀ v, Runs (.cacheInvAll d v) s (fun t => rest t ∧ (sprueOf t d).lines = [] ∧
      (∀ f ∈ (sprueOf t d).fills, f.2.1 = false)))

/-- R67, R93, R120. -/
def Obligations.CoreRegisterWrites : Prop :=
  ∀ (s : State) (c : Nat) (v : Word), c < nCores → Canon s →
    Runs (.coreCtrlSeqInv c v) s (fun t => OnlyCore s { t with regs := s.regs } c ∧
      coreOf t c = { coreOf s c with iLines := [], dLines := [] } ∧
      rget t (rCORE_CTRL c) fCORE_CTRL_SWITCH_WAIT = wfld v 15 0 ∧ (∀ o, o ≠ rCORE_CTRL c → rd t o = rd s o)) ∧
    Runs (.arrCtrlInjectParity c v) s (fun t => (∀ o, o ≠ rARR_CTRL c → rd t o = rd s o) ∧
      (fenceOf s c = 0 → t = { s with regs := t.regs }) ∧
      (fenceOf s c ≠ 0 → (accOf (coreOf t c) (4 * wfld v 4 4 + wfld v 9 8)).inject = true ∧
        (∀ d, d ≠ c → coreOf t d = coreOf s d))) ∧
    (∀ p, ownerOfCore s c = some p → Runs (.numLscaleWrite c v) s (fun t =>
      (partOf t p).lscale = signedOf 8 (wfld v 7 0) ∧ (partOf t p).lsC = 0 ∧ (partOf t p).lsN = wfld v 63 48 ∧
      (∀ q, q ≠ p → partOf t q = partOf s q) ∧ t = { s with regs := t.regs, parts := t.parts } ∧
      (∀ q, q < nCores → partHasCore s p q = true →
        rget t (rNUM_LSCALE q) fNUM_LSCALE_L = wfld v 7 0 ∧ rget t (rNUM_LSCALE q) fNUM_LSCALE_CLEAN = 0 ∧
        rget t (rNUM_LSCALE q) fNUM_LSCALE_RAISE = wfld v 63 48 ∧
        wfld (rd t (rNUM_LSCALE q)) 9 8 = wfld (rd s (rNUM_LSCALE q)) 9 8 &&& wfld (~~~v) 9 8))) ∧
    (ownerOfCore s c = none → Runs (.numLscaleWrite c v) s (fun t => t = { s with regs := t.regs } ∧
      ∀ o, o ≠ rNUM_LSCALE c → rd t o = rd s o))

/-! ### Pours and partitions -/

/-- Everything but the cores, registers, memory, the caches' lines, records, trace, monitor inputs, partitions,
requests awaiting a response and the free-value counter is as before. -/
def PourFrame (s t : State) : Prop :=
  t = { s with cores := t.cores, regs := t.regs, mem := t.mem, memBad := t.memBad, memUndef := t.memUndef, sprue := t.sprue, recq := t.recq, trc := t.trc, flt := t.flt, parts := t.parts, free := t.free, ergReqs := t.ergReqs, tier := t.tier }

/-- R22, R25, R30, R57, R64, R65. -/
def Obligations.PourLifecycle : Prop :=
  ∀ (s : State) (c x : Nat) (pr : Pour), c < nCores → x < 4 → (ctxOf s c x).pour = some pr →
    let k := ctxOf s c x
    (k.st = .loading → loadingHeld s c = false →
      ((ctlState s = 2 ∨ ctlState s = 3 ∨ partState s pr.part ≠ 1) → Runs (.pourStart c x) s (fun t =>
        OnlyCtx s t c x ∧ ctxOf t c x = abortedAt k 0x13)) ∧
      (ctlState s ≠ 2 → ctlState s ≠ 3 → partState s pr.part = 1 →
        (∀ code bs u, startBinds s pr.part pr pr.binds = (code, bs, u) → code ≠ 0 → Runs (.pourStart c x) s (fun t =>
          OnlyCtx s t c x ∧ ctxOf t c x = abortedAt k code)) ∧
        (∀ b bs u, startBinds s pr.part pr pr.binds = (0, b :: bs, u) → Runs (.pourStart c x) s (fun t =>
          ctxOf t c x = { k with
            st := .running
            pour := some { pr with binds := b :: bs, watch := watchNs (coreKhz s (dieOfCore c)) }
            pc := BitVec.ofNat 48 (b.base + pr.entry)
            lastPc := BitVec.ofNat 48 (b.base + pr.entry)
            g := (ctxOf t c x).g
            p := (ctxOf t c x).p
            d := (ctxOf t c x).d } ∧
          gRead (ctxOf t c x) 0 = 0 ∧ pRead (ctxOf t c x) 0 = true ∧
          (∀ y, y ≠ x → ctxOf t c y = ctxOf s c y) ∧ (Canon s → rd t (rNUM_OVF c x) = 0))))) ∧
    (k.st = .loading → loadingHeld s c = true → Runs (.pourStart c x) s (fun t => t = s)) ∧
    (k.st = .committing →
      (pourBusy s c x = true → Runs (.commitRequest c x) s (fun t => t = s)) ∧
      (pourBusy s c x = false → Runs (.commitRequest c x) s (fun t => OnlyCtx s t c x ∧
        ctxOf t c x = { k with commitSent := true }))) ∧
    (k.st = .aborting → smWf (fun _ => Tok.empty) (coreOf s c).toks = true → Runs (.pourAbort c x) s (fun t =>
      ctxOf t c x = { k with queue := [], updRun := none, stopped := true } ∧
      (∀ y, y ≠ x → ctxOf t c y = ctxOf s c y) ∧ (∀ f ∈ (coreOf t c).flights, f.ctx ≠ x) ∧
      (∀ j, pr.tokFirst ≤ j → j ≤ pr.tokLast → tokOf (coreOf t c) j = .empty) ∧
      (∀ j, (j < pr.tokFirst ∨ pr.tokLast < j) → tokOf (coreOf t c) j = tokOf (coreOf s c) j) ∧
      (∀ r ∈ (coreOf t c).streams, r.2.owner ≠ some x) ∧ (∀ r ∈ (coreOf t c).gaths, r.2.owner ≠ some x) ∧
      (∀ r ∈ t.ergReqs, ¬ (r.core = c ∧ r.ctx = x)) ∧ (∀ d, d ≠ c → coreOf t d = coreOf s d) ∧
      PourFrame s t ∧ t.mem = s.mem)) ∧
    (k.st = .aborting → k.stopped = true → Runs (.pourQuiet c x) s (fun t =>
      (ctxOf t c x).st = .idle ∧ (ctxOf t c x).pour = none ∧ (ctxOf t c x).lastAbort = k.abortCode ∧
      (ctxOf t c x).g = k.g ∧ (∀ y, y ≠ x → ctxOf t c y = ctxOf s c y) ∧ PourFrame s t)) ∧
    (k.st = .aborting → k.stopped = true → Canon s → recordsOff s = false →
      rflag s (rCQ_CFG pr.part) fCQ_CFG_ENABLE = true → Runs (.pourQuiet c x) s (fun t =>
        ∃ r, (recqOf t pr.part).waiting = (recqOf s pr.part).waiting ++ [r] ∧ r.kind = 1 ∧ r.code = k.abortCode ∧
          r.core = c ∧ r.ctx = x ∧ r.part = pr.part ∧ r.time = now s)) ∧
    (beforeCommit k = true → Runs (.pourTimeWatchdog c x) s (fun t => OnlyCtx s t c x ∧
      ctxOf t c x = abortedCtx k 0x0A 0))

/-- R32, R33, R36. -/
def Obligations.CommitUnitDecides : Prop :=
  ∀ (s : State) (c x : Nat) (pr : Pour), c < nCores → x < 4 → (ctxOf s c x).pour = some pr →
    (ctxOf s c x).st = .committing →
    (∀ page, commitHeld s c x = some page → Runs (.commitAccept c x) s (fun t => page ∈ t.ckpt.waiting ∧
      t = { s with ckpt := { s.ckpt with waiting := t.ckpt.waiting } })) ∧
    (commitHeld s c x = none →
    ((ctxOf s c x).commitSent = false → Runs (.commitAccept c x) s (fun t => t = s)) ∧
    ((ctxOf s c x).commitSent = true →
      (∀ code, commitVerdict s pr.part pr = .abort code → Runs (.commitAccept c x) s (fun t => OnlyCtx s t c x ∧
        ctxOf t c x = abortedCtx (ctxOf s c x) code 0)) ∧
      (commitVerdict s pr.part pr = .replayed → Runs (.commitAccept c x) s (fun t =>
        (ctxOf t c x).st = .idle ∧ (ctxOf t c x).lastAbort = 0 ∧ (ctxOf t c x).pour = none ∧
        outOf (kGet ⟨0, []⟩ (partOf t pr.part).cmds pr.pos) pr.idx = some .replayed ∧
        (∀ y, y ≠ x → ctxOf t c y = ctxOf s c y))) ∧
      (commitVerdict s pr.part pr = .commit → pr.notices = [] → Runs (.commitAccept c x) s (fun t =>
        (ctxOf t c x).st = .idle ∧ (ctxOf t c x).lastAbort = 0 ∧ (ctxOf t c x).pour = none ∧
        outOf (kGet ⟨0, []⟩ (partOf t pr.part).cmds pr.pos) pr.idx = some .committed ∧
        (∀ y, y ≠ x → ctxOf t c y = ctxOf s c y))) ∧
      (∀ b, commitVerdict s pr.part pr = .commit → pr.notices = [] → Canon s → pr.binds = [b] → b.out = true →
        b.claimed = true → b.slot < 4 → Runs (.commitAccept c x) s (fun t =>
          let d := readDesc t (descAddr s pr.part b.buf)
          (pr.pending = false → (d.slots.getD b.slot VSlot.none).st = 3 ∧ d.cur = b.slot ∧
            d.curVer = if b.fresh then 1 else b.baseVer + 1) ∧
          (pr.pending = true → (d.slots.getD b.slot VSlot.none).st = 2 ∧
            d.curVer = (readDesc s (descAddr s pr.part b.buf)).curVer)))))

/-- R307–R309. -/
def Obligations.DispatcherRules : Prop :=
  ∀ (s : State) (p : Nat), p < nParts → Canon s →
    let k := partOf s p
    let e := readEntry s (entryAddr s p k.head)
    let d := readPDesc s p k.head k.pourIdx (e.list + 128 * k.pourIdx)
    let halts (i : Instr) (cause : Nat) := Runs i s (fun t => rflag t (rRING_STATUS p) fRING_STATUS_HALTED = true ∧
      rget t (rRING_STATUS p) fRING_STATUS_CAUSE = cause ∧ t = { s with regs := t.regs, recq := t.recq } ∧
      ∀ o, o ≠ rRING_STATUS p → (∀ q, o ≠ rCQ_STATUS q) → rd t o = rd s o)
    (mayDispatch s p = false → Runs (.pourDispatch p) s (fun t => t = s) ∧ Runs (.barrierPass p) s (fun t => t = s)) ∧
    (mayDispatch s p = true → memBadIn s (entryAddr s p k.head) 64 = true →
      halts (.pourDispatch p) 4 ∧ halts (.barrierPass p) 4) ∧
    (mayDispatch s p = true → memBadIn s (entryAddr s p k.head) 64 = false →
      (entryBad e = true → halts (.pourDispatch p) 1 ∧ halts (.barrierPass p) 1) ∧
      (entryBad e = false → e.kind = 1 → Runs (.barrierPass p) s (fun t => t = s)) ∧
      (entryBad e = false → e.kind = 2 → Runs (.pourDispatch p) s (fun t => t = s) ∧
        (barrierWait k k.head = .failed → halts (.barrierPass p) 2) ∧
        (barrierWait k k.head = .waiting → Runs (.barrierPass p) s (fun t => t = s)) ∧
        (barrierWait k k.head = .met → counterMet s p e = false → Runs (.barrierPass p) s (fun t => t = s)) ∧
        (barrierWait k k.head = .met → counterMet s p e = true → Runs (.barrierPass p) s (fun t =>
          (partOf t p).head = k.head + 1 ∧ (partOf t p).pourIdx = 0 ∧ (∀ q, q ≠ p → partOf t q = partOf s q) ∧
          t = { s with parts := t.parts }))) ∧
      (entryBad e = false → e.kind = 1 → partReachesRange s p (e.list + 128 * k.pourIdx) 128 = true →
        memBadIn s (e.list + 128 * k.pourIdx) 128 = false → memBadIn s d.bindings (16 * min d.nbind 64) = false →
        (pdescBad s p d = true → halts (.pourDispatch p) 1) ∧
        (pdescBad s p d = false →
          (fenceOf s d.core ≠ 0 → halts (.pourDispatch p) 3) ∧
          (fenceOf s d.core = 0 → (d.links.map (linkWait k k.head)).foldl Wait.and .met = .failed →
            halts (.pourDispatch p) 2) ∧
          (fenceOf s d.core = 0 → d.links = [] → (coreOf s d.core).scrubbing = true →
            Runs (.pourDispatch p) s (fun t => t = s)) ∧
          (fenceOf s d.core = 0 → d.links = [] → (coreOf s d.core).scrubbing = false →
            (k.pourIdx = 0 → counterMet s p e = true) →
            (∀ x, x < 4 → (ctxOf s d.core x).pour = none) → (ctxOf s d.core d.ctx).st = .idle →
            recUsed s p < recRingSize s p → Runs (.pourDispatch p) s (fun t =>
              (ctxOf t d.core d.ctx).st = .loading ∧ (ctxOf t d.core d.ctx).queue = [] ∧
              (∃ q, (ctxOf t d.core d.ctx).pour = some q ∧ q = { d.pour with first := q.first }) ∧
              (∀ y, y ≠ d.ctx → ctxOf t d.core y = ctxOf s d.core y) ∧
              (∀ m, m ≠ d.core → coreOf t m = coreOf s m) ∧ (∀ q, q ≠ p → partOf t q = partOf s q) ∧
              rget t (rCQ_STATUS p) fCQ_STATUS_RSV = (rget s (rCQ_STATUS p) fCQ_STATUS_RSV + 1) % 2 ^ 32)))))

/-- R302, R307, R311, R319, R321. -/
def Obligations.PartitionLifecycle : Prop :=
  ∀ (s : State) (p : Nat), p < nParts → Canon s →
    (∀ v, wbit v 0 = true → partState s p = 0 →
      (activateOk s p = true → Runs (.partActivate p v) s (fun t => partState t p = 1 ∧ (partOf t p).head = 0 ∧
        ringTail t p = 0 ∧ rflag t (rRING_STATUS p) fRING_STATUS_HALTED = false ∧
        (∀ q, q ≠ p → partOf t q = partOf s q) ∧ t = { s with regs := t.regs, parts := t.parts, sec := t.sec })) ∧
      (activateOk s p = false → Runs (.partActivate p v) s (fun t => OnlyRegs s t [rPART_CTRL p] ∧
        rflag t (rPART_CTRL p) fPART_CTRL_BAD = true ∧ partState t p = 0))) ∧
    (∀ v, wbit v 1 = true → partState s p = 1 → Runs (.partRelease p v) s (fun t => partState t p = 2 ∧
      (∀ c x q, (ctxOf s c x).pour = some q → q.part ≠ p → ctxOf t c x = ctxOf s c x) ∧
      (∀ c x q, c < nCores → x < 4 → (ctxOf t c x).pour = some q → q.part = p →
        (ctxOf t c x).st ≠ .loading ∧ (ctxOf t c x).st ≠ .running ∧ (ctxOf t c x).st ≠ .committing))) ∧
    (partState s p = 2 → (poursOf s p).isEmpty = true → quoteWaits s p = false →
      Runs (.partReleaseComplete p) s (fun t => partState t p = 0 ∧ partOf t p = Part.reset ∧
        (∀ c, c < nCores → partHasCore s p c = true → (coreOf t c).scrubbing = true ∧ ∀ x, x < 4 → ctxOf t c x = Ctx.reset) ∧
        (∀ c, partHasCore s p c = false → coreOf t c = coreOf s c) ∧ (∀ q, q ≠ p → partOf t q = partOf s q))) ∧
    (∀ v, wbit v 2 = true → partState s p = 1 → rflag s (rRING_STATUS p) fRING_STATUS_HALTED = true →
      Runs (.partResume p v) s (fun t => OnlyRegs s t [rRING_STATUS p] ∧
        rflag t (rRING_STATUS p) fRING_STATUS_HALTED = false ∧ rget t (rRING_STATUS p) fRING_STATUS_CAUSE = 0)) ∧
    (∀ v, partState s p = 1 →
      let n := wfld v 31 0
      let used := (n + 2 ^ 32 - (partOf s p).head % 2 ^ 32) % 2 ^ 32
      let moved := (n + 2 ^ 32 - ringTail s p) % 2 ^ 32
      ((used ≤ ringSize s p ∧ moved < 2 ^ 31) → Runs (.ringTailWrite p v) s (fun t =>
        OnlyRegs s t [rRING_TAIL p] ∧ ringTail t p = n)) ∧
      (¬ (used ≤ ringSize s p ∧ moved < 2 ^ 31) → Runs (.ringTailWrite p v) s (fun t =>
        OnlyRegs s t [rRING_STATUS p] ∧ rflag t (rRING_STATUS p) fRING_STATUS_TAIL_REJECT = true ∧
        ringTail t p = ringTail s p))) ∧
    (∀ path n r, path < 22 → wbit (rd s (tuyReg p path)) 32 = false → s.metered = [(n, r)] → s.erg.metered = [] →
      pathsPass s r.part (tierPaths n r) = true → Runs (.tuyereRefill p path) s (fun t =>
        t = tierEnter (pathsTake { s with metered := [] } r.part (tierPaths n r)) n r)) ∧
    (∀ path, path < 22 → s.metered = [] → s.erg.metered = [] →
      (wbit (rd s (tuyReg p path)) 32 = false → Runs (.tuyereRefill p path) s (fun t => t = s)) ∧
      (wbit (rd s (tuyReg p path)) 32 = true → Runs (.tuyereRefill p path) s (fun t =>
        let w := rd s (tuyReg p path)
        kGet 0 (partOf t p).credit path = min ((max 1 (wfld w 15 0) * 1024 : Nat) : Int)
          (kGet 0 (partOf s p).credit path + (min 256 (wfld w 24 16) * tuyUnit path : Nat)) ∧
        (∀ q, q ≠ p → partOf t q = partOf s q) ∧ t = { s with parts := t.parts })))

/-- R313–R315. -/
def Obligations.PreemptionRules : Prop :=
  ∀ (s : State) (p : Nat), p < nParts → Canon s →
    (∀ v, wbit v 0 = true →
      let hd := (partOf s p).head
      let ok := partState s p = 1 ∧ rflag s (rPREEMPT p) fPREEMPT_BUSY = false ∧
        (wfld v 63 32 + 2 ^ 32 - hd % 2 ^ 32) % 2 ^ 32 ≤ (ringTail s p + 2 ^ 32 - hd % 2 ^ 32) % 2 ^ 32
      (ok → Runs (.preemptGo p v) s (fun t => rflag t (rPREEMPT p) fPREEMPT_BUSY = true ∧
        rget t (rPREEMPT p) fPREEMPT_NEWPOS = wfld v 63 32 ∧
        (∃ q, (partOf t p).preempt = some q ∧ q.t0 = now s ∧ q.cores = preemptCores s p (wbit v 3)) ∧
        (∀ c x q, c < nCores → x < 4 → (ctxOf s c x).pour = some q → q.part = p → c ∈ preemptCores s p (wbit v 3) →
          beforeCommit (ctxOf s c x) = true → ctxOf t c x = abortedCtx (ctxOf s c x) 0x01 0) ∧
        (∀ c x, c ∉ preemptCores s p (wbit v 3) → ctxOf t c x = ctxOf s c x) ∧
        t = { s with regs := t.regs, parts := t.parts, cores := t.cores })) ∧
      (¬ ok → Runs (.preemptGo p v) s (fun t => OnlyRegs s t [rPREEMPT p] ∧ rflag t (rPREEMPT p) fPREEMPT_REJECT = true))) ∧
    ((partOf s p).preempt = none → Runs (.preemptComplete p) s (fun t => t = s)) ∧
    (∀ q, (partOf s p).preempt = some q →
      ((∃ c x r, c < nCores ∧ x < 4 ∧ (ctxOf s c x).pour = some r ∧ r.part = p ∧ c ∈ q.cores) →
        Runs (.preemptComplete p) s (fun t => t = s)) ∧
      ((∀ c x r, (ctxOf s c x).pour = some r → r.part = p → c ∉ q.cores) →
        Runs (.preemptComplete p) s (fun t => (partOf t p).head = q.newpos ∧ (partOf t p).preempt = none ∧
          (partOf t p).pourIdx = 0 ∧ rflag t (rPREEMPT p) fPREEMPT_BUSY = false ∧
          wfld (rd t (rPREEMPT_RESULT p)) 63 32 = min (now s - q.t0) (2 ^ 32 - 1) ∧
          wfld (rd t (rPREEMPT_RESULT p)) 31 16 = q.killed % 2 ^ 16 ∧ t.cores = s.cores ∧ SameMem s t)))

/-! ### Memory tiers and die-to-die links -/

/-- R14, R199, R200, R203, R204, R210, R319, R368. -/
def Obligations.TierRequestsAndSlots : Prop :=
  ∀ (s : State) (n c src : Nat) (r : TierReq), n < 32 → stackOf r.addr = some n → c = channelOf r.addr →
    agentOk r.agent = true → src = sourceOf n r → Canon s →
    let t0 := tctlOf s n
    let q := kGet [] (chanOf t0 c).queues src
    let down := t0.faulted = true ∨ t0.repair.isSome = true
    let pass := pathsPass s r.part (tierPaths n r) = true
    (¬ pass → Runs (.tierRequestArrival n c src r) s (fun t => t.metered = s.metered ++ [(n, r)] ∧
      t = { s with tier := t.tier, metered := t.metered } ∧ (tctlOf t n).chans = t0.chans ∧ (tctlOf t n).held = t0.held)) ∧
    (pass → down → Runs (.tierRequestArrival n c src r) s (fun t => (tctlOf t n).answers = [⟨r, 4, false⟩] ∧
      (tctlOf t n).chans = t0.chans ∧ SameMem s t ∧
      (∀ d x, r.agent = .core d x → beforeCommit (ctxOf s d x) = true → ctxOf t d x = abortedAt (ctxOf s d x) 0x04))) ∧
    (pass → ¬ down →
      ((∀ h ∈ t0.held, h.2.2.agent ≠ r.agent) → (r.data.isSome && ckptProtected s r.addr) = false →
        Runs (.tierRequestArrival n c src r) s (fun t =>
          kGet [] (chanOf (tctlOf t n) c).queues src = q ++ [r] ∧
          (∀ j, j ≠ src → kGet [] (chanOf (tctlOf t n) c).queues j = kGet [] (chanOf t0 c).queues j) ∧
          (∀ m, m ≠ n → tctlOf t m = tctlOf s m) ∧ t.parts = (pathsTake s r.part (tierPaths n r)).parts ∧
          t = { s with tier := t.tier, doze := t.doze, regs := t.regs, trc := t.trc, parts := t.parts })) ∧
      (((∃ h ∈ t0.held, h.2.2.agent = r.agent) ∨ (r.data.isSome && ckptProtected s r.addr) = true) →
        Runs (.tierRequestArrival n c src r) s (fun t =>
          (tctlOf t n).held = t0.held ++ [(c, src, r)] ∧ (tctlOf t n).chans = t0.chans ∧ SameMem s t ∧
          ((r.data.isSome && ckptProtected s r.addr) = true → pageOf r.addr ∈ t.ckpt.waiting)))) ∧
    (∀ ch busy res, ch < ctlChans n → dozeOf s (chanUnit n ch) = DozeUnit.reset →
      chanEntry s n ch % 16 ≠ 15 → kGet [] (chanOf t0 ch).queues (chanEntry s n ch % 16) = [] →
      Runs (.tierSlot n ch busy res) s (fun t => SameMem s t ∧ t.cores = s.cores ∧
        (chanOf (tctlOf t n) ch).queues = (chanOf t0 ch).queues ∧
        (chanOf (tctlOf t n) ch).slot = (chanOf t0 ch).slot + 1)) ∧
    (∀ busy, ¬ down → calActive s n = 0 → dozeOf s (chanUnit n c) = DozeUnit.reset →
      chanOf t0 c = { TChan.reset with queues := [(src, [r])] } → bankOf r.addr ∉ busy →
      let answered (t : State) (status : Nat) (poison : Bool) :=
        kGet [] (chanOf (tctlOf t n) c).queues src = [] ∧ (tctlOf t n).answers = [⟨r, status, poison⟩]
      (∀ bs, r.data = some bs → r.add = none → partialWrite r = false → r.bad = false →
        Runs (.tierSlot n c busy 0) s (fun t =>
          (∀ i, i < bs.length → tierDown s (r.addr + i) = false → memByte t (r.addr + i) = bs.getD i 0) ∧
          (∀ a, (a < r.addr ∨ r.addr + bs.length ≤ a) → memByte t a = memByte s a) ∧
          answered t 0 false ∧ t.cores = s.cores) ∧
        Runs (.tierSlot n c busy 4) s (fun t => SameMem s t ∧
          kGet [] (chanOf (tctlOf t n) c).queues src = [r] ∧ rflag t (rTIER_ERR n) fTIER_ERR_RESEND = true)) ∧
      (∀ res, r.data.isSome = true → r.bad = true → Runs (.tierSlot n c busy res) s (fun t => SameMem s t ∧
        answered t 4 false)) ∧
      (r.data = none →
        Runs (.tierSlot n c busy 0) s (fun t => SameMem s t ∧ answered t 0 false ∧ t.cores = s.cores) ∧
        Runs (.tierSlot n c busy 3) s (fun t => answered t 0 true ∧ rflag t (rTIER_ERR n) fTIER_ERR_ONDIE_UE = true ∧
          rflag t (rTIER_ERR n) fTIER_ERR_POISON = true)))

/-- R206, R208, R209. -/
def Obligations.TierCalendarRefreshTemperature : Prop :=
  ∀ (s : State) (n c : Nat), n < 32 → c < ctlChans n → Canon s →
    (∀ v, wbit v 1 = false → Runs (.tierCalArm n v) s (fun t => (tctlOf t n).armed = some 0 ∧
      rflag t (rTIER_CAL_CTRL n) fTIER_CAL_CTRL_PENDING = true ∧ (∀ o, o ≠ rTIER_CAL_CTRL n → rd t o = rd s o) ∧
      t = { s with regs := t.regs, tier := t.tier })) ∧
    (∀ v, wbit v 1 = true →
      let tgt := if calActive s n = 1 then 2 else 1
      (tierCalOk s n (tgt - 1) = true → Runs (.tierCalArm n v) s (fun t => (tctlOf t n).armed = some tgt ∧
        rflag t (rTIER_CAL_CTRL n) fTIER_CAL_CTRL_PENDING = true ∧ SameMem s t)) ∧
      (tierCalOk s n (tgt - 1) = false → Runs (.tierCalArm n v) s (fun t => OnlyRegs s t [rTIER_CAL_CTRL n] ∧
        rflag t (rTIER_CAL_CTRL n) fTIER_CAL_CTRL_BAD = true))) ∧
    ((tctlOf s n).armed = none → Runs (.tierCalActivate n) s (fun t => t = s)) ∧
    (∀ m, m < 3 → (tctlOf s n).armed = some m → Runs (.tierCalActivate n) s (fun t => calActive t n = m ∧
      (tctlOf t n).armed = none ∧ (∀ ch, (chanOf (tctlOf t n) ch).slot = 0) ∧
      rflag t (rTIER_CAL_CTRL n) fTIER_CAL_CTRL_PENDING = false ∧ SameMem s t)) ∧
    (let k := chanOf (tctlOf s n) c
     dozeOf s (chanUnit n c) = DozeUnit.reset →
      (calActive s n ≠ 0 → k.debt + 1 < 8 → Runs (.refreshDebtTick n c) s (fun t =>
        chanOf (tctlOf t n) c = { k with debt := k.debt + 1 } ∧ t = { s with tier := t.tier })) ∧
      ((if calActive s n = 0 then 1 else 8) ≤ min 8 (k.debt + 1) → Runs (.refreshDebtTick n c) s (fun t =>
        (chanOf (tctlOf t n) c).debt = min 8 (k.debt + 1) - 1 ∧
        (chanOf (tctlOf t n) c).nextBank = (k.nextBank + 1) % ctlBanks n ∧
        (∃ w, (k.nextBank, w) ∈ (chanOf (tctlOf t n) c).busy) ∧ SameMem s t))) ∧
    (∀ deg, deg < 256 → Runs (.stackTempRead n deg) s (fun t => OnlyRegs s t [rTIER_TEMP n] ∧
      rget t (rTIER_TEMP n) fTIER_TEMP_TEMP = deg ∧
      let old := rget s (rTIER_TEMP n) fTIER_TEMP_RATE
      (95 ≤ deg → rget t (rTIER_TEMP n) fTIER_TEMP_RATE = 2) ∧
      (deg < 82 → rget t (rTIER_TEMP n) fTIER_TEMP_RATE = 0) ∧
      (85 ≤ deg → deg ≤ 92 → rget t (rTIER_TEMP n) fTIER_TEMP_RATE = 1) ∧
      (92 < deg → deg < 95 → rget t (rTIER_TEMP n) fTIER_TEMP_RATE = if old = 2 then 2 else 1) ∧
      (82 < deg → deg < 85 → rget t (rTIER_TEMP n) fTIER_TEMP_RATE = if 1 ≤ old then 1 else 0))) ∧
    Runs (.stackTempLost n) s (fun t => OnlyRegs s t [rTIER_TEMP n, rTIER_ERR n] ∧
      rget t (rTIER_TEMP n) fTIER_TEMP_RATE = 2 ∧ rflag t (rTIER_ERR n) fTIER_ERR_TEMP_LOST = true)

/-- R13, R210, R211, R357. -/
def Obligations.TierFaultsAndLinks : Prop :=
  ∀ (s : State) (n : Nat), n < 32 → Canon s → s.pins.thermtrip = false →
    let t0 := tctlOf s n
    let errors := (tierWaiting t0 ++ t0.held.map (fun h => h.2.2)).map (fun r => (⟨r, 4, false⟩ : TierAns))
    let drains (t : State) := rflag t rFLT_STATE fFLT_STATE_DRAIN = true ∧
      (rflag s rFLT_STATE fFLT_STATE_DRAIN = false → t.pins.fault = true ∧ t.mram.replaceMark = true) ∧
      t.pending = s.pending
    (t0.faulted = false → Runs (.tierTrainingLoss n) s (fun t => tctlOf t n = { t0 with retraining := true } ∧
      (∀ m, m ≠ n → tctlOf t m = tctlOf s m) ∧ t = { s with tier := t.tier })) ∧
    (t0.faulted = true → Runs (.tierTrainingLoss n) s (fun t => t = s)) ∧
    (t0.retraining = false → Runs (.tierRetrainTimeout n) s (fun t => t = s)) ∧
    (t0.retraining = true → t0.faulted = false → Runs (.tierRetrainTimeout n) s (fun t =>
      (tctlOf t n).faulted = true ∧ (tctlOf t n).held = [] ∧ (∀ ch, (chanOf (tctlOf t n) ch).queues = []) ∧
      (tctlOf t n).answers = t0.answers ++ errors ∧ rflag t (rTIER_ERR n) fTIER_ERR_FAULT = true ∧ drains t)) ∧
    (∀ v, t0.repair = none → t0.faulted = false → Runs (.tierPprGo n v) s (fun t =>
      (tctlOf t n).repair = some (wfld v 63 58, wfld v 57 52, wfld v 51 36) ∧ (tctlOf t n).answers = errors ∧
      (∀ ch, (chanOf (tctlOf t n) ch).queues = []) ∧ (tctlOf t n).held = [] ∧ SameMem s t ∧
      (∀ o, o ≠ rTIER_PPR n → rd t o = rd s o))) ∧
    (t0.repair = none → ∀ ok, Runs (.tierPprComplete n ok) s (fun t => t = s)) ∧
    (∀ c b row, t0.repair = some (c, b, row) →
      Runs (.tierPprComplete n false) s (fun t => (tctlOf t n).repair = none ∧
        rflag t (rTIER_PPR n) fTIER_PPR_FAIL = true ∧ SameMem s t) ∧
      Runs (.tierPprComplete n true) s (fun t => (tctlOf t n).repair = none ∧ rflag t (rTIER_PPR n) fTIER_PPR_DONE = true ∧
        (∀ a, (∀ j, j < (if n < 24 then 4 else 8) → a < rowByteAddr n c b row (256 * j) ∨ rowByteAddr n c b row (256 * j) + 256 ≤ a) →
          memByte t a = memByte s a) ∧ t.cores = s.cores)) ∧
    (∀ l dir, l < 19 → dir < 2 →
      Runs (.d2dFrameReceive l dir true) s (fun t => kGet 0 t.d2d (2 * l + dir) = 0 ∧ t = { s with d2d := t.d2d }) ∧
      (kGet 0 s.d2d (2 * l + dir) < 8 → Runs (.d2dFrameReceive l dir false) s (fun t =>
        kGet 0 t.d2d (2 * l + dir) = kGet 0 s.d2d (2 * l + dir) + 1 ∧
        t = { s with d2d := t.d2d, regs := t.regs, trc := t.trc, flt := t.flt })) ∧
      (8 ≤ kGet 0 s.d2d (2 * l + dir) → Runs (.d2dFrameReceive l dir false) s (fun t => drains t ∧ t.cores = s.cores)) ∧
      Runs (.d2dLaneLockLoss l) s (fun t => drains t ∧ t.cores = s.cores))

/-! ### Erg ports -/

/-- No request waits at port `p`: what waits there is a multicast copy or no request, and is dropped when the port
goes DOWN (R226, R248). -/
def noRequestWaits (s : State) (p : Nat) : Prop := ∀ k ∈ portWaiting s p, k.mc = true ∨ isRequest k.ty = false

/-- R213, R223, R237. -/
def Obligations.ErgPortStates : Prop :=
  ∀ (s : State) (p : Nat), p < 12 → Canon s →
    let same (t : State) := SameMem s t ∧ t.cores = s.cores ∧ ∀ q, q ≠ p → eportOf t q = eportOf s q
    let goesDown (i : Instr) (cause : Nat) := noRequestWaits s p → Runs i s (fun t => same t ∧ portState t p = 0 ∧
      rget t (rPORT_STATUS p) fPORT_STATUS_DOWN_CAUSE = cause ∧ rflag t (rPORT_STATUS p) fPORT_STATUS_DOWN_EVENT = true ∧
      (eportOf t p).link = Link.reset ∧ (eportOf t p).tx = none ∧
      ∀ cl, cl < 8 → kGet [] (eportOf t p).txq cl = [])
    (portState s p = 0 → rflag s (rPORT_CTRL p) fPORT_CTRL_DISABLE = false → Runs (.portCtrlRetrain p) s (fun t =>
      portState t p = 1 ∧ t = { s with regs := t.regs })) ∧
    (portState s p = 1 → (∀ rtt, goesDown (.portTrainingComplete p false rtt) 5) ∧
      ∀ rtt, rtt < 0x1000 → Runs (.portTrainingComplete p true rtt) s (fun t => same t ∧ portState t p = 2 ∧
        rget t (rPORT_STATUS p) fPORT_STATUS_RTT = rtt ∧
        (eportOf t p).credit = List.replicate 8 1024 ∧ (eportOf t p).link = Link.reset ∧ (eportOf t p).rxq = [] ∧
        rd t (rPORT_PEER p) = (match (eportOf s p).peer with
          | some (node, port, valid) => BitVec.ofNat 64 (node * 2 ^ 48 + port * 2 ^ 44 + b2n valid)
          | none => 0))) ∧
    (portState s p = 2 → ∀ ok rtt, Runs (.portTrainingComplete p ok rtt) s (fun t => t = s)) ∧
    (portState s p = 2 → goesDown (.portCtrlDisable p) 1) ∧
    (portState s p = 2 → portDozes s p = false → goesDown (.ergLaneLockLoss p) 2 ∧
      ((eportOf s p).link.replay ≠ [] → goesDown (.ergAckStall p) 4)) ∧
    ((portState s p ≠ 2 ∨ portDozes s p = true) → Runs (.ergLaneLockLoss p) s (fun t => t = s) ∧
      Runs (.ergAckStall p) s (fun t => t = s)) ∧
    (∀ v, wbit v 1 = false → Runs (.portCalArm p v) s (fun t => same t ∧ (eportOf t p).armed = some 0 ∧
      rflag t (rPORT_CAL_CTRL p) fPORT_CAL_CTRL_PENDING = true)) ∧
    ((eportOf s p).armed = none → Runs (.portCalActivate p) s (fun t => t = s)) ∧
    (∀ m, m < 3 → (eportOf s p).armed = some m → Runs (.portCalActivate p) s (fun t => same t ∧
      (eportOf t p).armed = none ∧ (eportOf t p).slot = 0 ∧ rget t (rPORT_CAL_CTRL p) fPORT_CAL_CTRL_ACTIVE = m ∧
      rflag t (rPORT_CAL_CTRL p) fPORT_CAL_CTRL_PENDING = false)) ∧
    (∀ v, Runs (.fabNodeWrite v) s (fun t => OnlyRegs s t [rFAB_NODE] ∧ nodeId t = wfld v 15 0 ∧
      (0x3FFF < wfld v 15 0 → rflag t rFAB_NODE fFAB_NODE_VALID = false)))

/-- R216, R221, R222, R223, R236. -/
def Obligations.ErgLinkLayer : Prop :=
  ∀ (s : State) (p : Nat), p < 12 → Canon s →
    let e := eportOf s p
    let l := e.link
    let same (t : State) := t = { s with erg := t.erg, regs := t.regs, trc := t.trc, flt := t.flt } ∧
      ∀ q, q ≠ p → eportOf t q = eportOf s q
    (portState s p ≠ 2 → ∀ n credits, Runs (.link p credits) s (fun t => t = s) ∧
      ((portState s p = 0 → portWaiting s p = []) → Runs (.ergRetryRequest p n) s (fun t => t = s))) ∧
    (portState s p = 0 → portWaiting s p = [] →
      Runs (.ergFrameSend p) s (fun t => same t ∧ eportOf t p = { e with slot := e.slot + 1, tx := none }) ∧
      (∀ f fixed, Runs (.ergFrameReceive p ⟨f, fixed⟩) s (fun t => t = s))) ∧
    (portState s p = 1 → looped s p = false →
      Runs (.ergFrameSend p) s (fun t => same t ∧ (eportOf t p).link = l ∧
        (eportOf t p).tx = some (mkFrame 2 0 l.rxLast [trainFlit (nodeId s) p (fabValid s)])) ∧
      (∀ f, frameKind f = 2 → Runs (.ergFrameReceive p ⟨some f, false⟩) s (fun t => same t ∧
        eportOf t p = { e with peer := some (trainPeer f) })) ∧
      (∀ f, frameKind f ≠ 2 → Runs (.ergFrameReceive p ⟨some f, false⟩) s (fun t => t = s))) ∧
    (portState s p = 2 → portDozes s p = true → looped s p = false →
      Runs (.ergFrameSend p) s (fun t => (eportOf t p).tx = none ∧ (eportOf t p).link = l ∧ (eportOf t p).txq = e.txq) ∧
      (∀ f fixed, Runs (.ergFrameReceive p ⟨f, fixed⟩) s (fun t => t = wakeUnit s (3040 + p))) ∧
      (∀ n, Runs (.ergRetryRequest p n) s (fun t => t = wakeUnit s (3040 + p)))) ∧
    (portState s p = 2 → portDozes s p = false → looped s p = false →
      (l.retryOwed = true → Runs (.ergFrameSend p) s (fun t => same t ∧
        (eportOf t p).tx = some (mkFrame 1 ((l.rxLast + 1) % 512) l.rxLast []) ∧
        (eportOf t p).link = { l with retryOwed := false } ∧ (eportOf t p).txq = e.txq)) ∧
      (l.retryOwed = false → ∀ q fl, l.resend = some q → l.replay.find? (fun r => r.1 = q) = some (q, fl) →
        Runs (.ergFrameSend p) s (fun t => same t ∧ (eportOf t p).tx = some (mkFrame 0 q l.rxLast fl) ∧
          (eportOf t p).link.replay = l.replay ∧ (eportOf t p).txq = e.txq)) ∧
      (l.retryOwed = false → l.resend = none → l.replay.length < 256 →
        Runs (.ergFrameSend p) s (fun t => same t ∧ ∃ fl, (eportOf t p).tx = some (mkFrame 0 l.nextSeq l.rxLast fl) ∧
          fl.length ≤ 16 ∧ (eportOf t p).link.replay = l.replay ++ [(l.nextSeq, fl)] ∧
          (eportOf t p).link.nextSeq = (l.nextSeq + 1) % 512 ∧ (eportOf t p).slot = e.slot + 1 ∧
          (∀ cl, (eportOf t p).credit.getD cl 0 ≤ e.credit.getD cl 0) ∧
          (e.txq = [] → e.carry = none → e.due = List.replicate 8 0 → e.beaconDue = false → fl = []))) ∧
      (l.retryOwed = false → l.resend = none → 256 ≤ l.replay.length →
        Runs (.ergFrameSend p) s (fun t => same t ∧
          (eportOf t p).tx = some (mkFrame 0 ((l.nextSeq + 255) % 512) l.rxLast []) ∧ (eportOf t p).link = l ∧
          (eportOf t p).txq = e.txq)) ∧
      Runs (.ergFrameReceive p ⟨none, false⟩) s (fun t => same t ∧
        eportOf t p = { e with link := { l with retryOwed := true } }) ∧
      (∀ f, frameKind f = 0 →
        (∀ part ks, frameSeq f = (l.rxLast + 1) % 512 → readPackets e.rxPart f.flits = (part, ks, true) →
          Runs (.ergFrameReceive p ⟨some f, false⟩) s (fun t => same t ∧ (eportOf t p).rxq = e.rxq ++ ks ∧
            (eportOf t p).rxPart = part ∧ (eportOf t p).link.rxLast = frameSeq f ∧
            (eportOf t p).link.retryOwed = false)) ∧
        (frameSeq f = (l.rxLast + 1) % 512 → (readPackets e.rxPart f.flits).2.2 = false →
          Runs (.ergFrameReceive p ⟨some f, false⟩) s (fun t => same t ∧
            eportOf t p = { e with link := { l with retryOwed := true } })) ∧
        (frameSeq f ≠ (l.rxLast + 1) % 512 → Runs (.ergFrameReceive p ⟨some f, false⟩) s (fun t => same t ∧
          (eportOf t p).rxq = e.rxq ∧ (eportOf t p).link.rxLast = l.rxLast))) ∧
      (∀ n, (∀ f ∈ l.replay, f.1 ≠ n) → Runs (.ergRetryRequest p n) s (fun t => t = s)) ∧
      (∀ n fl, (n, fl) ∈ l.replay →
        ((l.failSeq ≠ n ∨ l.fails = 0) → Runs (.ergRetryRequest p n) s (fun t => same t ∧
          eportOf t p = { e with link := { l with resend := some n, failSeq := n, fails := 1 } })) ∧
        (l.failSeq = n → 0 < l.fails → l.fails < 8 → Runs (.ergRetryRequest p n) s (fun t => same t ∧
          eportOf t p = { e with link := { l with resend := some n, failSeq := n, fails := l.fails + 1 } })) ∧
        (l.failSeq = n → 8 ≤ l.fails → noRequestWaits s p → Runs (.ergRetryRequest p n) s (fun t => portState t p = 0 ∧
          rget t (rPORT_STATUS p) fPORT_STATUS_DOWN_CAUSE = 3))) ∧
      (∀ credits, fabValid s = true → Runs (.link p credits) s (fun t => same t ∧ (eportOf t p).link = l ∧
        ∀ cl, cl < 8 → (eportOf t p).credit.getD cl 0 = min 1024 (e.credit.getD cl 0 + credits.getD cl 0))) ∧
      (∀ credits, fabValid s = false → Runs (.link p credits) s (fun t => same t ∧ (eportOf t p).credit = e.credit)))

/-! ### Packets, collectives, multicast and quenches -/

/-- The port, packet and packet type of a row of packets that arrive, and whether it is a request this
device answers. -/
def arrival (i : Instr) : Option (Nat × Packet × Nat × Bool) :=
  match i with
  | .rd p k => some (p, k, 0x08, true)
  | .wr p k => some (p, k, 0x09, true)
  | .atomicAdd p k => some (p, k, 0x0A, true)
  | .mcastWr p k => some (p, k, 0x0C, true)
  | .redWr p k => some (p, k, 0x0D, true)
  | .redRes p k => some (p, k, 0x0E, true)
  | .commitNotice p k => some (p, k, 0x10, true)
  | .rdRsp p k => some (p, k, 0x20, false)
  | .wrAck p k => some (p, k, 0x21, false)
  | .atomicRsp p k => some (p, k, 0x22, false)
  | .noticeAck p k => some (p, k, 0x23, false)
  | .quenchAck p k => some (p, k, 0x24, false)
  | _ => none

/-- R213, R223, R225, R226, R232, R248. -/
def Obligations.PacketsArrive : Prop :=
  ∀ (i : Instr) (s : State) (p : Nat) (k : Packet) (ty : Nat) (req : Bool), arrival i = some (p, k, ty, req) → p < 12 →
    let q := { k with ty := ty }
    let s0 := takeRx s p q
    let counts (t : State) := t = { s0 with regs := t.regs, trc := t.trc } ∧ OnlyCounters s0 t
    let served (u : State) := Runs i s (fun t =>
      ∀ v, (∀ a, handleAny u (.port p) q = (v, some a) → t = sendFree v (p / 6) a) ∧
        (handleAny u (.port p) q = (v, none) → t = v))
    (portState s p ≠ 2 → Runs i s (fun t => t = s) ∧ Runs (.packetForward p q) s (fun t => t = s)) ∧
    (portState s p = 2 → fabValid s = false → Runs i s counts ∧ Runs (.packetForward p q) s counts) ∧
    (portState s p = 2 → fabValid s = true → k.dst = 0xFFFF → Runs i s counts) ∧
    (portState s p = 2 → fabValid s = true → k.dst ≠ 0xFFFF →
      (aged s q = true → Runs i s counts) ∧
      (aged s q = false → k.mc = false → k.dst ≠ nodeId s →
        (∀ o, routeOf s k.dst k.tc = some o →
          let sent (t : State) := t = enq s0 (4 + p / 6) o q
          Runs i s sent ∧ Runs (.packetForward p q) s sent) ∧
        (routeOf s k.dst k.tc = none →
          let back (t : State) := if isRequest ty = true then t = sendFree s0 (p / 6) (answerOf s0 q 6 [] 0) else counts t
          Runs i s back ∧ Runs (.packetForward p q) s back)) ∧
      (aged s q = false → k.mc = false → k.dst = nodeId s → req = true → served s0) ∧
      (aged s q = false → k.mc = false → k.dst = nodeId s → req = false → reqFor s0 q = none → Runs i s counts) ∧
      (aged s q = false → k.mc = true → k.dst < 0x1000 →
        let u := replicate s0 (4 + p / 6) q
        (mcastLocal s k.dst = false → Runs i s (fun t => t = u) ∧ Runs (.packetForward p q) s (fun t => t = u)) ∧
        (mcastLocal s k.dst = true → req = true → served u)))

/-- R227–R229, R234, R235, R243, R244, R477 for tier memory. -/
def Obligations.RequestsPerformed : Prop :=
  ∀ (s : State) (p : Nat) (k : Packet), p < 12 → Canon s → portState s p = 2 → fabValid s = true → k.mc = false →
    k.dst = nodeId s → k.dst ≠ 0xFFFF → (∀ ty w3, aged s { k with ty := ty, w3 := w3 } = false) →
    let pk (ty : Nat) : Packet := { k with ty := ty }
    let at_ (ty : Nat) : State := takeRx s p (pk ty)
    let n := (payloadBytes k.payload).length
    let back (i : Instr) (ty status : Nat) (pl : List (Word × Bool)) (w3 : Word) (P : State → Prop) :=
      Runs i s (fun t => ∃ u, t = sendFree u (p / 6) (answerOf (at_ ty) (pk ty) status pl w3) ∧ P u)
    let onlyStored (ty a : Nat) (bs : List Byte) (u : State) :=
      (∀ i, i < bs.length → memByte u (a + i) = bs.getD i 0) ∧
      (∀ b, (b < a ∨ a + bs.length ≤ b) → memByte u b = memByte s b) ∧
      OnlyCounters s u ∧ (k.src ≠ nodeId s → u.cores = s.cores) ∧ u.erg = (at_ ty).erg
    let stores (i : Instr) (ty : Nat) :=
      ((payloadBad k.payload = true ∨ writeFails s k.addr n = true) →
        back i ty 4 [] 0 (fun u => u = countDev (at_ ty) 0x4704 1)) ∧
      (payloadBad k.payload = false → writeFails s k.addr n = false →
        back i ty 0 [] 0 (onlyStored ty k.addr (payloadBytes k.payload)))
    (∀ part, reqCheck (at_ 0x08) (pk 0x08) = (0, part) →
      (tierDown s k.addr = true → back (.rd p k) 0x08 4 [] 0 (fun u => u = at_ 0x08)) ∧
      (tierDown s k.addr = false → openHit s [] k.addr (32 * wfld k.w3 3 0) = [] →
        back (.rd p k) 0x08 0 (memWords s k.addr (4 * wfld k.w3 3 0)) 0 (fun u => u = at_ 0x08))) ∧
    (∀ part, reqCheck (at_ 0x09) (pk 0x09) = (0, part) → isTier k.addr = true → stores (.wr p k) 0x09) ∧
    (∀ part, reqCheck (at_ 0x0C) (pk 0x0C) = (0, part) → isTier k.addr = true → stores (.mcastWr p k) 0x0C) ∧
    (∀ part, reqCheck (at_ 0x0E) (pk 0x0E) = (0, part) → isTier k.addr = true → matchGroup s k.addr = .ok none →
      stores (.redRes p k) 0x0E) ∧
    (∀ part, reqCheck (at_ 0x0A) (pk 0x0A) = (0, part) → k.payload.length = 4 →
      ((memBadIn s k.addr 32 = true ∨ payloadBad k.payload = true) →
        back (.atomicAdd p k) 0x0A 4 [] 0 (fun u => u = at_ 0x0A)) ∧
      (memBadIn s k.addr 32 = false → payloadBad k.payload = false → openHit s [] k.addr 32 = [] →
        let old := memBytes s k.addr 32
        let r := atomicAdd (wfld k.w3 63 61) old (payloadBytes k.payload)
        back (.atomicAdd p k) 0x0A 0 (if wbit k.w3 60 then asWords old else []) (BitVec.ofNat 64 (b2n r.2))
          (onlyStored 0x0A k.addr r.1))) ∧
    (∀ part, reqCheck (at_ 0x10) (pk 0x10) = (0, part) →
      let ctr := rNOTICE_CTR part (wfld k.w3 31 28)
      back (.commitNotice p k) 0x10 0 [] 0 (fun u => OnlyRegs (at_ 0x10) u [ctr] ∧
        rget u ctr fNOTICE_CTR_VALUE = (rget s ctr fNOTICE_CTR_VALUE + 1) % 2 ^ 32)) ∧
    (let g := bitsOf k.addr 46 39
     let m := bitsOf k.addr 38 19
     let c := bitsOf k.addr 18 0
     let d := readGroup s g
     ∀ node mm hi, ctlState s ≠ 2 → malformed (pk 0x0D) = false → d.valid = true → memBadIn s (groupAddr s g) 64 = false →
      groupOk s d = true → m < d.n → c < chunkCount d → partState s d.part = 1 → jobSrcOk s (pk 0x0D) d.part = true →
      payloadBad k.payload = false → memberNode s d m = some node → isSelf s node = true →
      parentNode d.n m (m + 1) = some (m, mm, hi) →
      back (.redWr p k) 0x0D 0 [] 0 (fun u => ∃ x : Chunk, x.group = g ∧ x.chunk = c ∧ x.a = m ∧ x.b = m + 1 ∧
        x.vals = redVals d.lfmt (min 64 (d.e - 64 * c)) (payloadBytes k.payload) ∧
        x.flag = (decide (bitsOf k.addr 47 47 = 1) || (d.op ≠ 2 && x.vals.any special32)) ∧
        u = { at_ 0x0D with free := s.free + 1,
                            erg := { (at_ 0x0D).erg with staging := s.erg.staging ++ [x] } })) ∧
    (∀ part act, (act = 1 ∨ act = 2) →
      let q : Packet := { k with ty := 0x11, w3 := wput k.w3 31 30 act }
      let s0 := takeRx s p q
      reqCheck s0 q = (0, part) →
      Runs (if act = 1 then .release p k else .discard p k) s (fun t =>
        let r := applyQuench s0 part (wfld q.w3 63 32) act k.src
        t = sendFree r.1 (p / 6) (answerOf r.1 q r.2 [] 0))) ∧
    (∀ i ty st part, arrival i = some (p, k, ty, true) → ty ≠ 0x0D → reqCheck (at_ ty) (pk ty) = (st, part) → st ≠ 0 →
      back i ty st [] 0 (fun u => u = refuse (at_ ty) (p / 6) (pk ty) st))

/-- R232, R233, R330. -/
def Obligations.ResponsesAndTimeouts : Prop :=
  ∀ (s : State) (p : Nat) (k : Packet), p < 12 → Canon s → portState s p = 2 → fabValid s = true → k.mc = false →
    k.dst = nodeId s → k.dst ≠ 0xFFFF → (∀ ty, aged s { k with ty := ty } = false) →
    (∀ i ty, arrival i = some (p, k, ty, false) →
      let q := { k with ty := ty }
      let s0 := takeRx s p q
      ∀ r, reqFor s0 q = some r → r.pkt.mc = false →
        Runs i s (fun t => t = respFor s0 r (asAwaited r q)) ∧
        (∀ n, k.status = 0 → r.wait = [n] →
          ((r.origin = .pour ∧ r.spmAt = none ∧ r.fill = none ∧ payloadBad k.payload = false) ∨
            (∃ g, r.origin = .engine g) ∨ (∃ a b st, r.origin = .notice a b st)) →
          Runs i s (fun t => t = { s0 with ergReqs := s.ergReqs.erase r })) ∧
        (r.origin = .pour → r.core < nCores → r.ctx < 4 → beforeCommit (ctxOf s r.core r.ctx) = true → k.status ≠ 0 →
          Runs i s (fun t => t = { s0 with cores := t.cores, ergReqs := s.ergReqs.erase r } ∧
            (∀ c, c ≠ r.core → coreOf t c = coreOf s c) ∧
            coreOf t r.core = { coreOf s r.core with ctxs := (coreOf t r.core).ctxs } ∧
            ctxOf t r.core r.ctx = abortedCtx (ctxOf s r.core r.ctx) 0x14 0 ∧
            ∀ y, y ≠ r.ctx → ctxOf t r.core y = ctxOf s r.core y)) ∧
        (∀ n off pitch len tok, k.status = 0 → r.wait = [n] → r.origin = .pour → payloadBad k.payload = false →
          r.spmAt = some (off, pitch, len, 0) → r.fill = some tok →
          smWf (fun _ => Tok.empty) (coreOf s r.core).toks = true →
          smWf (spmDflt (coreOf s r.core)) (coreOf s r.core).spm = true → (coreOf s r.core).spmBad = [] →
          let bs := payloadBytes k.payload
          bs ≠ [] → bs.length ≤ len → rangeServed s r.core 0xD off bs.length = true → rangeOn s r.core off bs.length = true →
          (∀ h ∈ s.erg.ext, r.core ∉ h.cores) → tokOf (coreOf s r.core) tok = .filling →
          (∀ x ∈ s.ergReqs.erase r, x.core = r.core → x.fill ≠ some tok) →
          Runs i s (fun t => t.ergReqs = s.ergReqs.erase r ∧ tokOf (coreOf t r.core) tok = .full ∧
            (∀ j, j < bs.length → spmByte (coreOf t r.core) (off + j) = bs.getD j 0) ∧
            SpmOutside s t r.core off (off + bs.length) ∧ SameMem s t)) ∧
        (∀ n hub, hub < 2 → k.status = 0 → r.wait = [n] → r.origin = .quench hub →
          rflag s (rFAB_QSTATUS hub) fFAB_QSTATUS_BUSY = true → rget s (rFAB_QSTATUS hub) fFAB_QSTATUS_OK < 0xFFFF →
          (quenchAcks s hub + 1 < rget s (rFAB_QSTATUS hub) fFAB_QSTATUS_EXPECTED →
            Runs i s (fun t => OnlyRegs { s0 with ergReqs := s.ergReqs.erase r } t [rFAB_QSTATUS hub] ∧
              rget t (rFAB_QSTATUS hub) fFAB_QSTATUS_OK = rget s (rFAB_QSTATUS hub) fFAB_QSTATUS_OK + 1 ∧
              rflag t (rFAB_QSTATUS hub) fFAB_QSTATUS_BUSY = true)) ∧
          (rget s (rFAB_QSTATUS hub) fFAB_QSTATUS_EXPECTED ≤ quenchAcks s hub + 1 →
            Runs i s (fun t => rflag t (rFAB_QSTATUS hub) fFAB_QSTATUS_BUSY = false ∧
              rget t (rFAB_QSTATUS hub) fFAB_QSTATUS_OK = rget s (rFAB_QSTATUS hub) fFAB_QSTATUS_OK + 1 ∧ SameMem s t)))) ∧
    (∀ tag, (∀ r ∈ s.ergReqs, r.pkt.tag ≠ tag) → Runs (.requestTimeout tag) s (fun t => t = s) ∧
      Runs (.caravanForwardTimeout tag) s (fun t => t = s)) ∧
    (∀ tag r, s.ergReqs.find? (fun r => r.pkt.tag = tag) = some r → r.origin = .pour → r.pkt.mc = false →
      beforeCommit (ctxOf s r.core r.ctx) = true → Runs (.requestTimeout tag) s (fun t =>
        ctxOf t r.core r.ctx = abortedCtx (ctxOf s r.core r.ctx) 0x14 0 ∧
        (∀ y, y ≠ r.ctx → ctxOf t r.core y = ctxOf s r.core y) ∧ (∀ c, c ≠ r.core → coreOf t c = coreOf s c) ∧
        t = { s with cores := t.cores, ergReqs := s.ergReqs.erase r })) ∧
    (∀ tag r f, s.ergReqs = [r] → r.pkt.tag = tag → r.origin = .caravan → r.pkt.mc = false → s.ctl.fwd = [f] → f.ergTag = tag →
      f.port < 2 → f.tag ∈ (cportOf s f.port).open_ →
      let done (t : State) := t.ergReqs = [] ∧ t.ctl.fwd = [] ∧ t.mem = s.mem ∧ t.cores = s.cores ∧
        ∃ m : CMsg, (cportOf t f.port).txq = (cportOf s f.port).txq ++ [m] ∧ m.tag = f.tag ∧ m.status = 0xF ∧
          m.ty = (if f.isRead then 0x23 else 0x22) ∧ m.payload = []
      Runs (.caravanForwardTimeout tag) s done ∧ Runs (.requestTimeout tag) s done)

/-- R235, R244, R247, R249. -/
def Obligations.CollectivesAndMulticast : Prop :=
  ∀ (s : State) (hub g c : Nat), hub < 2 → g < 256 → Canon s →
    let d := readGroup s g
    (g % 2 ≠ hub → Runs (.reductionCombine hub g c) s (fun t => t = s) ∧ Runs (.collSiblingTimeout hub g c) s (fun t => t = s)) ∧
    (g % 2 = hub → s.erg.staging = [] → Runs (.reductionCombine hub g c) s (fun t => t = s) ∧
      Runs (.collSiblingTimeout hub g c) s (fun t => t = s)) ∧
    (∀ x y m hi, g % 2 = hub → s.erg.staging = [x, y] → x.group = g → y.group = g → x.chunk = c → y.chunk = c →
      parentNode d.n x.a x.b = some (x.a, m, hi) → y.a = m → y.b = hi →
      Runs (.reductionCombine hub g c) s (fun t =>
        t = stageAdd { s with erg := { s.erg with staging := [] } } g d (combineChunk d (now s) x y)) ∧
      (∀ lo mm hh, parentNode d.n x.a hi = some (lo, mm, hh) → memberNode s d lo ≠ none → x.a = lo →
        Runs (.reductionCombine hub g c) s (fun t =>
          t = { s with erg := { s.erg with staging := [combineChunk d (now s) x y] } })) ∧
      Runs (.collSiblingTimeout hub g c) s (fun t => t = s)) ∧
    (∀ x, g % 2 = hub → s.erg.staging = [x] → x.group = g → x.chunk = c → ¬ (x.a = 0 ∧ x.b = d.n) →
      Runs (.collSiblingTimeout hub g c) s (fun t => t = collFail s d.part g x.a 0 true) ∧
      Runs (.reductionCombine hub g c) s (fun t => t = s)) ∧
    (∀ m, m < 0x1000 → (mcastReqs s m = [] → Runs (.mcastLagTimeout m) s (fun t => t = s)) ∧
      ((∀ d ∈ (tidyDrops s).erg.dropped, d.group = m → d.resent = true) →
        Runs (.mcastResend m) s (fun t => t = tidyDrops s)) ∧
      (∀ d, (tidyDrops s).erg.dropped.find? (fun d => d.group = m && !d.resent) = some d →
        ((∃ r ∈ mcastReqs s m, r.xfer = d.xfer ∧ r.sent = false) → Runs (.mcastResend m) s (fun t => t = tidyDrops s)) ∧
        ((∀ r ∈ mcastReqs s m, r.xfer = d.xfer → r.sent = true) → fabValid s = true →
          Runs (.mcastResend m) s (fun t => SameMem s t ∧
            t.erg.dropped = (tidyDrops s).erg.dropped.map (fun e =>
              if e.group = m ∧ e.xfer = d.xfer then { e with resent := true } else e)))) ∧
      (∀ r nxt, mcastReqs s m = [r, nxt] → r.sent = true → nxt.sent = false → liveWait s r ≠ [] →
        64 < windowFlits s m + pktFlits nxt.pkt → Runs (.mcastLagTimeout m) s (fun t =>
          ∀ j ∈ liveWait s r, ⟨m, j, r.xfer, now s, false⟩ ∈ t.erg.dropped))) ∧
    (∀ v, rflag s (rFAB_QSTATUS hub) fFAB_QSTATUS_BUSY = true → Runs (.fabQsendGo hub v) s (fun t =>
      OnlyRegs s t [rFAB_QSEND hub])) ∧
    (∀ v, rflag s (rFAB_QSTATUS hub) fFAB_QSTATUS_BUSY = false → wbit v 15 = false → wfld v 31 16 ≠ 0xFFFF →
      isSelf s (wfld v 31 16) = false → Runs (.fabQsendGo hub v) s (fun t =>
        rflag t (rFAB_QSTATUS hub) fFAB_QSTATUS_BUSY = true ∧ rget t (rFAB_QSTATUS hub) fFAB_QSTATUS_EXPECTED = 1 ∧
        quenchAcks t hub = 0 ∧ t.cores = s.cores ∧
        (∃ r, t.ergReqs = s.ergReqs ++ [r] ∧ r.origin = .quench hub ∧ r.wait = [wfld v 31 16] ∧ r.pkt.ty = 0x11 ∧
          r.pkt.dst = wfld v 31 16) ∧ SameMem s t)) ∧
    (rflag s (rFAB_QSTATUS hub) fFAB_QSTATUS_BUSY = false → Runs (.quenchAckTimeout hub) s (fun t => t = s)) ∧
    (rflag s (rFAB_QSTATUS hub) fFAB_QSTATUS_BUSY = true → Runs (.quenchAckTimeout hub) s (fun t =>
      rflag t (rFAB_QSTATUS hub) fFAB_QSTATUS_BUSY = false ∧ rflag t (rFAB_QSTATUS hub) fFAB_QSTATUS_TIMED_OUT = true ∧
      SameMem s t ∧ t.cores = s.cores ∧ t.ergReqs = s.ergReqs.filter (fun r => r.origin ≠ .quench hub)))

/-! ### The time base and the Caravan link -/

/-- R250–R253, R255. -/
def Obligations.TimeBaseIsCorrected : Prop :=
  ∀ s : State, Canon s →
    (∀ p k, p < 12 → portState s p ≠ 2 → Runs (.beacon p k) s (fun t => t = s)) ∧
    (∀ p k, p < 12 → portState s p = 2 → (fabValid s = false ∨ rget s rTIME_CTRL fTIME_CTRL_PARENT ≠ p) →
      Runs (.beacon p k) s (fun t => t = { s with erg := t.erg, regs := t.regs, trc := t.trc } ∧ OnlyCounters s t)) ∧
    (∀ p k, p < 12 → portState s p = 2 → fabValid s = true → rget s rTIME_CTRL fTIME_CTRL_PARENT = p →
      let off := beaconOffset s p (k.job * 2 ^ 48 + k.addr)
      let step : Int := rget s rTIME_CTRL fTIME_CTRL_STEP_NS
      let period : Int := max 1 (rget s rTIME_CTRL fTIME_CTRL_PERIOD_US * 1000)
      Runs (.beacon p k) s (fun t =>
        t = { s with erg := t.erg, regs := t.regs, recq := t.recq, time := t.time } ∧
        rget t rTIME_STATUS fTIME_STATUS_OFFSET = wrapTo 32 off ∧
        (-5 ≤ off → off ≤ 5 → 7 ≤ s.time.good → timeState t = 2) ∧
        ((off < -5 ∨ 5 < off) → timeState t = 1 ∧ t.time.good = 0) ∧
        (-step ≤ off → off ≤ step → now t = now s ∧ t.time.half = 0 ∧ t.recq = s.recq ∧ (t.time.slewLeft : Int) = period ∧
          t.time.rate + t.time.slew = clampSlew (t.time.rate + off * 2 ^ 32 / period) ∧
          -slewMax ≤ t.time.rate ∧ t.time.rate ≤ slewMax ∧
          -slewMax ≤ t.time.rate + t.time.slew ∧ t.time.rate + t.time.slew ≤ slewMax) ∧
        (step < off → now t = (now s + off.toNat) % 2 ^ 64) ∧
        (off < -step → now t = now s ∧ t.time.half = 2 * (-off - step).toNat) ∧
        ((step < off ∨ off < -step) → rflag t rTIME_STATUS fTIME_STATUS_STEP = true ∧
          Raises s t 0x0A [rd t rTIME_STATUS]))) ∧
    (∀ p, p < 12 → fabValid s = true → (timeState s = 2 ∨ isMaster s = true) → wbit (rd s rTIME_CTRL) (20 + p) = true →
      portState s p = 2 → Runs (.beaconSend p) s (fun t => t = { s with erg := t.erg } ∧
        eportOf t p = { eportOf s p with beaconDue := true } ∧ ∀ q, q ≠ p → eportOf t q = eportOf s q)) ∧
    (∀ p, p < 12 → (fabValid s = false ∨ portState s p ≠ 2 ∨ wbit (rd s rTIME_CTRL) (20 + p) = false ∨
        (timeState s ≠ 2 ∧ isMaster s = false)) → Runs (.beaconSend p) s (fun t => t = s)) ∧
    (∀ p, p < 12 → portState s p = 2 → portDozes s p = false → looped s p = false → fabValid s = true →
      let e := eportOf s p
      e.beaconDue = true → e.carry = none → e.link.retryOwed = false → e.link.resend = none → e.link.replay.length < 256 →
      7 ≤ slotEntry s p → 0 < e.credit.getD 7 0 → Runs (.ergFrameSend p) s (fun t => ∃ q fl,
        (eportOf t p).tx = some (mkFrame 0 e.link.nextSeq e.link.rxLast (headFlit q :: fl)) ∧
        (eportOf t p).beaconDue = false ∧ q.ty = 0x12 ∧ q.tc = 7 ∧ q.mc = false ∧ q.payload = [] ∧
        q.dst = rget s (rPORT_PEER p) fPORT_PEER_NODE ∧ q.src = nodeId s ∧ q.job * 2 ^ 48 + q.addr = now s)) ∧
    ((timeState s = 1 ∨ timeState s = 2) → Runs .beaconTimeout s (fun t =>
      t = { s with regs := t.regs, recq := t.recq, time := t.time } ∧ timeState t = 3 ∧ now t = now s ∧
      t.time.rate = s.time.rate ∧ t.time.slew = 0 ∧ t.time.half = 0 ∧ rflag t rTIME_STATUS fTIME_STATUS_HOLDOVER_EVENT = true ∧
      Raises s t 0x0B [rd t rTIME_STATUS])) ∧
    (timeState s ≠ 1 → timeState s ≠ 2 → Runs .beaconTimeout s (fun t => t = s)) ∧
    (∀ v : Word, (timeState s = 0 ∨ isMaster s = true) → now s < v.toNat → Runs (.timeSet v) s (fun t =>
      nowW t = v ∧ t = { s with time := { s.time with now := t.time.now, frac := 0 } })) ∧
    (∀ v : Word, (v.toNat ≤ now s ∨ (timeState s ≠ 0 ∧ isMaster s = false)) → Runs (.timeSet v) s (fun t =>
      OnlyRegs s t [rTIME_STATUS] ∧ rflag t rTIME_STATUS fTIME_STATUS_SET_REJECT = true ∧
      rget t rTIME_STATUS fTIME_STATUS_OFFSET = rget s rTIME_STATUS fTIME_STATUS_OFFSET ∧ timeState t = timeState s))

/-- R223, R325, R330, R337, R343. -/
def Obligations.CaravanPortStates : Prop :=
  ∀ (s : State) (k : Nat), k < 2 → Canon s →
    let other := 1 - k
    let goesDown (i : Instr) (cause : Nat) := Runs i s (fun t =>
      t = { s with regs := t.regs, recq := t.recq, ctl := t.ctl } ∧ cportState t k = 0 ∧
      rget t (rCTL_PORT k) fCTL_PORT_DOWN_CAUSE = cause ∧ rflag t (rCTL_PORT k) fCTL_PORT_DOWN_EVENT = true ∧
      cportOf t k = CPort.reset ∧ cportOf t other = cportOf s other ∧
      t.ctl.fwd = s.ctl.fwd.filter (fun f => f.port ≠ k) ∧ t.ctl.hbDeadline = s.ctl.hbDeadline ∧
      (activePort s = k → cportUp s other = true → activePort t = other ∧
        Raises s t 0x11 [rd t (rCTL_PORT other)]) ∧
      ((activePort s ≠ k ∨ cportUp s other = false) → activePort t = activePort s ∧ t.recq = s.recq))
    (cportState s k = 0 → rflag s (rCTL_PORT k) fCTL_PORT_DISABLE = false → Runs (.ctlPortRetrain k) s (fun t =>
      cportState t k = 1 ∧ OnlyRegs s t [rCTL_PORT k])) ∧
    (cportState s k = 1 →
      (∀ rtt, goesDown (.caravanTrainingComplete k false rtt) 5) ∧ (∀ rtt, rtt < 0x1000 → Runs (.caravanTrainingComplete k true rtt) s (fun t =>
        cportState t k = 2 ∧ rget t (rCTL_PORT k) fCTL_PORT_RTT = rtt ∧ cportOf t k = CPort.reset ∧
        cportOf t other = cportOf s other ∧ t = { s with regs := t.regs, ctl := t.ctl } ∧
        ∀ o, o ≠ rCTL_PORT k → rd t o = rd s o))) ∧
    (cportState s k ≠ 1 → ∀ ok rtt, Runs (.caravanTrainingComplete k ok rtt) s (fun t => t = s)) ∧
    (cportState s k = 2 → goesDown (.caravanLaneLockLoss k) 2 ∧
      ((cportOf s k).link.replay ≠ [] → goesDown (.caravanAckStall k) 4) ∧
      (∀ v, activePort s ≠ k → wbit v 3 = false → wbit v 8 = false → goesDown (.ctlPortDisable k v) 1)) ∧
    (cportState s k ≠ 2 → Runs (.caravanLaneLockLoss k) s (fun t => t = s) ∧ Runs (.caravanAckStall k) s (fun t => t = s)) ∧
    (∀ v, activePort s = k → wbit v 3 = false → wbit v 8 = false → Runs (.ctlPortDisable k v) s (fun t => t = s))

/-- R216, R221, R325–R327. -/
def Obligations.CaravanLinkLayer : Prop :=
  ∀ (s : State) (k : Nat), k < 2 → Canon s →
    let e := cportOf s k
    let l := e.link
    let same (t : State) := t = { s with ctl := t.ctl, regs := t.regs, trc := t.trc, flt := t.flt } ∧
      cportOf t (1 - k) = cportOf s (1 - k) ∧ t.ctl.fwd = s.ctl.fwd ∧ t.ctl.hbDeadline = s.ctl.hbDeadline
    (cportState s k ≠ 2 → (∀ f, Runs (.caravanFrameReceive k f) s (fun t => t = s)) ∧
      (∀ n, Runs (.caravanRetryRequest k n) s (fun t => t = s))) ∧
    (cportState s k = 1 → Runs (.caravanFrameSend k) s (fun t => same t ∧
      cportOf t k = { e with tx := some (mkFrame 2 0 l.rxLast [trainFlit (nodeId s) k (fabValid s)]) })) ∧
    (cportState s k ≠ 1 → cportState s k ≠ 2 → Runs (.caravanFrameSend k) s (fun t => t = s)) ∧
    (cportState s k = 2 →
      (l.retryOwed = true → Runs (.caravanFrameSend k) s (fun t => same t ∧
        cportOf t k = { e with link := { l with retryOwed := false }
                               tx := some (mkFrame 1 ((l.rxLast + 1) % 512) l.rxLast []) })) ∧
      (l.retryOwed = false → ∀ q fl, l.resend = some q → l.replay.find? (fun r => r.1 = q) = some (q, fl) →
        Runs (.caravanFrameSend k) s (fun t => same t ∧ (cportOf t k).tx = some (mkFrame 0 q l.rxLast fl) ∧
          (cportOf t k).link.replay = l.replay ∧ (cportOf t k).txq = e.txq)) ∧
      (l.retryOwed = false → l.resend = none → l.replay.length < 480 →
        Runs (.caravanFrameSend k) s (fun t => same t ∧ ∃ fl, fl.length ≤ 16 ∧
          (cportOf t k).tx = some (mkFrame 0 l.nextSeq l.rxLast fl) ∧
          (cportOf t k).link = { l with nextSeq := (l.nextSeq + 1) % 512, replay := l.replay ++ [(l.nextSeq, fl)] } ∧
          (∃ ms, e.txq = ms ++ (cportOf t k).txq) ∧
          (e.txq = [] → e.carry = none → fl = []) ∧
          (∀ m, e.txq = [m] → e.carry = none → msgUnits m ≤ 16 →
            fl = msgFlits { m with timeLo := now s % 2 ^ 32 } ∧ (cportOf t k).txq = [] ∧ (cportOf t k).carry = none))) ∧
      (l.retryOwed = false → l.resend = none → 480 ≤ l.replay.length → Runs (.caravanFrameSend k) s (fun t => same t ∧
        cportOf t k = { e with tx := some (mkFrame 0 ((l.nextSeq + 31) % 512) l.rxLast []) })) ∧
      Runs (.caravanFrameReceive k none) s (fun t => same t ∧ OnlyCounters s t ∧
        cportOf t k = { e with link := { l with retryOwed := true } }) ∧
      (∀ f, frameKind f = 0 → frameSeq f = (l.rxLast + 1) % 512 →
        (∀ part ms, readMsgs e.rxPart f.flits = (part, ms, true) →
          Runs (.caravanFrameReceive k (some f)) s (fun t => same t ∧ OnlyCounters s t ∧ (cportOf t k).txq = e.txq ∧
            (cportOf t k).rxPart = part ∧ (cportOf t k).link.rxLast = frameSeq f ∧ (cportOf t k).link.retryOwed = false ∧
            ((∀ m ∈ ms, m.ty ∈ carTypes) → t.regs = s.regs))) ∧
        ((readMsgs e.rxPart f.flits).2.2 = false → Runs (.caravanFrameReceive k (some f)) s (fun t => same t ∧
          cportOf t k = { e with link := { l with retryOwed := true } }))) ∧
      (∀ f, frameKind f = 0 → frameSeq f ≠ (l.rxLast + 1) % 512 → Runs (.caravanFrameReceive k (some f)) s (fun t =>
        same t ∧ (cportOf t k).link.rxLast = l.rxLast ∧ (cportOf t k).txq = e.txq ∧ t.regs = s.regs)) ∧
      (∀ f, frameKind f ≠ 0 → frameKind f ≠ 1 → Runs (.caravanFrameReceive k (some f)) s (fun t => t = s)) ∧
      (∀ n, (∀ f ∈ l.replay, f.1 ≠ n) → Runs (.caravanRetryRequest k n) s (fun t => t = s)) ∧
      (∀ n fl, (n, fl) ∈ l.replay →
        ((l.failSeq ≠ n ∨ l.fails = 0) → Runs (.caravanRetryRequest k n) s (fun t => same t ∧
          cportOf t k = { e with link := { l with resend := some n, failSeq := n, fails := 1 } })) ∧
        (l.failSeq = n → 0 < l.fails → l.fails < 8 → Runs (.caravanRetryRequest k n) s (fun t => same t ∧
          cportOf t k = { e with link := { l with resend := some n, failSeq := n, fails := l.fails + 1 } })) ∧
        (l.failSeq = n → 8 ≤ l.fails → Runs (.caravanRetryRequest k n) s (fun t => cportState t k = 0 ∧
          rget t (rCTL_PORT k) fCTL_PORT_DOWN_CAUSE = 3))))

/-! ### Requests of the control node, adoption and the orphan state -/

/-- R8, R17, R228, R329, R330, R337, R343, R430, R439. -/
def Obligations.SessionRequests : Prop :=
  (∀ (i : Instr) (s : State) (k tag ty se : Nat) (needs : Bool), request s i = some (k, tag, ty, se, needs) → k < 2 → Canon s →
    let stopped (st : Nat) := Runs i s (fun t => Answered s t k tag ty st 0 [] ∧ t = { s with ctl := t.ctl })
    (cportState s k ≠ 2 → Runs i s (fun t => t = s)) ∧
    (cportState s k = 2 → 64 ≤ outstanding s k → Runs i s (fun t =>
      (∃ m : CMsg, (cportOf t k).txq = (cportOf s k).txq ++ [m] ∧ m.ty = ty ∧ m.tag = tag ∧ m.status = 0xB) ∧
      (cportOf t k).open_ = (cportOf s k).open_ ∧ t = { s with ctl := t.ctl, regs := t.regs, trc := t.trc })) ∧
    (cportState s k = 2 → outstanding s k < 64 → needs = true → ctlState s ≠ 1 → stopped 7) ∧
    (cportState s k = 2 → outstanding s k < 64 → needs = true → ctlState s = 1 →
      (se = 0 ∨ se ≠ rget s rCTL_SESSION fCTL_SESSION_SESSION) → stopped 0xA)) ∧
  (∀ (s : State) (k tag se : Nat), k < 2 → Canon s → cportState s k = 2 → outstanding s k < 64 → ctlState s = 1 →
    se ≠ 0 → se = rget s rCTL_SESSION fCTL_SESSION_SESSION →
    let u := started s k tag
    let onlyAnswers (i : Instr) (ty st : Nat) (w3 : Word) (pay : List (Word × Bool)) :=
      Runs i s (fun t => Answered s t k tag ty st w3 pay ∧ t = { s with ctl := t.ctl })
    (∀ off r ix o, regAt off = some (r, ix, o) → Runs (.regRd k tag se off) s (fun t =>
      Answered s t k tag 0x21 0 (regView (regTouch u r.name ix o) r.name ix o) [] ∧ SameMem s t ∧ t.cores = s.cores)) ∧
    (∀ off, regAt off = none → onlyAnswers (.regRd k tag se off) 0x21 1 0 [] ∧
      ∀ v, onlyAnswers (.regWr k tag se off v) 0x22 1 0 []) ∧
    (∀ off v r ix o, regAt off = some (r, ix, o) →
      (regRefused u r.name ix o = true → onlyAnswers (.regWr k tag se off v) 0x22 1 0 []) ∧
      (regRefused u r.name ix o = false → Runs (.regWr k tag se off v) s (fun t =>
        ∃ w, Machine.exec (.registerWrite off v) u = .next w ∧ t = answerMsg w k tag 0x22 0 0 []))) ∧
    (∀ part a n, 1 ≤ n → n ≤ 8 → a % 32 = 0 → a % 256 + 32 * n ≤ 256 → isTier a = true →
      (tierDown s a = true → onlyAnswers (.memRd k tag se part (0xFFFF * 2 ^ 48 + a) n) 0x23 4 0 []) ∧
      (tierDown s a = false → openHit s [] a (32 * n) = [] →
        onlyAnswers (.memRd k tag se part (0xFFFF * 2 ^ 48 + a) n) 0x23 0 0 (memWords s a (4 * n)))) ∧
    (∀ part a n, a < 2 ^ 48 → (n = 0 ∨ 8 < n ∨ a % 32 ≠ 0 ∨ 256 < a % 256 + 32 * n ∨ isRegSpace a = true ∨ isReservedAddr a = true) →
      onlyAnswers (.memRd k tag se part (0xFFFF * 2 ^ 48 + a) n) 0x23 1 0 []) ∧
    (∀ part a d, 0 < d.length → d.length ≤ 32 → d.length % 4 = 0 → a % 32 = 0 → a % 256 + 8 * d.length ≤ 256 → isTier a = true →
      ((payloadBad d = true ∨ writeFails s a (8 * d.length) = true) →
        onlyAnswers (.memWr k tag se part (0xFFFF * 2 ^ 48 + a) d) 0x22 4 0 []) ∧
      (payloadBad d = false → writeFails s a (8 * d.length) = false →
        Runs (.memWr k tag se part (0xFFFF * 2 ^ 48 + a) d) s (fun t =>
          Answered s t k tag 0x22 0 0 [] ∧ t.cores = s.cores ∧
          (∀ i, i < (payloadBytes d).length → memByte t (a + i) = (payloadBytes d).getD i 0) ∧
          (∀ b, (b < a ∨ a + (payloadBytes d).length ≤ b) → memByte t b = memByte s b)))) ∧
    (∀ part a, a < 2 ^ 48 → onlyAnswers (.memWr k tag se part (0xFFFF * 2 ^ 48 + a) []) 0x22 1 0 []) ∧
    (∀ part a n node p, node ≤ 0x3FFF → node ≠ nodeId s → fabValid s = true → 1 ≤ n → n ≤ 8 → a < 2 ^ 48 → a % 32 = 0 →
      a % 256 + 32 * n ≤ 256 → routeOf s node 5 = some p → Runs (.memRd k tag se part (node * 2 ^ 48 + a) n) s (fun t =>
        ∃ q r f, t = enq { started s k tag with ergReqs := s.ergReqs ++ [r], ctl := { (started s k tag).ctl with fwd := s.ctl.fwd ++ [f] } } 4 p q ∧
          q.ty = 0x08 ∧ q.tc = 5 ∧ q.dst = node ∧ q.src = nodeId s ∧ q.addr = a ∧ q.srcCore = 0xFF ∧ q.mc = false ∧ q.payload = [] ∧
          wfld q.w3 3 0 = n ∧ q.job = rget s (rFAB_ACC part) fFAB_ACC_JOB ∧ r.pkt = q ∧ r.origin = .caravan ∧ r.wait = [node] ∧ f = ⟨k, tag, q.tag, true⟩)) ∧
    Runs (.heartbeat k tag se) s (fun t => Answered s t k tag 0x24 0 (nowW s) [] ∧ activePort t = k ∧
      t.ctl.hbDeadline = some (now s + max 10 (rget s rCTL_HB fCTL_HB_TIMEOUT_MS) * 1000000) ∧
      t = { s with ctl := t.ctl, regs := t.regs } ∧ ∀ o, o ≠ rCTL_STATE → rd t o = rd s o))

/-- R24, R311, R337–R339. -/
def Obligations.OrphanTransition : Prop :=
  ∀ s : State, Canon s →
    let orphaned (cause : Nat) (t : State) := ctlState t = 2 ∧ rget t rCTL_STATE fCTL_STATE_ORPHAN_CAUSE = cause ∧
      rflag t rCTL_STATE fCTL_STATE_RUN_HELD = true ∧ activePort t = activePort s ∧ t.ctl.hbDeadline = none ∧
      rd t rCTL_ORPHAN_TIME = nowW s ∧ rget t rCTL_SESSION fCTL_SESSION_SESSION = 0 ∧
      rget t rCTL_SESSION fCTL_SESSION_EPOCH = rget s rCTL_SESSION fCTL_SESSION_EPOCH ∧
      (∀ c x, c < nCores → x < 4 → ctxOf t c x =
        if beforeCommit (ctxOf s c x) then
          abortedAt (ctxOf s c x) (if (ctxOf s c x).st = .loading then 0x13 else 0x02)
        else ctxOf s c x) ∧
      Raises s t 0x0F [rd t rCTL_STATE] ∧
      (∀ o, o ≠ rCTL_STATE → o ≠ rCTL_ORPHAN_TIME → o ≠ rCTL_SESSION → o ≠ rCQ_STATUS 8 → rd t o = rd s o) ∧
      t = { s with cores := t.cores, regs := t.regs, recq := t.recq, ctl := t.ctl, free := t.free }
    (ctlState s = 1 → Runs .heartbeatTimeout s (orphaned 1)) ∧
    (ctlState s ≠ 1 → Runs .heartbeatTimeout s (fun t => t = s)) ∧
    (∀ k tag se, k < 2 → cportState s k = 2 → outstanding s k < 64 → ctlState s = 1 → se ≠ 0 →
      se = rget s rCTL_SESSION fCTL_SESSION_SESSION → Runs (.relinquish k tag se) s (fun t =>
        orphaned 2 t ∧ Answered s t k tag 0x22 0 0 [])) ∧
    (∀ v, ctlState s = 1 → Runs (.ctlRunResume v) s (fun t => OnlyRegs s t [rCTL_STATE] ∧
      rflag t rCTL_STATE fCTL_STATE_RUN_HELD = false ∧ ctlState t = 1 ∧ activePort t = activePort s)) ∧
    (∀ v, ctlState s ≠ 1 → Runs (.ctlRunResume v) s (fun t => t = s))

/-- R340, R341, R423, R424. -/
def Obligations.Adoption : Prop :=
  ∀ (s : State) (k tag : Nat), k < 2 → Canon s → cportState s k = 2 → outstanding s k < 64 →
    let only (i : Instr) (ty st : Nat) := Runs i s (fun t => Answered s t k tag ty st 0 [] ∧ t = { s with ctl := t.ctl })
    let spends (n st : Nat) := Runs (.adoptCommit k tag n) s (fun t => Answered s t k tag 0x26 st 0 [] ∧
      t = { s with ctl := t.ctl, sec := { s.sec with challenge := none } })
    (adoptable s = false → only (.adoptHello k tag) 0x25 7 ∧ (∀ o n, only (.adoptGet k tag o n) 0x23 7) ∧
      (∀ o d, only (.adoptPut k tag o d) 0x22 7) ∧ ∀ n, spends n 7) ∧
    (adoptable s = true →
      ((keyExhausted s = true ∨ 256 ≤ s.sec.log.length) → only (.adoptHello k tag) 0x25 7) ∧
      (keyExhausted s = false → s.sec.log.length < 256 → Runs (.adoptHello k tag) s (fun t =>
        (Config.freeBool s.free 0 = true → Answered s t k tag 0x25 7 0 [] ∧
          t = { s with ctl := t.ctl, free := s.free + 1, sec := { s.sec with rngFail := true } }) ∧
        (Config.freeBool s.free 0 = false → ∃ r,
          t = { started s k tag with free := s.free + 1, sec := { s.sec with challenge := none, hello := s.sec.hello ++ [(k, tag)], signing := s.sec.signing ++ [r] } } ∧
          r.kind = 1 ∧ r.nonce = Config.entropy s.free ∧ r.chain = s.sec.chain ∧ r.time = now s))) ∧
      (s.sec.challenge = none → (∀ o n, only (.adoptGet k tag o n) 0x23 0xC) ∧ ∀ n, spends n 0xC) ∧
      (∀ ch, s.sec.challenge = some ch →
        (∀ o n, 1 ≤ n → n ≤ 8 → o + n ≤ 94 → ch.quote.length = 2960 → Runs (.adoptGet k tag o n) s (fun t =>
          t = { s with ctl := t.ctl } ∧ ∃ pay, Answered s t k tag 0x23 0 0 pay ∧ pay.length = 4 * n ∧
          ∀ j, j < 4 * n → pay.getD j (0, false) = (wordOfBytes (fitBytes 3008 ch.quote) (4 * o + j), false))) ∧
        (∀ o n, (n = 0 ∨ 8 < n ∨ 94 < o + n) → only (.adoptGet k tag o n) 0x23 1) ∧
        (∀ n, Runs (.adoptCommit k tag n) s (fun t =>
          let refused (st : Nat) := Answered s t k tag 0x26 st 0 [] ∧ t = { s with ctl := t.ctl, sec := { s.sec with challenge := none } }
          (tokenOk s ch n = false → refused 0xD) ∧
          (tokenOk s ch n = true → tokNat s 104 4 ≤ rget s rCTL_SESSION fCTL_SESSION_EPOCH → refused 0xE) ∧
          (tokenOk s ch n = true → rget s rCTL_SESSION fCTL_SESSION_EPOCH < tokNat s 104 4 →
            ctlState t = 1 ∧ activePort t = k ∧ t.sec.challenge = none ∧
            rget t rCTL_SESSION fCTL_SESSION_SESSION = tokNat s 108 4 ∧ rget t rCTL_SESSION fCTL_SESSION_EPOCH = tokNat s 104 4 ∧
            rflag t rCTL_STATE fCTL_STATE_RUN_HELD = rflag s rCTL_STATE fCTL_STATE_RUN_HELD ∧ t.ctl.hbDeadline ≠ none ∧
            t.mram.label = tokBytes s 220 160 ∧ t.cores = s.cores ∧ SameMem s t)))) ∧
      (∀ o d, d ≠ [] → d.length % 4 = 0 → d.length ≤ 32 → o + d.length / 4 ≤ 256 → payloadBad d = false →
        smWf (fun _ => (0 : Byte)) s.sec.token = true → Runs (.adoptPut k tag o d) s (fun t =>
          Answered s t k tag 0x22 0 0 [] ∧ t = { s with ctl := t.ctl, sec := { s.sec with token := t.sec.token } } ∧
          ∀ b, smGet 0 t.sec.token b = if 32 * o ≤ b ∧ b < 32 * o + 8 * d.length then
            (payloadBytes d).getD (b - 32 * o) 0 else smGet 0 s.sec.token b)) ∧
      (∀ o d, d ≠ [] → d.length ≤ 32 → o + (d.length + 3) / 4 ≤ 256 → payloadBad d = true → only (.adoptPut k tag o d) 0x22 4) ∧
      (∀ o, only (.adoptPut k tag o []) 0x22 1) ∧
      (∀ o d, d ≠ [] → 256 < o + (d.length + 3) / 4 → only (.adoptPut k tag o d) 0x22 1)) ∧
    Runs .challengeExpiry s (fun t => t = { s with sec := { s.sec with challenge := none } })

/-- R6, R8, R17, R474. -/
def Obligations.RegisterWrites : Prop :=
  ∀ (s : State) (v : Word), Canon s →
    (∀ off, regAt off = none → Runs (.registerWrite off v) s (fun t => t = s)) ∧
    Runs (.registerWrite rTIME_CTRL v) s (fun t => OnlyRegs s t [rTIME_CTRL] ∧ rd t rTIME_CTRL =
      ((rd s rTIME_CTRL &&& ~~~0xFFFFFFFFFFFF0001) ||| (v &&& 0xFFFFFFFFFFFF0001))) ∧
    Runs (.registerWrite rTIME_STATUS v) s (fun t => OnlyRegs s t [rTIME_STATUS] ∧
      rd t rTIME_STATUS = rd s rTIME_STATUS &&& ~~~(v &&& 0x1C)) ∧
    Runs (.registerWrite rTIME_NOW v) s (fun t => OnlyRegs s t []) ∧
    Machine.exec (.registerWrite rFAB_NODE v) s = Machine.exec (.fabNodeWrite v) s ∧
    Machine.exec (.registerWrite rTIME_SET v) s = Machine.exec (.timeSet v) s ∧
    Machine.exec (.registerWrite rTRC_MARK v) s = Machine.exec (.trcMark v) s ∧
    Machine.exec (.registerWrite rFLT_REPORT v) s = Machine.exec (.fltReport v) s ∧
    Machine.exec (.registerWrite rFLT_STATE v) s = Machine.exec (.fltStateClear v) s ∧
    Machine.exec (.registerWrite rFLT_HM_CTRL v) s = Machine.exec (.fltHmCtrlWrite v) s ∧
    Machine.exec (.registerWrite rFLT_CPER_HEAD v) s = Machine.exec (.fltCperHeadWrite v) s ∧
    Machine.exec (.registerWrite rBOOT_IMG_DATA v) s = Machine.exec (.bootImgDataWrite v) s ∧
    Machine.exec (.registerWrite rCTL_RESET v) s = Machine.exec (.ctlResetWarm v) s ∧
    Machine.exec (.registerWrite rSEC_SVN v) s = Machine.exec (.secSvnRaise v) s ∧
    Machine.exec (.registerWrite rCLK_OUT v) s = Machine.exec (.clkOutWrite v) s ∧
    (∀ p, p < 8 → Machine.exec (.registerWrite (rRING_TAIL p) v) s = Machine.exec (.ringTailWrite p v) s) ∧
    (∀ q, q < 9 → Machine.exec (.registerWrite (rCQ_PTR q) v) s = Machine.exec (.cqPtrHeadWrite q v) s)

/-! ### Record queues, the trace ring and the silent-error hunt -/

/-- R331–R334, R336. -/
def Obligations.RecordQueues : Prop :=
  ∀ (s : State) (q : Nat), q < 9 → Canon s →
    let k := recqOf s q
    let n := rget s (rCQ_PTR q) fCQ_PTR_TAIL
    let others (t : State) := ∀ j, j ≠ q → recqOf t j = recqOf s j
    ((k.inFlight ≠ none ∨ k.waiting = []) → Runs (.recordWrite q) s (fun t => t = s)) ∧
    (∀ r rest, k.inFlight = none → k.waiting = r :: rest →
      (r.kind ≠ 2 → Runs (.recordWrite q) s (fun t => t = { s with recq := t.recq } ∧ others t ∧
        recqOf t q = { k with waiting := rest, inFlight := some (recWords r n k.lostMark, false, 0), lostMark := false })) ∧
      (r.kind = 2 → recUsed s q < recRingSize s q → Runs (.recordWrite q) s (fun t => others t ∧
        t = { s with recq := t.recq, regs := t.regs, trc := t.trc } ∧
        recqOf t q = { k with waiting := rest, inFlight := some (recWords r n k.lostMark, true, 0), lostMark := false })) ∧
      (r.kind = 2 → recRingSize s q ≤ recUsed s q → Runs (.recordWrite q) s (fun t => others t ∧
        t = { s with recq := t.recq, regs := t.regs } ∧ recqOf t q = { k with waiting := rest, lostMark := true } ∧
        rflag t (rCQ_STATUS q) fCQ_STATUS_LOST = true ∧ ∀ o, o ≠ rCQ_STATUS q → rd t o = rd s o))) ∧
    (k.inFlight = none → ∀ ok, Runs (.recordWriteAck q ok) s (fun t => t = s)) ∧
    (∀ ws ev fails, k.inFlight = some (ws, ev, fails) →
      let fails_ (ok : Bool) := ok = false ∨ isTier (recAddr s q n) = false ∨ writeFails s (recAddr s q n) 64 = true
      (ws.length = 8 → isTier (recAddr s q n) = true → writeFails s (recAddr s q n) 64 = false →
        Runs (.recordWriteAck q true) s (fun t => others t ∧
        (∀ j, j < 8 → memWord t (recAddr s q n + 8 * j) = ws.getD j 0) ∧
        (∀ b, (b < recAddr s q n ∨ recAddr s q n + 64 ≤ b) → memByte t b = memByte s b) ∧
        rget t (rCQ_PTR q) fCQ_PTR_TAIL = (n + 1) % 2 ^ 32 ∧
        rget t (rCQ_PTR q) fCQ_PTR_HEAD = rget s (rCQ_PTR q) fCQ_PTR_HEAD ∧
        rget t (rCQ_STATUS q) fCQ_STATUS_RSV = rget s (rCQ_STATUS q) fCQ_STATUS_RSV - (if ev then 0 else 1) ∧
        (recqOf t q).inFlight = none ∧ (recqOf t q).toSend = k.toSend ++ [(ws, now s + 1000000)] ∧
        (recqOf t q).waiting = k.waiting)) ∧
      (∀ ok, fails_ ok → fails = 0 → Runs (.recordWriteAck q ok) s (fun t => t = { s with recq := t.recq } ∧ others t ∧
        recqOf t q = { k with inFlight := some (ws, ev, 1) })) ∧
      (∀ ok, fails_ ok → fails ≠ 0 → Runs (.recordWriteAck q ok) s (fun t => t = { s with recq := t.recq, regs := t.regs } ∧
        others t ∧ recqOf t q = { k with inFlight := none, lostMark := true } ∧
        rflag t (rCQ_STATUS q) fCQ_STATUS_WRITE_ERR = true ∧
        rget t (rCQ_STATUS q) fCQ_STATUS_RSV = rget s (rCQ_STATUS q) fCQ_STATUS_RSV - (if ev then 0 else 1) ∧
        ∀ o, o ≠ rCQ_STATUS q → rd t o = rd s o))) ∧
    (∀ ws e rest, k.toSend = (ws, e) :: rest →
      (cportUp s (activePort s) = true → recordsOff s = false → Runs (.record q) s (fun t => others t ∧
        recqOf t q = { k with toSend := rest } ∧ t = { s with recq := t.recq, ctl := t.ctl } ∧
        ∃ m : CMsg, (cportOf t (activePort s)).txq = (cportOf s (activePort s)).txq ++ [m] ∧ m.ty = 0x27 ∧ m.tag = 0 ∧
          m.payload = ws.map (fun w => (w, false)) ∧ m.session = rget s rCTL_SESSION fCTL_SESSION_SESSION)) ∧
      (cportUp s (activePort s) = false → Runs (.record q) s (fun t => t = s) ∧
        Runs (.recordSendExpiry q) s (fun t => t = { s with recq := t.recq } ∧ others t ∧ recqOf t q = { k with toSend := rest }))) ∧
    (k.toSend = [] → Runs (.record q) s (fun t => t = s) ∧ Runs (.recordSendExpiry q) s (fun t => t = s)) ∧
    (∀ v : Word,
      let hd := rget s (rCQ_PTR q) fCQ_PTR_HEAD
      ((wfld v 31 0 + 2 ^ 32 - hd) % 2 ^ 32 ≤ (n + 2 ^ 32 - hd) % 2 ^ 32 → Runs (.cqPtrHeadWrite q v) s (fun t =>
        OnlyRegs s t [rCQ_PTR q] ∧ rget t (rCQ_PTR q) fCQ_PTR_HEAD = wfld v 31 0 ∧ rget t (rCQ_PTR q) fCQ_PTR_TAIL = n)) ∧
      ((n + 2 ^ 32 - hd) % 2 ^ 32 < (wfld v 31 0 + 2 ^ 32 - hd) % 2 ^ 32 → Runs (.cqPtrHeadWrite q v) s (fun t => t = s)))

/-- R470, R471, R473. -/
def Obligations.TraceRing : Prop :=
  ∀ s : State, Canon s → s.pins.thermtrip = false →
    let n := rget s rTRC_PTR fTRC_PTR_TAIL
    let a := rget s rTRC_BASE fTRC_BASE_BASE * 4096 + (n % trcRingSize s) * 32
    let wrap := rflag s rTRC_CTRL fTRC_CTRL_WRAP
    (∀ v, traceOn s 8 = false → Runs (.trcMark v) s (fun t => t = s)) ∧
    (∀ v, traceOn s 8 = true → s.trc.fifo.length < 4096 → Runs (.trcMark v) s (fun t => ∃ w0,
      t = { s with trc := { s.trc with fifo := s.trc.fifo ++ [[w0, nowW s, v, 0]], lostMark := false } } ∧
      wfld w0 63 56 = 8 ∧ wfld w0 40 40 = b2n s.trc.lostMark ∧ wfld w0 31 0 = 0)) ∧
    (∀ v, traceOn s 8 = true → 4096 ≤ s.trc.fifo.length → Runs (.trcMark v) s (fun t =>
      t = { s with regs := t.regs, trc := { s.trc with lostMark := true } } ∧ rflag t rTRC_STATUS fTRC_STATUS_LOST = true)) ∧
    (s.trc.fifo = [] → Runs .traceRecordWrite s (fun t => t = s)) ∧
    (∀ r rest, s.trc.fifo = r :: rest → r.length = 4 → wfld (r.getD 0 0) 40 0 = 0 →
      let took (t : State) := ∃ more, t.trc.fifo = rest ++ more ∧ (traceOn s 5 = false → more = [])
      (trcFull s = true → wrap = false → Runs .traceRecordWrite s (fun t => took t ∧ t.trc.lostWr = true ∧
        rflag t rTRC_STATUS fTRC_STATUS_LOST = true ∧ SameMem s t ∧ rd t rTRC_PTR = rd s rTRC_PTR)) ∧
      ((trcFull s = false ∨ wrap = true) → (isTier a = false ∨ writeFails s a 32 = true) → Runs .traceRecordWrite s (fun t => took t ∧
        rflag t rTRC_STATUS fTRC_STATUS_WRITE_ERR = true ∧ SameMem s t ∧ rd t rTRC_PTR = rd s rTRC_PTR)) ∧
      ((trcFull s = false ∨ wrap = true) → isTier a = true → writeFails s a 32 = false → Runs .traceRecordWrite s (fun t =>
        took t ∧ t.trc.lostWr = false ∧
        wfld (memWord t a) 31 0 = n ∧ wfld (memWord t a) 40 40 = b2n s.trc.lostWr ∧ wfld (memWord t a) 63 41 = wfld (r.getD 0 0) 63 41 ∧
        (∀ j, 1 ≤ j → j < 4 → memWord t (a + 8 * j) = r.getD j 0) ∧
        (∀ b, (b < a ∨ a + 32 ≤ b) → memByte t b = memByte s b) ∧
        rget t rTRC_PTR fTRC_PTR_TAIL = (n + 1) % 2 ^ 32 ∧
        rget t rTRC_PTR fTRC_PTR_HEAD = (rget s rTRC_PTR fTRC_PTR_HEAD + (if trcFull s then 1 else 0)) % 2 ^ 32)))

/-- R348, R355–R358. -/
def Obligations.FencesAndDrain : Prop :=
  ∀ (s : State) (c : Nat), c < nCores → Canon s →
    let i := c / 32
    let field (v : Word) (d : Nat) := wfld v (2 * (d % 32) + 1) (2 * (d % 32))
    let others (t : State) := ∀ d, d < nCores → d ≠ c → fenceOf t d = fenceOf s d
    (∀ v, s.flt.unfencing = [] → (∀ d, d < nCores → d / 32 = i → d ≠ c → field v d = fenceOf s d) →
      (field v c = 1 → fenceOf s c ≠ 1 → Runs (.fltFenceWrite i v) s (fun t => fenceOf t c = 1 ∧ others t ∧
        (∀ x, x < 4 → beforeCommit (ctxOf s c x) = true → ctxOf t c x = abortedAt (ctxOf s c x) 0x03) ∧
        (∀ x, x < 4 → beforeCommit (ctxOf s c x) = false → ctxOf t c x = ctxOf s c x) ∧
        (∀ d, d ≠ c → coreOf t d = coreOf s d) ∧
        ((fencedCores s 1).length < 8 → t.parts = s.parts ∧
          rflag t rFLT_STATE fFLT_STATE_DRAIN = rflag s rFLT_STATE fFLT_STATE_DRAIN) ∧
        (8 ≤ (fencedCores s 1).length → rflag s rFLT_STATE fFLT_STATE_DRAIN = false → s.pins.thermtrip = false →
          rflag t rFLT_STATE fFLT_STATE_DRAIN = true ∧ t.pins.fault = true ∧ t.mram.replaceMark = true ∧
          ∀ p, p < 8 → (partOf t p).drainAt = some (if (partOf s p).head % 2 ^ 32 = rget s (rRING_TAIL p) fRING_TAIL_TAIL
            then none else some (partOf s p).head)))) ∧
      ((fencedCores s 1).length ≤ 8 →
        (field v c = 2 → fenceOf s c ≠ 2 → coreQuiet (coreOf s c) = true → Runs (.fltFenceWrite i v) s (fun t =>
          fenceOf t c = 2 ∧ others t ∧ t = { s with regs := t.regs, recq := t.recq })) ∧
        (field v c = 2 → fenceOf s c ≠ 2 → coreQuiet (coreOf s c) = false → Runs (.fltFenceWrite i v) s (fun t =>
          fenceOf t c = fenceOf s c ∧ OnlyRegs s t [rFLT_FENCE_STATUS] ∧ rflag t rFLT_FENCE_STATUS fFLT_FENCE_STATUS_REJECT = true)) ∧
        (field v c = 0 → fenceOf s c = 2 → Runs (.fltFenceWrite i v) s (fun t => fenceOf t c = 0 ∧ others t ∧
          t = { s with regs := t.regs, recq := t.recq, flt := t.flt })) ∧
        (field v c = 0 → fenceOf s c = 1 → Runs (.fltFenceWrite i v) s (fun t =>
          t = { s with flt := { s.flt with unfencing := [c] } })))) ∧
    (c ∈ s.flt.unfencing → Runs (.unfenceComplete c) s (fun t => fenceOf t c = 0 ∧ others t ∧ c ∉ t.flt.unfencing ∧
      coreOf t c = cleanCore (coreOf s c) ∧ (∀ d, d ≠ c → coreOf t d = coreOf s d) ∧ SameMem s t)) ∧
    (c ∉ s.flt.unfencing → Runs (.unfenceComplete c) s (fun t => t = s)) ∧
    (∀ v, wfld v 15 8 = 0x5A → wbit v 2 = true → Runs (.fltStateClear v) s (fun t => t.mram.replaceMark = false ∧
      rflag t rFLT_STATE fFLT_STATE_REPLACE = false ∧ (∀ o, o ≠ rFLT_STATE → rd t o = rd s o) ∧
      t = { s with regs := t.regs, mram := { s.mram with replaceMark := false } })) ∧
    (∀ v, (wfld v 15 8 ≠ 0x5A ∨ wbit v 2 = false) → Runs (.fltStateClear v) s (fun t => t = s))

/-- R349, R350, R352. -/
def Obligations.RuntimeSelfTest : Prop :=
  ∀ s : State, Canon s →
    let st := s.flt.selfTest
    let content := rget s rFLT_ST_CTRL fFLT_ST_CTRL_CONTENT
    let rounds := rget s rFLT_ST_CTRL fFLT_ST_CTRL_ROUNDS
    (∀ v, wbit v 1 = false → wbit v 5 = false →
      ((stQueued s = true ∨ stRunning s = true ∨ (stNamed s).length < 2) → Runs (.fltStGo v) s (fun t =>
        OnlyRegs s t [rFLT_ST_CTRL] ∧ rflag t rFLT_ST_CTRL fFLT_ST_CTRL_REJECT = true ∧ stQueued t = stQueued s ∧ stRunning t = stRunning s)) ∧
      (stQueued s = false → stRunning s = false → 2 ≤ (stNamed s).length → Runs (.fltStGo v) s (fun t =>
        stQueued t = true ∧ stRunning t = false ∧ rget t rFLT_ST_CTRL fFLT_ST_CTRL_CONTENT = wfld v 10 8 ∧
        rget t rFLT_ST_CTRL fFLT_ST_CTRL_ROUNDS = wfld v 63 48 ∧ (∀ j, j < 3 → rd t (rFLT_ST_FAIL j) = 0) ∧
        t.flt.selfTest = ⟨0, 0, []⟩ ∧ t = { s with regs := t.regs, flt := t.flt }))) ∧
    (∀ v, wbit v 0 = false → Runs (.fltStCancel v) s (fun t => stQueued t = false ∧ stRunning t = false ∧
      t.flt.selfTest = ⟨0, 0, []⟩ ∧ t = { s with regs := t.regs, flt := t.flt } ∧ ∀ o, o ≠ rFLT_ST_CTRL → rd t o = rd s o)) ∧
    ((stQueued s = false ∨ ∃ c ∈ stNamed s, fenceOf s c ≠ 2) → Runs .selftestRequestStart s (fun t => t = s)) ∧
    (stQueued s = true → (∀ c ∈ stNamed s, fenceOf s c = 2) → content ≠ 0 → Runs .selftestRequestStart s (fun t =>
      stQueued t = false ∧ stRunning t = true ∧ t.flt.selfTest = ⟨stPhaseFrom content 0, 0, []⟩ ∧
      content.testBit (stPhaseFrom content 0) = true ∧ (∀ c, c ∉ stNamed s → coreOf t c = coreOf s c) ∧
      OnlyRegs s { t with flt := s.flt, cores := s.cores, free := s.free } [rFLT_ST_CTRL])) ∧
    (stQueued s = true → (∀ c ∈ stNamed s, fenceOf s c = 2) → content = 0 → Runs .selftestRequestStart s (fun t =>
      stQueued t = false ∧ stRunning t = false ∧ t.flt.selfTest = ⟨0, 0, []⟩ ∧
      ∀ c, c < nCores → coreOf t c = if c ∈ stNamed s then cleanCore (coreOf s c) else coreOf s c)) ∧
    (∀ l, stRunning s = true → 2 ≤ st.phase → st.round < rounds → Runs (.runtimeSelftestPhaseDone l) s (fun t => t = s)) ∧
    (stRunning s = false → (∀ l, Runs (.runtimeSelftestPhaseDone l) s (fun t => t = s)) ∧
      ∀ l, Runs (.xcheckRoundComplete l) s (fun t => t = s)) ∧
    (∀ l, stRunning s = true → (st.phase < 2 ∨ rounds ≤ st.round) →
      let bad := st.failed ++ l.filter (fun c => (stNamed s).contains c && !st.failed.contains c)
      let ph := stPhaseFrom content (st.phase + 1)
      (ph ≠ 3 → Runs (.runtimeSelftestPhaseDone l) s (fun t =>
        t = { s with flt := { s.flt with selfTest := { st with phase := ph, failed := bad } } })) ∧
      (ph = 3 → Runs (.runtimeSelftestPhaseDone l) s (fun t => stRunning t = false ∧ stQueued t = false ∧
        (∀ c, c < nCores → coreOf t c = if c ∈ stNamed s then cleanCore (coreOf s c) else coreOf s c) ∧
        (∀ c ∈ bad, c < nCores → wbit (rd t (rFLT_ST_FAIL (c / 64))) (c % 64) = true) ∧
        Raises s t 0x24 [rd t rFLT_ST_CTRL, rd t (rFLT_ST_FAIL 0), rd t (rFLT_ST_FAIL 1), rd t (rFLT_ST_FAIL 2)] ∧
        SameMem s t))) ∧
    (∀ a b faults, stRunning s = true → st.phase = 2 → st.round < rounds → stNamed s = [a, b] → st.failed = [] →
      let spills := spillsOf (xTile (rd s rFLT_ST_SEED) st.round) faults
      (spills a = spills b → (spills a).1 = (spills a).2 →
        Runs (.xcheckRoundComplete faults) s (fun t => t = { s with flt := { s.flt with selfTest := { st with round := st.round + 1 } } })) ∧
      (¬ (spills a = spills b ∧ (spills a).1 = (spills a).2) → Runs (.xcheckRoundComplete faults) s (fun t =>
        t.flt.selfTest = { st with round := st.round + 1, failed := [a, b] } ∧ t.cores = s.cores)))

/-- R353, R354, R359, R361, R364, R478. -/
def Obligations.MonitorReportsAndDigests : Prop :=
  ∀ s : State, Canon s →
    let th := rget s rFLT_HM_CTRL fFLT_HM_CTRL_THRESH
    let hy := rget s rFLT_HM_CTRL fFLT_HM_CTRL_HYST
    let armed (u : State) := rflag u rFLT_HM_RISK fFLT_HM_RISK_ARMED
    let h := rget s rFLT_HM_RISK fFLT_HM_RISK_H
    let sum := h - h / 2 ^ (max 1 (rget s rFLT_HM_CTRL fFLT_HM_CTRL_DECAY_SHIFT)) +
      ((List.range 11).map (fun j => hmWeight s j * kGet 0 s.flt.events j)).foldl (· + ·) 0 +
      hmWeight s 11 * (tjMax s - rget s rFLT_HM_CTRL fFLT_HM_CTRL_TREF)
    let risk := min 255 (min sum 0xFFFFFFFF / 256)
    Runs .healthMonitorTick s (fun t => t = { s with regs := t.regs, recq := t.recq, flt := { s.flt with events := [] } } ∧
      rget t rFLT_HM_RISK fFLT_HM_RISK_H = min sum 0xFFFFFFFF ∧ rget t rFLT_HM_RISK fFLT_HM_RISK_RISK = risk ∧
      (armed s = true → th ≠ 0 → th ≤ risk → armed t = false ∧ rflag t rFLT_HM_RISK fFLT_HM_RISK_SECURE = true ∧
        Raises s t 0x21 [rd t rFLT_HM_RISK]) ∧
      (armed s = true → (th = 0 ∨ risk < th) → armed t = true ∧ t.recq = s.recq) ∧
      (armed s = false → th ≠ 0 → (if th ≤ hy then risk = 0 else risk < th - hy) → armed t = true ∧ t.recq = s.recq) ∧
      (armed s = false → (th = 0 ∨ ¬ (if th ≤ hy then risk = 0 else risk < th - hy)) → armed t = false ∧ t.recq = s.recq)) ∧
    (∀ v, Runs (.fltHmCtrlWrite v) s (fun t => OnlyRegs s t [rFLT_HM_CTRL, rFLT_HM_RISK] ∧
      rget t rFLT_HM_CTRL fFLT_HM_CTRL_THRESH = wfld v 7 0 ∧
      armed t = (if wfld v 7 0 = 0 then false else if th = 0 then true else armed s))) ∧
    (∀ v, s.pins.thermtrip = false → Runs (.fltReport v) s (fun t => kGet 0 t.flt.events 10 = kGet 0 s.flt.events 10 + 1 ∧
      rget t rFLT_CPER_PTR fFLT_CPER_PTR_NEXT = (rget s rFLT_CPER_PTR fFLT_CPER_PTR_NEXT + 1) % 2 ^ 32 ∧ t.cores = s.cores)) ∧
    (s.flt.ceRise = [] → Runs .ceSummaryPeriod s (fun t => t = s)) ∧
    (∀ e, s.flt.ceRise = [e] → s.pins.thermtrip = false → Runs .ceSummaryPeriod s (fun t => t.flt.ceRise = [] ∧
      rget t rFLT_CPER_PTR fFLT_CPER_PTR_NEXT = (rget s rFLT_CPER_PTR fFLT_CPER_PTR_NEXT + 1) % 2 ^ 32 ∧ t.cores = s.cores)) ∧
    (∀ v : Word,
      let hd := rget s rFLT_CPER_HEAD fFLT_CPER_HEAD_HEAD
      let n := rget s rFLT_CPER_PTR fFLT_CPER_PTR_NEXT
      ((wfld v 31 0 + 2 ^ 32 - hd) % 2 ^ 32 ≤ (n + 2 ^ 32 - hd) % 2 ^ 32 → Runs (.fltCperHeadWrite v) s (fun t =>
        OnlyRegs s t [rFLT_CPER_HEAD] ∧ rget t rFLT_CPER_HEAD fFLT_CPER_HEAD_HEAD = wfld v 31 0)) ∧
      ((n + 2 ^ 32 - hd) % 2 ^ 32 < (wfld v 31 0 + 2 ^ 32 - hd) % 2 ^ 32 → Runs (.fltCperHeadWrite v) s (fun t => t = s))) ∧
    (∀ v, Runs (.fltDigGo v) s (fun t => OnlyRegs s t [rFLT_DIG_CTRL] ∧ rflag t rFLT_DIG_CTRL fFLT_DIG_CTRL_BUSY = true ∧
      rget t rFLT_DIG_CTRL fFLT_DIG_CTRL_LIST = wfld v fFLT_DIG_CTRL_LIST.hi fFLT_DIG_CTRL_LIST.lo ∧
      rget t rFLT_DIG_CTRL fFLT_DIG_CTRL_COUNT = wfld v fFLT_DIG_CTRL_COUNT.hi fFLT_DIG_CTRL_COUNT.lo)) ∧
    (rflag s rFLT_DIG_CTRL fFLT_DIG_CTRL_BUSY = false → Runs .digestComplete s (fun t => t = s)) ∧
    (rflag s rFLT_DIG_CTRL fFLT_DIG_CTRL_BUSY = true → Runs .digestComplete s (fun t =>
      t = { s with regs := t.regs, recq := t.recq } ∧ rflag t rFLT_DIG_CTRL fFLT_DIG_CTRL_BUSY = false ∧
      Raises s t 0x26 [rd t rFLT_DIG_CTRL] ∧
      let a := rget s rFLT_DIG_CTRL fFLT_DIG_CTRL_LIST * 16
      match (digPart s a).bind (fun p => digAll s p a (rget s rFLT_DIG_CTRL fFLT_DIG_CTRL_COUNT) 0) with
      | some bs => ∀ j, j < 4 → rd t (rFLT_DIG_OUT j) = word256 (shake256 bs) j
      | none => rflag t rFLT_DIG_CTRL fFLT_DIG_CTRL_ERR = true))

/-! ### Checkpoints, takeover, identity and attestation -/

/-- A store on another node: its requests are put on the routed port, or wait for the node to be valid. -/
def storeAway (s : State) (node : Nat) : Prop := isSelf s node = false ∧ (fabValid s = false ∨ routeOf s node 5 ≠ none)

/-- R365–R373. -/
def Obligations.CheckpointEpoch : Prop :=
  ∀ s : State, Canon s →
    let p := ckptPart s
    let ended (cause : Nat) (t : State) := ckptState t = 0 ∧ rflag t rCKPT_CTRL fCKPT_CTRL_ERR = true ∧
      rget t rCKPT_CTRL fCKPT_CTRL_CAUSE = cause ∧ t.ckpt = Ckpt.reset ∧ ckptReqs t = [] ∧ t.mem = s.mem ∧ t.cores = s.cores
    let refused (cause : Nat) (t : State) := OnlyRegs s t [rCKPT_CTRL] ∧ rflag t rCKPT_CTRL fCKPT_CTRL_ERR = true ∧
      rget t rCKPT_CTRL fCKPT_CTRL_CAUSE = cause ∧ ckptState t = ckptState s
    (∀ v, wbit v 1 = false → wbit v 2 = false → wbit v 3 = false → wbit v 16 = false →
      let may := partState s p = 1 ∧ hasPending s p = false ∧ (partOf s p).poisoned = [] ∧ ckptState s = 0
      (¬ may → Runs (.ckptGo v) s (refused 1)) ∧
      (may → epochRuns s = none → Runs (.ckptGo v) s (refused 2)) ∧
      (may → ∀ runs, epochRuns s = some runs → listPages s p runs = none → Runs (.ckptGo v) s (refused 2)) ∧
      (may → ∀ runs l, epochRuns s = some runs → listPages s p runs = some l →
        storeAway s (rget s (rCKPT_DEST 0) fCKPT_DEST_NODE) → Runs (.ckptGo v) s (fun t =>
          ckptState t = 1 ∧ rget t rCKPT_CTRL fCKPT_CTRL_PAGES_DONE = 0 ∧ rd t rCKPT_TIME = nowW s ∧
          t.ckpt.pages = l ∧ t.ckpt.runs = runs ∧ t.ckpt.prot = l ∧ t.ckpt.copied = [] ∧ t.ckpt.image = s.mem ∧
          t.ckpt.imageBad = s.memBad ∧ t.ckpt.imageUndef = s.memUndef ∧ t.mem = s.mem ∧ t.memBad = s.memBad ∧
          t.memUndef = s.memUndef ∧ t.cores = s.cores ∧
          ∀ q, partOf t q = { partOf s q with credit := (partOf t q).credit }))) ∧
    (∀ hub i, hub < 2 →
      let reads := ckptState s = 1 ∧ bufHeld s hub < 8 ∧ nextPage s.ckpt hub = some i
      let k := s.ckpt
      let n := k.pages.getD i 0
      let well := (∀ w ∈ k.imageBad, pageOf (8 * w.1) ≠ n) ∧ ∀ j, j < 8192 → tierDown s (n * pageBytes + 256 * j) = false
      (reads → Runs (.ckptPageReadStart hub i) s (fun t => t = { s with ckpt := { k with reading := k.reading ++ [(i, hub)] } })) ∧
      (¬ reads → Runs (.ckptPageReadStart hub i) s (fun t => t = s)) ∧
      (ckptState s = 1 → (i, hub) ∈ k.reading → well → storeAway s (rget s (rCKPT_DEST 0) fCKPT_DEST_NODE) →
        Runs (.ckptPageCopyDone hub i) s (fun t => ckptState t = 1 ∧ t.ckpt.copied = k.copied ++ [i] ∧
          t.ckpt.prot = k.prot.erase n ∧ t.ckpt.waiting = k.waiting.erase n ∧ t.ckpt.reading = k.reading.erase (i, hub) ∧
          kGet 0 t.ckpt.digests i = pageDigest n ((List.range pageBytes).map (fun j => cellByte k.image k.imageUndef (n * pageBytes + j))) ∧
          rget t rCKPT_CTRL fCKPT_CTRL_PAGES_DONE = (rget s rCKPT_CTRL fCKPT_CTRL_PAGES_DONE + 1) % 2 ^ 32 ∧
          t.mem = s.mem ∧ t.cores = s.cores)) ∧
      (ckptState s = 1 → (i, hub) ∈ k.reading → ¬ well → Runs (.ckptPageCopyDone hub i) s (ended 7)) ∧
      ((ckptState s ≠ 1 ∨ (i, hub) ∉ k.reading) → Runs (.ckptPageCopyDone hub i) s (fun t => t = s))) ∧
    (let done := ckptState s = 1 ∧ s.ckpt.phase = 2 ∧ ckptIdle s = true;
      (done → rflag s rCKPT_EPOCH fCKPT_EPOCH_NCOPY2 = false → Runs .ckptCopy0Complete s (fun t =>
        ckptState t = 0 ∧ t.ckpt = Ckpt.reset ∧ t.mem = s.mem ∧ rd t rCKPT_CTRL = wput (rd s rCKPT_CTRL) 11 8 0)) ∧
      (done → rflag s rCKPT_EPOCH fCKPT_EPOCH_NCOPY2 = true → storeAway s (rget s (rCKPT_DEST 0) fCKPT_DEST_NODE) →
        storeAway s (rget s (rCKPT_DEST 1) fCKPT_DEST_NODE) →
        Runs .ckptCopy0Complete s (fun t => ckptState t = 2 ∧ t.ckpt.phase = 0 ∧ t.ckpt.pages = s.ckpt.pages ∧ t.mem = s.mem)) ∧
      (¬ done → Runs .ckptCopy0Complete s (fun t => t = s))) ∧
    (let done := ckptState s = 2 ∧ s.ckpt.phase = 1 ∧ ckptIdle s = true;
      (done → Runs .ckptRelayComplete s (fun t =>
        ckptState t = 0 ∧ t.ckpt = Ckpt.reset ∧ t.mem = s.mem ∧ rd t rCKPT_CTRL = wput (rd s rCKPT_CTRL) 11 8 0)) ∧
      (¬ done → Runs .ckptRelayComplete s (fun t => t = s))) ∧
    (∀ v, wbit v 0 = false → wbit v 2 = false → wbit v 3 = false → wbit v 16 = false →
      ((ckptState s = 1 ∨ ckptState s = 2) → Runs (.ckptCancel v) s (ended 6)) ∧
      (ckptState s = 0 → Runs (.ckptCancel v) s (fun t => t = s)))

/-- R376, R377. -/
def Obligations.FillAndRepair : Prop :=
  ∀ s : State, Canon s →
    let p := ckptPart s
    let refused (t : State) := OnlyRegs s t [rCKPT_CTRL] ∧ rflag t rCKPT_CTRL fCKPT_CTRL_ERR = true ∧
      rget t rCKPT_CTRL fCKPT_CTRL_CAUSE = 1 ∧ ckptState t = ckptState s
    (∀ v, wbit v 0 = false → wbit v 1 = false → wbit v 3 = false → wbit v 16 = false →
      ((ckptState s ≠ 0 ∨ poursOf s p ≠ []) → Runs (.ckptFillGo v) s refused) ∧
      (ckptState s = 0 → poursOf s p = [] → ckptReqs s = [] → storeAway s (rget s rCKPT_FILL fCKPT_FILL_NODE) →
        Runs (.ckptFillGo v) s (fun t => ckptState t = 3 ∧ t.ckpt = Ckpt.reset ∧ t.mem = s.mem ∧
          ∃ r, t.ergReqs = s.ergReqs ++ [r] ∧ r.pkt.ty = 0x08 ∧ r.pkt.tc = 5 ∧
            r.pkt.dst = rget s rCKPT_FILL fCKPT_FILL_NODE ∧ r.pkt.addr = rget s rCKPT_FILL fCKPT_FILL_BASE * pageBytes ∧
            r.pkt.job = rget s rCKPT_DJOB fCKPT_DJOB_FILL_JOB ∧ wfld r.pkt.w3 3 0 = 8))) ∧
    (let done := ckptState s = 3 ∧ s.ckpt.phase = 4 ∧ ckptIdle s = true;
      let good := BitVec.ofNat 256 (bufNat s.ckpt 48 32) = shake256 (bufBytes s.ckpt 0x100000 (32 * s.ckpt.pages.length));
      (done → Runs .ckptFillComplete s (fun t => ckptState t = 0 ∧ t.ckpt = Ckpt.reset ∧ t.cores = s.cores ∧
        (good → t.mem = s.mem ∧ rd t rCKPT_CTRL = wput (rd s rCKPT_CTRL) 11 8 0) ∧
        (¬ good → rflag t rCKPT_CTRL fCKPT_CTRL_ERR = true ∧ rget t rCKPT_CTRL fCKPT_CTRL_CAUSE = 5))) ∧
      (¬ done → Runs .ckptFillComplete s (fun t => t = s))) ∧
    (∀ v, wbit v 0 = false → wbit v 1 = false → wbit v 2 = false → wbit v 16 = false →
      (poursOf s p ≠ [] → Runs (.ckptVfix v) s refused) ∧
      (let n := rget s (rPART_VCOUNT p) fPART_VCOUNT_COUNT
       let reads (i : Nat) := i < n ∧ ((readDesc s (descAddr s p i)).kind = 1 ∨ (readDesc s (descAddr s p i)).kind = 2) ∧
         isTier (descAddr s p i) = true ∧ memBadIn s (descAddr s p i) 64 = false
       let freed (b : Nat) := ∃ i j, reads i ∧ j < 4 ∧
         let v := (readDesc s (descAddr s p i)).slots.getD j VSlot.none
         (v.st = 1 ∨ v.st = 2) ∧ v.base ≤ b ∧ b < v.base + (readDesc s (descAddr s p i)).units * 256
       poursOf s p = [] → (∀ b, descAddr s p 0 ≤ b → b < descAddr s p n → ¬ freed b) →
       Runs (.ckptVfix v) s (fun t => t.cores = s.cores ∧ t.parts = s.parts ∧
        (∀ i, reads i →
          let a := descAddr s p i
          let d := readDesc s a
          ∀ j, j < 4 →
            let old := d.slots.getD j VSlot.none
            let new := (readDesc t a).slots.getD j VSlot.none
            new.hold = 0 ∧ new.st = (if old.st = 1 ∨ old.st = 2 then 0 else old.st) ∧ new.voff = old.voff ∧
            new.base = old.base ∧ new.stamp = old.stamp) ∧
        (∀ b, (b < descAddr s p 0 ∨ descAddr s p n ≤ b) → ¬ freed b → memByte t b = memByte s b)))) ∧
    (∀ v,
      (poursOf s p ≠ [] → Runs (.ckptPstateSet v) s (fun t => rflag t rCKPT_CTRL fCKPT_CTRL_ERR = true ∧
        rget t rCKPT_CTRL fCKPT_CTRL_CAUSE = 1 ∧ OnlyRegs s t [rCKPT_CTRL, rCKPT_PSTATE])) ∧
      (poursOf s p = [] → Runs (.ckptPstateSet v) s (fun t => t = { s with regs := t.regs, parts := t.parts } ∧
        (∀ q, q ≠ p → partOf t q = partOf s q) ∧
        partOf t p = { partOf s p with closed := some (wfld v 63 32), lsC := wfld v 31 16, lscale := signedOf 8 (wfld v 15 8), poisoned := [] })))

/-- R414, R421, R422, R424, R427. -/
def Obligations.SecurityRequests : Prop :=
  ∀ (s : State) (v : Word), Canon s →
    let ty := wfld v 63 48
    let p := wfld v 44 42
    let i := wfld v 41 40
    let nonce := secData s
    let ends (err : Nat) (t : State) := rget t rSEC_OP fSEC_OP_ERR = err ∧ rflag t rSEC_OP fSEC_OP_BUSY = false ∧
      ∀ o, o ≠ rSEC_OP → rd t o = rd s o
    let only (i : Instr) (err : Nat) := Runs i s (fun t => ends err t ∧ OnlyRegs s t [rSEC_OP])
    (rflag s rSEC_OP fSEC_OP_BUSY = true → ∀ c ∈ [Instr.extendDev v, .extendPart v, .quoteDev v, .quotePart v, .authSet v, .authClear v],
      Runs c s (fun t => OnlyRegs s t [rSEC_OP] ∧ rget t rSEC_OP fSEC_OP_ERR = 1 ∧ rflag t rSEC_OP fSEC_OP_BUSY = true)) ∧
    (rflag s rSEC_OP fSEC_OP_BUSY = false →
      (ty < 0x8000 → only (.extendDev v) 5 ∧ only (.extendPart v) 5) ∧
      (0x8000 ≤ ty → 224 ≤ s.sec.log.length → only (.extendDev v) 2) ∧
      (0x8000 ≤ ty → s.sec.log.length < 224 → Runs (.extendDev v) s (fun t => ends 0 t ∧
        t = { s with regs := t.regs, sec := { s.sec with chain := chainStep s.sec.chain ty nonce, log := s.sec.log ++ [⟨ty, nonce, now s⟩] } })) ∧
      (0x8000 ≤ ty → partState s p ≠ 1 → only (.extendPart v) 3) ∧
      (0x8000 ≤ ty → partState s p = 1 → 32 ≤ (plogOf s p).length → only (.extendPart v) 2) ∧
      (0x8000 ≤ ty → partState s p = 1 → (plogOf s p).length < 32 → Runs (.extendPart v) s (fun t => ends 0 t ∧
        t = { s with regs := t.regs, sec := t.sec } ∧ pchainOf t p = chainStep (pchainOf s p) ty nonce ∧
        plogOf t p = plogOf s p ++ [⟨ty, nonce, now s⟩] ∧ t.sec.chain = s.sec.chain ∧ t.sec.log = s.sec.log ∧
        ∀ q, q ≠ p → pchainOf t q = pchainOf s q ∧ plogOf t q = plogOf s q)) ∧
      (partState s p ≠ 1 → only (.quotePart v) 3) ∧
      (keyExhausted s = true → only (.quoteDev v) 4 ∧ (partState s p = 1 → only (.quotePart v) 4)) ∧
      (keyExhausted s = false → s.sec.rngFail = true → only (.quoteDev v) 7 ∧ (partState s p = 1 → only (.quotePart v) 7)) ∧
      (keyExhausted s = false → s.sec.rngFail = false →
        let asked (kind part : Nat) (chain : BitVec 256) (n : Nat) (t : State) := rflag t rSEC_OP fSEC_OP_BUSY = true ∧
          ∃ r, t = { s with regs := t.regs, sec := { s.sec with signing := s.sec.signing ++ [r] } } ∧ r.kind = kind ∧ r.part = part ∧
            r.nonce = nonce ∧ r.chain = chain ∧ r.count = n ∧ r.time = now s
        Runs (.quoteDev v) s (asked 2 0 s.sec.chain s.sec.log.length) ∧
        (partState s p = 1 → Runs (.quotePart v) s (asked 3 p (pchainOf s p) (plogOf s p).length))) ∧
      Runs (.authSet v) s (fun t => ends 0 t ∧ t = { s with regs := t.regs, mram := { s.mram with auth := t.mram.auth } } ∧
        ∀ j, authSlot t j = if j = i then nonce else authSlot s j) ∧
      (authFilled s = [i] → only (.authClear v) 6) ∧
      (authFilled s ≠ [i] → Runs (.authClear v) s (fun t => ends 0 t ∧
        t = { s with regs := t.regs, mram := { s.mram with auth := t.mram.auth } } ∧
        ∀ j, authSlot t j = if j = i then 0 else authSlot s j))) ∧
    (s.mram.minSvn < wfld v 31 0 → wfld v 31 0 ≤ s.sec.imageSvn → wbit v 32 = false → wbit v 33 = false →
      Runs (.secSvnRaise v) s (fun t => t = { s with mram := { s.mram with minSvn := wfld v 31 0 } })) ∧
    (wfld v 31 0 ≠ 0 → (wfld v 31 0 ≤ s.mram.minSvn ∨ s.sec.imageSvn < wfld v 31 0) → Runs (.secSvnRaise v) s (fun t =>
      OnlyRegs s t [rSEC_SVN] ∧ rflag t rSEC_SVN fSEC_SVN_REJECT = true)) ∧
    (wfld v 31 0 = 0 → wbit v 33 = false → Runs (.secSvnSetDisable0 v) s (fun t =>
      t = { s with mram := { s.mram with disable0 := true } }))

/-- R416, R417, R422. -/
def Obligations.SignatureUsesAnIndex : Prop :=
  ∀ s : State, Canon s →
    (s.sec.signing = [] → Runs .signatureComplete s (fun t => t = s)) ∧
    (∀ r rest, s.sec.signing = r :: rest →
      (keyExhausted s = true → r.kind ≠ 1 → Runs .signatureComplete s (fun t =>
        t = { s with regs := t.regs, sec := { s.sec with signing := rest } } ∧
        rget t rSEC_OP fSEC_OP_ERR = 4 ∧ rflag t rSEC_OP fSEC_OP_BUSY = false)) ∧
      (∀ w k, newerRec s.mram = some (w, k) → k.next < keyLimit → Runs .signatureComplete s (fun t =>
        (if w = 0 then t.mram.recA = s.mram.recA else t.mram.recB = s.mram.recB) ∧
        (Config.indexRecordOk s.free = true →
          (if w = 0 then t.mram.recB else t.mram.recA) = some ⟨k.next + 1, k.count + 1⟩ ∧ nextIndex t = k.next + 1 ∧
          t.sec.signing = rest ∧
          (r.kind ≠ 1 → t.sec.qbuf = quoteBytes r.fixed k.next ∧ rget t rSEC_OP fSEC_OP_ERR = 0 ∧ rflag t rSEC_OP fSEC_OP_BUSY = false) ∧
          (∀ port tag, r.kind = 1 → s.sec.hello = [(port, tag)] →
            ∃ e, t.sec.challenge = some ⟨r.nonce, quoteBytes r.fixed k.next, e⟩)) ∧
        (Config.indexRecordOk s.free = false →
          (if w = 0 then t.mram.recB else t.mram.recA) = none ∧
          t = { s with free := s.free + 1, mram := t.mram }))))

/-! ### Clocks, crossings and doze -/

/-- R387–R391, R397, R398, R410. -/
def Obligations.ClocksAndRamps : Prop :=
  (∀ (s : State) (die pll dom : Nat), domOfPll die pll = some dom → Canon s →
    let r := rCLK_DOM die dom
    let div (u : State) := rget u r fCLK_DOM_DIV
    let busy (u : State) := rflag u r fCLK_DOM_BUSY
    let up (t : State) := pllRun t die pll = .locked ∧ domRun t die dom = .rampUp ∧ div t = 5 ∧ busy t = true ∧
      rget t r fCLK_DOM_KHZ = domSetKhz s die dom % 2 ^ 24 ∧
      (∀ d p, 8 * d + p ≠ 8 * die + pll → pllRun t d p = pllRun s d p) ∧
      (∀ d x, 8 * d + x ≠ 8 * die + dom → domRun t d x = domRun s d x)
    (pllRun s die pll = .locking → Runs (.pllLock die pll) s (fun t => up t ∧ t = { s with regs := t.regs, clk := t.clk })) ∧
    (pllRun s die pll = .lost → Runs (.pllLock die pll) s (fun t => up t ∧
      t = { s with regs := t.regs, clk := t.clk, recq := t.recq } ∧ Raises s t 0x41 [rd t rCLK_PLL_ERR] ∧
      (rflag s rCLK_PLL_ERR fCLK_PLL_ERR_VALID = false → rflag t rCLK_PLL_ERR fCLK_PLL_ERR_VALID = true ∧
        rflag t rCLK_PLL_ERR fCLK_PLL_ERR_RELOCKED = true ∧ rget t rCLK_PLL_ERR fCLK_PLL_ERR_DIE = die ∧
        rget t rCLK_PLL_ERR fCLK_PLL_ERR_PLL = pll))) ∧
    (pllRun s die pll ≠ .locking → pllRun s die pll ≠ .lost → Runs (.pllLock die pll) s (fun t => t = s)) ∧
    (pllRun s die pll = .locked → Runs (.pllLossOfLock die pll) s (fun t => pllRun t die pll = .lost ∧
      domRun t die dom = .gated ∧ t = { s with clk := t.clk })) ∧
    (pllRun s die pll ≠ .locked → Runs (.pllLossOfLock die pll) s (fun t => t = s)) ∧
    (pllRun s die pll = .lost → s.pins.thermtrip = false → Runs (.pllRelockTimeout die pll) s (fun t =>
      pllRun t die pll = .dead ∧ domRun t die dom = domRun s die dom ∧
      (rflag s rCLK_PLL_ERR fCLK_PLL_ERR_VALID = false → rflag t rCLK_PLL_ERR fCLK_PLL_ERR_DEAD = true) ∧
      ((dom = 1 ∨ dom = 2) → t.pins = { s.pins with fault := true }) ∧
      ((dom = 3 ∨ dom = 4) → t = { s with regs := t.regs, clk := t.clk, recq := t.recq }) ∧
      ((dom = 6 ∨ (dom = 5 ∧ ∃ i, i < 6 ∧ (tctlOf s (6 * die + i)).faulted = false) ∨
          (dom = 7 ∧ ∃ i, i < 4 ∧ (tctlOf s (24 + 4 * (die - 4) + i)).faulted = false)) →
        rflag t rFLT_STATE fFLT_STATE_DRAIN = true))) ∧
    (pllRun s die pll ≠ .lost → Runs (.pllRelockTimeout die pll) s (fun t => t = s)) ∧
    (domRun s die dom = .rampDown →
      (div s < 4 → Runs (.dividerRampDwell die dom) s (fun t => OnlyRegs s t [r] ∧ div t = div s + 1)) ∧
      (4 ≤ div s → Runs (.dividerRampDwell die dom) s (fun t => div t = 5 ∧ rget t r fCLK_DOM_KHZ = 50000 ∧
        domRun t die dom = .onRef ∧ pllRun t die (pllOfDom dom) = .locking ∧ t = { s with regs := t.regs, clk := t.clk }))) ∧
    (domRun s die dom = .rampUp →
      (1 < div s → Runs (.dividerRampDwell die dom) s (fun t => OnlyRegs s t [r] ∧ div t = div s - 1)) ∧
      (div s ≤ 1 → Runs (.dividerRampDwell die dom) s (fun t => div t = 0 ∧ busy t = false ∧ domRun t die dom = .full ∧
        t = { s with regs := t.regs, clk := t.clk }))) ∧
    (domRun s die dom ≠ .rampDown → domRun s die dom ≠ .rampUp → Runs (.dividerRampDwell die dom) s (fun t => t = s)) ∧
    (∀ v : Word,
      let may := domSettingOk dom (wfld v 53 47) (wfld v 46 31) (wfld v 55 54) = true ∧ busy s = false ∧
        domRun s die dom = .full ∧ ∀ c, c < nCores → dieOfCore c = die → coreQuiet (coreOf s c) = true
      (may → Runs (.clkDomGo die dom v) s (fun t => busy t = true ∧ div t = 1 ∧ domRun t die dom = .rampDown ∧
        domSetKhz t die dom = pllKhz (wfld v 53 47) (wfld v 46 31) (wfld v 55 54) ∧
        rget t r fCLK_DOM_N = wfld v 53 47 ∧ rget t r fCLK_DOM_F = wfld v 46 31 ∧ rget t r fCLK_DOM_P = wfld v 55 54 ∧
        t = { s with regs := t.regs, clk := t.clk } ∧ ∀ o, o ≠ r → rd t o = rd s o)) ∧
      (¬ may → Runs (.clkDomGo die dom v) s (fun t => OnlyRegs s t [r] ∧ rflag t r fCLK_DOM_REJECT = true ∧
        div t = div s ∧ busy t = busy s ∧ rget t r fCLK_DOM_KHZ = rget s r fCLK_DOM_KHZ))) ∧
    (∀ v : Word,
      let f := clkoutKhz s (wfld v 15 12) (wfld v 11 8)
      let d := clkoutDiv v
      (∀ kHz n, f = some kHz → d = some n → kHz ≤ 200000 * n → Runs (.clkOutWrite v) s (fun t =>
        t.pins.clkoutHz = (if wbit v 31 then some (wfld v 15 12, wfld v 11 8, n, true) else none) ∧
        rget t rCLK_OUT fCLK_OUT_SRC = wfld v 15 12 ∧ rget t rCLK_OUT fCLK_OUT_DIV = wfld v 27 16 ∧
        rflag t rCLK_OUT fCLK_OUT_ENABLE = wbit v 31 ∧ t = { s with regs := t.regs, pins := { s.pins with clkoutHz := t.pins.clkoutHz } } ∧
        ∀ o, o ≠ rCLK_OUT → rd t o = rd s o)) ∧
      ((f = none ∨ d = none ∨ ∃ kHz n, f = some kHz ∧ d = some n ∧ 200000 * n < kHz) → Runs (.clkOutWrite v) s (fun t =>
        OnlyRegs s t [rCLK_OUT] ∧ rflag t rCLK_OUT fCLK_OUT_REJECT = true)))) ∧
  (∀ (s : State) (die a b index : Nat), die < 7 → a < 10 → b < 10 → Canon s →
    let cr : Crossing := ⟨die, a, b, index⟩
    let logged (t : State) (hit : Bool) := (rflag s rCRS_ERR fCRS_ERR_VALID = true → rd t rCRS_ERR = rd s rCRS_ERR) ∧
      (rflag s rCRS_ERR fCRS_ERR_VALID = false → rflag t rCRS_ERR fCRS_ERR_VALID = true ∧ rget t rCRS_ERR fCRS_ERR_DIE = die ∧
        rget t rCRS_ERR fCRS_ERR_FROM = a ∧ rget t rCRS_ERR fCRS_ERR_TO = b ∧ rget t rCRS_ERR fCRS_ERR_INDEX = index % 2 ^ 16 ∧
        rflag t rCRS_ERR fCRS_ERR_ABORTED = hit ∧ rd t rCRS_ERR_TIME = nowW s ∧ Raises s t 0x40 [rd t rCRS_ERR, nowW s])
    (((a ≠ 3 ∧ a ≠ 4) ∨ stoppedCores s = []) →
      Runs (.crossingTimeout die a b index []) s (fun t => cr ∈ t.clk.lostCrossings ∧ logged t false ∧
        kGet 0 t.flt.events 6 = kGet 0 s.flt.events 6 + 1 ∧
        t = { s with regs := t.regs, recq := t.recq, flt := { s.flt with events := t.flt.events }, clk := { s.clk with lostCrossings := t.clk.lostCrossings } }) ∧
      (∀ c x, c < nCores → x < 4 → beforeCommit (ctxOf s c x) = true →
        Runs (.crossingTimeout die a b index [(c, x)]) s (fun t => cr ∈ t.clk.lostCrossings ∧ logged t true ∧
          kGet 0 t.flt.events 6 = kGet 0 s.flt.events 6 + 1 ∧ 
          ctxOf t c x = { abortedCtx (ctxOf s c x) 0x06 0 with queue := [], updRun := none, stopped := true } ∧ (∀ y, y ≠ x → ctxOf t c y = ctxOf s c y) ∧
          (∀ d, d ≠ c → coreOf t d = coreOf s d)))) ∧
    Runs (.crossingResume die a b index) s (fun t => cr ∉ t.clk.lostCrossings ∧
      (∀ d, d ≠ cr → (d ∈ t.clk.lostCrossings ↔ d ∈ s.clk.lostCrossings)) ∧
      t = { s with clk := { s.clk with lostCrossings := t.clk.lostCrossings } }))

/-- R399–R405. -/
def Obligations.UnitsDozeAndWake : Prop :=
  ∀ (s : State) (u : Nat), (u < 480 ∨ 3040 ≤ u ∧ u < 3052) → Canon s →
    let k := dozeOf s u
    let l := allowedDz s u
    let others (t : State) := ∀ v, v ≠ u → dozeOf t v = { dozeOf s v with since := (dozeOf t v).since } ∧
      (v ∉ heldUnits u → dozeOf t v = dozeOf s v)
    let same (t : State) := t = { s with doze := t.doze, regs := t.regs, trc := t.trc, free := t.free } ∧ others t
    let may := rflag s rPWR_CTRL fPWR_CTRL_ENABLE = true ∧ k.dz = 0 ∧ k.waking = false ∧ unitIdle s u = true
    (¬ may → Runs (.dozeEntry u) s (fun t => t = s)) ∧
    (may → Runs (.dozeEntry u) s (fun t => same t ∧ (dozeOf t u).hz = k.hz ∧
      match k.hz with
      | .noKnown => (dozeOf t u).dz = l.getLastD 0
      | .cleared => (dozeOf t u).dz = l.headD 0
      | .at e => ((∀ st ∈ l, e < wakeNs st + guardNs s + now s) → (dozeOf t u).dz = 0) ∧
          (∀ st ∈ l, wakeNs st + guardNs s + now s ≤ e → st ≤ (dozeOf t u).dz ∧ (dozeOf t u).dz ∈ l ∧
            wakeNs (dozeOf t u).dz + guardNs s + now s ≤ e))) ∧
    (k.dz ≠ 0 → k.waking = false →
      (∀ e, k.hz = .at e → Runs (.dozeWakeStart u) s (fun t => same t ∧ dozeOf t u = { k with waking := true })) ∧
      Runs (.wakeRequest u) s (fun t => same t ∧ dozeOf t u = { k with waking := true, hz := .cleared } ∧ t.free = s.free)) ∧
    ((k.dz = 0 ∨ k.waking = true) → Runs (.wakeRequest u) s (fun t => t = s)) ∧
    (((∀ e, k.hz ≠ .at e) ∨ k.dz = 0 ∨ k.waking = true) → Runs (.dozeWakeStart u) s (fun t =>
      t = { s with free := s.free + 1 })) ∧
    (k.waking = false → s.erg.ext = [] → Runs (.wakeComplete u) s (fun t => t = s)) ∧
    (k.waking = true → s.erg.ext = [] → Runs (.wakeComplete u) s (fun t => others t ∧ (dozeOf t u).dz = 0 ∧ (dozeOf t u).waking = false ∧
      (k.dz ≠ 4 → u < 480 → t.cores = s.cores ∧ t.erg = s.erg) ∧
      (∀ e, k.hz = .at e → e < now s → rflag t rPWR_LATE fPWR_LATE_VALID = true ∧
        rget t rPWR_LATE fPWR_LATE_LATE_NS = (now s - e) % 2 ^ 31 ∧ (dozeOf t u).hz = .cleared) ∧
      (3040 ≤ u → (eportOf t (u - 3040)).link = { (eportOf s (u - 3040)).link with retryOwed := true }) ∧
      (k.dz = 4 → u < 160 → (coreOf t u).spm = [] ∧ (coreOf t u).spmBad = [] ∧ (∀ j, tokOf (coreOf t u) j = .empty) ∧
        ∀ c, c ≠ u → coreOf t c = coreOf s c))) ∧
    (∀ off v, hzReg u = some off → Runs (.pwrHzWrite u v) s (fun t => same t ∧
      (dozeOf t u).hz = (if wfld v 47 0 = 0 then .cleared else if wfld v 47 0 = 0xFFFFFFFFFFFF then .noKnown else .at (now s + wfld v 47 0)) ∧
      ((k.dz = 0 ∨ k.waking = true) → (dozeOf t u).dz = k.dz ∧ (dozeOf t u).waking = k.waking) ∧
      (k.dz ≠ 0 → k.waking = false → wfld v 47 0 ≠ 0 → wfld v 47 0 ≠ 0xFFFFFFFFFFFF →
        (dozeOf t u).waking = decide (wfld v 47 0 < wakeNs k.dz + guardNs s) ∧ k.dz ≤ (dozeOf t u).dz) ∧
      (u < 160 → rflag t off fPWR_HZ_CORE_DZ4_ALLOW = wbit v 63))) ∧
    (∀ e, k.hz = .at e →
      (k.waking = false → Runs (.horizonExpiry u) s (fun t => dozeOf t u = { k with hz := .cleared } ∧ others t ∧ t = { s with doze := t.doze })) ∧
      (k.waking = true → Runs (.horizonExpiry u) s (fun t => t = s))) ∧
    (∀ p, p < 12 → portState s p = 0 → portWaiting s p = [] → Runs (.portWakeLockTimeout p) s (fun t => t = s)) ∧
    (∀ p, p < 12 → portState s p = 2 → noRequestWaits s p → Runs (.portWakeLockTimeout p) s (fun t => portState t p = 0 ∧
      rget t (rPORT_STATUS p) fPORT_STATUS_DOWN_CAUSE = 2 ∧ (eportOf t p).link = Link.reset ∧
      Raises s t 0x04 [BitVec.ofNat 64 p, rd t (rPORT_STATUS p)]))

/-! ### Start-up, resets, the Cairn state and the sideband -/

/-- Every byte of tier memory is undefined (log entry 2): nothing is stored, and one free value covers all of it. -/
def TierLost (t : State) : Prop := t.mem = [] ∧ t.memBad = [] ∧ ∃ f, t.memUndef = [(0, 2 ^ 48, f)]

/-- The device is in the Cairn state (R438): stage CAIRN, FAULT_N asserted, the Erg ports DOWN, and
everything but the management and time domains stopped, with tier content gone. -/
def inCairn (t : State) : Prop :=
  bootStage t = 7 ∧ ctlState t = 3 ∧ t.pins.fault = true ∧ t.pins.ergTxIdle = true ∧ TierLost t ∧ t.cores = [] ∧ t.ergReqs = [] ∧
  (∀ p, p < 12 → portState t p = 0) ∧ rflag t rBOOT_FAIL fBOOT_FAIL_VALID = true

/-- R7, R384, R408, R409, R428, R429. -/
def Obligations.ColdEvents : Prop :=
  ∀ s : State, Canon s →
    let cleared (t : State) := t.mram = s.mram ∧ t.pending = s.pending ∧ t.cores = [] ∧ t.erg = State.reset.erg ∧ t.metered = [] ∧ t.ergReqs = [] ∧ t.ctl = State.reset.ctl ∧
      t.sec = State.reset.sec ∧ t.boot = State.reset.boot ∧ t.parts = [] ∧ t.recq = [] ∧ now t = 0 ∧ t.clk = State.reset.clk
    let leaves (straps : BitVec 8) (t : State) := bootStage t = 1 ∧ rget t rID_STRAPS fID_STRAPS_STRAPS = straps.toNat ∧
      rget t rCLK_STATUS fCLK_STATUS_DELAY = straps.toNat % 8 ∧ rget t rCLK_STATUS fCLK_STATUS_BYPASS = straps.toNat / 8 % 2 ∧
      t.pins.strapsHeld = straps ∧ t.pins.thermtrip = false ∧ rd t (rBOOT_TIME 1) = nowW s ∧
      rflag t rFLT_STATE fFLT_STATE_REPLACE = s.mram.replaceMark ∧ t.mem = s.mem ∧ t.mram = s.mram
    Runs .rstNAssert s (fun t => cleared t ∧ (∀ o, rd t o = regReset o) ∧ t.mem = s.mem ∧ t.memBad = s.memBad ∧ t.memUndef = s.memUndef ∧
      t.pins.rstN = false) ∧
    Runs .pwrgoodFall s (fun t => cleared t ∧ (∀ o, rd t o = regReset o) ∧ TierLost t ∧ t.pins.pwrgood = false) ∧
    (∀ r, 2 ≤ r → r ≤ 17 → Runs (.railUndervoltage r) s (fun t => cleared t ∧ (∀ o, o ≠ rPWR_STATUS → rd t o = regReset o) ∧ TierLost t ∧
      rflag t rPWR_STATUS fPWR_STATUS_UV = true ∧ rget t rPWR_STATUS fPWR_STATUS_UV_RAIL = r ∧ r ∈ t.pins.uvHold)) ∧
    (s.pins.rstN = true → ∀ v, Runs (.rstNDeassert v) s (fun t => t = s)) ∧
    (s.pins.rstN = false → ∀ v,
      (s.pins.pwrgood = true → s.pins.uvHold = [] → stillHot s = false → Runs (.rstNDeassert v) s (fun t => leaves v t ∧ t.pins.rstN = true)) ∧
      ((s.pins.pwrgood = false ∨ s.pins.uvHold ≠ [] ∨ stillHot s = true) → Runs (.rstNDeassert v) s (fun t =>
        t = { s with pins := t.pins } ∧ t.pins.rstN = true ∧ t.pins.strapPins = v))) ∧
    (s.pins.pwrgood = true → Runs .pwrgoodRise s (fun t => t = s)) ∧
    (s.pins.pwrgood = false →
      (s.pins.rstN = true → s.pins.uvHold = [] → stillHot s = false → Runs .pwrgoodRise s (fun t => leaves s.pins.strapPins t ∧ t.pins.pwrgood = true)) ∧
      ((s.pins.rstN = false ∨ s.pins.uvHold ≠ [] ∨ stillHot s = true) → Runs .pwrgoodRise s (fun t =>
        t = { s with pins := { s.pins with pwrgood := true } }))) ∧
    (s.pins.uvHold = [] → Runs .railRecovery s (fun t => t = s)) ∧
    (s.pins.uvHold ≠ [] →
      (s.pins.rstN = true → s.pins.pwrgood = true → stillHot s = false → Runs .railRecovery s (fun t => leaves s.pins.strapPins t ∧ t.pins.uvHold = [])) ∧
      ((s.pins.rstN = false ∨ s.pins.pwrgood = false ∨ stillHot s = true) → Runs .railRecovery s (fun t =>
        t = { s with pins := { s.pins with uvHold := [] } })))

/-- R385, R413, R420, R428, R430–R435, R438. -/
def Obligations.StartUpStages : Prop :=
  ∀ s : State, Canon s → s.pins.thermtrip = false → s.boot.xtalPending = false →
    let st := bootStage s
    let ph := s.boot.phase
    let still (i : Instr) := Runs i s (fun t => t = s)
    (st = 1 → ph = 0 → Runs .strapDelayExpiry s (fun t => t = { s with boot := { s.boot with phase := 1 } })) ∧
    ((st ≠ 1 ∨ ph ≠ 0) → still .strapDelayExpiry) ∧
    (∀ n, ((st ≠ 1 ∨ ph ≠ 1) → still (.referenceCheckDone n)) ∧
      (st = 1 → ph = 1 → 98 * 8192 ≤ 100 * n → 100 * n ≤ 102 * 8192 → Runs (.referenceCheckDone n) s (fun t => bootStage t = 2 ∧
        rflag t rCLK_STATUS fCLK_STATUS_SRC = true ∧ t.boot.phase = 0 ∧ pllRun t 6 0 = .locking ∧ pllRun t 6 1 = .locking ∧
        domRun t 6 1 = .onRef ∧ domRun t 6 2 = .onRef ∧ t.pins.lasersOn = true ∧ rd t (rBOOT_TIME 2) = nowW s ∧ t.mem = s.mem ∧
        (∀ k, k < 2 → cportState s k = 0 → rflag s (rCTL_PORT k) fCTL_PORT_DISABLE = false → cportState t k = 1))) ∧
      (st = 1 → ph = 1 → (100 * n < 98 * 8192 ∨ 102 * 8192 < 100 * n) → Runs (.referenceCheckDone n) s (fun t => inCairn t ∧
        rflag t rCLK_STATUS fCLK_STATUS_XTAL_FAIL = true))) ∧
    (let settled := st = 2 ∧ domRun s 6 1 = .full ∧ domRun s 6 2 = .full ∧ cportState s 0 ≠ 1 ∧ cportState s 1 ≠ 1;
      (settled → s.sec.log.length ≤ 254 → Runs .romStageComplete s (fun t => bootStage t = 3 ∧ t.mem = s.mem ∧
        let straps := shake256 (bytesLE 1 (rget s rID_STRAPS fID_STRAPS_STRAPS))
        t.sec.chain = chainStep (chainStep s.sec.chain 0x0001 Config.romDigest) 0x0002 straps ∧
        t.sec.log = s.sec.log ++ [⟨0x0001, Config.romDigest, now s⟩, ⟨0x0002, straps, now s⟩])) ∧
      (¬ settled → still .romStageComplete)) ∧
    (∀ v : Word,
      let o := rget s rBOOT_IMG_PTR fBOOT_IMG_PTR_OFFSET
      (st = 3 → ph ≠ 1 → smWf (fun _ => (0 : Byte)) s.boot.image = true → Runs (.bootImgDataWrite v) s (fun t =>
        (∀ j, j < 8 → smGet 0 t.boot.image (8 * o + j) = BitVec.ofNat 8 (v.toNat / 256 ^ j)) ∧
        (∀ b, (b < 8 * o ∨ 8 * o + 8 ≤ b) → smGet 0 t.boot.image b = smGet 0 s.boot.image b) ∧
        rget t rBOOT_IMG_PTR fBOOT_IMG_PTR_OFFSET = (o + 1) % 2 ^ 19 ∧ t.boot.phase = (if 8 * o + 8 = 0x400000 then 1 else 0) ∧
        t = { s with regs := t.regs, boot := t.boot })) ∧
      ((st ≠ 3 ∨ ph = 1) → Runs (.bootImgDataWrite v) s (fun t => OnlyRegs s t [rBOOT_CTRL] ∧ rflag t rBOOT_CTRL fBOOT_CTRL_REJECT = true))) ∧
    (st = 3 → Runs .bootCtrlGo s (fun t => bootStage t = 4 ∧ t = { s with regs := t.regs }) ∧
      Runs .imageWaitTimeout s (fun t => inCairn t ∧ rget t rSEC_STATUS fSEC_STATUS_BOOT_CAUSE = 7)) ∧
    (st ≠ 3 → Runs .bootCtrlGo s (fun t => OnlyRegs s t [rBOOT_CTRL] ∧ rflag t rBOOT_CTRL fBOOT_CTRL_REJECT = true) ∧ still .imageWaitTimeout) ∧
    (st ≠ 4 → still .verifyComplete) ∧
    (st = 4 → Runs .verifyComplete s (fun t =>
      (imageCause s = 0 → s.sec.log.length ≤ 254 → bootStage t = 5 ∧ t.boot.phase = 1 ∧ t.sec.imageSvn = imgNat s 4 4 ∧
        t.sec.imageDigest = BitVec.ofNat 256 (imgNat s 16 32) ∧ s.mram.minSvn ≤ imgNat s 4 4 ∧
        t.sec.chain = chainStep (chainStep s.sec.chain 0x0003 (shake256 (imgBytes s 0 64))) 0x0004 t.sec.imageDigest ∧
        (∀ d, d < 4 → ∀ x, 3 ≤ x → x ≤ 5 → domRun t d x = .onRef) ∧ t.mem = s.mem) ∧
      (imageCause s ≠ 0 → inCairn t ∧ rget t rSEC_STATUS fSEC_STATUS_BOOT_CAUSE = imageCause s))) ∧
    (∀ l, st ≠ 5 → still (.selftestPhaseComplete l)) ∧
    (st = 5 → ph = 1 → domainsSettled s = false → ∀ l, still (.selftestPhaseComplete l)) ∧
    (st = 5 → (ph ≠ 1 ∨ domainsSettled s = true) → s.boot.fatal = none →
      (ph < 7 → s.boot.failedCores.length ≤ 8 → Runs (.selftestPhaseComplete []) s (fun t => t = { s with boot := { s.boot with phase := ph + 1 } })) ∧
      (∀ f, coreFault f.unit = true → s.boot.failedCores.length ≤ 7 → ph < 7 → Runs (.selftestPhaseComplete [f]) s (fun t =>
        f.inst ∈ t.boot.failedCores ∧ t.boot.phase = ph + 1 ∧ bootStage t = 5 ∧ t.boot.fails = s.boot.fails ++ [(ph, f)] ∧ t.mem = s.mem)) ∧
      (∀ f, f.unit = 6 → ph = 6 → s.boot.failedCores.length ≤ 8 → Runs (.selftestPhaseComplete [f]) s (fun t =>
        t.boot.failedPorts = s.boot.failedPorts ++ [f.inst] ∧ t.boot.phase = 7 ∧ bootStage t = 5 ∧ t.mem = s.mem)) ∧
      (∀ f, coreFault f.unit = true → s.boot.failedCores.length = 8 → f.inst ∉ s.boot.failedCores → Runs (.selftestPhaseComplete [f]) s (fun t =>
        inCairn t ∧ rget t rBOOT_STATUS fBOOT_STATUS_RESULT = 3)) ∧
      (∀ f, coreFault f.unit = false → f.unit ≠ 6 → Runs (.selftestPhaseComplete [f]) s (fun t =>
        inCairn t ∧ rget t rBOOT_STATUS fBOOT_STATUS_RESULT = 3)) ∧
      (ph = 7 → s.boot.failedCores = [] → s.boot.failedPorts = [] → Runs (.selftestPhaseComplete []) s (fun t => bootStage t = 6 ∧
        rget t rBOOT_STATUS fBOOT_STATUS_RESULT = 1 ∧ ctlState t = 0 ∧ t.pins.ergTxIdle = false ∧ (∀ p, p < 12 → portState t p = 1) ∧
        t.mem = s.mem)))

/-- R357, R386, R391, R433, R436, R440, R463. -/
def Obligations.ResetsAndTrips : Prop :=
  ∀ s : State, Canon s →
    let lost (t : State) := rflag t rCLK_STATUS fCLK_STATUS_SRC = false ∧ rflag t rCLK_STATUS fCLK_STATUS_XTAL_FAIL = true ∧
      (2 ≤ bootStage s → bootStage s ≤ 5 → t.boot.xtalPending = true) ∧
      (∀ p, p < 12 → portState s p = 2 → portDozes s p = false → portState t p = 0 ∧
        rget t (rPORT_STATUS p) fPORT_STATUS_DOWN_CAUSE = 2 ∧ rflag t (rPORT_STATUS p) fPORT_STATUS_DOWN_EVENT = true) ∧
      (∀ k, k < 2 → cportState s k = 2 → cportState t k = 0 ∧ rget t (rCTL_PORT k) fCTL_PORT_DOWN_CAUSE = 2) ∧
      ((∀ p, p < 12 → portState s p ≠ 2) → (∀ k, k < 2 → cportState s k ≠ 2) → Raises s t 0x42 [rd t rCLK_STATUS] ∧
        t = { s with regs := t.regs, recq := t.recq, boot := { s.boot with xtalPending := t.boot.xtalPending } } ∧
        ∀ o, o ≠ rCLK_STATUS → o ≠ rCQ_STATUS 8 → rd t o = rd s o)
    let onCrystal := rflag s rCLK_STATUS fCLK_STATUS_SRC = true
    (∀ n, 98 * 50000 ≤ 100 * n → 100 * n ≤ 102 * 50000 → Runs (.crystalMonitorTick n) s (fun t => t = s)) ∧
    (∀ n, (100 * n < 98 * 50000 ∨ 102 * 50000 < 100 * n) →
      (onCrystal → Runs (.crystalMonitorTick n) s lost) ∧ (¬ onCrystal → Runs (.crystalMonitorTick n) s (fun t => t = s))) ∧
    (onCrystal → Runs .crystalEdgeLoss s lost) ∧ (¬ onCrystal → Runs .crystalEdgeLoss s (fun t => t = s)) ∧
    (∀ die pll dom, domOfPll die pll = some dom →
      (pllRun s die pll ≠ .locking → Runs (.pllLockTimeout die pll) s (fun t => t = s)) ∧
      (pllRun s die pll = .locking → s.pins.thermtrip = false →
        (bootStage s = 2 → Runs (.pllLockTimeout die pll) s inCairn) ∧
        (bootStage s = 5 → Runs (.pllLockTimeout die pll) s (fun t => pllRun t die pll = .dead ∧ domRun t die dom = .gated ∧ bootStage t = 5 ∧
          ∃ f, t.boot.fails = s.boot.fails ++ [(1, f)] ∧ f.die = die ∧ f.inst = pll)) ∧
        (bootStage s = 6 → Runs (.pllLockTimeout die pll) s (fun t => pllRun t die pll = .dead ∧ domRun t die dom = .gated ∧
          (rflag s rCLK_PLL_ERR fCLK_PLL_ERR_VALID = false → rflag t rCLK_PLL_ERR fCLK_PLL_ERR_DEAD = true))))) ∧
    (∀ v straps, wbit v 0 = false → wbit v 2 = false →
      (bootStage s = 7 → wfld v 15 8 = 0xC3 → Runs (.bootCtrlRestart v straps) s (fun t => ∃ u,
        Machine.exec .rstNAssert s = .next u ∧ Machine.exec (.rstNDeassert straps) u = .next t)) ∧
      ((bootStage s ≠ 7 ∨ wfld v 15 8 ≠ 0xC3) → Runs (.bootCtrlRestart v straps) s (fun t => t = s))) ∧
    (∀ v,
      (wbit v 0 = true → wfld v 15 8 = 0xA5 → bootStage s = 6 → s.pins.thermtrip = false → (∀ c ∈ s.boot.failedCores, c < nCores) →
        s.boot.failedCores.length ≤ 8 → Runs (.ctlResetWarm v) s (fun t => (s.boot.failedCores = [] → t.mem = s.mem ∧ t.memUndef = s.memUndef) ∧ t.sec.chain = s.sec.chain ∧
        t.sec.log = s.sec.log ∧ t.boot = s.boot ∧ t.time = s.time ∧ ctlState t = ctlState s ∧ bootStage t = 6 ∧ rd t rCTL_SESSION = rd s rCTL_SESSION ∧
        t.ctl.hbDeadline = s.ctl.hbDeadline ∧ t.parts = [] ∧ t.ergReqs = [] ∧
        (∀ c, c < nCores → coreOf t c = { Core.reset with scrubbing := true }) ∧ (∀ c ∈ s.boot.failedCores, fenceOf t c = 1))) ∧
      ((wbit v 0 = false ∨ wfld v 15 8 ≠ 0xA5 ∨ bootStage s ≠ 6) → Runs (.ctlResetWarm v) s (fun t => t = s))) ∧
    (∀ l : List (Nat × Nat),
      let hot := ∃ e ∈ l, 125 ≤ e.2 ∧ ∃ v, (e.1, v) ∈ s.pins.sensors ∧ 125 ≤ v
      (s.pins.thermtrip = true → Runs (.thermalSensorRead l) s (fun t => t = { s with pins := { s.pins with sensors := l } })) ∧
      (s.pins.thermtrip = false → hot → Runs (.thermalSensorRead l) s (fun t => t.pins.thermtrip = true ∧ t.pins.fault = true ∧
        TierLost t ∧ t.cores = [] ∧ t.mram = s.mram ∧ t.pins.sensors = l ∧ t.clk = State.reset.clk)) ∧
      (s.pins.thermtrip = false → ¬ hot → Runs (.thermalSensorRead l) s (fun t => t.pins = { s.pins with sensors := l } ∧
        t = { s with regs := t.regs, pins := t.pins, free := s.free + 1 } ∧
        ∀ d, d < 7 → (l.filter (fun e => sensorDie e.1 = d)) ≠ [] → (∀ e ∈ l, e.2 < 256) →
          rget t (rPWR_DIE d) fPWR_DIE_TJ = ((l.filter (fun e => sensorDie e.1 = d)).map (·.2)).foldl max 0))) ∧
    (s.pins.thermtrip = false →
      (∀ kind i, 1 ≤ kind → logicUnit kind i = true → Runs (.logicFault kind i) s (fun t => rflag t rFLT_STATE fFLT_STATE_DRAIN = true ∧
        (kind = 1 → rflag t (rCACHE_ERR (i / 96)) fCACHE_ERR_BANK_FAULT = true))) ∧
      (∀ i, i < 32 → Runs (.logicFault 0 i) s (fun t => (kGet TCtl.reset t.tier i).faulted = true ∧
        ((kGet TCtl.reset s.tier i).faulted = false → rflag t rFLT_STATE fFLT_STATE_DRAIN = true ∧
          rflag t (rTIER_ERR i) fTIER_ERR_FAULT = true))))

/-- R441, R449, R455–R457. -/
def Obligations.SidebandAccess : Prop :=
  ∀ s : State,
    let only (t : State) := t = { s with pins := { s.pins with smbOut := t.pins.smbOut } }
    let tapOnly (t : State) := t = { s with free := t.free, pins := { s.pins with tap := t.pins.tap } }
    let free := s.pins.rstN = false ∨ bootStage s = 7
    (∀ addr c, (bootStage s < 2 ∨ addr.toNat ≠ smbAddr s) → Runs (.smbusBlockRead addr c) s (fun t => only t ∧ t.pins.smbOut = [])) ∧
    (∀ (addr : BitVec 7) (c : Byte), 2 ≤ bootStage s → addr.toNat = smbAddr s →
      (c.toNat < 0x80 → smbReg c.toNat = none → Runs (.smbusBlockRead addr c) s (fun t => only t ∧ t.pins.smbOut = [])) ∧
      (∀ off, c.toNat < 0x80 → smbReg c.toNat = some off → Runs (.smbusBlockRead addr c) s (fun t => only t ∧
        ∃ pec, t.pins.smbOut = [8] ++ bytesLE 8 (if regRuns s off then ((regLoad s off).getD 0).toNat else 0) ++ [pec])) ∧
      (0x80 ≤ c.toNat → Runs (.smbusBlockRead addr c) s (fun t => only t ∧ ∃ bs pec, bs.length = 64 ∧ t.pins.smbOut = [64] ++ bs ++ [pec] ∧
        ∀ j, j < 64 → bs.getD j 0 = (kGet [] s.mram.cper ((c.toNat - 0x80) / 8)).getD (64 * (c.toNat % 8) + j) 0))) ∧
    Runs .smbusSclTimeout s (fun t => only t ∧ t.pins.smbOut = []) ∧
    (∀ cells, (free → Runs (.jtagExtest cells) s (fun t => tapOnly t ∧ t.pins.tap.ir = 0 ∧ t.pins.tap.cells = cells)) ∧
      (¬ free → Runs (.jtagExtest cells) s (fun t => tapOnly t ∧ t.pins.tap.ir = 0x3F ∧ t.pins.tap.cells = s.pins.tap.cells)) ∧
      Runs (.jtagSamplePreload cells) s (fun t => tapOnly t ∧ t.pins.tap.ir = 1 ∧ t.pins.tap.cells = cells ∧
        t.pins.tap.captured.getLsbD 0 = s.pins.rstN ∧ t.pins.tap.captured.getLsbD 1 = s.pins.pwrgood ∧
        (∀ j, j < 8 → t.pins.tap.captured.getLsbD (2 + j) = s.pins.strapPins.getLsbD j) ∧
        t.pins.tap.captured.getLsbD 12 = !alertAsserted s ∧ t.pins.tap.captured.getLsbD 13 = !s.pins.fault)) ∧
    (free → Runs .jtagClamp s (fun t => tapOnly t ∧ t.pins.tap.ir = 2) ∧ Runs .jtagHighz s (fun t => tapOnly t ∧ t.pins.tap.ir = 3)) ∧
    (¬ free → Runs .jtagClamp s (fun t => tapOnly t ∧ t.pins.tap.ir = 0x3F) ∧ Runs .jtagHighz s (fun t => tapOnly t ∧ t.pins.tap.ir = 0x3F)) ∧
    Runs .jtagBypass s (fun t => tapOnly t ∧ t.pins.tap.ir = 0x3F) ∧ Runs .testLogicReset s (fun t => tapOnly t ∧ t.pins.tap.ir = 0x3F)

/-! ### Streams, gathers and update sweeps -/

/-- The rows of the TILE or PAGE at which the program of stream `r` of partition `p` stands begin at `addr`, `pitch`
apart (R182, R183): a TILE's at a base plus a register; a PAGE's in the page whose table entry the register names. -/
def tileAt (s : State) (p : Nat) (r : Stream) (addr pitch : Nat) : Prop :=
    let w := r.ops.getD r.pos 0;
    let b := r.bases.getD (bitsOf w 26 25) 0;
    let a := r.a.getD (bitsOf w 24 23) 0;
    (soOp w = 6 ∧ ((addr : Nat) : Int) = ((b : Nat) : Int) + a ∧ addr < 2 ^ 48 ∧ addr % 64 = 0 ∧ pitch = r.pitch ∧
      r.pitch % 64 = 0) ∨
    (soOp w = 7 ∧ 0 ≤ a ∧ a < 4096 ∧ partReachesRange s p (b + 8 * a.toNat) 8 = true ∧ ∃ base, pteOf s p b a.toNat = .ok base ∧
      pitch = r.rowLen * 64 ∧
      addr = base + (if bitsOf w 22 22 = 1 then 256 * (r.rowLen * 64) else 0) + bitsOf w 21 14 * (r.rowLen * 64))

/-- The commands of a stream (R181, R184–R186). -/
def streamTiles (s : State) (c n : Nat) : Prop :=
    let r := streamOf s c n;
    (r.owner = none → Runs (.streamTileBegin c n) s (fun t => t = s) ∧ Runs (.streamEnd c n) s (fun t => t = s)) ∧
    (∀ x, r.owner = some x → (r.ended = true ∨ soOp (r.ops.getD r.pos 0) = 0) →
      ((∀ tk ∈ r.live, tokOf (coreOf s c) tk ≠ .filling) → Runs (.streamEnd c n) s (fun t => OnlyCore s t c ∧
        coreOf t c = { coreOf s c with streams := (coreOf t c).streams } ∧
        streamOf t c n = { r with owner := none, live := [], ended := true } ∧
        ∀ m, m ≠ n → streamOf t c m = streamOf s c m)) ∧
      (∀ tk, tk ∈ r.live → tokOf (coreOf s c) tk = .filling → Runs (.streamEnd c n) s (fun t => t = s))) ∧
    (∀ x, r.owner = some x → r.ended = false → beforeCommit (ctxOf s c x) = true →
      tileSkew (soRun soFuel r) = false → strReady (coreOf s c) (soRun soFuel r) = false → Runs (.streamTileBegin c n) s (fun t => OnlyCore s t c ∧
        coreOf t c = { coreOf s c with streams := (coreOf t c).streams } ∧ streamOf t c n = soRun soFuel r ∧
        ∀ m, m ≠ n → streamOf t c m = streamOf s c m)) ∧
    (∀ x, r.owner = some x → r.ended = false → beforeCommit (ctxOf s c x) = true →
      soOp (r.ops.getD r.pos 0) = 6 → tileSkew r = true → Runs (.streamTileBegin c n) s (fun t =>
        ctxOf t c x = abortedAt (ctxOf s c x) 0x08 ∧ SameMem s t ∧ rget t (rSTR_ERR c) fSTR_ERR_CAUSE = 7 ∧
        rflag t (rSTR_ERR c) fSTR_ERR_VALID = true ∧ (∀ o, o ≠ rSTR_ERR c → rd t o = rd s o))) ∧
    (∀ (x addr pitch : Nat), r.owner = some x → r.ended = false → beforeCommit (ctxOf s c x) = true →
      let i := r.tiles % r.ring;
      let off := r.slotOff + i * r.slotSize;
      let len := r.rowLen * 64;
      let p := ((ctxOf s c x).pour.map (·.part)).getD 0;
      let own := ownSlots (ctxOf s c x);
      let span := (r.rows - 1) * pitch + len;
      strReady (coreOf s c) r = true → tileAt s p r addr pitch →
      (r.slotSize < r.rows * len → Runs (.streamTileBegin c n) s (fun t => OnlyCore s t c ∧
        ctxOf t c x = abortedAt (ctxOf s c x) 0x08 ∧ (coreOf t c).spm = (coreOf s c).spm)) ∧
      (r.rows * len ≤ r.slotSize → ∀ j, j < r.rows → partReachesRange s p (addr + j * pitch) len = false →
        Runs (.streamTileBegin c n) s (fun t => ctxOf t c x = abortedAt (ctxOf s c x) 0x08 ∧ SameMem s t ∧
          (coreOf t c).spm = (coreOf s c).spm)) ∧
      (r.rows * len ≤ r.slotSize → (∀ j, j < r.rows → partReachesRange s p (addr + j * pitch) len = true) →
        rangeServed s c 0xA off (r.rows * len) = false → Runs (.streamTileBegin c n) s (fun t =>
          t = wakeQuads (setStream s c n r) c (quadsOf off (r.rows * len)))) ∧
      (r.rows * len ≤ r.slotSize → (∀ j, j < r.rows → partReachesRange s p (addr + j * pitch) len = true) →
        rangeServed s c 0xA off (r.rows * len) = true → rangeOn s c off (r.rows * len) = true → smWf (fun _ => Tok.empty) (coreOf s c).toks = true →
        smWf (spmDflt (coreOf s c)) (coreOf s c).spm = true →
        (r.store = false → (∀ j, j < r.rows → tierDownIn s (addr + j * pitch) len = false) →
          Runs (.streamTileBegin c n) s (fun t => SameMem s t ∧
          (∀ j q, j < r.rows → q < len → spmByte (coreOf t c) (off + j * len + q) =
            memByte (rawView s own addr span) (addr + j * pitch + q)) ∧
          (∀ o, (o < off ∨ off + r.rows * len ≤ o) → spmByte (coreOf t c) o = spmByte (coreOf s c) o) ∧
          (∀ tk, tokOf (coreOf t c) tk = if tk = r.tok0 + i then .filling else tokOf (coreOf s c) tk) ∧
          (streamOf t c n).tiles = r.tiles + 1 ∧ (streamOf t c n).pos = r.pos + 1 ∧
          (∀ m, m ≠ n → streamOf t c m = streamOf s c m) ∧ ∀ d, d ≠ c → coreOf t d = coreOf s d)) ∧
        (r.store = true → spmBadIn (coreOf s c) off (r.rows * len) = false → len ≤ pitch →
          (∀ j, j < r.rows → writeFails s (addr + j * pitch) len = false) →
          Runs (.streamTileBegin c n) s (fun t => (coreOf t c).spm = (coreOf s c).spm ∧
          (∀ j q, j < r.rows → q < len → memByte t (addr + j * pitch + q) = spmByte (coreOf s c) (off + j * len + q)) ∧
          (∀ a, (∀ j, j < r.rows → a < addr + j * pitch ∨ addr + j * pitch + len ≤ a) → memByte t a = memByte s a) ∧
          (∀ tk, tokOf (coreOf t c) tk = if tk = r.compTok + i then .filling else tokOf (coreOf s c) tk) ∧
          (streamOf t c n).tiles = r.tiles + 1 ∧ (streamOf t c n).pos = r.pos + 1 ∧
          (∀ m, m ≠ n → streamOf t c m = streamOf s c m) ∧ ∀ d, d ≠ c → coreOf t d = coreOf s d))))

/-- The commands of a gather (R189, R190). -/
def gatherSteps (s : State) (c n : Nat) : Prop :=
    let r := gathOf s c n;
    (r.owner = none → Runs (.gatherRequest c n) s (fun t => t = s) ∧ Runs (.gatherEnd c n) s (fun t => t = s)) ∧
    (r.visit < r.rows.length → Runs (.gatherEnd c n) s (fun t => t = s)) ∧
    (∀ x, r.owner = some x → r.rows.length ≤ r.visit → smWf (fun _ => Tok.empty) (coreOf s c).toks = true →
      Runs (.gatherEnd c n) s (fun t => OnlyCore s t c ∧
        coreOf t c = { coreOf s c with gaths := (coreOf t c).gaths, toks := (coreOf t c).toks } ∧
        gathOf t c n = { r with owner := none, open_ := false, live := [] } ∧
        (∀ m, m ≠ n → gathOf t c m = gathOf s c m) ∧
        ∀ tk, tokOf (coreOf t c) tk =
          if r.store = false ∧ tk ∈ r.live ∧ tokOf (coreOf s c) tk = .filling then .full else tokOf (coreOf s c) tk)) ∧
    (∀ x row, r.owner = some x → r.rows[r.visit]? = some row → beforeCommit (ctxOf s c x) = true →
      (r.open_ = true ∨ gathReady (coreOf s c) r = true) →
      let p := ((ctxOf s c x).pour.map (·.part)).getD 0;
      let a := r.base + row * r.stride + r.byteAt;
      let len := min (256 - a % 256) (r.rowLen * 64 - r.byteAt);
      let off := r.slotOff + (r.visit / r.perSlot % r.ring) * (r.perSlot * r.pitch) +
        (r.visit % r.perSlot) * r.pitch + r.byteAt;
      let done := r.rowLen * 64 ≤ r.byteAt + len;
      let moves (t : State) := (gathOf t c n).visit = (if done then r.visit + 1 else r.visit) ∧
        (gathOf t c n).byteAt = (if done then 0 else r.byteAt + len) ∧
        (∀ m, m ≠ n → gathOf t c m = gathOf s c m) ∧ ∀ d, d ≠ c → coreOf t d = coreOf s d;
      (r.bound ≤ row → Runs (.gatherRequest c n) s (fun t => OnlyCtx s t c x ∧
        ctxOf t c x = abortedAt (ctxOf s c x) 0x08)) ∧
      (row < r.bound → partReachesRange s p a len = false → Runs (.gatherRequest c n) s (fun t => SameMem s t ∧
        ctxOf t c x = abortedAt (ctxOf s c x) 0x08 ∧ (coreOf t c).spm = (coreOf s c).spm)) ∧
      (row < r.bound → partReachesRange s p a len = true → rangeServed s c (0xB + n) off len = false →
        Runs (.gatherRequest c n) s (fun t => t = wakeQuads s c (quadsOf off len))) ∧
      (row < r.bound → partReachesRange s p a len = true → rangeServed s c (0xB + n) off len = true → rangeOn s c off len = true →
        smWf (fun _ => Tok.empty) (coreOf s c).toks = true → smWf (spmDflt (coreOf s c)) (coreOf s c).spm = true →
        (r.store = false → tierDownIn s a len = false → Runs (.gatherRequest c n) s (fun t => SameMem s t ∧ moves t ∧
          (∀ o, spmByte (coreOf t c) o =
            if off ≤ o ∧ o < off + len then memByte (rawView s (ownSlots (ctxOf s c x)) a len) (a + (o - off)) else spmByte (coreOf s c) o) ∧
          ∀ tk, tokOf (coreOf t c) tk =
            if r.open_ = false ∧ tk = gathTok r then .filling else tokOf (coreOf s c) tk)) ∧
        (r.store = true → spmBadIn (coreOf s c) off len = false → writeFails s a len = true → Runs (.gatherRequest c n) s (fun t =>
          ctxOf t c x = abortedAt (ctxOf s c x) 0x04 ∧ SameMem s t)) ∧
        (r.store = true → spmBadIn (coreOf s c) off len = false → writeFails s a len = false → Runs (.gatherRequest c n) s (fun t => moves t ∧
          (coreOf t c).spm = (coreOf s c).spm ∧ (coreOf t c).toks = (coreOf s c).toks ∧
          (∀ b, (b < a ∨ a + len ≤ b) → memByte t b = memByte s b) ∧
          ∀ q, q < len → memByte t (a + q) = spmByte (coreOf s c) (off + q)))))

/-- R181, R184–R186, R189, R190. The bound of 4096 operations to the next tile and the answer of a
gather request at once are the model's choices, log entries 42 and 41. -/
def Obligations.StreamsAndGathers : Prop :=
  ∀ (s : State) (c n : Nat), c < nCores → Canon s → (n < 8 → streamTiles s c n) ∧ (n < 2 → gatherSteps s c n)

/-- R154, R161, R164, R267. -/
def Obligations.UpdateSweepEnds : Prop :=
  ∀ (s : State) (c x : Nat), c < nCores → x < 4 → Canon s →
    let k := ctxOf s c x;
    ((k.pour = none ∨ k.updRun = none ∨ (∃ u, k.updRun = some u ∧ u.busy = false)) →
      Runs (.updateSweepComplete c x) s (fun t => t = s)) ∧
    (∀ pr u, k.pour = some pr → k.updRun = some u → u.busy = true → beforeCommit k = true →
      let b := ublkOf u.blk;
      let i := u.opAt + (sweepOps u.prog u.opAt).length;
      let w := u.prog.getD i 0;
      (uOp w = 0x20 → Runs (.updateSweepComplete c x) s (fun t => OnlyCtx s t c x ∧
        ctxOf t c x = { k with
          pc := BitVec.ofNat 48 (u.ktab.getD (uImm w) 0).toNat,
          updRun := some { u with opAt := i + 1, sweep := u.sweep + 1, inKernel := true, busy := false } })) ∧
      (uOp w ≠ 0x20 → hasOp u.prog 0x18 = false → (∀ a buf, writeBase pr b.record = some (a, buf) → writeFails s a 256 = false) → Runs (.updateSweepComplete c x) s (fun t =>
        ctxOf t c x = { k with updRun := none, pc := u.retPc } ∧ (∀ y, y ≠ x → ctxOf t c y = ctxOf s c y) ∧
        (∀ d, d ≠ c → coreOf t d = coreOf s d) ∧ (coreOf t c).spm = (coreOf s c).spm ∧
        (∀ f, f ∈ (coreOf t c).flights ↔ f ∈ (coreOf s c).flights ∧ ¬(f.ctx = x ∧ f.op = 0x2F)) ∧
        rget t (rUPD_LAST c) fUPD_LAST_SAT = b2n u.sat ∧
        rget t (rUPD_LAST c) fUPD_LAST_U_APPLIED = wrapTo 8 (recU s pr b) ∧
        rget t (rUPD_LAST c) fUPD_LAST_U_NEXT = wrapTo 8 (uNext s c pr b u.mMax) ∧
        rget t (rUPD_LAST c) fUPD_LAST_M = (match u.mMax with | some m => wrapTo 16 m | none => 0x8000) ∧
        rget t (rUPD_NORM c) fUPD_NORM_S = (uConst u 16).toNat ∧
        rget t (rUPD_NORM c) fUPD_NORM_F = (uConst u 17).toNat ∧
        (writeBase pr b.record = none → SameMem s t) ∧
        (∀ a buf, writeBase pr b.record = some (a, buf) →
          (∀ j, (j < a ∨ a + 256 ≤ j) → memByte t j = memByte s j) ∧
          ∀ j, j < 256 → memByte t (a + j) = (recordBytes s c pr b u).getD j 0))))

/-! ### What tensor instructions do to data -/

/-- The code that element `e` of an output tile takes: the exact value `v` in format `f` under the rounding of
conversion block `b` (R98, R104). -/
def outCode (s : State) (c : Nat) (b : ConvBlk) (f stamp e : Nat) (v : FV) : Nat :=
  (convFv f (drawOf s c b stamp e) false v).1

/-- R73, R76, R78, R79, R82–R84, R118, R287, R289–R293. The effect is at issue (log entry 25); log entries 32 and 105
are the model's. -/
def Obligations.TensorData : Prop :=
  ∀ (s : State) (c x : Nat) (w : Word) (k : Ctx) (pr : Pour) (p : Plan), Issuable s c x w k pr p →
    let old (i : Nat) := accOf (coreOf s c) i
    let wf (i : Nat) := smWf (fun j => match (old i).gen with
      | some g => BitVec.ofNat 32 (Config.freeWord g j).toNat | none => 0) (old i).vals = true
    let did (i : Instr) (P : State → Prop) := Issued i s c x w k p P
    let conv (r : Nat) (b : ConvBlk) := convBlkOf (blockAt s (gRead k r).toNat) = some b
    let steps (f : MmaF) (i : Nat) (a b : Opnd) (kT : Nat) (t : State) :=
      let fm := (tdAt k f.da).fmt
      ∀ m n, m < f.m → n < f.n → accVal (accOf (coreOf t c) i) m n =
        (stepsOut (fmtInt fm) a b m n (fmtK fm) kT ((kT + fmtK fm - 1) / fmtK fm) 0
          (if f.zero then 0 else accVal (old i) m n, false)).1
    let beyond (f : MmaF) (i : Nat) (t : State) := ∀ m n, n < 256 → (f.m ≤ m ∨ f.n ≤ n) →
      accVal (accOf (coreOf t c) i) m n = accVal (old i) m n
    (wOp w = 0x20 →
      let f := mmaFields w
      let kT := (gRead k (wfld w 11 7)).toNat
      let a := opndA (coreOf s c) k (tdAt k f.da)
      let b := opndB (coreOf s c) k (tdAt k f.db)
      let frame (t : State) := SameMem s t ∧ SpmOutside s t c 0 0 ∧ ∀ j, j ∉ mmaAccs f → accOf (coreOf t c) j = old j
      (∀ i ∈ mmaAccs f, wf i) →
      (f.mode = 0 → did (.mma c x w) (fun t => frame t ∧ steps f (4 * f.arr + f.acc) a b kT t ∧ beyond f (4 * f.arr + f.acc) t)) ∧
      (f.mode = 1 ∨ f.mode = 2 → did (.mma c x w) (fun t => frame t ∧ steps f f.acc a b kT t ∧ beyond f f.acc t ∧
        steps f (4 + f.acc) (a.shift (if f.mode = 2 then f.m else 0)) (b.shift (if f.mode = 1 then f.n else 0)) kT t ∧
        beyond f (4 + f.acc) t)) ∧
      (f.mode = 3 → did (.mma c x w) (fun t => frame t ∧ steps f f.acc a b kT t ∧ beyond f f.acc t ∧
        ((tdAt k f.da).scv = false → ∀ m n, m < f.n → n < kT → accVal (accOf (coreOf t c) (4 + m / 64)) (m % 64) n =
          (stepsOut (fmtInt (tdAt k f.da).fmt) (opndA (coreOf s c) k (tdAt k f.dc)) (dualB (coreOf s c) k (tdAt k f.da) f.m).opnd
            m n (fmtK (tdAt k f.da).fmt) f.m ((f.m + fmtK (tdAt k f.da).fmt - 1) / fmtK (tdAt k f.da).fmt) 0
            (if f.zero then 0 else accVal (old (4 + m / 64)) (m % 64) n, false)).1)))) ∧
    (wOp w = 0x23 →
      let i := 4 * wfld w 53 53 + wfld w 52 51
      let d := tdAt k (wfld w 50 45)
      let m := wfld w 44 39 + 1
      let n := wfld w 38 31 + 1
      (old i).badPar = [] → did (.spill c x w) (fun t => SameMem s t ∧ SpmOutside s t c d.off (d.off + imageTail m n + 64) ∧
        SameAccs s t c ∧ spmBytes (coreOf t c) (d.off + imageTail m n) 64 = bytesLE 64 (b2n (old i).nonfin) ∧
        ∀ a b, a < m → b < n →
          spmBytes (coreOf t c) (d.off + 4 * (n * a + b)) 4 = bytesLE 4 (accVal (old i) a b).toNat)) ∧
    (wOp w = 0x24 →
      let i := 4 * wfld w 53 53 + wfld w 52 51
      let d := tdAt k (wfld w 50 45)
      let m := wfld w 43 38 + 1
      let n := wfld w 37 30 + 1
      did (.accld c x w) (fun t => SameMem s t ∧ SpmOutside s t c 0 0 ∧ (∀ j, j ≠ i → accOf (coreOf t c) j = old j) ∧
        ((accOf (coreOf t c) i).isInt = true ↔ d.fmt = 9) ∧
        ((accOf (coreOf t c) i).nonfin = true ↔ (spmByte (coreOf s c) (d.off + imageTail m n)).toNat % 2 = 1) ∧
        ∀ a b, a < m → b < n → accVal (accOf (coreOf t c) i) a b =
          BitVec.ofNat 32 (ofBytesLE (spmBytes (coreOf s c) (d.off + 4 * (n * a + b)) 4)))) ∧
    (wOp w = 0x25 →
      let i := 4 * wfld w 53 53 + wfld w 52 51
      let budget := wfld (gRead k (wfld w 31 27)) 31 0
      did (.assay c x w) (fun t => SpmOutside s t c 0 0 ∧ (∀ j, j ≠ i → accOf (coreOf t c) j = old j) ∧
        (coreOf t c).window = some ⟨x, wfld w 53 53, wfld w 52 51, wfld w 50 48, wfld w 47 38, wfld w 37 32 + 1, budget⟩ ∧
        (∃ n, (coreOf t c).assayRing = (coreOf s c).assayRing.drop n) ∧
        ((coreOf s c).assayRing = [] → SameMem s t ∧ accOf (coreOf t c) i = old i) ∧
        ∀ r, (coreOf s c).assayRing = [r] →
          (budget < recCycles s.free r → SameMem s t ∧ (coreOf t c).assayRing = [r] ∧ accOf (coreOf t c) i = old i) ∧
          (recCycles s.free r ≤ budget → (coreOf t c).assayRing = [] ∧ accOf (coreOf t c) i = recAccs r ∧
            (if AssayOut.mismatch ∈ recOutcomes s c r (recVals r (recAccs r)) then
              rflag t (rASSAY_STATUS c) fASSAY_STATUS_MISMATCH = true else SameMem s t)))) ∧
    (wOp w = 0x29 →
      let da := tdAt k (wfld w 53 48)
      let db := tdAt k (wfld w 47 42)
      let dd := tdAt k (wfld w 41 36)
      did (.vred c x w) (fun t => SameMem s t ∧ SameAccs s t c ∧ (∀ d, d ≠ c → coreOf t d = coreOf s d) ∧
        (∀ o, (∀ r, r < da.rows → o < dd.off + r * dd.pitch ∨ dd.off + r * dd.pitch + 4 ≤ o) →
          spmByte (coreOf t c) o = spmByte (coreOf s c) o) ∧
        ∀ r, r < da.rows → spmBytes (coreOf t c) (dd.off + r * dd.pitch) 4 =
          bytesLE 4 (vredRow (coreOf s c) (wfld w 33 32) da db r).toNat)) ∧
    (wOp w = 0x28 → ∀ b, conv (wfld w 28 24) b →
      let da := tdAt k (wfld w 53 48)
      let db := tdAt k (wfld w 47 42)
      let dd := tdAt k (wfld w 41 36)
      let fn := wfld w 23 18
      did (.vew c x w) (fun t => SameMem s t ∧ SameAccs s t c ∧ SpmOutside s t c dd.off (tdEnd dd) ∧
        ∀ r q, r < da.rows → q < da.cols → tileBits (coreOf t c) dd r q =
          outCode s c b dd.fmt pr.stamp (wfld (gRead k (wfld w 33 29)) 47 0 + r * b.stride + q)
            (shifted (shiftOf s c x b) (vewFn fn (tile32 (coreOf s c) da r q)
              (if vewUnary fn then 0 else vewB (coreOf s c) w db r q))))) ∧
    (wOp w = 0x2A → ∀ b, conv (wfld w 28 24) b → b.append = false →
      let da := tdAt k (wfld w 53 48)
      let db := tdAt k (wfld w 47 42)
      let dd := tdAt k (wfld w 41 36)
      did (.vrot c x w) (fun t => SameMem s t ∧ SameAccs s t c ∧ SpmOutside s t c dd.off (tdEnd dd) ∧
        ∀ r q, r < da.rows → q < da.cols → tileBits (coreOf t c) dd r q =
          outCode s c b dd.fmt pr.stamp (wfld (gRead k (wfld w 33 29)) 47 0 + r * b.stride + q)
            (shifted (shiftOf s c x b) (vrotVal (coreOf s c) da db r q)))) ∧
    (wOp w = 0x22 → ∀ b, conv (wfld w 18 14) b → b.append = false →
      let i := 4 * wfld w 53 53 + wfld w 52 51
      let d := tdAt k (wfld w 50 45)
      let db := tdAt k (wfld w 44 39)
      let m := wfld w 37 32 + 1
      let n := wfld w 31 24 + 1
      let bf := if (old i).isInt then 9 else db.fmt
      let bias (j : Nat) := if wbit w 38 then some (fvOf bf (elemBits (spmByte (coreOf s c)) bf db.off j)) else none
      (old i).badPar = [] → did (.drain c x w) (fun t => SameAccs s t c ∧
        (∀ o, (o < d.off ∨ d.off + (m - 1) * d.pitch + rowBytes d.fmt n ≤ o) → spmByte (coreOf t c) o = spmByte (coreOf s c) o) ∧
        ((old i).assay = false → SameMem s t ∧ ∀ e, e ≠ c → coreOf t e = coreOf s e) ∧
        ∀ r q, r < m → q < n → tileBits (coreOf t c) d r q =
          outCode s c b d.fmt pr.stamp (wfld (gRead k (wfld w 23 19)) 47 0 + r * b.stride + q)
            (drainVal (old i).isInt (accVal (old i) r q) (bias q) (shiftOf s c x b))))

/-! ### What starts the engines, attention and convolution -/

/-- R181, R189, R267, R294, R297, R299. The effect is at issue (log entry 25), and a base not given is free (log entry 42). -/
def Obligations.EnginesStart : Prop :=
  ∀ (s : State) (c x : Nat) (w : Word) (k : Ctx) (pr : Pour) (p : Plan), Issuable s c x w k pr p →
    let only (t : State) := t = { s with cores := t.cores, regs := t.regs, trc := t.trc, free := t.free } ∧ OnlyCounters s t ∧
      (∀ d, d ≠ c → coreOf t d = coreOf s d) ∧ coreOf t c = { coreOf s c with
        ctxs := (coreOf t c).ctxs, iLines := (coreOf t c).iLines, lastSeq := (coreOf t c).lastSeq, flights := (coreOf t c).flights, toks := (coreOf t c).toks,
        tokRead := (coreOf t c).tokRead, tokTile := (coreOf t c).tokTile, streams := (coreOf t c).streams, gaths := (coreOf t c).gaths }
    let strs (t : State) (n : Nat) := ∀ m, m ≠ n → streamOf t c m = streamOf s c m
    let gths (t : State) (n : Nat) := ∀ m, m ≠ n → gathOf t c m = gathOf s c m
    (wOp w = 0x1C →
      let n := wfld w 53 51
      let d := tdAt k (wfld w 34 29)
      Issued (.stream c x w) s c x w k p (fun t => only t ∧ strs t n ∧ (∀ m, gathOf t c m = gathOf s c m) ∧
        (let r := streamOf t c n
         r = { Stream.reset with
           owner := some x, store := wbit w 50, noalloc := wbit w 49, ops := r.ops, bases := r.bases, tok0 := d.tok,
           ring := wfld w 22 17 + 1, depth := wfld w 16 14 + 1, compTok := (tdAt k (wfld w 28 23)).tok, slotOff := d.off,
           slotSize := d.rows * d.pitch } ∧
         (∀ j, j < r.ops.length → r.ops.getD j 0 = ofBytesLE (memBytes s ((gRead k (wfld w 48 44)).toNat + 4 * j) 4)) ∧
         r.bases.length = 4 ∧
         ∀ j, j < wfld w 36 35 + 1 → baseOf k pr (wbit w 43) (wfld w 42 37 + j) = some (r.bases.getD j 0)))) ∧
    (wOp w = 0x1D →
      let n := wfld w 53 51
      Issued (.streamStop c x w) s c x w k p (fun t => only t ∧ strs t n ∧ (∀ m, gathOf t c m = gathOf s c m) ∧
        streamOf t c n = if (streamOf s c n).owner = some x then { streamOf s c n with ended := true } else streamOf s c n)) ∧
    (wOp w = 0x34 →
      let n := wfld w 53 53
      let di := tdAt k (wfld w 49 44)
      let d := tdAt k (wfld w 35 30)
      Issued (.gather c x w) s c x w k p (fun t => only t ∧ gths t n ∧ (∀ m, streamOf t c m = streamOf s c m) ∧
        ∃ b, baseOf k pr (wbit w 42) (wfld w 41 36) = some b ∧
          gathOf t c n = { Gath.reset with
            owner := some x, bitmap := wbit w 52, store := wbit w 51, noalloc := wbit w 50, base := b,
            stride := wfld (gRead k (wfld w 29 25)) 31 0, rowLen := wfld w 10 3 + 1, bound := wfld (gRead k (wfld w 24 20)) 31 0,
            rows := indexRows (coreOf s c) di (wbit w 52), tok0 := d.tok, ring := wfld w 19 14 + 1, perSlot := d.rows,
            depth := wfld w 13 11 + 1, slotOff := d.off, pitch := d.pitch })) ∧
    (wOp w = 0x35 →
      let n := wfld w 53 53
      Issued (.gatherStop c x w) s c x w k p (fun t => only t ∧ gths t n ∧ (∀ m, streamOf t c m = streamOf s c m) ∧
        gathOf t c n = if (gathOf s c n).owner = some x then { gathOf s c n with rows := cutRows (gathOf s c n) } else gathOf s c n)) ∧
    (let sweeps (i : Instr) (b : UBlk) (prog : List Nat) (at_ : Nat) (Q : State → UpdRun → Prop) :=
       let ops := sweepOps prog at_
       let has (o : Nat) := ops.any (fun v => uOp v = o)
       updClean s pr b ops (sweepRows s pr b) = true → (∀ a n, writeFails s a n = false) →
         Issued i s c x w k p (fun t => SameAccs s t c ∧ (∀ y, y ≠ x → ctxOf t c y = ctxOf s c y) ∧
           (∃ q, ctxOf t c x = { fetchedCtx k with pc := k.pc + 8, updRun := some q } ∧ q.inKernel = false ∧ q.busy = true ∧ Q t q) ∧
           (has 0x1D = false → SpmOutside s t c 0 0) ∧ (has 0x1A = false → has 0x1B = false → SameMem s t))
     (wOp w = 0x2F →
       let a := (gRead k (wfld w 53 49)).toNat
       let b := ublkOf (blockAt s a)
       let dw := tdAt k b.dw
       ∀ n, uCheck b (uWords s pr b.prog) 0 [] [] = .ok n →
       let prog := (uWords s pr b.prog).take n
       sweeps (.update c x w) b prog 0 (fun t q => q.blk = blockAt s a ∧ q.prog = prog ∧ q.opAt = 0 ∧ q.sweep = 0 ∧ q.retPc = k.pc + 8 ∧
         SpmOutside s t c dw.off (tdEnd dw))) ∧
     (wOp w = 0x05 → ∀ r, k.updRun = some r →
       sweeps (.uresume c x w) (ublkOf r.blk) r.prog r.opAt (fun _ q =>
         q.blk = r.blk ∧ q.prog = r.prog ∧ q.opAt = r.opAt ∧ q.sweep = r.sweep ∧ q.retPc = r.retPc))) ∧
    (let out (t : State) := t = { s with cores := t.cores, regs := t.regs, trc := t.trc, erg := t.erg, ergReqs := t.ergReqs, parts := t.parts } ∧
       OnlyCounters s t ∧ SpmOutside s t c 0 0 ∧ SameAccs s t c
     let mine (r : ErgReq) (ty tc node : Nat) := r.origin = .pour ∧ r.core = c ∧ r.ctx = x ∧ r.part = pr.part ∧ r.wait = [node] ∧
       r.sent = true ∧ r.pkt.ty = ty ∧ r.pkt.tc = tc ∧ r.pkt.dst = node ∧ r.pkt.src = nodeId s ∧ r.pkt.mc = false
     let away (node tc : Nat) := node ≠ 0xFFFF ∧ fabValid s = true ∧ node ≠ nodeId s ∧ routeOf s node tc ≠ none
     let carried (rs : List ErgReq) := rs.flatMap (fun r => payloadBytes r.pkt.payload)
     (wOp w = 0x3C →
       let ga := gRead k (wfld w 44 40)
       let node := wfld ga 63 48
       let a := wfld ga 47 0
       let d := tdAt k (wfld w 51 46)
       let fill := if wbit w 19 then some (tdAt k (wfld w 25 20)).tok else none
       let sends (i : Instr) (ty : Nat) := Issued i s c x w k p (fun t => out t ∧ ∃ rs, rs ≠ [] ∧
         t.ergReqs = s.ergReqs ++ rs ∧ (∀ r ∈ rs, mine r ty (wfld w 39 37) node ∧ r.fill = fill) ∧
         carried rs = packedRows (coreOf s c) d)
       a % 32 = 0 →
         (away node (wfld w 39 37) →
           (wfld w 53 52 = 0 → sends (.fwrWr c x w) 0x09) ∧ (wfld w 53 52 = 2 → sends (.fwrRedWr c x w) 0x0D)) ∧
         (wfld w 53 52 = 1 → mcastLocal s node = false → ∀ nodes, mcastMembers s node = some nodes →
           Issued (.fwrMcastWr c x w) s c x w k p (fun t => out t ∧ ∃ rs, rs ≠ [] ∧
             t.ergReqs.length = s.ergReqs.length + rs.length ∧ t.ergReqs.drop s.ergReqs.length = rs ∧
             (∀ r ∈ rs, r.origin = .pour ∧ r.core = c ∧ r.ctx = x ∧ r.wait = nodes ∧ r.fill = fill ∧ r.pkt.ty = 0x0C ∧
               r.pkt.mc = true ∧ r.pkt.dst = node ∧ r.pkt.tc = wfld w 39 37) ∧
             carried rs = packedRows (coreOf s c) d))) ∧
     (wOp w = 0x3D →
       let ga := gRead k (wfld w 47 43)
       let node := wfld ga 63 48
       let d := tdAt k (wfld w 53 48)
       away node (wfld w 42 40) → Issued (.frd c x w) s c x w k p (fun t => out t ∧ ∃ rs,
         t.ergReqs = s.ergReqs ++ rs ∧ (rs.map (fun r => r.pkt.addr)).head? = some (wfld ga 47 0) ∧
         ∀ r ∈ rs, mine r 0x08 (wfld w 42 40) node ∧ r.fill = some d.tok ∧ r.pkt.payload = [])) ∧
     (wOp w = 0x3E →
       let ga := gRead k (wfld w 36 32)
       let node := wfld ga 63 48
       away node (wfld w 31 29) → Issued (.fatom c x w) s c x w k p (fun t => out t ∧ ∃ r,
         t.ergReqs = s.ergReqs ++ [r] ∧ mine r 0x0A (wfld w 31 29) node ∧ r.pkt.addr = wfld ga 47 0 ∧
         wfld r.pkt.w3 63 61 = wfld w 53 51 ∧ r.fill = some (tdAt k (wfld w 42 37)).tok ∧
         payloadBytes r.pkt.payload = (packedRows (coreOf s c) (tdAt k (wfld w 49 44))).take 32)))

/-- R87, R88, R124, R127, R130, R131, R139. The effect is at issue (log entry 25). -/
def Obligations.AttentionAndConvolution : Prop :=
  ∀ (s : State) (c x : Nat) (w : Word) (k : Ctx) (pr : Pour) (p : Plan), Issuable s c x w k pr p →
    (∀ i, (accOf (coreOf s c) i).badPar = []) →
    let old (i : Nat) := accOf (coreOf s c) i
    let wf (i : Nat) := smWf (fun j => match (old i).gen with
      | some g => BitVec.ofNat 32 (Config.freeWord g j).toNat | none => 0) (old i).vals = true
    let ad (r : Nat) := attDOf (blockAt s (gRead k r).toNat)
    let outside2 (t : State) (lo hi lo' hi' : Nat) := (∀ d, d ≠ c → coreOf t d = coreOf s d) ∧
      ∀ o, (o < lo ∨ hi ≤ o) → (o < lo' ∨ hi' ≤ o) → spmByte (coreOf t c) o = spmByte (coreOf s c) o
    (wOp w = 0x21 → (convFields w).mode = 0 →
      let f := convFields w
      let i := 4 * f.arr + f.acc
      let da := tdAt k f.da
      let v := convDOf (blockAt s (gRead k (wfld w 28 24)).toNat)
      let p0 := wfld (gRead k (wfld w 23 19)) 31 0
      let st := (convK v + fmtK da.fmt - 1) / fmtK da.fmt
      wf i → Issued (.mmaConv c x w) s c x w k p (fun t => SameMem s t ∧ SpmOutside s t c 0 0 ∧
        (∀ a b, a < f.m → b < f.n → accVal (accOf (coreOf t c) i) a b =
          if p0 + a < convOH v * convOW v then
            (stepsOut (fmtInt da.fmt) (opndConv (coreOf s c) k da v p0) (opndB (coreOf s c) k (tdAt k f.db)) a b (fmtK da.fmt)
              (convK v) st 0 (if f.zero then 0 else accVal (old i) a b, false)).1
          else accVal (old i) a b) ∧
        (∀ a b, b < 256 → (f.m ≤ a ∨ f.n ≤ b) → accVal (accOf (coreOf t c) i) a b = accVal (old i) a b) ∧
        ∀ j, j ≠ i → accOf (coreOf t c) j = old j)) ∧
    (wOp w = 0x30 →
      let a := ad (wfld w 21 17)
      let kpos := wfld (gRead k (wfld w 16 12)) 31 0
      let n := wfld w 11 4 + 1
      let a0 := wfld w 29 28
      let a1 := 4 + wfld w 27 26
      let dq : TD := { tdAt k (wfld w 53 48) with trans := false }
      let dk : TD := { tdAt k (wfld w 47 42) with trans := true }
      let dv : TD := { tdAt k (wfld w 41 36) with trans := false }
      let dr := tdAt k (wfld w 35 30)
      let first := wbit w 25
      let steps (kk kT : Nat) := (kT + kk - 1) / kk
      wf a0 → wf a1 → (∀ i, (old i).inject = false) → Issued (.attnFwd c x w) s c x w k p (fun t =>
        let row (m : Nat) := smRow a kpos m (if first then (inf32 true, 0) else rowState (coreOf s c) dr.off m)
          ((List.range n).map (fun j => accVal (accOf (coreOf t c) a0) m j))
        SameMem s t ∧ SpmOutside s t c dr.off (dr.off + 512) ∧
        (∀ m j, m < a.m → j < n → accVal (accOf (coreOf t c) a0) m j =
          (stepsOut false (opndA (coreOf s c) k dq) (opndB (coreOf s c) k dk) m j (fmtK a.qf) a.d (steps (fmtK a.qf) a.d) 0
            (0, false)).1) ∧
        (∀ m, m < a.m → rowState (coreOf t c) dr.off m = ((row m).m, (row m).l)) ∧
        (first = true → ∀ m, a.m ≤ m → m < 64 → rowState (coreOf t c) dr.off m = (inf32 true, 0)) ∧
        (∀ m j, m < a.m → j < a.d → accVal (accOf (coreOf t c) a1) m j =
          (stepsOut false ⟨fun _ q => fvOf a.pf ((row m).p.getD q 0), fun _ _ => .fin false 1 0⟩ (opndB (coreOf s c) k dv) m j
            (fmtK a.pf) n (steps (fmtK a.pf) n) 0
            (rne32 ((fv32 (if first then 0 else accVal (old a1) m j)).mul (fv32 (row m).f)), false)).1) ∧
        ∀ j, j ≠ a0 → j ≠ a1 → accOf (coreOf t c) j = old j)) ∧
    (wOp w = 0x31 →
      let a := ad (wfld w 32 28)
      let i := 4 + wfld w 53 52
      let dO := tdAt k (wfld w 51 46)
      let dst := tdAt k (wfld w 45 40)
      let rs (m : Nat) := rowState (coreOf s c) (tdAt k (wfld w 39 34)).off m
      wf i → Issued (.attnNorm c x w) s c x w k p (fun t => SameMem s t ∧
        outside2 t dO.off (tdEnd dO) dst.off (dst.off + 4 * a.m) ∧
        (∀ m j, m < a.m → j < a.d → accVal (accOf (coreOf t c) i) m j =
          rne32 ((fv32 (accVal (old i) m j)).mul (fv32 (recip32 (rs m).2)))) ∧
        (∀ j, j ≠ i → accOf (coreOf t c) j = old j) ∧
        (∀ b, convBlkOf (blockAt s (gRead k (wfld w 27 23)).toNat) = some b →
          (dst.off + 4 * a.m ≤ dO.off ∨ tdEnd dO ≤ dst.off) → ∀ m j, m < a.m → j < a.d → tileBits (coreOf t c) dO m j =
            outCode s c b dO.fmt pr.stamp (wfld (gRead k (wfld w 22 18)) 47 0 + m * b.stride + j)
              (drainVal (old i).isInt (accVal (accOf (coreOf t c) i) m j) none (shiftOf s c x b))) ∧
        ∀ m, m < a.m → posFinite (rs m).2 = true → (fv32 (rs m).1).isNan = false → (rs m).1 ≠ inf32 true →
          (rs m).1.toNat % 2 ^ 16 = 0 →
          spmBytes (coreOf t c) (dst.off + 4 * m) 4 = bytesLE 2 ((rs m).1.toNat / 2 ^ 16) ++ bytesLE 2 (log2fp16 (rs m).2))) ∧
    (wOp w = 0x32 →
      let a := ad (wfld w 29 25)
      let i := 4 * wfld w 52 52 + wfld w 51 50
      let dd := tdAt k (wfld w 49 44)
      let dx := tdAt k (wfld w 43 38)
      let n := wfld w 19 12 + 1
      let kpos := wfld (gRead k (wfld w 24 20)) 31 0
      let z := fmtBits a.pf / 8
      (wbit w 53 = false → Issued (.attnBwdP c x w) s c x w k p (fun t => SameMem s t ∧ SameAccs s t c ∧
        SpmOutside s t c dd.off (tdEnd dd) ∧
        ∀ m j, m < a.m → j < n → spmBytes (coreOf t c) (dd.off + m * dd.pitch + z * j) z = bytesLE z
          (bwdP a kpos m j (ofBytesLE (spmBytes (coreOf s c) (dx.off + 4 * m) 2))
            (ofBytesLE (spmBytes (coreOf s c) (dx.off + 4 * m + 2) 2)) (accVal (old i) m j)).1)) ∧
      (wbit w 53 = true → Issued (.attnBwdDs c x w) s c x w k p (fun t => SameMem s t ∧ SameAccs s t c ∧
        SpmOutside s t c dd.off (tdEnd dd) ∧
        ∀ b, convBlkOf (blockAt s (gRead k (wfld w 11 7)).toNat) = some b → ∀ m j, m < a.m → j < n →
          let dl := fv32 (BitVec.ofNat 32 (ofBytesLE (spmBytes (coreOf s c) ((tdAt k (wfld w 37 32)).off + 4 * m) 4)))
          tileBits (coreOf t c) dd m j = outCode s c b dd.fmt pr.stamp (m * b.stride + j)
            (fv32 (rne32 (((tileVal (coreOf s c) dx m j).mul ((fv32 (accVal (old i) m j)).sub dl)).mul (fv32 a.scale))))))) ∧
    (wOp w = 0x33 →
      let a := ad (wfld w 27 23)
      let dp := tdAt k (wfld w 53 48)
      let nm := wfld w 47 42 + 1
      let dO := tdAt k (wfld w 41 36)
      let dst := tdAt k (wfld w 35 30)
      let rows := mergeRows (coreOf s c) dp.off dp.pitch nm a.m a.d
      Issued (.attnMerge c x w) s c x w k p (fun t => SameMem s t ∧ SameAccs s t c ∧
        (wbit w 29 = false → SpmOutside s t c dp.off (dp.off + 512 + 4 * a.m * a.d) ∧
          ∀ m, m < a.m → rowState (coreOf t c) dp.off m =
            ((rows.getD m ⟨0, 0, []⟩).m, (rows.getD m ⟨0, 0, []⟩).l)) ∧
        (wbit w 29 = true → outside2 t dO.off (tdEnd dO) dst.off (dst.off + 4 * a.m))))
end

