-- ==== Sys2Proof/Laws/Bits.lean ====
section
/-! SUPPORT. Laws of the bit fields of a register word: a field just replaced, and the fields beside
it. -/

namespace Sys2Proof.Machine

/-- A word split at a field: what stands above it, the field, and what stands below it. -/
theorem wput_split (w : Word) (hi lo v : Nat) (h1 : lo ≤ hi) (h2 : hi < 64) :
    ∃ a f b : Nat, f < 2 ^ (hi + 1 - lo) ∧ b < 2 ^ lo ∧
      w.toNat = a * 2 ^ (hi + 1) + f * 2 ^ lo + b ∧
      (wput w hi lo v).toNat = a * 2 ^ (hi + 1) + (v % 2 ^ (hi + 1 - lo)) * 2 ^ lo + b := by
  have hpow : 2 ^ (hi + 1) = 2 ^ (hi + 1 - lo) * 2 ^ lo := by rw [← Nat.pow_add]; congr 1; omega
  have hk : 0 < 2 ^ (hi + 1 - lo) := by positivity
  have hl : 0 < 2 ^ lo := by positivity
  have hv : v % 2 ^ (hi + 1 - lo) < 2 ^ (hi + 1 - lo) := Nat.mod_lt _ hk
  set K := 2 ^ (hi + 1 - lo) with hK
  set L := 2 ^ lo with hL
  have e1 : w.toNat = w.toNat / L * L + w.toNat % L := by rw [Nat.mul_comm]; exact (Nat.div_add_mod _ _).symm
  have e2 : w.toNat / L = w.toNat / L / K * K + w.toNat / L % K := by
    rw [Nat.mul_comm]; exact (Nat.div_add_mod _ _).symm
  have hw : w.toNat = w.toNat / L / K * (K * L) + w.toNat / L % K * L + w.toNat % L := by
    calc w.toNat = (w.toNat / L / K * K + w.toNat / L % K) * L + w.toNat % L := by rw [← e2]; exact e1
      _ = _ := by ring
  refine ⟨w.toNat / L / K, w.toNat / L % K, w.toNat % L, Nat.mod_lt _ hk, Nat.mod_lt _ hl, by rw [hpow]; exact hw, ?_⟩
  have hf : wfld w hi lo = w.toNat / L % K := by simp [wfld, bitsOf, Nat.shiftRight_eq_div_pow, hK, hL]
  have hlt : w.toNat < 2 ^ 64 := w.isLt
  have hA : w.toNat / L / K * (K * L) ≤ w.toNat := by omega
  obtain ⟨m, hm⟩ : ∃ m, 2 ^ 64 = m * (K * L) := by
    refine ⟨2 ^ (63 - hi), ?_⟩
    rw [← hpow, ← Nat.pow_add]; congr 1; omega
  have ha : w.toNat / L / K < m := by
    have : w.toNat / L / K * (K * L) < m * (K * L) := by omega
    exact Nat.lt_of_mul_lt_mul_right this
  have hlow : w.toNat % L < L := Nat.mod_lt _ hl
  have hnew : v % K * L + w.toNat % L < K * L := by
    have : (v % K + 1) * L ≤ K * L := Nat.mul_le_mul_right _ hv
    rw [Nat.add_mul] at this; omega
  have hbig : w.toNat / L / K * (K * L) + (v % K * L + w.toNat % L) < 2 ^ 64 := by
    rw [hm]
    have : (w.toNat / L / K + 1) * (K * L) ≤ m * (K * L) := Nat.mul_le_mul_right _ ha
    rw [Nat.add_mul] at this; omega
  simp only [wput, hf, Nat.shiftLeft_eq, ← hL, ← hK, BitVec.toNat_ofNat, hpow]
  rw [Nat.mod_eq_of_lt] <;> omega

/-- The field just replaced. -/
theorem wfld_wput_same (w : Word) (hi lo v : Nat) (h1 : lo ≤ hi) (h2 : hi < 64) :
    wfld (wput w hi lo v) hi lo = v % 2 ^ (hi + 1 - lo) := by
  obtain ⟨a, f, b, hf, hb, -, h⟩ := wput_split w hi lo v h1 h2
  have hpow : 2 ^ (hi + 1) = 2 ^ (hi + 1 - lo) * 2 ^ lo := by rw [← Nat.pow_add]; congr 1; omega
  have hl : 0 < 2 ^ lo := by positivity
  simp only [wfld, bitsOf, h, Nat.shiftRight_eq_div_pow]
  rw [show a * 2 ^ (hi + 1) + v % 2 ^ (hi + 1 - lo) * 2 ^ lo + b =
    b + (a * 2 ^ (hi + 1 - lo) + v % 2 ^ (hi + 1 - lo)) * 2 ^ lo by rw [hpow]; ring,
    Nat.add_mul_div_right _ _ hl, Nat.div_eq_of_lt hb, Nat.zero_add, Nat.add_comm, Nat.add_mul_mod_self_right]
  exact Nat.mod_mod _ _

/-- A field above the one replaced. -/
theorem wfld_wput_above (w : Word) (hi lo v h l : Nat) (h1 : lo ≤ hi) (h2 : hi < 64) (h3 : hi < l) :
    wfld (wput w hi lo v) h l = wfld w h l := by
  obtain ⟨a, f, b, hf, hb, hw, hp⟩ := wput_split w hi lo v h1 h2
  have hpow : 2 ^ (hi + 1) = 2 ^ (hi + 1 - lo) * 2 ^ lo := by rw [← Nat.pow_add]; congr 1; omega
  have hk : 0 < 2 ^ (hi + 1 - lo) := by positivity
  have key : ∀ g, g < 2 ^ (hi + 1 - lo) → (a * 2 ^ (hi + 1) + g * 2 ^ lo + b) / 2 ^ l = a / 2 ^ (l - (hi + 1)) := by
    intro g hg
    have : g * 2 ^ lo + b < 2 ^ (hi + 1) := by
      have : (g + 1) * 2 ^ lo ≤ 2 ^ (hi + 1 - lo) * 2 ^ lo := Nat.mul_le_mul_right _ hg
      rw [hpow]; rw [Nat.add_mul] at this; omega
    rw [show (2:Nat) ^ l = 2 ^ (hi + 1) * 2 ^ (l - (hi + 1)) by rw [← Nat.pow_add]; congr 1; omega,
      ← Nat.div_div_eq_div_mul, show a * 2 ^ (hi + 1) + g * 2 ^ lo + b = (g * 2 ^ lo + b) + a * 2 ^ (hi + 1) by ring,
      Nat.add_mul_div_right _ _ (by positivity), Nat.div_eq_of_lt this, Nat.zero_add]
  simp only [wfld, bitsOf, Nat.shiftRight_eq_div_pow, hw, hp]
  rw [key _ hf, key _ (Nat.mod_lt _ hk)]

/-- A field below the one replaced. -/
theorem wfld_wput_below (w : Word) (hi lo v h l : Nat) (h1 : lo ≤ hi) (h2 : hi < 64) (h3 : h < lo) :
    wfld (wput w hi lo v) h l = wfld w h l := by
  obtain ⟨a, f, b, hf, hb, hw, hp⟩ := wput_split w hi lo v h1 h2
  have hpow : 2 ^ (hi + 1) = 2 ^ (hi + 1 - lo) * 2 ^ lo := by rw [← Nat.pow_add]; congr 1; omega
  by_cases hl : l ≤ h
  · have key : ∀ g, (a * 2 ^ (hi + 1) + g * 2 ^ lo + b) / 2 ^ l % 2 ^ (h + 1 - l) = b / 2 ^ l % 2 ^ (h + 1 - l) := by
      intro g
      have e : a * 2 ^ (hi + 1) + g * 2 ^ lo + b =
          b + 2 ^ l * (2 ^ (h + 1 - l) * (2 ^ (lo - (h + 1)) * (a * 2 ^ (hi + 1 - lo) + g))) := by
        have : 2 ^ lo = 2 ^ l * (2 ^ (h + 1 - l) * 2 ^ (lo - (h + 1))) := by
          rw [← Nat.pow_add, ← Nat.pow_add]; congr 1; omega
        rw [hpow, this]; ring
      rw [e, Nat.add_mul_div_left _ _ (by positivity), Nat.add_mul_mod_self_left]
    simp only [wfld, bitsOf, Nat.shiftRight_eq_div_pow, hw, hp]
    rw [key, key]
  · simp [wfld, bitsOf, show h + 1 - l = 0 by omega, Nat.mod_one]

end Sys2Proof.Machine
end

