-- ==== Sys2Proof/Laws/Maps.lean ====
section
/-! SUPPORT. Laws of the finite maps: reading after writing, and the canonical form that every
operation keeps. -/

namespace Sys2Proof.Machine

variable {α : Type}

/-! ### Maps of numbered units -/

/-- Reading the unit just replaced. -/
@[simp] theorem kGet_kSet_same (d : α) (m : KMap α) (k : Nat) (v : α) : kGet d (kSet m k v) k = v := by
  induction m with
  | nil => simp [kSet, kGet]
  | cons h t ih =>
    obtain ⟨a, x⟩ := h
    simp only [kSet]
    split
    · simp [kGet]
    · split
      · simp [kGet]
      · next h1 h2 => simp [kGet, h1, h2, ih]

/-- Replacing a unit leaves the others as they were. -/
theorem kGet_kSet_other (d : α) (m : KMap α) (k j : Nat) (v : α) (h : j ≠ k) :
    kGet d (kSet m k v) j = kGet d m j := by
  induction m with
  | nil => simp [kSet, kGet, h]
  | cons hd t ih =>
    obtain ⟨a, x⟩ := hd
    by_cases h1 : k = a
    · subst h1; simp [kSet, kGet, h]
    · by_cases h2 : k < a
      · by_cases h3 : j = a
        · subst h3; simp [kSet, kGet, h1, h2, h, show ¬ j < k by omega]
        · by_cases h4 : j < k
          · simp [kSet, kGet, h1, h2, h, h3, h4, show j < a by omega]
          · simp [kSet, kGet, h1, h2, h, h3, h4]
      · simp [kSet, kGet, h1, h2, ih]

/-- Replacing a unit, read anywhere. -/
theorem kGet_kSet (d : α) (m : KMap α) (k j : Nat) (v : α) :
    kGet d (kSet m k v) j = if j = k then v else kGet d m j := by
  by_cases h : j = k
  · subst h; simp
  · simp [h, kGet_kSet_other]

/-! ### Canonical sparse maps -/

variable [DecidableEq α]

theorem smGet_of_wfAbove (dflt : Nat → α) (d : α) (b k : Nat) (m : SMap α)
    (h : smWfAbove dflt (some b) m = true) (hk : k ≤ b) : smGet d m k = d := by
  cases m with
  | nil => rfl
  | cons hd t =>
    obtain ⟨a, x⟩ := hd
    simp only [smWfAbove, Bool.and_eq_true, decide_eq_true_eq] at h
    simp [smGet, show k ≠ a by omega, show k < a by omega]

theorem smWfAbove_weaken (dflt : Nat → α) (b b' : Nat) (m : SMap α) (hb : b' ≤ b)
    (h : smWfAbove dflt (some b) m = true) : smWfAbove dflt (some b') m = true := by
  cases m with
  | nil => rfl
  | cons hd t =>
    obtain ⟨a, x⟩ := hd
    simp only [smWfAbove, Bool.and_eq_true, decide_eq_true_eq] at h ⊢
    exact ⟨⟨by omega, h.1.2⟩, h.2⟩

theorem smWfAbove_none (dflt : Nat → α) (b : Nat) (m : SMap α)
    (h : smWfAbove dflt (some b) m = true) : smWfAbove dflt none m = true := by
  cases m with
  | nil => rfl
  | cons hd t =>
    simp only [smWfAbove, Bool.and_eq_true, decide_eq_true_eq] at h ⊢
    exact ⟨⟨trivial, h.1.2⟩, h.2⟩

/-- The bound of a canonical map. -/
def smBelow (b : Option Nat) (k : Nat) : Bool :=
  match b with
  | none => true
  | some b => decide (b < k)

/-- Writing keeps the canonical form. -/
theorem smSet_wfAbove (dflt : Nat → α) (m : SMap α) (k : Nat) (v : α) (b : Option Nat)
    (h : smWfAbove dflt b m = true) (hk : smBelow b k = true) :
    smWfAbove dflt b (smSet (dflt k) m k v) = true := by
  induction m generalizing b with
  | nil =>
    simp only [smSet]
    split
    · exact h
    · cases b <;> simp_all [smWfAbove, smBelow]
  | cons hd t ih =>
    obtain ⟨a, x⟩ := hd
    simp only [smWfAbove, Bool.and_eq_true] at h
    obtain ⟨⟨hb, hx⟩, ht⟩ := h
    simp only [smSet]
    split
    · next he =>
      subst he
      split
      · cases b with
        | none => exact smWfAbove_none _ _ _ ht
        | some b => exact smWfAbove_weaken _ _ _ _ (by simp at hb; omega) ht
      · next hv => simp [smWfAbove, hb, hv, ht]
    · next he =>
      split
      · next hlt =>
        split
        · simp [smWfAbove, hb, hx, ht]
        · next hv =>
          cases b <;> simp_all [smWfAbove, smBelow]
      · next hlt =>
        have h1 : smBelow (some a) k = true := by simp [smBelow]; omega
        simp [smWfAbove, hb, hx, ih _ ht h1]

theorem smSet_wf (dflt : Nat → α) (m : SMap α) (k : Nat) (v : α) (h : smWf dflt m = true) :
    smWf dflt (smSet (dflt k) m k v) = true := smSet_wfAbove dflt m k v none h rfl

/-- Keeping some entries keeps the canonical form. -/
theorem smKeep_wfAbove (dflt : Nat → α) (p : Nat → Bool) (m : SMap α) (b : Option Nat)
    (h : smWfAbove dflt b m = true) : smWfAbove dflt b (smKeep p m) = true := by
  induction m generalizing b with
  | nil => exact h
  | cons hd t ih =>
    obtain ⟨a, x⟩ := hd
    simp only [smWfAbove, Bool.and_eq_true] at h
    obtain ⟨⟨hb, hx⟩, ht⟩ := h
    simp only [smKeep]
    split
    · simp [smWfAbove, hb, hx, ih _ ht]
    · cases b with
      | none => exact ih _ (smWfAbove_none _ _ _ ht)
      | some b => exact ih _ (smWfAbove_weaken _ _ _ _ (by simp at hb; omega) ht)

theorem smKeep_wf (dflt : Nat → α) (p : Nat → Bool) (m : SMap α) (h : smWf dflt m = true) :
    smWf dflt (smKeep p m) = true := smKeep_wfAbove dflt p m none h

/-- Reading the key just written. -/
theorem smGet_smSet_same (dflt : Nat → α) (m : SMap α) (k : Nat) (v : α) (h : smWf dflt m = true) :
    smGet (dflt k) (smSet (dflt k) m k v) k = v := by
  suffices H : ∀ b, smWfAbove dflt b m = true → smGet (dflt k) (smSet (dflt k) m k v) k = v from H _ h
  intro b hb
  induction m generalizing b with
  | nil => simp only [smSet]; split <;> simp_all [smGet]
  | cons hd t ih =>
    obtain ⟨a, x⟩ := hd
    simp only [smWfAbove, Bool.and_eq_true] at hb
    simp only [smSet]
    split
    · next he =>
      subst he
      split
      · next hv => rw [hv]; exact smGet_of_wfAbove dflt _ _ _ _ hb.2 (Nat.le_refl _)
      · simp [smGet]
    · next he =>
      split
      · next hlt => split <;> simp_all [smGet]
      · next hlt => simp [smGet, he, hlt, ih (smWfAbove_none _ _ _ hb.2) _ hb.2]

/-- Writing a key leaves what the others read as. -/
theorem smGet_smSet_other (dflt : Nat → α) (d : α) (m : SMap α) (k j : Nat) (v : α) (b : Option Nat)
    (h : smWfAbove dflt b m = true) (hj : j ≠ k) :
    smGet d (smSet (dflt k) m k v) j = smGet d m j := by
  induction m generalizing b with
  | nil => simp only [smSet]; split <;> simp [smGet, hj]
  | cons hd t ih =>
    obtain ⟨a, x⟩ := hd
    simp only [smWfAbove, Bool.and_eq_true] at h
    simp only [smSet]
    split
    · next he =>
      subst he
      split
      · by_cases hlt : j < k
        · simp [smGet, hj, hlt]; exact smGet_of_wfAbove dflt _ _ _ _ h.2 (Nat.le_of_lt hlt)
        · simp [smGet, hj, hlt]
      · simp [smGet, hj]
    · next he =>
      split
      · next hlt =>
        split
        · rfl
        · by_cases h1 : j = a
          · subst h1; simp [smGet, hj, show ¬ j < k by omega]
          · by_cases h2 : j < k
            · simp [smGet, hj, h1, h2, show j < a by omega]
            · simp [smGet, hj, h1, h2]
      · next hlt => simp [smGet, ih _ h.2]

/-- Reading after writing, in a canonical map. -/
theorem smGet_smSet (dflt : Nat → α) (m : SMap α) (k j : Nat) (v : α) (h : smWf dflt m = true) :
    smGet (dflt j) (smSet (dflt k) m k v) j = if j = k then v else smGet (dflt j) m j := by
  by_cases hj : j = k
  · subst hj; simp [smGet_smSet_same dflt m j v h]
  · simp [hj, smGet_smSet_other dflt (dflt j) m k j v none h hj]

end Sys2Proof.Machine
end

