-- ==== Sys2Proof/Laws/State.lean ====
section
/-! SUPPORT. What each plain update of the state leaves as it was: one lemma per operation and field. -/

namespace Sys2Proof.Machine

variable (s : State)

/-! `rwr` -/

@[simp] theorem rwr_time (o : Nat) (v : Word) : (rwr s o v).time = s.time := rfl
@[simp] theorem rwr_pins (o : Nat) (v : Word) : (rwr s o v).pins = s.pins := rfl
@[simp] theorem rwr_clk (o : Nat) (v : Word) : (rwr s o v).clk = s.clk := rfl
@[simp] theorem rwr_doze (o : Nat) (v : Word) : (rwr s o v).doze = s.doze := rfl
@[simp] theorem rwr_boot (o : Nat) (v : Word) : (rwr s o v).boot = s.boot := rfl
@[simp] theorem rwr_mram (o : Nat) (v : Word) : (rwr s o v).mram = s.mram := rfl
@[simp] theorem rwr_sec (o : Nat) (v : Word) : (rwr s o v).sec = s.sec := rfl
@[simp] theorem rwr_mem (o : Nat) (v : Word) : (rwr s o v).mem = s.mem := rfl
@[simp] theorem rwr_memBad (o : Nat) (v : Word) : (rwr s o v).memBad = s.memBad := rfl
@[simp] theorem rwr_memUndef (o : Nat) (v : Word) : (rwr s o v).memUndef = s.memUndef := rfl
@[simp] theorem rwr_cores (o : Nat) (v : Word) : (rwr s o v).cores = s.cores := rfl
@[simp] theorem rwr_sprue (o : Nat) (v : Word) : (rwr s o v).sprue = s.sprue := rfl
@[simp] theorem rwr_tier (o : Nat) (v : Word) : (rwr s o v).tier = s.tier := rfl
@[simp] theorem rwr_metered (o : Nat) (v : Word) : (rwr s o v).metered = s.metered := rfl
@[simp] theorem rwr_d2d (o : Nat) (v : Word) : (rwr s o v).d2d = s.d2d := rfl
@[simp] theorem rwr_ckpt (o : Nat) (v : Word) : (rwr s o v).ckpt = s.ckpt := rfl
@[simp] theorem rwr_parts (o : Nat) (v : Word) : (rwr s o v).parts = s.parts := rfl
@[simp] theorem rwr_recq (o : Nat) (v : Word) : (rwr s o v).recq = s.recq := rfl
@[simp] theorem rwr_trc (o : Nat) (v : Word) : (rwr s o v).trc = s.trc := rfl
@[simp] theorem rwr_flt (o : Nat) (v : Word) : (rwr s o v).flt = s.flt := rfl
@[simp] theorem rwr_ctl (o : Nat) (v : Word) : (rwr s o v).ctl = s.ctl := rfl
@[simp] theorem rwr_erg (o : Nat) (v : Word) : (rwr s o v).erg = s.erg := rfl
@[simp] theorem rwr_ergReqs (o : Nat) (v : Word) : (rwr s o v).ergReqs = s.ergReqs := rfl
@[simp] theorem rwr_pending (o : Nat) (v : Word) : (rwr s o v).pending = s.pending := rfl
@[simp] theorem rwr_free (o : Nat) (v : Word) : (rwr s o v).free = s.free := rfl

/-! `rput` -/

@[simp] theorem rput_time (o : Nat) (f : Fld) (v : Nat) : (rput s o f v).time = s.time := rfl
@[simp] theorem rput_pins (o : Nat) (f : Fld) (v : Nat) : (rput s o f v).pins = s.pins := rfl
@[simp] theorem rput_clk (o : Nat) (f : Fld) (v : Nat) : (rput s o f v).clk = s.clk := rfl
@[simp] theorem rput_doze (o : Nat) (f : Fld) (v : Nat) : (rput s o f v).doze = s.doze := rfl
@[simp] theorem rput_boot (o : Nat) (f : Fld) (v : Nat) : (rput s o f v).boot = s.boot := rfl
@[simp] theorem rput_mram (o : Nat) (f : Fld) (v : Nat) : (rput s o f v).mram = s.mram := rfl
@[simp] theorem rput_sec (o : Nat) (f : Fld) (v : Nat) : (rput s o f v).sec = s.sec := rfl
@[simp] theorem rput_mem (o : Nat) (f : Fld) (v : Nat) : (rput s o f v).mem = s.mem := rfl
@[simp] theorem rput_memBad (o : Nat) (f : Fld) (v : Nat) : (rput s o f v).memBad = s.memBad := rfl
@[simp] theorem rput_memUndef (o : Nat) (f : Fld) (v : Nat) : (rput s o f v).memUndef = s.memUndef := rfl
@[simp] theorem rput_cores (o : Nat) (f : Fld) (v : Nat) : (rput s o f v).cores = s.cores := rfl
@[simp] theorem rput_sprue (o : Nat) (f : Fld) (v : Nat) : (rput s o f v).sprue = s.sprue := rfl
@[simp] theorem rput_tier (o : Nat) (f : Fld) (v : Nat) : (rput s o f v).tier = s.tier := rfl
@[simp] theorem rput_metered (o : Nat) (f : Fld) (v : Nat) : (rput s o f v).metered = s.metered := rfl
@[simp] theorem rput_d2d (o : Nat) (f : Fld) (v : Nat) : (rput s o f v).d2d = s.d2d := rfl
@[simp] theorem rput_ckpt (o : Nat) (f : Fld) (v : Nat) : (rput s o f v).ckpt = s.ckpt := rfl
@[simp] theorem rput_parts (o : Nat) (f : Fld) (v : Nat) : (rput s o f v).parts = s.parts := rfl
@[simp] theorem rput_recq (o : Nat) (f : Fld) (v : Nat) : (rput s o f v).recq = s.recq := rfl
@[simp] theorem rput_trc (o : Nat) (f : Fld) (v : Nat) : (rput s o f v).trc = s.trc := rfl
@[simp] theorem rput_flt (o : Nat) (f : Fld) (v : Nat) : (rput s o f v).flt = s.flt := rfl
@[simp] theorem rput_ctl (o : Nat) (f : Fld) (v : Nat) : (rput s o f v).ctl = s.ctl := rfl
@[simp] theorem rput_erg (o : Nat) (f : Fld) (v : Nat) : (rput s o f v).erg = s.erg := rfl
@[simp] theorem rput_ergReqs (o : Nat) (f : Fld) (v : Nat) : (rput s o f v).ergReqs = s.ergReqs := rfl
@[simp] theorem rput_pending (o : Nat) (f : Fld) (v : Nat) : (rput s o f v).pending = s.pending := rfl
@[simp] theorem rput_free (o : Nat) (f : Fld) (v : Nat) : (rput s o f v).free = s.free := rfl

/-! `rset` -/

@[simp] theorem rset_time (o : Nat) (f : Fld) : (rset s o f).time = s.time := rfl
@[simp] theorem rset_pins (o : Nat) (f : Fld) : (rset s o f).pins = s.pins := rfl
@[simp] theorem rset_clk (o : Nat) (f : Fld) : (rset s o f).clk = s.clk := rfl
@[simp] theorem rset_doze (o : Nat) (f : Fld) : (rset s o f).doze = s.doze := rfl
@[simp] theorem rset_boot (o : Nat) (f : Fld) : (rset s o f).boot = s.boot := rfl
@[simp] theorem rset_mram (o : Nat) (f : Fld) : (rset s o f).mram = s.mram := rfl
@[simp] theorem rset_sec (o : Nat) (f : Fld) : (rset s o f).sec = s.sec := rfl
@[simp] theorem rset_mem (o : Nat) (f : Fld) : (rset s o f).mem = s.mem := rfl
@[simp] theorem rset_memBad (o : Nat) (f : Fld) : (rset s o f).memBad = s.memBad := rfl
@[simp] theorem rset_memUndef (o : Nat) (f : Fld) : (rset s o f).memUndef = s.memUndef := rfl
@[simp] theorem rset_cores (o : Nat) (f : Fld) : (rset s o f).cores = s.cores := rfl
@[simp] theorem rset_sprue (o : Nat) (f : Fld) : (rset s o f).sprue = s.sprue := rfl
@[simp] theorem rset_tier (o : Nat) (f : Fld) : (rset s o f).tier = s.tier := rfl
@[simp] theorem rset_metered (o : Nat) (f : Fld) : (rset s o f).metered = s.metered := rfl
@[simp] theorem rset_d2d (o : Nat) (f : Fld) : (rset s o f).d2d = s.d2d := rfl
@[simp] theorem rset_ckpt (o : Nat) (f : Fld) : (rset s o f).ckpt = s.ckpt := rfl
@[simp] theorem rset_parts (o : Nat) (f : Fld) : (rset s o f).parts = s.parts := rfl
@[simp] theorem rset_recq (o : Nat) (f : Fld) : (rset s o f).recq = s.recq := rfl
@[simp] theorem rset_trc (o : Nat) (f : Fld) : (rset s o f).trc = s.trc := rfl
@[simp] theorem rset_flt (o : Nat) (f : Fld) : (rset s o f).flt = s.flt := rfl
@[simp] theorem rset_ctl (o : Nat) (f : Fld) : (rset s o f).ctl = s.ctl := rfl
@[simp] theorem rset_erg (o : Nat) (f : Fld) : (rset s o f).erg = s.erg := rfl
@[simp] theorem rset_ergReqs (o : Nat) (f : Fld) : (rset s o f).ergReqs = s.ergReqs := rfl
@[simp] theorem rset_pending (o : Nat) (f : Fld) : (rset s o f).pending = s.pending := rfl
@[simp] theorem rset_free (o : Nat) (f : Fld) : (rset s o f).free = s.free := rfl

/-! `setCore` -/

@[simp] theorem setCore_regs (c : Nat) (k : Core) : (setCore s c k).regs = s.regs := rfl
@[simp] theorem setCore_time (c : Nat) (k : Core) : (setCore s c k).time = s.time := rfl
@[simp] theorem setCore_pins (c : Nat) (k : Core) : (setCore s c k).pins = s.pins := rfl
@[simp] theorem setCore_clk (c : Nat) (k : Core) : (setCore s c k).clk = s.clk := rfl
@[simp] theorem setCore_doze (c : Nat) (k : Core) : (setCore s c k).doze = s.doze := rfl
@[simp] theorem setCore_boot (c : Nat) (k : Core) : (setCore s c k).boot = s.boot := rfl
@[simp] theorem setCore_mram (c : Nat) (k : Core) : (setCore s c k).mram = s.mram := rfl
@[simp] theorem setCore_sec (c : Nat) (k : Core) : (setCore s c k).sec = s.sec := rfl
@[simp] theorem setCore_mem (c : Nat) (k : Core) : (setCore s c k).mem = s.mem := rfl
@[simp] theorem setCore_memBad (c : Nat) (k : Core) : (setCore s c k).memBad = s.memBad := rfl
@[simp] theorem setCore_memUndef (c : Nat) (k : Core) : (setCore s c k).memUndef = s.memUndef := rfl
@[simp] theorem setCore_sprue (c : Nat) (k : Core) : (setCore s c k).sprue = s.sprue := rfl
@[simp] theorem setCore_tier (c : Nat) (k : Core) : (setCore s c k).tier = s.tier := rfl
@[simp] theorem setCore_metered (c : Nat) (k : Core) : (setCore s c k).metered = s.metered := rfl
@[simp] theorem setCore_d2d (c : Nat) (k : Core) : (setCore s c k).d2d = s.d2d := rfl
@[simp] theorem setCore_ckpt (c : Nat) (k : Core) : (setCore s c k).ckpt = s.ckpt := rfl
@[simp] theorem setCore_parts (c : Nat) (k : Core) : (setCore s c k).parts = s.parts := rfl
@[simp] theorem setCore_recq (c : Nat) (k : Core) : (setCore s c k).recq = s.recq := rfl
@[simp] theorem setCore_trc (c : Nat) (k : Core) : (setCore s c k).trc = s.trc := rfl
@[simp] theorem setCore_flt (c : Nat) (k : Core) : (setCore s c k).flt = s.flt := rfl
@[simp] theorem setCore_ctl (c : Nat) (k : Core) : (setCore s c k).ctl = s.ctl := rfl
@[simp] theorem setCore_erg (c : Nat) (k : Core) : (setCore s c k).erg = s.erg := rfl
@[simp] theorem setCore_ergReqs (c : Nat) (k : Core) : (setCore s c k).ergReqs = s.ergReqs := rfl
@[simp] theorem setCore_pending (c : Nat) (k : Core) : (setCore s c k).pending = s.pending := rfl
@[simp] theorem setCore_free (c : Nat) (k : Core) : (setCore s c k).free = s.free := rfl

/-! `modCore` -/

@[simp] theorem modCore_regs (c : Nat) (f : Core → Core) : (modCore s c f).regs = s.regs := rfl
@[simp] theorem modCore_time (c : Nat) (f : Core → Core) : (modCore s c f).time = s.time := rfl
@[simp] theorem modCore_pins (c : Nat) (f : Core → Core) : (modCore s c f).pins = s.pins := rfl
@[simp] theorem modCore_clk (c : Nat) (f : Core → Core) : (modCore s c f).clk = s.clk := rfl
@[simp] theorem modCore_doze (c : Nat) (f : Core → Core) : (modCore s c f).doze = s.doze := rfl
@[simp] theorem modCore_boot (c : Nat) (f : Core → Core) : (modCore s c f).boot = s.boot := rfl
@[simp] theorem modCore_mram (c : Nat) (f : Core → Core) : (modCore s c f).mram = s.mram := rfl
@[simp] theorem modCore_sec (c : Nat) (f : Core → Core) : (modCore s c f).sec = s.sec := rfl
@[simp] theorem modCore_mem (c : Nat) (f : Core → Core) : (modCore s c f).mem = s.mem := rfl
@[simp] theorem modCore_memBad (c : Nat) (f : Core → Core) : (modCore s c f).memBad = s.memBad := rfl
@[simp] theorem modCore_memUndef (c : Nat) (f : Core → Core) : (modCore s c f).memUndef = s.memUndef := rfl
@[simp] theorem modCore_sprue (c : Nat) (f : Core → Core) : (modCore s c f).sprue = s.sprue := rfl
@[simp] theorem modCore_tier (c : Nat) (f : Core → Core) : (modCore s c f).tier = s.tier := rfl
@[simp] theorem modCore_metered (c : Nat) (f : Core → Core) : (modCore s c f).metered = s.metered := rfl
@[simp] theorem modCore_d2d (c : Nat) (f : Core → Core) : (modCore s c f).d2d = s.d2d := rfl
@[simp] theorem modCore_ckpt (c : Nat) (f : Core → Core) : (modCore s c f).ckpt = s.ckpt := rfl
@[simp] theorem modCore_parts (c : Nat) (f : Core → Core) : (modCore s c f).parts = s.parts := rfl
@[simp] theorem modCore_recq (c : Nat) (f : Core → Core) : (modCore s c f).recq = s.recq := rfl
@[simp] theorem modCore_trc (c : Nat) (f : Core → Core) : (modCore s c f).trc = s.trc := rfl
@[simp] theorem modCore_flt (c : Nat) (f : Core → Core) : (modCore s c f).flt = s.flt := rfl
@[simp] theorem modCore_ctl (c : Nat) (f : Core → Core) : (modCore s c f).ctl = s.ctl := rfl
@[simp] theorem modCore_erg (c : Nat) (f : Core → Core) : (modCore s c f).erg = s.erg := rfl
@[simp] theorem modCore_ergReqs (c : Nat) (f : Core → Core) : (modCore s c f).ergReqs = s.ergReqs := rfl
@[simp] theorem modCore_pending (c : Nat) (f : Core → Core) : (modCore s c f).pending = s.pending := rfl
@[simp] theorem modCore_free (c : Nat) (f : Core → Core) : (modCore s c f).free = s.free := rfl

/-! `setCtx` -/

@[simp] theorem setCtx_regs (c x : Nat) (t : Ctx) : (setCtx s c x t).regs = s.regs := rfl
@[simp] theorem setCtx_time (c x : Nat) (t : Ctx) : (setCtx s c x t).time = s.time := rfl
@[simp] theorem setCtx_pins (c x : Nat) (t : Ctx) : (setCtx s c x t).pins = s.pins := rfl
@[simp] theorem setCtx_clk (c x : Nat) (t : Ctx) : (setCtx s c x t).clk = s.clk := rfl
@[simp] theorem setCtx_doze (c x : Nat) (t : Ctx) : (setCtx s c x t).doze = s.doze := rfl
@[simp] theorem setCtx_boot (c x : Nat) (t : Ctx) : (setCtx s c x t).boot = s.boot := rfl
@[simp] theorem setCtx_mram (c x : Nat) (t : Ctx) : (setCtx s c x t).mram = s.mram := rfl
@[simp] theorem setCtx_sec (c x : Nat) (t : Ctx) : (setCtx s c x t).sec = s.sec := rfl
@[simp] theorem setCtx_mem (c x : Nat) (t : Ctx) : (setCtx s c x t).mem = s.mem := rfl
@[simp] theorem setCtx_memBad (c x : Nat) (t : Ctx) : (setCtx s c x t).memBad = s.memBad := rfl
@[simp] theorem setCtx_memUndef (c x : Nat) (t : Ctx) : (setCtx s c x t).memUndef = s.memUndef := rfl
@[simp] theorem setCtx_sprue (c x : Nat) (t : Ctx) : (setCtx s c x t).sprue = s.sprue := rfl
@[simp] theorem setCtx_tier (c x : Nat) (t : Ctx) : (setCtx s c x t).tier = s.tier := rfl
@[simp] theorem setCtx_metered (c x : Nat) (t : Ctx) : (setCtx s c x t).metered = s.metered := rfl
@[simp] theorem setCtx_d2d (c x : Nat) (t : Ctx) : (setCtx s c x t).d2d = s.d2d := rfl
@[simp] theorem setCtx_ckpt (c x : Nat) (t : Ctx) : (setCtx s c x t).ckpt = s.ckpt := rfl
@[simp] theorem setCtx_parts (c x : Nat) (t : Ctx) : (setCtx s c x t).parts = s.parts := rfl
@[simp] theorem setCtx_recq (c x : Nat) (t : Ctx) : (setCtx s c x t).recq = s.recq := rfl
@[simp] theorem setCtx_trc (c x : Nat) (t : Ctx) : (setCtx s c x t).trc = s.trc := rfl
@[simp] theorem setCtx_flt (c x : Nat) (t : Ctx) : (setCtx s c x t).flt = s.flt := rfl
@[simp] theorem setCtx_ctl (c x : Nat) (t : Ctx) : (setCtx s c x t).ctl = s.ctl := rfl
@[simp] theorem setCtx_erg (c x : Nat) (t : Ctx) : (setCtx s c x t).erg = s.erg := rfl
@[simp] theorem setCtx_ergReqs (c x : Nat) (t : Ctx) : (setCtx s c x t).ergReqs = s.ergReqs := rfl
@[simp] theorem setCtx_pending (c x : Nat) (t : Ctx) : (setCtx s c x t).pending = s.pending := rfl
@[simp] theorem setCtx_free (c x : Nat) (t : Ctx) : (setCtx s c x t).free = s.free := rfl

/-! `modCtx` -/

@[simp] theorem modCtx_regs (c x : Nat) (f : Ctx → Ctx) : (modCtx s c x f).regs = s.regs := rfl
@[simp] theorem modCtx_time (c x : Nat) (f : Ctx → Ctx) : (modCtx s c x f).time = s.time := rfl
@[simp] theorem modCtx_pins (c x : Nat) (f : Ctx → Ctx) : (modCtx s c x f).pins = s.pins := rfl
@[simp] theorem modCtx_clk (c x : Nat) (f : Ctx → Ctx) : (modCtx s c x f).clk = s.clk := rfl
@[simp] theorem modCtx_doze (c x : Nat) (f : Ctx → Ctx) : (modCtx s c x f).doze = s.doze := rfl
@[simp] theorem modCtx_boot (c x : Nat) (f : Ctx → Ctx) : (modCtx s c x f).boot = s.boot := rfl
@[simp] theorem modCtx_mram (c x : Nat) (f : Ctx → Ctx) : (modCtx s c x f).mram = s.mram := rfl
@[simp] theorem modCtx_sec (c x : Nat) (f : Ctx → Ctx) : (modCtx s c x f).sec = s.sec := rfl
@[simp] theorem modCtx_mem (c x : Nat) (f : Ctx → Ctx) : (modCtx s c x f).mem = s.mem := rfl
@[simp] theorem modCtx_memBad (c x : Nat) (f : Ctx → Ctx) : (modCtx s c x f).memBad = s.memBad := rfl
@[simp] theorem modCtx_memUndef (c x : Nat) (f : Ctx → Ctx) : (modCtx s c x f).memUndef = s.memUndef := rfl
@[simp] theorem modCtx_sprue (c x : Nat) (f : Ctx → Ctx) : (modCtx s c x f).sprue = s.sprue := rfl
@[simp] theorem modCtx_tier (c x : Nat) (f : Ctx → Ctx) : (modCtx s c x f).tier = s.tier := rfl
@[simp] theorem modCtx_metered (c x : Nat) (f : Ctx → Ctx) : (modCtx s c x f).metered = s.metered := rfl
@[simp] theorem modCtx_d2d (c x : Nat) (f : Ctx → Ctx) : (modCtx s c x f).d2d = s.d2d := rfl
@[simp] theorem modCtx_ckpt (c x : Nat) (f : Ctx → Ctx) : (modCtx s c x f).ckpt = s.ckpt := rfl
@[simp] theorem modCtx_parts (c x : Nat) (f : Ctx → Ctx) : (modCtx s c x f).parts = s.parts := rfl
@[simp] theorem modCtx_recq (c x : Nat) (f : Ctx → Ctx) : (modCtx s c x f).recq = s.recq := rfl
@[simp] theorem modCtx_trc (c x : Nat) (f : Ctx → Ctx) : (modCtx s c x f).trc = s.trc := rfl
@[simp] theorem modCtx_flt (c x : Nat) (f : Ctx → Ctx) : (modCtx s c x f).flt = s.flt := rfl
@[simp] theorem modCtx_ctl (c x : Nat) (f : Ctx → Ctx) : (modCtx s c x f).ctl = s.ctl := rfl
@[simp] theorem modCtx_erg (c x : Nat) (f : Ctx → Ctx) : (modCtx s c x f).erg = s.erg := rfl
@[simp] theorem modCtx_ergReqs (c x : Nat) (f : Ctx → Ctx) : (modCtx s c x f).ergReqs = s.ergReqs := rfl
@[simp] theorem modCtx_pending (c x : Nat) (f : Ctx → Ctx) : (modCtx s c x f).pending = s.pending := rfl
@[simp] theorem modCtx_free (c x : Nat) (f : Ctx → Ctx) : (modCtx s c x f).free = s.free := rfl

/-! `setPart` -/

@[simp] theorem setPart_regs (p : Nat) (k : Part) : (setPart s p k).regs = s.regs := rfl
@[simp] theorem setPart_time (p : Nat) (k : Part) : (setPart s p k).time = s.time := rfl
@[simp] theorem setPart_pins (p : Nat) (k : Part) : (setPart s p k).pins = s.pins := rfl
@[simp] theorem setPart_clk (p : Nat) (k : Part) : (setPart s p k).clk = s.clk := rfl
@[simp] theorem setPart_doze (p : Nat) (k : Part) : (setPart s p k).doze = s.doze := rfl
@[simp] theorem setPart_boot (p : Nat) (k : Part) : (setPart s p k).boot = s.boot := rfl
@[simp] theorem setPart_mram (p : Nat) (k : Part) : (setPart s p k).mram = s.mram := rfl
@[simp] theorem setPart_sec (p : Nat) (k : Part) : (setPart s p k).sec = s.sec := rfl
@[simp] theorem setPart_mem (p : Nat) (k : Part) : (setPart s p k).mem = s.mem := rfl
@[simp] theorem setPart_memBad (p : Nat) (k : Part) : (setPart s p k).memBad = s.memBad := rfl
@[simp] theorem setPart_memUndef (p : Nat) (k : Part) : (setPart s p k).memUndef = s.memUndef := rfl
@[simp] theorem setPart_cores (p : Nat) (k : Part) : (setPart s p k).cores = s.cores := rfl
@[simp] theorem setPart_sprue (p : Nat) (k : Part) : (setPart s p k).sprue = s.sprue := rfl
@[simp] theorem setPart_tier (p : Nat) (k : Part) : (setPart s p k).tier = s.tier := rfl
@[simp] theorem setPart_metered (p : Nat) (k : Part) : (setPart s p k).metered = s.metered := rfl
@[simp] theorem setPart_d2d (p : Nat) (k : Part) : (setPart s p k).d2d = s.d2d := rfl
@[simp] theorem setPart_ckpt (p : Nat) (k : Part) : (setPart s p k).ckpt = s.ckpt := rfl
@[simp] theorem setPart_recq (p : Nat) (k : Part) : (setPart s p k).recq = s.recq := rfl
@[simp] theorem setPart_trc (p : Nat) (k : Part) : (setPart s p k).trc = s.trc := rfl
@[simp] theorem setPart_flt (p : Nat) (k : Part) : (setPart s p k).flt = s.flt := rfl
@[simp] theorem setPart_ctl (p : Nat) (k : Part) : (setPart s p k).ctl = s.ctl := rfl
@[simp] theorem setPart_erg (p : Nat) (k : Part) : (setPart s p k).erg = s.erg := rfl
@[simp] theorem setPart_ergReqs (p : Nat) (k : Part) : (setPart s p k).ergReqs = s.ergReqs := rfl
@[simp] theorem setPart_pending (p : Nat) (k : Part) : (setPart s p k).pending = s.pending := rfl
@[simp] theorem setPart_free (p : Nat) (k : Part) : (setPart s p k).free = s.free := rfl

/-! `modPart` -/

@[simp] theorem modPart_regs (p : Nat) (f : Part → Part) : (modPart s p f).regs = s.regs := rfl
@[simp] theorem modPart_time (p : Nat) (f : Part → Part) : (modPart s p f).time = s.time := rfl
@[simp] theorem modPart_pins (p : Nat) (f : Part → Part) : (modPart s p f).pins = s.pins := rfl
@[simp] theorem modPart_clk (p : Nat) (f : Part → Part) : (modPart s p f).clk = s.clk := rfl
@[simp] theorem modPart_doze (p : Nat) (f : Part → Part) : (modPart s p f).doze = s.doze := rfl
@[simp] theorem modPart_boot (p : Nat) (f : Part → Part) : (modPart s p f).boot = s.boot := rfl
@[simp] theorem modPart_mram (p : Nat) (f : Part → Part) : (modPart s p f).mram = s.mram := rfl
@[simp] theorem modPart_sec (p : Nat) (f : Part → Part) : (modPart s p f).sec = s.sec := rfl
@[simp] theorem modPart_mem (p : Nat) (f : Part → Part) : (modPart s p f).mem = s.mem := rfl
@[simp] theorem modPart_memBad (p : Nat) (f : Part → Part) : (modPart s p f).memBad = s.memBad := rfl
@[simp] theorem modPart_memUndef (p : Nat) (f : Part → Part) : (modPart s p f).memUndef = s.memUndef := rfl
@[simp] theorem modPart_cores (p : Nat) (f : Part → Part) : (modPart s p f).cores = s.cores := rfl
@[simp] theorem modPart_sprue (p : Nat) (f : Part → Part) : (modPart s p f).sprue = s.sprue := rfl
@[simp] theorem modPart_tier (p : Nat) (f : Part → Part) : (modPart s p f).tier = s.tier := rfl
@[simp] theorem modPart_metered (p : Nat) (f : Part → Part) : (modPart s p f).metered = s.metered := rfl
@[simp] theorem modPart_d2d (p : Nat) (f : Part → Part) : (modPart s p f).d2d = s.d2d := rfl
@[simp] theorem modPart_ckpt (p : Nat) (f : Part → Part) : (modPart s p f).ckpt = s.ckpt := rfl
@[simp] theorem modPart_recq (p : Nat) (f : Part → Part) : (modPart s p f).recq = s.recq := rfl
@[simp] theorem modPart_trc (p : Nat) (f : Part → Part) : (modPart s p f).trc = s.trc := rfl
@[simp] theorem modPart_flt (p : Nat) (f : Part → Part) : (modPart s p f).flt = s.flt := rfl
@[simp] theorem modPart_ctl (p : Nat) (f : Part → Part) : (modPart s p f).ctl = s.ctl := rfl
@[simp] theorem modPart_erg (p : Nat) (f : Part → Part) : (modPart s p f).erg = s.erg := rfl
@[simp] theorem modPart_ergReqs (p : Nat) (f : Part → Part) : (modPart s p f).ergReqs = s.ergReqs := rfl
@[simp] theorem modPart_pending (p : Nat) (f : Part → Part) : (modPart s p f).pending = s.pending := rfl
@[simp] theorem modPart_free (p : Nat) (f : Part → Part) : (modPart s p f).free = s.free := rfl

/-! `modRecq` -/

@[simp] theorem modRecq_regs (q : Nat) (f : RecQ → RecQ) : (modRecq s q f).regs = s.regs := rfl
@[simp] theorem modRecq_time (q : Nat) (f : RecQ → RecQ) : (modRecq s q f).time = s.time := rfl
@[simp] theorem modRecq_pins (q : Nat) (f : RecQ → RecQ) : (modRecq s q f).pins = s.pins := rfl
@[simp] theorem modRecq_clk (q : Nat) (f : RecQ → RecQ) : (modRecq s q f).clk = s.clk := rfl
@[simp] theorem modRecq_doze (q : Nat) (f : RecQ → RecQ) : (modRecq s q f).doze = s.doze := rfl
@[simp] theorem modRecq_boot (q : Nat) (f : RecQ → RecQ) : (modRecq s q f).boot = s.boot := rfl
@[simp] theorem modRecq_mram (q : Nat) (f : RecQ → RecQ) : (modRecq s q f).mram = s.mram := rfl
@[simp] theorem modRecq_sec (q : Nat) (f : RecQ → RecQ) : (modRecq s q f).sec = s.sec := rfl
@[simp] theorem modRecq_mem (q : Nat) (f : RecQ → RecQ) : (modRecq s q f).mem = s.mem := rfl
@[simp] theorem modRecq_memBad (q : Nat) (f : RecQ → RecQ) : (modRecq s q f).memBad = s.memBad := rfl
@[simp] theorem modRecq_memUndef (q : Nat) (f : RecQ → RecQ) : (modRecq s q f).memUndef = s.memUndef := rfl
@[simp] theorem modRecq_cores (q : Nat) (f : RecQ → RecQ) : (modRecq s q f).cores = s.cores := rfl
@[simp] theorem modRecq_sprue (q : Nat) (f : RecQ → RecQ) : (modRecq s q f).sprue = s.sprue := rfl
@[simp] theorem modRecq_tier (q : Nat) (f : RecQ → RecQ) : (modRecq s q f).tier = s.tier := rfl
@[simp] theorem modRecq_metered (q : Nat) (f : RecQ → RecQ) : (modRecq s q f).metered = s.metered := rfl
@[simp] theorem modRecq_d2d (q : Nat) (f : RecQ → RecQ) : (modRecq s q f).d2d = s.d2d := rfl
@[simp] theorem modRecq_ckpt (q : Nat) (f : RecQ → RecQ) : (modRecq s q f).ckpt = s.ckpt := rfl
@[simp] theorem modRecq_parts (q : Nat) (f : RecQ → RecQ) : (modRecq s q f).parts = s.parts := rfl
@[simp] theorem modRecq_trc (q : Nat) (f : RecQ → RecQ) : (modRecq s q f).trc = s.trc := rfl
@[simp] theorem modRecq_flt (q : Nat) (f : RecQ → RecQ) : (modRecq s q f).flt = s.flt := rfl
@[simp] theorem modRecq_ctl (q : Nat) (f : RecQ → RecQ) : (modRecq s q f).ctl = s.ctl := rfl
@[simp] theorem modRecq_erg (q : Nat) (f : RecQ → RecQ) : (modRecq s q f).erg = s.erg := rfl
@[simp] theorem modRecq_ergReqs (q : Nat) (f : RecQ → RecQ) : (modRecq s q f).ergReqs = s.ergReqs := rfl
@[simp] theorem modRecq_pending (q : Nat) (f : RecQ → RecQ) : (modRecq s q f).pending = s.pending := rfl
@[simp] theorem modRecq_free (q : Nat) (f : RecQ → RecQ) : (modRecq s q f).free = s.free := rfl

/-! `modCport` -/

@[simp] theorem modCport_regs (k : Nat) (f : CPort → CPort) : (modCport s k f).regs = s.regs := rfl
@[simp] theorem modCport_time (k : Nat) (f : CPort → CPort) : (modCport s k f).time = s.time := rfl
@[simp] theorem modCport_pins (k : Nat) (f : CPort → CPort) : (modCport s k f).pins = s.pins := rfl
@[simp] theorem modCport_clk (k : Nat) (f : CPort → CPort) : (modCport s k f).clk = s.clk := rfl
@[simp] theorem modCport_doze (k : Nat) (f : CPort → CPort) : (modCport s k f).doze = s.doze := rfl
@[simp] theorem modCport_boot (k : Nat) (f : CPort → CPort) : (modCport s k f).boot = s.boot := rfl
@[simp] theorem modCport_mram (k : Nat) (f : CPort → CPort) : (modCport s k f).mram = s.mram := rfl
@[simp] theorem modCport_sec (k : Nat) (f : CPort → CPort) : (modCport s k f).sec = s.sec := rfl
@[simp] theorem modCport_mem (k : Nat) (f : CPort → CPort) : (modCport s k f).mem = s.mem := rfl
@[simp] theorem modCport_memBad (k : Nat) (f : CPort → CPort) : (modCport s k f).memBad = s.memBad := rfl
@[simp] theorem modCport_memUndef (k : Nat) (f : CPort → CPort) : (modCport s k f).memUndef = s.memUndef := rfl
@[simp] theorem modCport_cores (k : Nat) (f : CPort → CPort) : (modCport s k f).cores = s.cores := rfl
@[simp] theorem modCport_sprue (k : Nat) (f : CPort → CPort) : (modCport s k f).sprue = s.sprue := rfl
@[simp] theorem modCport_tier (k : Nat) (f : CPort → CPort) : (modCport s k f).tier = s.tier := rfl
@[simp] theorem modCport_metered (k : Nat) (f : CPort → CPort) : (modCport s k f).metered = s.metered := rfl
@[simp] theorem modCport_d2d (k : Nat) (f : CPort → CPort) : (modCport s k f).d2d = s.d2d := rfl
@[simp] theorem modCport_ckpt (k : Nat) (f : CPort → CPort) : (modCport s k f).ckpt = s.ckpt := rfl
@[simp] theorem modCport_parts (k : Nat) (f : CPort → CPort) : (modCport s k f).parts = s.parts := rfl
@[simp] theorem modCport_recq (k : Nat) (f : CPort → CPort) : (modCport s k f).recq = s.recq := rfl
@[simp] theorem modCport_trc (k : Nat) (f : CPort → CPort) : (modCport s k f).trc = s.trc := rfl
@[simp] theorem modCport_flt (k : Nat) (f : CPort → CPort) : (modCport s k f).flt = s.flt := rfl
@[simp] theorem modCport_erg (k : Nat) (f : CPort → CPort) : (modCport s k f).erg = s.erg := rfl
@[simp] theorem modCport_ergReqs (k : Nat) (f : CPort → CPort) : (modCport s k f).ergReqs = s.ergReqs := rfl
@[simp] theorem modCport_pending (k : Nat) (f : CPort → CPort) : (modCport s k f).pending = s.pending := rfl
@[simp] theorem modCport_free (k : Nat) (f : CPort → CPort) : (modCport s k f).free = s.free := rfl

/-! `setSprue` -/

@[simp] theorem setSprue_regs (d : Nat) (k : Sprue) : (setSprue s d k).regs = s.regs := rfl
@[simp] theorem setSprue_time (d : Nat) (k : Sprue) : (setSprue s d k).time = s.time := rfl
@[simp] theorem setSprue_pins (d : Nat) (k : Sprue) : (setSprue s d k).pins = s.pins := rfl
@[simp] theorem setSprue_clk (d : Nat) (k : Sprue) : (setSprue s d k).clk = s.clk := rfl
@[simp] theorem setSprue_doze (d : Nat) (k : Sprue) : (setSprue s d k).doze = s.doze := rfl
@[simp] theorem setSprue_boot (d : Nat) (k : Sprue) : (setSprue s d k).boot = s.boot := rfl
@[simp] theorem setSprue_mram (d : Nat) (k : Sprue) : (setSprue s d k).mram = s.mram := rfl
@[simp] theorem setSprue_sec (d : Nat) (k : Sprue) : (setSprue s d k).sec = s.sec := rfl
@[simp] theorem setSprue_mem (d : Nat) (k : Sprue) : (setSprue s d k).mem = s.mem := rfl
@[simp] theorem setSprue_memBad (d : Nat) (k : Sprue) : (setSprue s d k).memBad = s.memBad := rfl
@[simp] theorem setSprue_memUndef (d : Nat) (k : Sprue) : (setSprue s d k).memUndef = s.memUndef := rfl
@[simp] theorem setSprue_cores (d : Nat) (k : Sprue) : (setSprue s d k).cores = s.cores := rfl
@[simp] theorem setSprue_tier (d : Nat) (k : Sprue) : (setSprue s d k).tier = s.tier := rfl
@[simp] theorem setSprue_metered (d : Nat) (k : Sprue) : (setSprue s d k).metered = s.metered := rfl
@[simp] theorem setSprue_d2d (d : Nat) (k : Sprue) : (setSprue s d k).d2d = s.d2d := rfl
@[simp] theorem setSprue_ckpt (d : Nat) (k : Sprue) : (setSprue s d k).ckpt = s.ckpt := rfl
@[simp] theorem setSprue_parts (d : Nat) (k : Sprue) : (setSprue s d k).parts = s.parts := rfl
@[simp] theorem setSprue_recq (d : Nat) (k : Sprue) : (setSprue s d k).recq = s.recq := rfl
@[simp] theorem setSprue_trc (d : Nat) (k : Sprue) : (setSprue s d k).trc = s.trc := rfl
@[simp] theorem setSprue_flt (d : Nat) (k : Sprue) : (setSprue s d k).flt = s.flt := rfl
@[simp] theorem setSprue_ctl (d : Nat) (k : Sprue) : (setSprue s d k).ctl = s.ctl := rfl
@[simp] theorem setSprue_erg (d : Nat) (k : Sprue) : (setSprue s d k).erg = s.erg := rfl
@[simp] theorem setSprue_ergReqs (d : Nat) (k : Sprue) : (setSprue s d k).ergReqs = s.ergReqs := rfl
@[simp] theorem setSprue_pending (d : Nat) (k : Sprue) : (setSprue s d k).pending = s.pending := rfl
@[simp] theorem setSprue_free (d : Nat) (k : Sprue) : (setSprue s d k).free = s.free := rfl

/-! `setDoze` -/

@[simp] theorem setDoze_regs (u : Nat) (k : DozeUnit) : (setDoze s u k).regs = s.regs := rfl
@[simp] theorem setDoze_time (u : Nat) (k : DozeUnit) : (setDoze s u k).time = s.time := rfl
@[simp] theorem setDoze_pins (u : Nat) (k : DozeUnit) : (setDoze s u k).pins = s.pins := rfl
@[simp] theorem setDoze_clk (u : Nat) (k : DozeUnit) : (setDoze s u k).clk = s.clk := rfl
@[simp] theorem setDoze_boot (u : Nat) (k : DozeUnit) : (setDoze s u k).boot = s.boot := rfl
@[simp] theorem setDoze_mram (u : Nat) (k : DozeUnit) : (setDoze s u k).mram = s.mram := rfl
@[simp] theorem setDoze_sec (u : Nat) (k : DozeUnit) : (setDoze s u k).sec = s.sec := rfl
@[simp] theorem setDoze_mem (u : Nat) (k : DozeUnit) : (setDoze s u k).mem = s.mem := rfl
@[simp] theorem setDoze_memBad (u : Nat) (k : DozeUnit) : (setDoze s u k).memBad = s.memBad := rfl
@[simp] theorem setDoze_memUndef (u : Nat) (k : DozeUnit) : (setDoze s u k).memUndef = s.memUndef := rfl
@[simp] theorem setDoze_cores (u : Nat) (k : DozeUnit) : (setDoze s u k).cores = s.cores := rfl
@[simp] theorem setDoze_sprue (u : Nat) (k : DozeUnit) : (setDoze s u k).sprue = s.sprue := rfl
@[simp] theorem setDoze_tier (u : Nat) (k : DozeUnit) : (setDoze s u k).tier = s.tier := rfl
@[simp] theorem setDoze_metered (u : Nat) (k : DozeUnit) : (setDoze s u k).metered = s.metered := rfl
@[simp] theorem setDoze_d2d (u : Nat) (k : DozeUnit) : (setDoze s u k).d2d = s.d2d := rfl
@[simp] theorem setDoze_ckpt (u : Nat) (k : DozeUnit) : (setDoze s u k).ckpt = s.ckpt := rfl
@[simp] theorem setDoze_parts (u : Nat) (k : DozeUnit) : (setDoze s u k).parts = s.parts := rfl
@[simp] theorem setDoze_recq (u : Nat) (k : DozeUnit) : (setDoze s u k).recq = s.recq := rfl
@[simp] theorem setDoze_trc (u : Nat) (k : DozeUnit) : (setDoze s u k).trc = s.trc := rfl
@[simp] theorem setDoze_flt (u : Nat) (k : DozeUnit) : (setDoze s u k).flt = s.flt := rfl
@[simp] theorem setDoze_ctl (u : Nat) (k : DozeUnit) : (setDoze s u k).ctl = s.ctl := rfl
@[simp] theorem setDoze_erg (u : Nat) (k : DozeUnit) : (setDoze s u k).erg = s.erg := rfl
@[simp] theorem setDoze_ergReqs (u : Nat) (k : DozeUnit) : (setDoze s u k).ergReqs = s.ergReqs := rfl
@[simp] theorem setDoze_pending (u : Nat) (k : DozeUnit) : (setDoze s u k).pending = s.pending := rfl
@[simp] theorem setDoze_free (u : Nat) (k : DozeUnit) : (setDoze s u k).free = s.free := rfl

/-! `setFence` -/

@[simp] theorem setFence_time (c v : Nat) : (setFence s c v).time = s.time := rfl
@[simp] theorem setFence_pins (c v : Nat) : (setFence s c v).pins = s.pins := rfl
@[simp] theorem setFence_clk (c v : Nat) : (setFence s c v).clk = s.clk := rfl
@[simp] theorem setFence_doze (c v : Nat) : (setFence s c v).doze = s.doze := rfl
@[simp] theorem setFence_boot (c v : Nat) : (setFence s c v).boot = s.boot := rfl
@[simp] theorem setFence_mram (c v : Nat) : (setFence s c v).mram = s.mram := rfl
@[simp] theorem setFence_sec (c v : Nat) : (setFence s c v).sec = s.sec := rfl
@[simp] theorem setFence_mem (c v : Nat) : (setFence s c v).mem = s.mem := rfl
@[simp] theorem setFence_memBad (c v : Nat) : (setFence s c v).memBad = s.memBad := rfl
@[simp] theorem setFence_memUndef (c v : Nat) : (setFence s c v).memUndef = s.memUndef := rfl
@[simp] theorem setFence_cores (c v : Nat) : (setFence s c v).cores = s.cores := rfl
@[simp] theorem setFence_sprue (c v : Nat) : (setFence s c v).sprue = s.sprue := rfl
@[simp] theorem setFence_tier (c v : Nat) : (setFence s c v).tier = s.tier := rfl
@[simp] theorem setFence_metered (c v : Nat) : (setFence s c v).metered = s.metered := rfl
@[simp] theorem setFence_d2d (c v : Nat) : (setFence s c v).d2d = s.d2d := rfl
@[simp] theorem setFence_ckpt (c v : Nat) : (setFence s c v).ckpt = s.ckpt := rfl
@[simp] theorem setFence_parts (c v : Nat) : (setFence s c v).parts = s.parts := rfl
@[simp] theorem setFence_recq (c v : Nat) : (setFence s c v).recq = s.recq := rfl
@[simp] theorem setFence_trc (c v : Nat) : (setFence s c v).trc = s.trc := rfl
@[simp] theorem setFence_flt (c v : Nat) : (setFence s c v).flt = s.flt := rfl
@[simp] theorem setFence_ctl (c v : Nat) : (setFence s c v).ctl = s.ctl := rfl
@[simp] theorem setFence_erg (c v : Nat) : (setFence s c v).erg = s.erg := rfl
@[simp] theorem setFence_ergReqs (c v : Nat) : (setFence s c v).ergReqs = s.ergReqs := rfl
@[simp] theorem setFence_pending (c v : Nat) : (setFence s c v).pending = s.pending := rfl
@[simp] theorem setFence_free (c v : Nat) : (setFence s c v).free = s.free := rfl

/-! `setBad` -/

@[simp] theorem setBad_regs (a : Nat) (b : Bool) : (setBad s a b).regs = s.regs := rfl
@[simp] theorem setBad_time (a : Nat) (b : Bool) : (setBad s a b).time = s.time := rfl
@[simp] theorem setBad_pins (a : Nat) (b : Bool) : (setBad s a b).pins = s.pins := rfl
@[simp] theorem setBad_clk (a : Nat) (b : Bool) : (setBad s a b).clk = s.clk := rfl
@[simp] theorem setBad_doze (a : Nat) (b : Bool) : (setBad s a b).doze = s.doze := rfl
@[simp] theorem setBad_boot (a : Nat) (b : Bool) : (setBad s a b).boot = s.boot := rfl
@[simp] theorem setBad_mram (a : Nat) (b : Bool) : (setBad s a b).mram = s.mram := rfl
@[simp] theorem setBad_sec (a : Nat) (b : Bool) : (setBad s a b).sec = s.sec := rfl
@[simp] theorem setBad_mem (a : Nat) (b : Bool) : (setBad s a b).mem = s.mem := rfl
@[simp] theorem setBad_memUndef (a : Nat) (b : Bool) : (setBad s a b).memUndef = s.memUndef := rfl
@[simp] theorem setBad_cores (a : Nat) (b : Bool) : (setBad s a b).cores = s.cores := rfl
@[simp] theorem setBad_sprue (a : Nat) (b : Bool) : (setBad s a b).sprue = s.sprue := rfl
@[simp] theorem setBad_tier (a : Nat) (b : Bool) : (setBad s a b).tier = s.tier := rfl
@[simp] theorem setBad_metered (a : Nat) (b : Bool) : (setBad s a b).metered = s.metered := rfl
@[simp] theorem setBad_d2d (a : Nat) (b : Bool) : (setBad s a b).d2d = s.d2d := rfl
@[simp] theorem setBad_ckpt (a : Nat) (b : Bool) : (setBad s a b).ckpt = s.ckpt := rfl
@[simp] theorem setBad_parts (a : Nat) (b : Bool) : (setBad s a b).parts = s.parts := rfl
@[simp] theorem setBad_recq (a : Nat) (b : Bool) : (setBad s a b).recq = s.recq := rfl
@[simp] theorem setBad_trc (a : Nat) (b : Bool) : (setBad s a b).trc = s.trc := rfl
@[simp] theorem setBad_flt (a : Nat) (b : Bool) : (setBad s a b).flt = s.flt := rfl
@[simp] theorem setBad_ctl (a : Nat) (b : Bool) : (setBad s a b).ctl = s.ctl := rfl
@[simp] theorem setBad_erg (a : Nat) (b : Bool) : (setBad s a b).erg = s.erg := rfl
@[simp] theorem setBad_ergReqs (a : Nat) (b : Bool) : (setBad s a b).ergReqs = s.ergReqs := rfl
@[simp] theorem setBad_pending (a : Nat) (b : Bool) : (setBad s a b).pending = s.pending := rfl
@[simp] theorem setBad_free (a : Nat) (b : Bool) : (setBad s a b).free = s.free := rfl

/-! `monEvent` -/

@[simp] theorem monEvent_regs (i n : Nat) : (monEvent s i n).regs = s.regs := rfl
@[simp] theorem monEvent_time (i n : Nat) : (monEvent s i n).time = s.time := rfl
@[simp] theorem monEvent_pins (i n : Nat) : (monEvent s i n).pins = s.pins := rfl
@[simp] theorem monEvent_clk (i n : Nat) : (monEvent s i n).clk = s.clk := rfl
@[simp] theorem monEvent_doze (i n : Nat) : (monEvent s i n).doze = s.doze := rfl
@[simp] theorem monEvent_boot (i n : Nat) : (monEvent s i n).boot = s.boot := rfl
@[simp] theorem monEvent_mram (i n : Nat) : (monEvent s i n).mram = s.mram := rfl
@[simp] theorem monEvent_sec (i n : Nat) : (monEvent s i n).sec = s.sec := rfl
@[simp] theorem monEvent_mem (i n : Nat) : (monEvent s i n).mem = s.mem := rfl
@[simp] theorem monEvent_memBad (i n : Nat) : (monEvent s i n).memBad = s.memBad := rfl
@[simp] theorem monEvent_memUndef (i n : Nat) : (monEvent s i n).memUndef = s.memUndef := rfl
@[simp] theorem monEvent_cores (i n : Nat) : (monEvent s i n).cores = s.cores := rfl
@[simp] theorem monEvent_sprue (i n : Nat) : (monEvent s i n).sprue = s.sprue := rfl
@[simp] theorem monEvent_tier (i n : Nat) : (monEvent s i n).tier = s.tier := rfl
@[simp] theorem monEvent_metered (i n : Nat) : (monEvent s i n).metered = s.metered := rfl
@[simp] theorem monEvent_d2d (i n : Nat) : (monEvent s i n).d2d = s.d2d := rfl
@[simp] theorem monEvent_ckpt (i n : Nat) : (monEvent s i n).ckpt = s.ckpt := rfl
@[simp] theorem monEvent_parts (i n : Nat) : (monEvent s i n).parts = s.parts := rfl
@[simp] theorem monEvent_recq (i n : Nat) : (monEvent s i n).recq = s.recq := rfl
@[simp] theorem monEvent_trc (i n : Nat) : (monEvent s i n).trc = s.trc := rfl
@[simp] theorem monEvent_ctl (i n : Nat) : (monEvent s i n).ctl = s.ctl := rfl
@[simp] theorem monEvent_erg (i n : Nat) : (monEvent s i n).erg = s.erg := rfl
@[simp] theorem monEvent_ergReqs (i n : Nat) : (monEvent s i n).ergReqs = s.ergReqs := rfl
@[simp] theorem monEvent_pending (i n : Nat) : (monEvent s i n).pending = s.pending := rfl
@[simp] theorem monEvent_free (i n : Nat) : (monEvent s i n).free = s.free := rfl

/-! `resetPartRegs` -/

@[simp] theorem resetPartRegs_time (p : Nat) : (resetPartRegs s p).time = s.time := rfl
@[simp] theorem resetPartRegs_pins (p : Nat) : (resetPartRegs s p).pins = s.pins := rfl
@[simp] theorem resetPartRegs_clk (p : Nat) : (resetPartRegs s p).clk = s.clk := rfl
@[simp] theorem resetPartRegs_doze (p : Nat) : (resetPartRegs s p).doze = s.doze := rfl
@[simp] theorem resetPartRegs_boot (p : Nat) : (resetPartRegs s p).boot = s.boot := rfl
@[simp] theorem resetPartRegs_mram (p : Nat) : (resetPartRegs s p).mram = s.mram := rfl
@[simp] theorem resetPartRegs_sec (p : Nat) : (resetPartRegs s p).sec = s.sec := rfl
@[simp] theorem resetPartRegs_mem (p : Nat) : (resetPartRegs s p).mem = s.mem := rfl
@[simp] theorem resetPartRegs_memBad (p : Nat) : (resetPartRegs s p).memBad = s.memBad := rfl
@[simp] theorem resetPartRegs_memUndef (p : Nat) : (resetPartRegs s p).memUndef = s.memUndef := rfl
@[simp] theorem resetPartRegs_cores (p : Nat) : (resetPartRegs s p).cores = s.cores := rfl
@[simp] theorem resetPartRegs_sprue (p : Nat) : (resetPartRegs s p).sprue = s.sprue := rfl
@[simp] theorem resetPartRegs_tier (p : Nat) : (resetPartRegs s p).tier = s.tier := rfl
@[simp] theorem resetPartRegs_metered (p : Nat) : (resetPartRegs s p).metered = s.metered := rfl
@[simp] theorem resetPartRegs_d2d (p : Nat) : (resetPartRegs s p).d2d = s.d2d := rfl
@[simp] theorem resetPartRegs_ckpt (p : Nat) : (resetPartRegs s p).ckpt = s.ckpt := rfl
@[simp] theorem resetPartRegs_parts (p : Nat) : (resetPartRegs s p).parts = s.parts := rfl
@[simp] theorem resetPartRegs_recq (p : Nat) : (resetPartRegs s p).recq = s.recq := rfl
@[simp] theorem resetPartRegs_trc (p : Nat) : (resetPartRegs s p).trc = s.trc := rfl
@[simp] theorem resetPartRegs_flt (p : Nat) : (resetPartRegs s p).flt = s.flt := rfl
@[simp] theorem resetPartRegs_ctl (p : Nat) : (resetPartRegs s p).ctl = s.ctl := rfl
@[simp] theorem resetPartRegs_erg (p : Nat) : (resetPartRegs s p).erg = s.erg := rfl
@[simp] theorem resetPartRegs_ergReqs (p : Nat) : (resetPartRegs s p).ergReqs = s.ergReqs := rfl
@[simp] theorem resetPartRegs_pending (p : Nat) : (resetPartRegs s p).pending = s.pending := rfl
@[simp] theorem resetPartRegs_free (p : Nat) : (resetPartRegs s p).free = s.free := rfl

end Sys2Proof.Machine
end

