-- ==== Sys2Proof/Laws/Ops.lean ====
section
/-! SUPPORT. What the shared operations of `Machine/Ops.lean` do: units after an update, registers
after a write, and the fields of a register word. -/

namespace Sys2Proof.Machine

/-! ### Cores and contexts -/

@[simp] theorem coreOf_setCore_same (s : State) (c : Nat) (k : Core) : coreOf (setCore s c k) c = k := by
  simp [coreOf, setCore]

theorem coreOf_setCore_other (s : State) (c d : Nat) (k : Core) (h : d ≠ c) :
    coreOf (setCore s c k) d = coreOf s d := by
  simp [coreOf, setCore, kGet_kSet_other _ _ _ _ _ h]

@[simp] theorem coreOf_modCore_same (s : State) (c : Nat) (f : Core → Core) :
    coreOf (modCore s c f) c = f (coreOf s c) := by simp [modCore]

theorem coreOf_modCore_other (s : State) (c d : Nat) (f : Core → Core) (h : d ≠ c) :
    coreOf (modCore s c f) d = coreOf s d := by simp [modCore, coreOf_setCore_other _ _ _ _ h]

@[simp] theorem ctxOf_setCtx_same (s : State) (c x : Nat) (t : Ctx) : ctxOf (setCtx s c x t) c x = t := by
  simp [ctxOf, setCtx, ctxOfCore]

theorem ctxOf_setCtx_other (s : State) (c x y : Nat) (t : Ctx) (h : y ≠ x) :
    ctxOf (setCtx s c x t) c y = ctxOf s c y := by
  simp [ctxOf, setCtx, ctxOfCore, kGet_kSet_other _ _ _ _ _ h]

theorem coreOf_setCtx_other (s : State) (c x d : Nat) (t : Ctx) (h : d ≠ c) :
    coreOf (setCtx s c x t) d = coreOf s d := by simp [setCtx, coreOf_modCore_other _ _ _ _ h]

theorem ctxOf_setCtx_core (s : State) (c x d y : Nat) (t : Ctx) (h : d ≠ c) :
    ctxOf (setCtx s c x t) d y = ctxOf s d y := by simp [ctxOf, coreOf_setCtx_other _ _ _ _ _ h]

@[simp] theorem ctxOf_modCtx_same (s : State) (c x : Nat) (f : Ctx → Ctx) :
    ctxOf (modCtx s c x f) c x = f (ctxOf s c x) := by simp [modCtx]

@[simp] theorem coreOf_setCtx_same (s : State) (c x : Nat) (t : Ctx) :
    coreOf (setCtx s c x t) c = { coreOf s c with ctxs := kSet (coreOf s c).ctxs x t } := by simp [setCtx]

@[simp] theorem partOf_setPart_same (s : State) (p : Nat) (k : Part) : partOf (setPart s p k) p = k := by
  simp [partOf, setPart]

theorem partOf_setPart_other (s : State) (p q : Nat) (k : Part) (h : q ≠ p) :
    partOf (setPart s p k) q = partOf s q := by
  simp [partOf, setPart, kGet_kSet_other _ _ _ _ _ h]

@[simp] theorem partOf_modPart_same (s : State) (p : Nat) (f : Part → Part) :
    partOf (modPart s p f) p = f (partOf s p) := by simp [modPart]

@[simp] theorem recqOf_modRecq_same (s : State) (q : Nat) (f : RecQ → RecQ) :
    recqOf (modRecq s q f) q = f (recqOf s q) := by simp [recqOf, modRecq]

/-! ### Registers -/

/-- The registers are in canonical form. -/
abbrev regsWf (s : State) : Prop := smWf regReset s.regs = true

theorem rd_rwr (s : State) (o j : Nat) (v : Word) (h : regsWf s) :
    rd (rwr s o v) j = if j = o then v else rd s j := smGet_smSet regReset s.regs o j v h

theorem rd_rwr_same (s : State) (o : Nat) (v : Word) (h : regsWf s) : rd (rwr s o v) o = v := by
  simp [rd_rwr s o o v h]

theorem rd_rwr_other (s : State) (o j : Nat) (v : Word) (h : regsWf s) (hj : j ≠ o) :
    rd (rwr s o v) j = rd s j := by simp [rd_rwr s o j v h, hj]

theorem regsWf_rwr (s : State) (o : Nat) (v : Word) (h : regsWf s) : regsWf (rwr s o v) :=
  smSet_wf regReset s.regs o v h

theorem regsWf_rput (s : State) (o : Nat) (f : Fld) (v : Nat) (h : regsWf s) : regsWf (rput s o f v) :=
  regsWf_rwr s o _ h

theorem regsWf_rset (s : State) (o : Nat) (f : Fld) (h : regsWf s) : regsWf (rset s o f) :=
  regsWf_rwr s o _ h

theorem rd_rput_other (s : State) (o j : Nat) (f : Fld) (v : Nat) (h : regsWf s) (hj : j ≠ o) :
    rd (rput s o f v) j = rd s j := rd_rwr_other s o j _ h hj

theorem rd_rput_same (s : State) (o : Nat) (f : Fld) (v : Nat) (h : regsWf s) :
    rd (rput s o f v) o = wput (rd s o) f.hi f.lo v := rd_rwr_same s o _ h

theorem rd_rset_other (s : State) (o j : Nat) (f : Fld) (h : regsWf s) (hj : j ≠ o) :
    rd (rset s o f) j = rd s j := rd_rwr_other s o j _ h hj

end Sys2Proof.Machine
end

