-- ==== Sys2Proof/Laws/Seq.lean ====
section
/-! SUPPORT. What the sequencer's frame does with a word: a legal word whose guard is true runs its own
effect, one whose guard is false goes to the next word, an illegal one aborts; and the frames of the
contexts after it. -/

namespace Sys2Proof.Safety

open Sys2Proof Sys2Proof.Machine

theorem guard_of_takes {k : Ctx} {w : Word} (h : Takes k w) : guardOf k w = true := by
  simp [guardOf, bne, h.2]

/-! ### The state after a fetch -/

@[simp] theorem ctxOf_iFilled (s : State) (c a d y : Nat) : ctxOf (iFilled s c a) d y = ctxOf s d y := by
  by_cases h : d = c
  · subst h; simp [ctxOf, iFilled, ctxOfCore]
  · simp [ctxOf, iFilled, coreOf_modCore_other _ _ _ _ h]

@[simp] theorem ctxOf_fetchedAt_same (s : State) (c x : Nat) : ctxOf (fetchedAt s c x) c x = fetchedCtx (ctxOf s c x) := by
  simp [ctxOf, fetchedAt, modCtx, setCtx, ctxOfCore, fetchedCtx]

theorem ctxOf_fetchedAt_other (s : State) (c x y : Nat) (h : y ≠ x) : ctxOf (fetchedAt s c x) c y = ctxOf s c y := by
  simp [ctxOf, fetchedAt, modCtx, setCtx, ctxOfCore, kGet_kSet_other _ _ _ _ _ h]

theorem coreOf_fetchedAt_other (s : State) (c x d : Nat) (h : d ≠ c) : coreOf (fetchedAt s c x) d = coreOf s d := by
  simp [fetchedAt, modCtx, coreOf_modCore_other _ _ _ _ h, coreOf_setCtx_other _ _ _ _ _ h]

@[simp] theorem ctxOf_fetched_same (s : State) (c x : Nat) : ctxOf (fetched s c x) c x = fetchedCtx (ctxOf s c x) := by
  simp [fetched]

theorem ctxOf_fetched_other (s : State) (c x y : Nat) (h : y ≠ x) : ctxOf (fetched s c x) c y = ctxOf s c y := by
  simp [fetched, ctxOf_fetchedAt_other _ _ _ _ h]

theorem coreOf_fetched_other (s : State) (c x d : Nat) (h : d ≠ c) : coreOf (fetched s c x) d = coreOf s d := by
  simp [fetched, iFilled, coreOf_modCore_other _ _ _ _ h, coreOf_fetchedAt_other _ _ _ _ h]

/-- A fetch changes the cores alone. -/
theorem fetched_eq (s : State) (c x : Nat) : fetched s c x = { s with cores := (fetched s c x).cores } := rfl

/-- What a fetch changes in its core. -/
theorem coreOf_fetched (s : State) (c x : Nat) : coreOf (fetched s c x) c =
    { coreOf s c with ctxs := (coreOf (fetched s c x) c).ctxs, iLines := (coreOf (fetched s c x) c).iLines,
                      lastSeq := x } := by
  simp [fetched, iFilled, fetchedAt, modCtx, setCtx]

/-! ### What the frame does with a word -/

/-- A legal word of its row with a true guard runs its effect on the fetched state. -/
theorem runWord_takes {s : State} {c x : Nat} {w : Word} {k : Ctx} {pr : Pour} (h : AtWord s c x w k pr)
    (ht : Takes k w) (mine : Word → Bool) (body : State → Ctx → Pour → State) (hm : mine w = true) :
    runWord mine body s c x w = body (fetched s c x) (fetchedCtx k) pr := by
  have hg := guard_of_takes ht
  have hf : ctxOf (iFilled (fetchedAt s c x) c k.pc.toNat) c x = fetchedCtx k := by simp [h.regs]
  simp [runWord, h.regs, h.pour, h.ready, h.turn, h.fetch, h.reads, h.word, ht.1, hm, hg, fetched, hf]

/-- A legal word of its row with a false guard goes to the next word. -/
theorem runWord_skips {s : State} {c x : Nat} {w : Word} {k : Ctx} {pr : Pour} (h : AtWord s c x w k pr)
    (he : encodingOk w = true) (hg : pRead k (wPG w) = wPN w) (mine : Word → Bool)
    (body : State → Ctx → Pour → State) (hm : mine w = true) :
    runWord mine body s c x w = modCtx (fetched s c x) c x nextPc := by
  simp [runWord, h.regs, h.pour, h.ready, h.turn, h.fetch, h.reads, h.word, he, hm, guardOf, hg, fetched]

/-- An illegal word aborts with ILLEGAL_INSTRUCTION, whatever its guard. -/
theorem runWord_illegal {s : State} {c x : Nat} {w : Word} {k : Ctx} {pr : Pour} (h : AtWord s c x w k pr)
    (he : encodingOk w = false) (mine : Word → Bool) (body : State → Ctx → Pour → State) :
    runWord mine body s c x w = beginAbort (fetched s c x) c x 0x0B 0 := by
  simp [runWord, h.regs, h.pour, h.ready, h.turn, h.fetch, h.reads, h.word, he, illegal, fetched]

theorem running_of_ready {s : State} {c x : Nat} (h : seqReady (coreOf s c) x = true) : (ctxOf s c x).st = .running := by
  simp only [seqReady, Bool.and_eq_true, decide_eq_true_eq] at h; exact h.1.1.1.1

theorem ctxOk_of {s : State} {c x : Nat} {w : Word} {k : Ctx} {pr : Pour} (h : AtWord s c x w k pr) :
    ctxOk c x = true := by simp [ctxOk, h.core, h.ctx]

/-- Replacing the context of a fetched state leaves everything but that context and what a fetch changes. -/
theorem onlyCtx_setCtx (s : State) (c x : Nat) (t : Ctx) : OnlyCtx s (setCtx (fetched s c x) c x t) c x := by
  refine ⟨⟨rfl, fun d hd => ?_⟩, ?_, fun y hy => ?_⟩
  · rw [coreOf_setCtx_other _ _ _ _ _ hd, coreOf_fetched_other _ _ _ _ hd]
  · simp only [coreOf_setCtx_same]; rw [coreOf_fetched]
  · rw [ctxOf_setCtx_other _ _ _ _ _ hy, ctxOf_fetched_other _ _ _ _ hy]

/-- The same from the state itself. -/
theorem onlyCtx_setCtx' (s : State) (c x : Nat) (t : Ctx) : OnlyCtx s (setCtx s c x t) c x :=
  ⟨⟨rfl, fun _ hd => coreOf_setCtx_other _ _ _ _ _ hd⟩, by simp, fun _ hy => ctxOf_setCtx_other _ _ _ _ _ hy⟩

/-- What writing a general register does to the registers read. -/
theorem gRead_gWrite (k : Ctx) (r i : Nat) (v : Word) (hi : i < 32) :
    gRead (gWrite k r v) i = if i = r ∧ r ≠ 0 then v else gRead k i := by
  unfold gRead gWrite
  by_cases hr : r = 0
  · simp [hr]
  · by_cases h0 : i = 0
    · subst h0; simp [hr, Ne.symm hr]
    · by_cases he : i = r
      · subst he; simp [hr, Vector.getD, hi]
      · simp [hr, h0, he, Vector.getD, hi, Ne.symm he]

/-- What writing a predicate register does to the predicates read. -/
theorem pRead_pWrite (k : Ctx) (r i : Nat) (v : Bool) (hi : i < 8) :
    pRead (pWrite k r v) i = if i = r ∧ r ≠ 0 then v else pRead k i := by
  unfold pRead pWrite
  by_cases hr : r = 0
  · simp [hr]
  · by_cases h0 : i = 0
    · subst h0; simp [hr, Ne.symm hr]
    · by_cases he : i = r
      · subst he; simp [hr, Vector.getD, hi]
      · simp [hr, h0, he, Vector.getD, hi, Ne.symm he]

/-- A scalar instruction that writes a general register. -/
theorem writesReg_scalarDone {s : State} {c x : Nat} {w : Word} {k : Ctx} {pr : Pour} (h : AtWord s c x w k pr) (v : Word) (r : Nat) :
    WritesReg s (scalarDone (fetched s c x) c x (fun u => gWrite u r v)) c x k r v := by
  have e : scalarDone (fetched s c x) c x (fun u => gWrite u r v) =
      setCtx (fetched s c x) c x (nextPc (gWrite (fetchedCtx k) r v)) := by
    simp [scalarDone, modCtx, h.regs]
  rw [e]
  refine ⟨onlyCtx_setCtx _ _ _ _, ?_, ?_⟩
  · simp only [ctxOf_setCtx_same, nextPc, gWrite]; split <;> rfl
  · intro i hi
    have h1 : gRead (nextPc (gWrite (fetchedCtx k) r v)) i = gRead (gWrite (fetchedCtx k) r v) i := rfl
    have h2 : gRead (fetchedCtx k) i = gRead k i := rfl
    simp [h1, gRead_gWrite _ _ _ _ hi, h2]

/-- A scalar instruction that writes a predicate register. -/
theorem writesPred_scalarDone {s : State} {c x : Nat} {w : Word} {k : Ctx} {pr : Pour} (h : AtWord s c x w k pr) (v : Bool) (r : Nat) :
    WritesPred s (scalarDone (fetched s c x) c x (fun u => pWrite u r v)) c x k r v := by
  have e : scalarDone (fetched s c x) c x (fun u => pWrite u r v) =
      setCtx (fetched s c x) c x (nextPc (pWrite (fetchedCtx k) r v)) := by
    simp [scalarDone, modCtx, h.regs]
  rw [e]
  refine ⟨onlyCtx_setCtx _ _ _ _, ?_, ?_⟩
  · simp only [ctxOf_setCtx_same, nextPc, pWrite]; split <;> rfl
  · intro i hi
    have h1 : pRead (nextPc (pWrite (fetchedCtx k) r v)) i = pRead (pWrite (fetchedCtx k) r v) i := rfl
    have h2 : pRead (fetchedCtx k) i = pRead k i := rfl
    simp [h1, pRead_pWrite _ _ _ _ hi, h2]

/-- IMM sign-extended, as an integer. -/
theorem wIMMs_toInt (w : Word) : (wIMMs w).toInt = signedOf 32 (wIMM w) := by
  have : wIMM w < 2^32 := by simp [wIMM, wfld, bitsOf]; omega
  have e : ∀ i : Int, -2^31 ≤ i → i < 2^31 → (BitVec.ofNat 64 (wrapTo 64 i)).toInt = i := by
    intro i h1 h2
    have : (BitVec.ofNat 64 (wrapTo 64 i)).toNat = wrapTo 64 i := by
      simp [wrapTo]; omega
    rw [BitVec.toInt_eq_toNat_cond, this]; simp [wrapTo]; split <;> omega
  apply e
  · simp only [signedOf]; split <;> omega
  · simp only [signedOf]; split <;> omega


end Sys2Proof.Safety
end

