-- ==== Sys2Proof/Tests/Slice0.lean ====
section
/-! SUPPORT. Tests of the model.  The `wit_` theorems show, for every statement with hypotheses and for each of
its clauses, a concrete state and operands that meet them; the `test_` theorems check one command on a small
state against a value worked out by hand from the rule named; the `wf_` theorems show an ill-formed command for
each check of WellFormed. -/

namespace Sys2Proof.Tests

open Sys2Proof Sys2Proof.Machine Sys2Proof.Safety

set_option Elab.async false

/-! ### Small states -/

/-- An instruction word: its opcode, and fields as (lowest bit, value). -/
def wd (op : Nat) (fs : List (Nat × Nat)) : Word :=
  BitVec.ofNat 64 (fs.foldl (fun n (lo, v) => n + v * 2 ^ lo) (op * 2 ^ 58))

/-- A code binding of 512 bytes at 0x1000. -/
def codeB : Bind :=
  { buf := 3, out := false, rmode := 0, res := false, ridx := 0, stamp := 0, slot := 0, base := 0x1000, units := 2,
    version := 5, verStamp := 7, baseVer := 4, fresh := false, claimed := false, held := true, replayMet := false }

/-- A pour of partition 0 with every token, stream, gather engine and accumulator set. -/
def thePour : Pour :=
  { part := 0, pos := 0, idx := 0, pending := false, replay := false, stamp := 9, tokFirst := 0, tokLast := 1023,
    mStream := 0xFF, mGather := 3, mAcc0 := 15, mAcc1 := 15, entry := 0, binds := [codeB], args := [42], notices := [],
    first := false, started := 0, watch := 0 }

/-- General registers from a list. -/
def gRegs (l : List (Nat × Word)) : Vector Word 32 := l.foldl (fun v (i, w) => v.setIfInBounds i w) (Vector.replicate 32 0)

/-- A running context at 0x1000 whose general registers are `l`. -/
def runC (l : List (Nat × Word)) : Ctx :=
  { Ctx.reset with st := .running, pc := 0x1000, g := gRegs l, pour := some thePour }

/-- Registers written in turn. -/
def regsS (l : List (Nat × Word)) (s : State) : State := l.foldl (fun s (o, v) => rwr s o v) s

/-- Register fields set in turn. -/
def putS (l : List (Nat × Fld × Nat)) (s : State) : State := l.foldl (fun s (o, f, v) => rput s o f v) s

/-- A state whose core 0 holds `k`, with `w` at 0x1000. -/
def coreS (k : Core) (w : Word) : State :=
  { State.reset with cores := [(0, k)], mem := memPutBytes [] 0x1000 (bytesLE 8 w.toNat) }

/-- A core whose context 0 is `k`. -/
def ctxK (k : Ctx) : Core := { Core.reset with ctxs := [(0, k)] }

/-- Core 0 runs `w` in context 0, whose general registers are `l`. -/
def seqS (l : List (Nat × Word)) (w : Word) : State := coreS (ctxK (runC l)) w

/-- The word `w` stands at the PC of `k` and is to be run. -/
def seqOk (s : State) (k : Ctx) (w : Word) : Bool :=
  seqReady (coreOf s 0) 0 && seqTurn (coreOf s 0) 0 && fetchOk thePour k.pc.toNat 8 &&
  lineClean s (coreOf s 0).iLines k.pc.toNat 8 && decide (fetchWord s 0 k.pc.toNat = w) && encodingOk w && decide (pRead k (wPG w) ≠ wPN w)

/-- Such a word meets the hypotheses that the instruction statements share. -/
theorem at_ok (s : State) (k : Ctx) (w : Word) (hk : ctxOf s 0 0 = k) (hp : k.pour = some thePour)
    (h : seqOk s k w = true) : AtWord s 0 0 w k thePour ∧ Takes k w := by
  simp only [seqOk, Bool.and_eq_true, decide_eq_true_eq] at h
  obtain ⟨⟨⟨⟨⟨⟨h1, h2⟩, h3⟩, h4⟩, h5⟩, h6⟩, h7⟩ := h
  exact ⟨⟨⟨by decide, by decide, hk, hp, h1, h2⟩, h3, h4, h5⟩, h6, h7⟩

/-- What the issue check answers: a plan that may issue, a plan that waits, or an abort. -/
def goes (s : State) (e : QEnt) : Bool := match planOf s 0 0 e with | .go p => planReady (coreOf s 0) p | .stop _ _ => false
def holds (s : State) (e : QEnt) : Bool := match planOf s 0 0 e with | .go p => !planReady (coreOf s 0) p | .stop _ _ => false
def stops (s : State) (e : QEnt) : Bool := match planOf s 0 0 e with | .go _ => false | .stop _ _ => true

theorem of_goes {s : State} {e : QEnt} (h : goes s e = true) :
    ∃ p, planOf s 0 0 e = .go p ∧ planReady (coreOf s 0) p = true := by
  unfold goes at h
  split at h
  · exact ⟨_, by assumption, h⟩
  · cases h

theorem of_holds {s : State} {e : QEnt} (h : holds s e = true) :
    ∃ p, planOf s 0 0 e = .go p ∧ planReady (coreOf s 0) p = false := by
  unfold holds at h
  split at h
  · exact ⟨_, by assumption, by simpa using h⟩
  · cases h

theorem of_stops {s : State} {e : QEnt} (h : stops s e = true) : ∃ code log, planOf s 0 0 e = .stop code log := by
  unfold stops at h
  split at h
  · cases h
  · exact ⟨_, _, by assumption⟩

/-! ### Scalar instructions -/

def wNop : Word := wd 0 []
def wBr : Word := wd 1 [(0, 0xFFFFFFFF)]
def wJal : Word := wd 2 [(49, 1), (0, 2)]
def wJalr : Word := wd 3 [(49, 1), (44, 2)]
def wTrap : Word := wd 4 [(0, 7)]
def wAdd : Word := wd 8 [(49, 3), (44, 1), (39, 2)]
def wSra : Word := wd 8 [(49, 3), (44, 1), (39, 2), (32, 7)]
def wMulh : Word := wd 8 [(49, 3), (44, 1), (39, 2), (32, 9)]
def wAddi : Word := wd 9 [(49, 3), (44, 1), (0, 0xFFFFFFFF)]
def wMovi : Word := wd 10 [(49, 3), (32, 1), (0, 5)]
def wCmp : Word := wd 11 [(49, 1), (44, 1), (39, 2), (32, 2)]
def wCmpi : Word := wd 11 [(49, 1), (44, 1), (35, 1), (32, 5), (0, 1)]
def wPset : Word := wd 12 [(49, 1), (44, 0), (39, 1), (32, 3)]
def wLd : Word := wd 16 [(49, 3), (44, 1), (34, 1), (32, 1)]
def wSt : Word := wd 17 [(44, 1), (39, 2), (32, 1)]
def wCommit : Word := wd 24 []
def wQuery (fn i : Nat) : Word := wd 25 [(49, 3), (32, fn), (0, i)]


/-- Partition 0 is ACTIVE with every stack, and its core mask holds core 0. -/
def partOn (s : State) : State :=
  regsS [(rPART_STACKS 0, 0xFFFFFFFF)] (putS [(rPART_CTRL 0, fPART_CTRL_STATE, 1)] s)

/-- R263, R264: one word of each opcode. -/
theorem wit_AluWritesResult :
    (AtWord (seqS [] wAdd) 0 0 wAdd (runC []) thePour ∧ Takes (runC []) wAdd ∧ wOp wAdd = 0x08) ∧
    (AtWord (seqS [] wAddi) 0 0 wAddi (runC []) thePour ∧ Takes (runC []) wAddi ∧ wOp wAddi = 0x09) ∧
    (AtWord (seqS [] wMovi) 0 0 wMovi (runC []) thePour ∧ Takes (runC []) wMovi ∧ wOp wMovi = 0x0A) := by
  refine ⟨?_, ?_, ?_⟩ <;> (rw [← and_assoc]; exact ⟨at_ok _ _ _ rfl rfl (by decide +kernel), by decide +kernel⟩)

theorem wit_PredicatesWritten :
    (AtWord (seqS [] wCmp) 0 0 wCmp (runC []) thePour ∧ Takes (runC []) wCmp ∧ wOp wCmp = 0x0B) ∧
    (AtWord (seqS [] wPset) 0 0 wPset (runC []) thePour ∧ Takes (runC []) wPset ∧ wOp wPset = 0x0C) := by
  refine ⟨?_, ?_⟩ <;> (rw [← and_assoc]; exact ⟨at_ok _ _ _ rfl rfl (by decide +kernel), by decide +kernel⟩)

/-- JALR at both sides of 2^48. -/
theorem wit_ControlFlowTargets :
    (AtWord (seqS [] wNop) 0 0 wNop (runC []) thePour ∧ Takes (runC []) wNop ∧ wOp wNop = 0x00) ∧
    (AtWord (seqS [] wBr) 0 0 wBr (runC []) thePour ∧ Takes (runC []) wBr ∧ wOp wBr = 0x01) ∧
    (AtWord (seqS [] wJal) 0 0 wJal (runC []) thePour ∧ Takes (runC []) wJal ∧ wOp wJal = 0x02) ∧
    (AtWord (seqS [(2, 0xFFFFFFFFFFFF)] wJalr) 0 0 wJalr (runC [(2, 0xFFFFFFFFFFFF)]) thePour ∧
      Takes (runC [(2, 0xFFFFFFFFFFFF)]) wJalr ∧ wOp wJalr = 0x03 ∧
      (gRead (runC [(2, 0xFFFFFFFFFFFF)]) (wRS1 wJalr) + wIMMs wJalr).toNat < 2 ^ 48) ∧
    (AtWord (seqS [(2, 0x1000000000000)] wJalr) 0 0 wJalr (runC [(2, 0x1000000000000)]) thePour ∧
      Takes (runC [(2, 0x1000000000000)]) wJalr ∧ wOp wJalr = 0x03 ∧
      2 ^ 48 ≤ (gRead (runC [(2, 0x1000000000000)]) (wRS1 wJalr) + wIMMs wJalr).toNat ∧
      Canon (seqS [(2, 0x1000000000000)] wJalr)) := by
  refine ⟨?_, ?_, ?_, ?_, ?_⟩ <;> (rw [← and_assoc]; exact ⟨at_ok _ _ _ rfl rfl (by decide +kernel), by decide +kernel⟩)

theorem wit_TrapCommitVquery :
    (AtWord (seqS [] wTrap) 0 0 wTrap (runC []) thePour ∧ Takes (runC []) wTrap ∧ wOp wTrap = 0x04) ∧
    (AtWord (seqS [] wCommit) 0 0 wCommit (runC []) thePour ∧ Takes (runC []) wCommit ∧ wOp wCommit = 0x18) ∧
    (AtWord (seqS [] (wQuery 0 0)) 0 0 (wQuery 0 0) (runC []) thePour ∧ Takes (runC []) (wQuery 0 0) ∧
      wOp (wQuery 0 0) = 0x19 ∧ wFN (wQuery 0 0) ≤ 4 ∧ thePour.binds[wfld (wQuery 0 0) 5 0]? = some codeB) ∧
    (AtWord (seqS [] (wQuery 4 1)) 0 0 (wQuery 4 1) (runC []) thePour ∧ Takes (runC []) (wQuery 4 1) ∧
      wOp (wQuery 4 1) = 0x19 ∧ wFN (wQuery 4 1) ≤ 4 ∧ thePour.binds.length ≤ wfld (wQuery 4 1) 5 0) ∧
    (AtWord (seqS [] (wQuery 5 0)) 0 0 (wQuery 5 0) (runC []) thePour ∧ Takes (runC []) (wQuery 5 0) ∧
      wOp (wQuery 5 0) = 0x19 ∧ wFN (wQuery 5 0) = 5 ∧ thePour.args[wfld (wQuery 5 0) 2 0]? = some 42) ∧
    (AtWord (seqS [] (wQuery 5 1)) 0 0 (wQuery 5 1) (runC []) thePour ∧ Takes (runC []) (wQuery 5 1) ∧
      wOp (wQuery 5 1) = 0x19 ∧ wFN (wQuery 5 1) = 5 ∧ thePour.args.length ≤ wfld (wQuery 5 1) 2 0) ∧
    (AtWord (seqS [] (wQuery 6 0)) 0 0 (wQuery 6 0) (runC []) thePour ∧ Takes (runC []) (wQuery 6 0) ∧
      wOp (wQuery 6 0) = 0x19 ∧ wFN (wQuery 6 0) = 6) := by
  refine ⟨?_, ?_, ?_, ?_, ?_, ?_, ?_⟩ <;>
    (rw [← and_assoc]; exact ⟨at_ok _ _ _ rfl rfl (by decide +kernel), by decide +kernel⟩)

/-- An LD and an ST of 64 bits. -/
def wLd8 : Word := wd 16 [(49, 3), (44, 1), (32, 3)]
def wSt8 : Word := wd 17 [(44, 1), (39, 2), (32, 3)]

def poison (s : State) : State := { s with memBad := [(0, true)] }
/-- One versioned buffer of partition 0, whose slot 0, at address 0, is FREE. -/
def freeSlotOn (s : State) : State :=
  putS [(rPART_VTABLE 0, fPART_VTABLE_BASE, 0x80), (rPART_VCOUNT 0, fPART_VCOUNT_COUNT, 1)]
    { s with mem := memPutBytes s.mem 0x2000 (bytesLE 8 (2 ^ 60 + 2 ^ 58) ++ bytesLE 8 1) }
/-- Core 0 holds line 0 in its data cache. -/
def lineHeld (s : State) : State := modCore s 0 (fun k => { k with dLines := [⟨0, List.replicate 64 1⟩] })
/-- Stack 0's controller has faulted. -/
def downOn (s : State) : State := { s with tier := [(0, { TCtl.reset with faulted := true })] }

/-- An LD or ST word with g1 = `a` meets the hypotheses that LoadStoreTier shares, and `P` holds besides. -/
def atLs (f : State → State) (w : Word) (a : Nat) (P : State → Nat → Nat → Bool) : Bool :=
  let l := [(1, BitVec.ofNat 64 a)]
  let s := f (seqS l w)
  seqOk s (runC l) w && decide (ctxOf s 0 0 = runC l) && decide (Canon s) && decide (wOp w = 0x10 ∨ wOp w = 0x11) &&
    P s (gRead (runC l) (wRS1 w) + wIMMs w).toNat (2 ^ wfld w 33 32)

theorem at_ls {f : State → State} {w : Word} {a : Nat} {P : State → Nat → Nat → Bool} (h : atLs f w a P = true) :
    let k := runC [(1, BitVec.ofNat 64 a)]
    AtWord (f (seqS [(1, BitVec.ofNat 64 a)] w)) 0 0 w k thePour ∧ Takes k w ∧ Canon (f (seqS [(1, BitVec.ofNat 64 a)] w)) ∧
      (wOp w = 0x10 ∨ wOp w = 0x11) ∧
      P (f (seqS [(1, BitVec.ofNat 64 a)] w)) (gRead k (wRS1 w) + wIMMs w).toNat (2 ^ wfld w 33 32) = true := by
  simp only [atLs, Bool.and_eq_true, decide_eq_true_eq] at h
  obtain ⟨⟨⟨⟨h1, h2⟩, h3⟩, h4⟩, h5⟩ := h
  exact ⟨(at_ok _ _ _ h2 rfl h1).1, (at_ok _ _ _ h2 rfl h1).2, h3, h4, h5⟩

/-- The address forms that the rules tell apart. -/
def lsTier (s : State) (a n : Nat) : Bool :=
  decide (a < 2 ^ 48) && decide (a % n = 0) && isTier a && partReaches s 0 a
def ctxPcAt : Nat := 0x040000000000 + rCTX_PC 0 0
def vtabAt : Nat := 0x040000000000 + rPART_VTABLE 0

set_option maxRecDepth 10000 in
/-- Addresses no register holds, misaligned and out of reach; tier memory poisoned, clean, held in a line, and in a
FREE slot; a controller that is down; registers of the core and of the partition in 8 bytes and in fewer. -/
theorem wit_LoadStoreTier :
    [wLd, wSt].all (fun w =>
      atLs id w 0x1000000000000 (fun _ a _ => decide (2 ^ 48 ≤ a)) &&
      atLs id w 1 (fun _ a n => decide (a < 2 ^ 48) && decide (a % n ≠ 0)) &&
      atLs id w 0 (fun s a n => decide (a < 2 ^ 48) && decide (a % n = 0) && decide (seqReach s 0 0 a = .out))) = true ∧
    (atLs (poison ∘ partOn) wLd8 0 (fun s a n => lsTier s a n && !lineClean s (coreOf s 0).dLines a n) = true ∧
      atLs partOn wLd8 0 (fun s a n => lsTier s a n && lineClean s (coreOf s 0).dLines a n &&
        (openHit s (ownSlots (ctxOf s 0 0)) a n).isEmpty && (lineOf (coreOf s 0).dLines (a / 64)).isNone) = true ∧
      atLs (lineHeld ∘ partOn) wLd8 0 (fun s a n => lsTier s a n && lineClean s (coreOf s 0).dLines a n &&
        (openHit s (ownSlots (ctxOf s 0 0)) a n).isEmpty && (lineOf (coreOf s 0).dLines (a / 64)).isSome) = true ∧
      atLs (freeSlotOn ∘ partOn) wLd8 0 (fun s a n => lsTier s a n && lineClean s (coreOf s 0).dLines a n &&
        !(openHit s (ownSlots (ctxOf s 0 0)) a n).isEmpty) = true) ∧
    (atLs (poison ∘ partOn) wSt8 8 (fun s a n => lsTier s a n && poisonIn s (a / 32 * 32) 32) = true ∧
      atLs (downOn ∘ partOn) wSt8 8 (fun s a n => lsTier s a n && tierDown s a) = true ∧
      atLs partOn wSt8 8 (fun s a n => lsTier s a n && !tierDown s a && !poisonIn s (a / 32 * 32) 32) = true) ∧
    [wLd, wLd8, wSt, wSt8].all (fun w =>
      atLs id w ctxPcAt (fun s a n => decide (a < 2 ^ 48) && decide (a % n = 0) &&
        decide (seqReach s 0 0 a = .coreReg "CTX_PC" [0, 0] (rCTX_PC 0 0))) &&
      atLs id w vtabAt (fun s a n => decide (a < 2 ^ 48) && decide (a % n = 0) &&
        decide (seqReach s 0 0 a = .partReg "PART_VTABLE" [0] (rPART_VTABLE 0)))) = true ∧
    (2 ^ wfld wLd 33 32 ≠ 8 ∧ 2 ^ wfld wLd8 33 32 = 8 ∧ 2 ^ wfld wSt 33 32 ≠ 8 ∧ 2 ^ wfld wSt8 33 32 = 8) := by
  refine ⟨?_, ?_, ?_, ?_, by decide +kernel⟩ <;> decide +kernel

/-! Results worked out by hand from R263–R268. -/

/-- A general register after a command. -/
def gAfter (o : Out) (i : Nat) : Option Word := match o with | .next t => some (gRead (ctxOf t 0 0) i) | _ => none
def pAfter (o : Out) (i : Nat) : Option Bool := match o with | .next t => some (pRead (ctxOf t 0 0) i) | _ => none
def pcAfter (o : Out) : Option Nat := match o with | .next t => some (ctxOf t 0 0).pc.toNat | _ => none
def abortAfter (o : Out) : Option (Nat × Nat) := match o with | .next t => some ((ctxOf t 0 0).abortCode, (ctxOf t 0 0).trapCode) | _ => none
def memAfter (o : Out) (a : Nat) : Option Byte := match o with | .next t => some (memByte t a) | _ => none
/-- Something of the next state. -/
def after {α : Type} (o : Out) (f : State → α) : Option α := match o with | .next t => some (f t) | _ => none

theorem test_add_wraps : gAfter (exec (.alu 0 0 wAdd) (seqS [(1, 0xFFFFFFFFFFFFFFFF), (2, 3)] wAdd)) 3 = some 2 := by decide +kernel
theorem test_sra : gAfter (exec (.alu 0 0 wSra) (seqS [(1, 0x8000000000000000), (2, 68)] wSra)) 3 = some 0xF800000000000000 := by decide +kernel
theorem test_mulh : gAfter (exec (.alu 0 0 wMulh) (seqS [(1, 0xFFFFFFFFFFFFFFFF), (2, 0xFFFFFFFFFFFFFFFF)] wMulh)) 3 = some 0xFFFFFFFFFFFFFFFE := by decide +kernel
theorem test_addi_negative : gAfter (exec (.alui 0 0 wAddi) (seqS [(1, 0)] wAddi)) 3 = some 0xFFFFFFFFFFFFFFFF := by decide +kernel
theorem test_movi_high : gAfter (exec (.movi 0 0 wMovi) (seqS [(3, 0x1111111122222222)] wMovi)) 3 = some 0x0000000522222222 := by decide +kernel
theorem test_cmp_signed : pAfter (exec (.cmp 0 0 wCmp) (seqS [(1, 0xFFFFFFFFFFFFFFFF), (2, 1)] wCmp)) 1 = some true := by decide +kernel
theorem test_cmpi_unsigned : pAfter (exec (.cmp 0 0 wCmpi) (seqS [(1, 0)] wCmpi)) 1 = some false := by decide +kernel
theorem test_pset_andn : pAfter (exec (.pset 0 0 wPset) (seqS [] wPset)) 1 = some true := by decide +kernel
theorem test_br_back : pcAfter (exec (.br 0 0 wBr) (seqS [] wBr)) = some 0xFF8 := by decide +kernel
theorem test_jal_link : gAfter (exec (.jal 0 0 wJal) (seqS [] wJal)) 1 = some 0x1008 ∧ pcAfter (exec (.jal 0 0 wJal) (seqS [] wJal)) = some 0x1010 := by decide +kernel
theorem test_jalr_too_far : abortAfter (exec (.jalr 0 0 wJalr) (seqS [(2, 0x1000000000000)] wJalr)) = some (0x08, 0) := by decide +kernel
theorem test_trap : abortAfter (exec (.trap 0 0 wTrap) (seqS [] wTrap)) = some (0x0C, 7) := by decide +kernel
theorem test_vquery_units : gAfter (exec (.vquery 0 0 (wQuery 2 0)) (seqS [] (wQuery 2 0))) 3 = some 512 := by decide +kernel
/-- LD of 2 bytes, sign-extended. -/
theorem test_ld_half : gAfter (exec (.ld 0 0 wLd) (partOn { seqS [(1, 2)] wLd with mem := memPutBytes (seqS [] wLd).mem 2 [0x01, 0x80] })) 3 =
    some 0xFFFFFFFFFFFF8001 := by decide +kernel
theorem test_st_half : memAfter (exec (.st 0 0 wSt) (partOn (seqS [(1, 6), (2, 0xAABBCCDD)] wSt))) 7 = some 0xCC ∧
    memAfter (exec (.st 0 0 wSt) (partOn (seqS [(1, 6), (2, 0xAABBCCDD)] wSt))) 8 = some 0 := by decide +kernel

/-! ### The frame of every instruction, and the issue stage -/

/-- A word with guard p1, which reads 0. -/
def wGuard : Word := wd 8 [(54, 1), (49, 3), (44, 1), (39, 2)]

/-- The word stands at the PC of context 0 and is to be run, whatever its encoding and guard. -/
theorem at_word (s : State) (k : Ctx) (w : Word) (hk : ctxOf s 0 0 = k) (hp : k.pour = some thePour)
    (h : (seqReady (coreOf s 0) 0 && seqTurn (coreOf s 0) 0 && fetchOk thePour k.pc.toNat 8 &&
      lineClean s (coreOf s 0).iLines k.pc.toNat 8 && decide (fetchWord s 0 k.pc.toNat = w)) = true) :
    AtWord s 0 0 w k thePour := by
  simp only [Bool.and_eq_true, decide_eq_true_eq] at h
  obtain ⟨⟨⟨⟨h1, h2⟩, h3⟩, h4⟩, h5⟩ := h
  exact ⟨⟨by decide, by decide, hk, hp, h1, h2⟩, h3, h4, h5⟩

theorem at_turn (s : State) (k : Ctx) (hk : ctxOf s 0 0 = k) (hp : k.pour = some thePour)
    (h : (seqReady (coreOf s 0) 0 && seqTurn (coreOf s 0) 0) = true) : AtTurn s 0 0 k thePour := by
  simp only [Bool.and_eq_true] at h
  exact ⟨by decide, by decide, hk, hp, h.1, h.2⟩

theorem wit_FalseGuardIsNop : instrWord (.alu 0 0 wGuard) = some (0, 0, wGuard, true) ∧
    AtWord (seqS [] wGuard) 0 0 wGuard (runC []) thePour ∧ encodingOk wGuard = true ∧
    pRead (runC []) (wPG wGuard) = wPN wGuard :=
  ⟨by decide +kernel, at_word _ _ _ rfl rfl (by decide +kernel), by decide +kernel, by decide +kernel⟩

theorem test_guard_false : gAfter (exec (.alu 0 0 wGuard) (seqS [(1, 5), (3, 9)] wGuard)) 3 = some 9 ∧
    pcAfter (exec (.alu 0 0 wGuard) (seqS [] wGuard)) = some 0x1008 := by decide +kernel

/-- PC just past the code binding, a poisoned word, an unused opcode, and URESUME outside a kernel. -/
def pastK : Ctx := { runC [] with pc := 0x1200 }
def wBad : Word := wd 7 []
def wUres : Word := wd 5 []

theorem wit_BadWordsAbort :
    (instrWord (.nop 0 0 0) = some (0, 0, 0, true) ∧ AtTurn (coreS (ctxK pastK) 0) 0 0 pastK thePour ∧
      Canon (coreS (ctxK pastK) 0) ∧ fetchOk thePour pastK.pc.toNat 8 = false) ∧
    (let s := { seqS [] 0 with memBad := [(0x200, true)] }
     AtTurn s 0 0 (runC []) thePour ∧ Canon s ∧ fetchOk thePour (runC []).pc.toNat 8 = true ∧
      lineClean s (coreOf s 0).iLines (runC []).pc.toNat 8 = false) ∧
    (AtWord (seqS [] wBad) 0 0 wBad (runC []) thePour ∧ Canon (seqS [] wBad) ∧ encodingOk wBad = false) ∧
    (AtWord (seqS [] wUres) 0 0 wUres (runC []) thePour ∧ Takes (runC []) wUres ∧ Canon (seqS [] wUres) ∧
      decodeOk (runC []) thePour wUres = false ∧ instrWord (.uresume 0 0 wUres) = some (0, 0, wUres, true)) := by
  refine ⟨⟨by decide +kernel, at_turn _ _ rfl rfl (by decide +kernel), by decide +kernel⟩,
    ⟨at_turn _ _ rfl rfl (by decide +kernel), by decide +kernel⟩, ⟨at_word _ _ _ rfl rfl (by decide +kernel), by decide +kernel⟩, ?_⟩
  rw [← and_assoc]; exact ⟨at_ok _ _ _ rfl rfl (by decide +kernel), by decide +kernel⟩

theorem test_unused_opcode : abortAfter (exec (.nop 0 0 wBad) (seqS [] wBad)) = some (0x0B, 0) := by decide +kernel

def wSync (fn tk : Nat) : Word := wd 0x14 [(32, fn), (0, tk)]
def wWait : Word := wd 0x15 []
def wYield : Word := wd 0x16 []
def wDset : Word := wd 0x3B [(48, 5), (43, 1), (38, 2)]
def aQ : QEnt := ⟨wd 0x38 [], 0x1000, [0]⟩
/-- A context with `n` entries waiting. -/
def qC (n : Nat) : Ctx := { runC [] with queue := List.replicate n aQ }

/-- Slots at 0 (token 0, EMPTY) and 64 (token 1, FULL), of one row of 64 bytes. -/
def tdv (tok nt off fmt rows cols pitch : Nat) : BitVec 128 :=
  BitVec.ofNat 128 (tok * 2 ^ 54 + nt * 2 ^ 53 + off * 2 ^ 24 + fmt * 2 ^ 20 +
    ((rows - 1) * 2 ^ 48 + (cols - 1) * 2 ^ 32 + pitch * 2 ^ 8) * 2 ^ 64)

/-- A context with descriptors. -/
def tdC (l : List (Nat × Word)) (ds : List (Nat × BitVec 128)) : Ctx :=
  { runC l with d := ds.foldl (fun v (i, x) => v.setIfInBounds i x) (Vector.replicate 64 0) }

/-- Core 0 runs `w` with descriptors, token 1 FULL and every quad on; `ws` stand from 0x1040. -/
def tdS (k : Ctx) (w : Word) (ws : List Word) : State :=
  let s := coreS { ctxK k with toks := [(1, .full)], spm := [(0, 2), (64, 3)] } w
  { putS [(rSPM_POWER 0, ⟨31, 0⟩, 0xFFFFFFFF)] s with
    mem := memPutBytes s.mem 0x1040 (ws.flatMap (fun w => bytesLE 8 w.toNat)) }

/-- An append (VROT under a conversion block with APPEND at 0x1040) whose page-table entry is not valid. -/
def appC : Ctx := tdC [(1, 0x1040)] [(0, tdv 0 1 0 0 1 2 64), (1, tdv 0 1 64 0 1 2 64), (2, tdv 5 0 128 0 1 2 64)]
def wApp : Word := wd 0x2A [(48, 0), (42, 1), (36, 2), (24, 1)]
def appWs : List Word := [0, 0, BitVec.ofNat 64 (2 ^ 63)]

/-- Does the issue check find, once the slots are ready, an abort? -/
def lates (s : State) (e : QEnt) : Bool :=
  match planOf s 0 0 e with | .go p => planReady (coreOf s 0) p && (p.late s).isSome | .stop _ _ => false

theorem of_lates {s : State} {e : QEnt} (h : lates s e = true) :
    ∃ p, planOf s 0 0 e = .go p ∧ planReady (coreOf s 0) p = true ∧ ∃ code log, p.late s = some (code, log) := by
  unfold lates at h
  split at h
  · next p hp =>
    simp only [Bool.and_eq_true, Option.isSome_iff_exists] at h
    obtain ⟨h1, ⟨⟨code, log⟩, h2⟩⟩ := h
    exact ⟨p, hp, h1, code, log, h2⟩
  · cases h

/-- May the entry issue, with no check of its slots that fails? -/
def free (s : State) (e : QEnt) : Bool :=
  match planOf s 0 0 e with | .go p => planReady (coreOf s 0) p && (p.late s).isNone | .stop _ _ => false

theorem of_free {s : State} {e : QEnt} (h : free s e = true) :
    ∃ p, planOf s 0 0 e = .go p ∧ planReady (coreOf s 0) p = true ∧ p.late s = none := by
  unfold free at h
  split at h
  · next p hp =>
    simp only [Bool.and_eq_true, Option.isNone_iff_eq_none] at h
    exact ⟨p, hp, h.1, h.2⟩
  · cases h

/-- A full queue; one entry below it, another context active, a selection pending; and at the head of the active
context a check that fails, a slot that is not ready, an append that the page table refuses, and a word that issues. -/
theorem wit_TensorWordsIssue :
    (instrWord (.waitall 0 0 wWait) = some (0, 0, wWait, true) ∧ queued wWait = true ∧
      ctxOf (coreS (ctxK (qC 32)) wWait) 0 0 = qC 32 ∧ 32 ≤ (qC 32).queue.length) ∧
    ((AtWord (coreS (ctxK (qC 31)) wWait) 0 0 wWait (qC 31) thePour ∧ Takes (qC 31) wWait) ∧
      decodeOk (qC 31) thePour wWait = true ∧ (qC 31).queue ≠ []) ∧
    ((AtWord (coreS { ctxK (qC 0) with active := 1 } wWait) 0 0 wWait (qC 0) thePour ∧ Takes (qC 0) wWait) ∧
      (coreOf (coreS { ctxK (qC 0) with active := 1 } wWait) 0).active ≠ 0) ∧
    ((AtWord (coreS { ctxK (qC 0) with selecting := true } wWait) 0 0 wWait (qC 0) thePour ∧ Takes (qC 0) wWait) ∧
      (coreOf (coreS { ctxK (qC 0) with selecting := true } wWait) 0).selecting = true) ∧
    (let k := runC [(1, 0xFFFFFFFFFFFFFFFF)]
     (AtWord (seqS [(1, 0xFFFFFFFFFFFFFFFF)] wDset) 0 0 wDset k thePour ∧ Takes k wDset) ∧
     ∃ code log, planOf (placed (seqS [(1, 0xFFFFFFFFFFFFFFFF)] wDset) 0 0 k wDset) 0 0 (entryOf k wDset) = .stop code log) ∧
    ((AtWord (seqS [] (wSync 0 1)) 0 0 (wSync 0 1) (runC []) thePour ∧ Takes (runC []) (wSync 0 1)) ∧
     ∃ p, planOf (placed (seqS [] (wSync 0 1)) 0 0 (runC []) (wSync 0 1)) 0 0 (entryOf (runC []) (wSync 0 1)) = .go p ∧
      planReady (coreOf (placed (seqS [] (wSync 0 1)) 0 0 (runC []) (wSync 0 1)) 0) p = false) ∧
    ((AtWord (tdS appC wApp appWs) 0 0 wApp appC thePour ∧ Takes appC wApp) ∧
     ∃ p, planOf (placed (tdS appC wApp appWs) 0 0 appC wApp) 0 0 (entryOf appC wApp) = .go p ∧
      planReady (coreOf (placed (tdS appC wApp appWs) 0 0 appC wApp) 0) p = true ∧
      ∃ code log, p.late (placed (tdS appC wApp appWs) 0 0 appC wApp) = some (code, log)) ∧
    ((AtWord (seqS [] wWait) 0 0 wWait (runC []) thePour ∧ Takes (runC []) wWait) ∧
     ∃ p, planOf (placed (seqS [] wWait) 0 0 (runC []) wWait) 0 0 (entryOf (runC []) wWait) = .go p ∧
      planReady (coreOf (placed (seqS [] wWait) 0 0 (runC []) wWait) 0) p = true ∧
      p.late (placed (seqS [] wWait) 0 0 (runC []) wWait) = none) := by
  refine ⟨by decide +kernel, ⟨at_ok _ _ _ rfl rfl (by decide +kernel), by decide +kernel⟩,
    ⟨at_ok _ _ _ rfl rfl (by decide +kernel), by decide +kernel⟩, ⟨at_ok _ _ _ rfl rfl (by decide +kernel), by decide +kernel⟩,
    ⟨at_ok _ _ _ rfl rfl (by decide +kernel), of_stops (by decide +kernel)⟩,
    ⟨at_ok _ _ _ rfl rfl (by decide +kernel), of_holds (by decide +kernel)⟩,
    ⟨at_ok _ _ _ rfl rfl (by decide +kernel), of_lates (by decide +kernel)⟩,
    ⟨at_ok _ _ _ rfl rfl (by decide +kernel), of_free (by decide +kernel)⟩⟩

/-- A core whose token 1023 is in state `t`. -/
def tokK (t : Tok) : Core := { ctxK (runC []) with toks := if t = .empty then [] else [(1023, t)] }
def aFlight (x : Nat) : Flight :=
  { ctx := x, op := 0x20, units := [0], accs := [0], fills := [], regions := [], held := none, mode := 0 }

/-- What SyncAndDescriptors asks of the core. -/
def syncCore (k : Core) : Prop :=
  k.active = 0 ∧ k.selecting = false ∧ k.unserved = none ∧ smWf (fun _ => Tok.empty) k.toks = true

/-- The last token of the pour in each state, for each function of TOKSYNC; WAITALL with a flight; YIELD; descriptors
that DSET takes and refuses. -/
theorem wit_SyncAndDescriptors :
    (∀ fn, fn < 3 → ∀ t ∈ [Tok.empty, .full], (AtWord (coreS (tokK t) (wSync fn 1023)) 0 0 (wSync fn 1023) (runC []) thePour ∧
      Takes (runC []) (wSync fn 1023)) ∧ wOp (wSync fn 1023) = 0x14 ∧ wfld (wSync fn 1023) 33 32 = fn ∧
      ownsTok thePour (gRead (runC []) (wRS1 (wSync fn 1023)) + wIMMs (wSync fn 1023)).toNat = true ∧
      tokOf (tokK t) (gRead (runC []) (wRS1 (wSync fn 1023)) + wIMMs (wSync fn 1023)).toNat = t ∧ syncCore (tokK t)) ∧
    ((AtWord (coreS { ctxK (runC []) with flights := [aFlight 0] } wWait) 0 0 wWait (runC []) thePour ∧
      Takes (runC []) wWait) ∧ wOp wWait = 0x15 ∧ syncCore { ctxK (runC []) with flights := [aFlight 0] } ∧ (runC []).queue = []) ∧
    ((AtWord (seqS [] wYield) 0 0 wYield (runC []) thePour ∧ Takes (runC []) wYield) ∧ wOp wYield = 0x16) ∧
    ((AtWord (seqS [] wDset) 0 0 wDset (runC []) thePour ∧ Takes (runC []) wDset) ∧ wOp wDset = 0x3B ∧
      dsetOk (gRead (runC []) (wfld wDset 47 43)) (gRead (runC []) (wfld wDset 42 38)) = true) ∧
    ((AtWord (seqS [(1, 0x100)] wDset) 0 0 wDset (runC [(1, 0x100)]) thePour ∧ Takes (runC [(1, 0x100)]) wDset) ∧
      dsetOk (gRead (runC [(1, 0x100)]) (wfld wDset 47 43)) (gRead (runC [(1, 0x100)]) (wfld wDset 42 38)) = false) := by
  refine ⟨?_, ⟨at_ok _ _ _ rfl rfl (by decide +kernel), by unfold syncCore; decide +kernel⟩,
    ⟨at_ok _ _ _ rfl rfl (by decide +kernel), by decide +kernel⟩, ⟨at_ok _ _ _ rfl rfl (by decide +kernel), by decide +kernel⟩,
    ⟨at_ok _ _ _ rfl rfl (by decide +kernel), by decide +kernel⟩⟩
  intro fn hf t ht
  simp only [List.mem_cons, List.not_mem_nil, or_false] at ht
  interval_cases fn <;> rcases ht with rfl | rfl <;>
    exact ⟨at_ok _ _ _ rfl rfl (by decide +kernel), by unfold syncCore; decide +kernel⟩

def tokAfter (o : Out) (c t : Nat) : Option Tok := match o with | .next s => some (tokOf (coreOf s c) t) | _ => none

/-- RELEASE takes FULL to DRAINING (R270), and waits at any other state. -/
theorem test_release : tokAfter (exec (.toksyncRelease 0 0 (wSync 2 1023)) (coreS (tokK .full) (wSync 2 1023))) 0 1023 = some .draining ∧
    tokAfter (exec (.toksyncRelease 0 0 (wSync 2 1023)) (coreS (tokK .empty) (wSync 2 1023))) 0 1023 = some .empty := by
  decide +kernel

/-- A context whose queue holds one word, and a core whose context 1 has such a queue. -/
def headC (w : Word) : Ctx := { runC [] with queue := [⟨w, 0x1000, [0, 0]⟩] }
def headQ (w : Word) : QEnt := ⟨w, 0x1000, [0, 0]⟩
def headS (w : Word) : State := coreS (ctxK (headC w)) 0
def twoK : Core := { Core.reset with ctxs := [(1, headC wWait)] }
def flightS (l : List Flight) : State := coreS { ctxK (runC []) with flights := l } 0

/-- The word is the live head of the active context, with no selection pending. -/
def isHead (s : State) (e : QEnt) : Prop :=
  queueHead s 0 (coreOf s 0).active = some e ∧ queueLive (ctxOf s 0 (coreOf s 0).active) = true ∧ (coreOf s 0).selecting = false

/-- The issue stage: heads that write a descriptor, fail their check, wait, are refused by their slots, issue and
yield; an empty queue and a pending selection; a cause to switch with a ready context and with none, and no cause. -/
theorem wit_IssueStageEvents :
    (isHead (headS wDset) (headQ wDset) ∧ wOp (headQ wDset).word = 0x3B ∧
      dsetOk (srcOf (headQ wDset) 0) (srcOf (headQ wDset) 1) = true ∧ (coreOf (headS wDset) 0).unserved = none) ∧
    (isHead (coreS (ctxK { headC wDset with queue := [⟨wDset, 0x1000, [0x100, 0]⟩] }) 0) ⟨wDset, 0x1000, [0x100, 0]⟩ ∧ wOp wDset ≠ 0x16 ∧
      ∃ code log, planOf (coreS (ctxK { headC wDset with queue := [⟨wDset, 0x1000, [0x100, 0]⟩] }) 0) 0 0 ⟨wDset, 0x1000, [0x100, 0]⟩ = .stop code log) ∧
    (isHead (headS (wSync 0 1)) (headQ (wSync 0 1)) ∧
      ∃ p, planOf (headS (wSync 0 1)) 0 0 (headQ (wSync 0 1)) = .go p ∧ planReady (coreOf (headS (wSync 0 1)) 0) p = false) ∧
    (let s := placed (tdS appC wApp appWs) 0 0 appC wApp
     isHead s (entryOf appC wApp) ∧ ∃ p, planOf s 0 0 (entryOf appC wApp) = .go p ∧ planReady (coreOf s 0) p = true ∧
      ∃ code log, p.late s = some (code, log)) ∧
    (isHead (headS wWait) (headQ wWait) ∧ ∃ p, planOf (headS wWait) 0 0 (headQ wWait) = .go p ∧
      planReady (coreOf (headS wWait) 0) p = true ∧ p.late (headS wWait) = none) ∧
    (isHead (headS wYield) (headQ wYield) ∧ wOp (headQ wYield).word = 0x16) ∧
    (queueHead State.reset 159 (coreOf State.reset 159).active = none ∧
      (coreOf (coreS { twoK with selecting := true } 0) 0).selecting = true) ∧
    (switchCause (coreS twoK 0) 0 = true ∧ scanFrom (coreS twoK 0) 0 0 = some 1 ∧
      switchCause State.reset 0 = true ∧ scanFrom State.reset 0 0 = none ∧
      switchCause (seqS [] 0) 0 = false ∧ (coreOf (seqS [] 0) 0).selecting = false) := by
  refine ⟨?_, ⟨?_, by decide +kernel, of_stops (by decide +kernel)⟩, ⟨?_, of_holds (by decide +kernel)⟩,
    ⟨?_, of_lates (by decide +kernel)⟩, ⟨?_, of_free (by decide +kernel)⟩, ?_, by decide +kernel, by decide +kernel⟩ <;>
    unfold isHead <;> decide +kernel

/-- Flights that a TENSOR_COMPLETE may take: an array's, WAITALL with an older one of another context, a window, one
that waits at its ports, and none; agents that wait on a slot, of each kind, and one that does not. -/
theorem wit_IssueStageEvents_flights :
    (let s := flightS [aFlight 0]
     (coreOf s 0).flights[0]? = some (aFlight 0) ∧ (aFlight 0).op ≠ 0x2F ∧ (aFlight 0).op ≠ 0x25 ∧ (aFlight 0).held = none) ∧
    (let w : Flight := ⟨0, 0x15, [], [], [], [], none, 0⟩
     let s := flightS [aFlight 1, w]
     (coreOf s 0).flights[1]? = some w ∧ (∀ g ∈ (coreOf s 0).flights.take 1, ∀ u ∈ w.units, u ∉ g.units) ∧
      (∀ g ∈ (coreOf s 0).flights.take 1, g.ctx ≠ w.ctx) ∧ s.ergReqs = []) ∧
    (let w : Flight := ⟨0, 0x25, [0], [0], [1023], [], none, 0⟩
     (coreOf (flightS [w]) 0).flights[0]? = some w ∧ w.op = 0x25 ∧ w.held = none ∧
      smWf (fun _ => Tok.empty) (coreOf (flightS [w]) 0).toks = true) ∧
    (let w : Flight := { aFlight 0 with held := some ⟨aQ, Vector.replicate 64 0, []⟩ }
     (coreOf (flightS [w]) 0).flights[0]? = some w ∧ w.op ≠ 0x2F ∧ w.held = some ⟨aQ, Vector.replicate 64 0, []⟩) ∧
    (coreOf State.reset 159).flights.length ≤ 0 ∧
    (agentWait (headS (wSync 0 1)) 0 (.head 0) = some (0, 0, 0, 1) ∧ beforeCommit (ctxOf (headS (wSync 0 1)) 0 0) = true ∧
      Canon (headS (wSync 0 1))) ∧
    (let s := coreS { ctxK (runC []) with
        streams := [(7, { Stream.reset with owner := some 0, ops := [6 * 2 ^ 27], ring := 1, depth := 1, tok0 := 1023 })]
        toks := [(1023, .full)] } 0
     agentWait s 0 (.stream 7) = some (0, 2, 7, 1023) ∧ beforeCommit (ctxOf s 0 0) = true ∧ Canon s) ∧
    (let s := coreS { ctxK (runC []) with
        gaths := [(1, { Gath.reset with owner := some 0, rows := [3], tok0 := 1023 })]
        toks := [(1023, .full)] } 0
     agentWait s 0 (.gather 1) = some (0, 4, 1, 1023) ∧ beforeCommit (ctxOf s 0 0) = true ∧ Canon s) ∧
    (agentWait State.reset 159 (.head 3) = none ∧ agentWait State.reset 159 (.stream 7) = none ∧ agentWait State.reset 159 (.gather 1) = none) := by
  refine ⟨?_, ?_, ?_, ?_, ?_, ?_, ?_, ?_, ?_⟩ <;> decide +kernel

/-- Under a calendar that serves no port, FILL is in flight with its effect held back (R172). -/
def wFill : Word := wd 0x38 [(50, 0), (44, 0), (32, 2)]
theorem test_held_fill :
    (let s := rput (tdS (tdC [(1, 0x1040), (2, 5)] [(0, tdv 0 0 0 6 1 64 64)]) wFill []) (rSPM_CTRL 0) fSPM_CTRL_DEFAULT 0
     after (exec (.fill 0 0 wFill) s) (fun t =>
      ((coreOf t 0).flights.map (fun f => f.held.isSome), spmByte (coreOf t 0) 0, tokOf (coreOf t 0) 0))) =
      some ([true], 2, .filling) := by decide +kernel

/-! ### Scratchpad, tensor data, Sprue cache, core registers -/

/-- Every condition of Issuable that does not name a plan, and a plan that may issue. -/
def canIssue (s : State) (k : Ctx) (w : Word) : Bool :=
  seqOk s k w && decodeOk k thePour w && k.queue.isEmpty && decide ((coreOf s 0).active = 0) && !(coreOf s 0).selecting &&
  (List.range 15).all (fun p => (List.range 16).all (fun q => portServed s 0 p q)) &&
  (List.range 16).all (fun q => !quadDozes s 0 q && quadOn s 0 q) && (coreOf s 0).flights.isEmpty &&
  (coreOf s 0).unserved.isNone && decide (Canon s) && (coreOf s 0).spmBad.isEmpty &&
  smWf (spmDflt (coreOf s 0)) (coreOf s 0).spm && free (placed s 0 0 k w) (entryOf k w)

theorem issuable_ok (s : State) (k : Ctx) (w : Word) (hk : ctxOf s 0 0 = k) (hp : k.pour = some thePour)
    (h : canIssue s k w = true) : ∃ p, Issuable s 0 0 w k thePour p := by
  simp only [canIssue, Bool.and_eq_true, decide_eq_true_eq, List.all_eq_true, List.mem_range, Bool.not_eq_true',
    List.isEmpty_iff, Option.isNone_iff_eq_none] at h
  obtain ⟨⟨⟨⟨⟨⟨⟨⟨⟨⟨⟨⟨h1, h2⟩, h3⟩, h4⟩, h5⟩, h6⟩, h7⟩, h8⟩, h9⟩, h10⟩, h11⟩, h12⟩, h13⟩ := h
  obtain ⟨p, hp1, hp2, hp3⟩ := of_free h13
  exact ⟨p, (at_ok s k w hk hp h1).1, (at_ok s k w hk hp h1).2, h2, h3, h4, h5,
    ⟨fun p q hp hq => h6 p hp q hq, fun q hq => (h7 q hq).1, by simp [h8], h9⟩, h10, fun q hq => (h7 q hq).2, h11, h12, hp1, hp2, hp3⟩

def opC : Ctx := tdC [(1, 0x1040), (2, 5)] [(0, tdv 0 0 0 6 1 64 64), (1, tdv 1 0 64 6 1 64 64)]
def wCopy : Word := wd 0x38 [(50, 1), (44, 0), (38, 1)]
def wScrub : Word := wd 0x38 [(50, 2), (44, 0)]
def wDown : Word := wd 0x38 [(50, 3), (16, 0x8001)]
def wUp : Word := wd 0x38 [(50, 4), (44, 0), (16, 0x8001)]
def wCal : Word := wd 0x38 [(50, 5), (32, 1), (11, 2)]
def calWs : List Word := 15 :: (List.range 16).map defaultEntry

theorem wit_ScratchpadOperations :
    ((∃ p, Issuable (tdS opC wFill []) 0 0 wFill opC thePour p) ∧ (∃ p, Issuable (tdS opC wCopy []) 0 0 wCopy opC thePour p) ∧
      (∃ p, Issuable (tdS opC wScrub []) 0 0 wScrub opC thePour p) ∧ (∃ p, Issuable (tdS opC wDown []) 0 0 wDown opC thePour p) ∧
      (∃ p, Issuable (tdS opC wUp []) 0 0 wUp opC thePour p) ∧ (∃ p, Issuable (tdS opC wCal calWs) 0 0 wCal opC thePour p)) ∧
    (wOp wFill = 0x38 ∧ wfld wFill 53 50 = 0 ∧ rangeOn (tdS opC wFill []) 0 (tdAt opC (wfld wFill 49 44)).off (opBytes (tdAt opC (wfld wFill 49 44))) = true) ∧
    (wfld wCopy 53 50 = 1 ∧ rangeOn (tdS opC wCopy []) 0 64 64 = true ∧ spmBadIn (coreOf (tdS opC wCopy []) 0) 64 64 = false ∧
      (∀ j ∈ partCodewords 0 64, smGet false (coreOf (tdS opC wCopy []) 0).spmBad j = false)) ∧
    (wfld wScrub 53 50 = 2 ∧ ∀ j, smGet false (coreOf (tdS opC wScrub []) 0).spmBad j = false) ∧
    (wfld wDown 53 50 = 3 ∧ wfld wDown 31 16 ≠ 0 ∧ (tdS opC wDown []).erg.ext.any (fun h => h.cores.contains 0) = false) ∧
    (wfld wUp 53 50 = 4 ∧ wfld wUp 31 16 ≠ 0) ∧ wfld wCal 53 50 = 5 := by
  refine ⟨⟨?_, ?_, ?_, ?_, ?_, ?_⟩, by decide +kernel, by decide +kernel, ⟨by decide +kernel, fun j => rfl⟩, by decide +kernel⟩ <;>
    exact issuable_ok _ _ _ rfl rfl (by decide +kernel)

/-- A scratchpad byte after a command. -/
def spmAfter (o : Out) (a : Nat) : Option Byte := match o with | .next t => some (spmByte (coreOf t 0) a) | _ => none

theorem test_copy : spmAfter (exec (.copy 0 0 wCopy) (tdS opC wCopy [])) 0 = some 3 := by decide +kernel
theorem test_fill : spmAfter (exec (.fill 0 0 wFill) (tdS opC wFill [])) 56 = some 5 := by decide +kernel

/-- Each event of the scratchpad, at the last token, quad, offset and port that it can name. -/
def tokS (t : Tok) : State := coreS (tokK t) 0
/-- Core `c` with registers, and a scratchpad as given. -/
def spmS (l : List (Nat × Fld × Nat)) (k : Core) : State := putS l { State.reset with cores := [(159, k)] }
def extE : ExtHeld := ⟨[159], .down 159 1⟩
/-- The last byte of the scratchpad, through port 14 of core 159, under the default calendar. -/
def lastB : Nat := spmSize - 1
def portQ (mask : Nat) (k : Core) : State := spmS [(rSPM_CTRL 159, fSPM_CTRL_DEFAULT, 1), (rSPM_POWER 159, ⟨31, 0⟩, mask)] k
def dozeS : State := { portQ 0xFFFFFFFF Core.reset with doze := [(quadUnit 159 15, { (dozeOf State.reset (quadUnit 159 15)) with dz := 1 })] }

theorem wit_ScratchpadEvents :
    (Canon (tokS .filling) ∧ smWf (fun _ => Tok.empty) (coreOf (tokS .filling) 0).toks = true ∧
      tokOf (coreOf (tokS .filling) 0) 1023 = .filling ∧ fillBusy (tokS .filling) 0 1023 = false) ∧
    (tokOf (coreOf (tokS .draining) 0) 1023 = .draining ∧ (coreOf (tokS .draining) 0).flights = []) ∧
    coreQuiet (coreOf (seqS [] 0) 0) = false ∧
    (coreQuiet (coreOf State.reset 159) = true ∧ State.reset.erg.ext = []) ∧
    (let s := { spmS [(rSPM_POWER 159, ⟨31, 0⟩, 0xFFFFFFFF)] Core.reset with erg := { Erg.reset with ext := [extE] } }
     coreQuiet (coreOf s 159) = true ∧ s.erg.ext.any (fun h => h.cores.contains 159) = true ∧
      wfld (rd s (rSPM_POWER 159)) 15 0 &&& (0xFFFF - wfld (0xFFFE : Word) 15 0) ≠ 0 ∧ Canon s) ∧
    (coreOf (spmS [] { Core.reset with cal := ⟨[], [], some (1, 0)⟩ }) 159).cal.waiting = some (1, 0) ∧
    (coreOf State.reset 159).cal.waiting = none ∧
    portServed (spmS [(rSPM_CTRL 159, fSPM_CTRL_DEFAULT, 0)] Core.reset) 159 14 (quadOf lastB) = false ∧
    (portServed dozeS 159 14 (quadOf lastB) = true ∧ quadDozes dozeS 159 (quadOf lastB) = true) ∧
    (let s := portQ 0 Core.reset
     portServed s 159 14 (quadOf lastB) = true ∧ quadDozes s 159 (quadOf lastB) = false ∧ quadOn s 159 (quadOf lastB) = false) ∧
    (let s := portQ 0xFFFFFFFF Core.reset
     Canon s ∧ portServed s 159 14 (quadOf lastB) = true ∧ quadDozes s 159 (quadOf lastB) = false ∧ quadOn s 159 (quadOf lastB) = true ∧
      smWf (spmDflt (coreOf s 159)) (coreOf s 159).spm = true ∧
      codeRead (coreOf s 159) lastB 0 = .clean ∧ codeRead (coreOf s 159) lastB 1 = .ce1 0 ∧ codeRead (coreOf s 159) lastB 3 = .ce2 0 1 ∧
      codeRead (coreOf s 159) lastB 7 = .ue) ∧
    codeRead (coreOf (portQ 0xFFFFFFFF { Core.reset with spmBad := [(lastB / 8, true)] }) 159) lastB 0 = .poison ∧
    ((coreOf (spmS [] { Core.reset with scrubbing := true }) 159).scrubbing = true ∧ (spmS [] { Core.reset with scrubbing := true }).erg.ext = []) := by
  refine ⟨?_, ?_, ?_, ?_, ?_, ?_, ?_, ?_, ?_, ?_, ?_, ?_, ?_⟩ <;> decide +kernel

/-! Words on data: one product of INT8 2 by 3 into array 0, and the others at one row or two columns. -/

def mmaC : Ctx := tdC [(1, 1)] [(0, tdv 0 1 0 6 2 1 64), (1, tdv 0 1 64 6 1 2 64)]
/-- One product, in array mode `m`. -/
def wMmaM (m : Nat) : Word := wd 0x20 [(51, m), (47, 1), (41, 0), (35, 1), (7, 1)]
def wMma : Word := wMmaM 0
def vecC : Ctx := tdC [(1, 0x1040)] [(0, tdv 0 1 0 0 1 2 64), (1, tdv 0 1 64 0 1 2 64), (2, tdv 5 0 128 0 1 2 64), (3, tdv 6 0 128 8 1 64 256)]
def wSpill : Word := wd 0x23 [(45, 3)]
def wAccld : Word := wd 0x24 [(45, 3)]
def wVred : Word := wd 0x29 [(48, 0), (42, 1), (36, 2)]
def wVew : Word := wd 0x28 [(48, 0), (42, 1), (36, 2), (24, 1), (18, 1)]
def wVrot : Word := wd 0x2A [(48, 0), (42, 1), (36, 2), (24, 1)]
def wDrain : Word := wd 0x22 [(45, 2), (14, 1)]
/-- The image slot is read: token 6 is FULL. -/
def accC : Ctx := tdC [] [(3, tdv 1 0 64 8 1 64 256)]

/-- ASSAY with a budget of 2^32 − 1 cycles, or of none, on an inbound ring. -/
def asyC (budget : Word) : Ctx := tdC [(1, budget)] []
def wAssay : Word := wd 0x25 [(27, 1)]
def aRec : AssayRec :=
  { src := 1, stamp := 0, m := 1, n := 1, prods := [⟨6, 6, 1, [[2]], [[3]], [], []⟩], biasFmt := 0, bias := [], shift := 0,
    outFmt := 6, rnd := 0, conv := [], out := [[6]], units := 1 }
def asyS (budget : Word) (ring : List AssayRec) : State :=
  modCore (tdS (asyC budget) wAssay []) 0 (fun k => { k with assayRing := ring })
/-- Array 1 under a block-scaled dY is left out of the scaled form: this operand has none. -/
def noScale : Bool := (tdAt mmaC (mmaFields (wMmaM 3)).da).scv

theorem wit_TensorData :
    ((∃ p, Issuable (tdS mmaC wMma []) 0 0 wMma mmaC thePour p) ∧ (∃ p, Issuable (tdS mmaC (wMmaM 1) []) 0 0 (wMmaM 1) mmaC thePour p) ∧
      (∃ p, Issuable (tdS mmaC (wMmaM 2) []) 0 0 (wMmaM 2) mmaC thePour p) ∧ (∃ p, Issuable (tdS mmaC (wMmaM 3) []) 0 0 (wMmaM 3) mmaC thePour p) ∧
      (∃ p, Issuable (tdS vecC wSpill []) 0 0 wSpill vecC thePour p) ∧ (∃ p, Issuable (tdS accC wAccld []) 0 0 wAccld accC thePour p) ∧
      (∃ p, Issuable (tdS vecC wVred []) 0 0 wVred vecC thePour p) ∧ (∃ p, Issuable (tdS vecC wVew []) 0 0 wVew vecC thePour p) ∧
      (∃ p, Issuable (tdS vecC wVrot []) 0 0 wVrot vecC thePour p) ∧ (∃ p, Issuable (tdS vecC wDrain []) 0 0 wDrain vecC thePour p)) ∧
    ((∃ p, Issuable (asyS 0 []) 0 0 wAssay (asyC 0) thePour p) ∧ (∃ p, Issuable (asyS 0 [aRec]) 0 0 wAssay (asyC 0) thePour p) ∧
      (∃ p, Issuable (asyS 0xFFFFFFFF [aRec]) 0 0 wAssay (asyC 0xFFFFFFFF) thePour p)) ∧
    (∀ m, m < 4 → wOp (wMmaM m) = 0x20 ∧ (mmaFields (wMmaM m)).mode = m ∧ ∀ i ∈ mmaAccs (mmaFields (wMmaM m)),
      (accOf (coreOf (tdS mmaC (wMmaM m) []) 0) i).gen = none ∧
      smWf (fun _ => (0 : W32)) (accOf (coreOf (tdS mmaC (wMmaM m) []) 0) i).vals = true) ∧
    (noScale = false ∧
     wOp wSpill = 0x23 ∧ (accOf (coreOf (tdS vecC wSpill []) 0) 0).badPar = [] ∧ wOp wAccld = 0x24 ∧ wOp wVred = 0x29 ∧ wOp wVew = 0x28 ∧
      wOp wAssay = 0x25 ∧ wfld (gRead (asyC 0) (wfld wAssay 31 27)) 31 0 = 0 ∧ wfld (gRead (asyC 0xFFFFFFFF) (wfld wAssay 31 27)) 31 0 = 0xFFFFFFFF) ∧
    (wOp wVrot = 0x2A ∧ (convBlkOf (blockAt (tdS vecC wVrot []) (gRead vecC (wfld wVrot 28 24)).toNat)).map (fun b => b.append) = some false ∧
      (convBlkOf (blockAt (tdS vecC wVew []) (gRead vecC (wfld wVew 28 24)).toNat)).isSome = true) ∧
    (wOp wDrain = 0x22 ∧ (convBlkOf (blockAt (tdS vecC wDrain []) (gRead vecC (wfld wDrain 18 14)).toNat)).map (fun b => b.append) = some false ∧
      (accOf (coreOf (tdS vecC wDrain []) 0) 0).badPar = [] ∧ (accOf (coreOf (tdS vecC wDrain []) 0) 0).assay = false) := by
  refine ⟨⟨?_, ?_, ?_, ?_, ?_, ?_, ?_, ?_, ?_, ?_⟩, ⟨?_, ?_, ?_⟩, ?_, by decide +kernel, by decide +kernel, by decide +kernel⟩
  case refine_14 => intro m hm; interval_cases m <;> decide +kernel
  all_goals exact issuable_ok _ _ _ rfl rfl (by decide +kernel)

/-- The record takes more than no cycles, and less than the longest budget. -/
theorem wit_TensorData_budget : 0 < recCycles 0 aRec ∧ recCycles 0 aRec ≤ 0xFFFFFFFF := by
  have h : recCycles 0 aRec = 1 + 146 + (Config.freeWord 0 0).toNat % 2 ^ 31 := rfl
  omega

/-- R73: 2 × 3 in ZERO mode. -/
theorem test_mma : after (exec (.mma 0 0 wMma) (tdS mmaC wMma [])) (fun t => accVal (accOf (coreOf t 0) 0) 0 0) = some 6 := by
  decide +kernel

/-- A line held, one being filled, one neither; BYPASS; a clean and an uncorrectable codeword; fills kept and dropped;
the top line of tier 2. -/
def sprS (k : Sprue) : State := { State.reset with sprue := [(3, k)] }
def topLine : Nat := 0x027FFFFFFF

theorem wit_SprueCache :
    (dieOfCore 159 = 3 ∧ isTier 0x027FFFFFFFFF = true ∧ 0x027FFFFFFFFF / 256 = topLine ∧
      rflag (putS [(rCACHE_CTRL 3, fCACHE_CTRL_BYPASS, 1)] State.reset) (rCACHE_CTRL 3) fCACHE_CTRL_BYPASS = true) ∧
    rflag State.reset (rCACHE_CTRL 3) fCACHE_CTRL_BYPASS = false ∧
    (sprueHas (sprueOf (sprS ⟨[(wayKey topLine 15, topLine)], [], []⟩) 3) topLine = true ∧
      decode80 (encode80 (memWord State.reset (alignDown 0x027FFFFFFFFF 8)) false ^^^ 0) = .clean ∧
      decode80 (encode80 (memWord State.reset (alignDown 0x027FFFFFFFFF 8)) false ^^^ 7) = .ue) ∧
    (sprueHas Sprue.reset topLine = false ∧ Sprue.reset.fills = [] ∧
      (topLine, true, 0) ∈ (sprueOf (sprS ⟨[], [(topLine, true, 0)], []⟩) 3).fills) ∧
    (let s := putS [(rCACHE_WAYS 3 7, fCACHE_WAYS_WAYS, 0x8000)] (sprS ⟨[], [(topLine, true, 7)], []⟩)
     (sprueOf s 3).fills = [(topLine, true, 7)] ∧ memBadIn s (topLine * 256) 256 = false ∧
      bitList 16 (rget s (rCACHE_WAYS 3 7) fCACHE_WAYS_WAYS) ≠ []) ∧
    (sprueOf (sprS ⟨[], [(topLine, false, 7)], []⟩) 3).fills = [(topLine, false, 7)] := by
  refine ⟨?_, ?_, ?_, ?_, ?_, ?_⟩ <;> decide +kernel

/-- A fenced core, and an owned one. -/
theorem wit_CoreRegisterWrites :
    (Canon State.reset ∧ fenceOf State.reset 159 = 0) ∧
    fenceOf (putS [(rFLT_FENCE 4, ⟨63, 62⟩, 2)] State.reset) 159 ≠ 0 ∧
    (let s := regsS [(rPART_CORES 7 2, 0x80000000)] (putS [(rPART_CTRL 7, fPART_CTRL_STATE, 1)] State.reset)
     Canon s ∧ ownerOfCore s 159 = some 7) := by decide +kernel

/-! ### Pours and partitions -/

/-- Words in memory at an address. -/
def memS (l : List (Nat × Word)) (s : State) : State :=
  { s with mem := l.foldl (fun m (a, w) => memPutBytes m a (bytesLE 8 w.toNat)) s.mem }

/-- Core 0's context 0 in a state of the pour `p`. -/
def pourS (st : CtxSt) (p : Pour) : State :=
  coreS (ctxK { Ctx.reset with st := st, pour := some p }) 0

/-- The device is ADOPTED and free to run. -/
def runS (s : State) : State := putS [(rCTL_STATE, fCTL_STATE_STATE, 1), (rCTL_STATE, fCTL_STATE_RUN_HELD, 0)] s

/-- Buffer 3 of partition 0 is single-slot, its slot CURRENT at 0x1000. -/
def bufS (s : State) : State :=
  memS [(192, 0x2000000000000005), (200, 0x0000000300000002), (208, 0x6000000000001000)]
    (putS [(rPART_VCOUNT 0, fPART_VCOUNT_COUNT, 4)] s)

def freshB : Bind := { codeB with held := false, base := 0 }
def freshP : Pour := { thePour with binds := [freshB] }

theorem wit_PourLifecycle :
    (ctxOf (pourS .loading thePour) 0 0).st = .loading ∧ (ctxOf (pourS .loading thePour) 0 0).pour = some thePour ∧
      loadingHeld (pourS .loading thePour) 0 = false ∧
    ctlState (putS [(rCTL_STATE, fCTL_STATE_STATE, 2)] (pourS .loading thePour)) = 2 ∧
    (let s := runS (partOn (pourS .loading freshP))
     (ctxOf s 0 0).pour = some freshP ∧ loadingHeld s 0 = false ∧ ctlState s = 1 ∧ partState s 0 = 1 ∧
      (startBinds s 0 freshP freshP.binds).1 = 0x0E) ∧
    (let s := bufS (runS (partOn (pourS .loading freshP)))
     (startBinds s 0 freshP freshP.binds).1 = 0 ∧ (startBinds s 0 freshP freshP.binds).2.1 ≠ [] ∧ Canon s) ∧
    (let s := coreS { ctxK { Ctx.reset with st := .loading, pour := some thePour } with scrubbing := true } 0
     (ctxOf s 0 0).st = .loading ∧ loadingHeld s 0 = true) ∧
    (let s := coreS (ctxK { headC 0 with st := .committing }) 0
     (ctxOf s 0 0).st = .committing ∧ pourBusy s 0 0 = true) ∧
    (let s := pourS .committing thePour
     (ctxOf s 0 0).st = .committing ∧ pourBusy s 0 0 = false) ∧
    (let s := pourS .aborting thePour
     (ctxOf s 0 0).st = .aborting ∧ smWf (fun _ => Tok.empty) (coreOf s 0).toks = true) ∧
    (let s := putS [(rCQ_CFG 0, fCQ_CFG_ENABLE, 1)]
       (coreS (ctxK { Ctx.reset with st := .aborting, stopped := true, pour := some { thePour with binds := [] } }) 0)
     (ctxOf s 0 0).st = .aborting ∧ (ctxOf s 0 0).stopped = true ∧ recordsOff s = false ∧
      rflag s (rCQ_CFG 0) fCQ_CFG_ENABLE = true) ∧
    beforeCommit (runC []) = true := by decide +kernel

def outB : Bind := { codeB with out := true, claimed := true, baseVer := 5, slot := 0 }
/-- A context whose commit request is sent. -/
def askS (p : Pour) : State :=
  coreS (ctxK { Ctx.reset with st := .committing, commitSent := true, pour := some p }) 0

theorem wit_CommitUnitDecides :
    (ctxOf (pourS .committing thePour) 0 0).commitSent = false ∧ (ctxOf (askS thePour) 0 0).commitSent = true ∧
    commitVerdict (askS { thePour with binds := [outB] }) 0 { thePour with binds := [outB] } = .abort 0x10 ∧
    commitVerdict (bufS (partOn (askS { thePour with binds := [{ outB with replayMet := true, fresh := true }], replay := true }))) 0
      { thePour with binds := [{ outB with replayMet := true, fresh := true }], replay := true } = .replayed ∧
    (commitVerdict (askS thePour) 0 thePour = .commit ∧ thePour.notices = [] ∧ commitHeld (askS thePour) 0 0 = none) ∧
    commitHeld { askS thePour with ckpt := { Ckpt.reset with prot := [0] } } 0 0 = some 0 ∧
    (let b : Bind := { outB with fresh := true }
     let p : Pour := { thePour with binds := [b] }
     let s := memS [(192, 0x2000000000000005), (200, 0x0000000300000002), (208, 0x2000000000001000)]
       (putS [(rPART_VCOUNT 0, fPART_VCOUNT_COUNT, 4)] (partOn (askS p)))
     commitVerdict s 0 p = .commit ∧ commitHeld s 0 0 = none ∧ Canon s ∧ b.out = true ∧ b.claimed = true ∧ b.slot < 4) := by
  refine ⟨?_, ?_, ?_, ?_, ?_, ?_, ?_⟩ <;> decide +kernel

/-- Partition 0 may dispatch the command at ring position `h`. -/
def ringS (h : Nat) (cmds : KMap CmdOut) (l : List (Nat × Word)) : State :=
  let s := regsS [(rPART_CORES 0 0, 1)] (putS [(rRING_TAIL 0, fRING_TAIL_TAIL, h + 1)] (runS (partOn State.reset)))
  memS l { s with parts := [(0, { Part.reset with head := h, cmds := cmds })] }

def runW : List (Nat × Word) := [(0, 0x1000000000000000), (8, 0x400)]
/-- A pour descriptor at 0x400 with one binding at 0x800 and links `w5`. -/
def descW (w5 : Word) : List (Nat × Word) := [(0x400, 0x0000200000000000), (0x420, 0x800), (0x428, w5)]
/-- A BARRIER at ring position 1, after one command of one pour. -/
def barS (o : POut) (w2 : Word) : State := ringS 1 [(0, ⟨1, [(0, o)]⟩)] [(64, 0x2000000000000000), (80, w2)]

/-- Partition 0 may dispatch the entry at its head, which reads without error. -/
def headOk (s : State) : Bool := mayDispatch s 0 && !memBadIn s (entryAddr s 0 (partOf s 0).head) 64
def headE (s : State) : Entry := readEntry s (entryAddr s 0 (partOf s 0).head)
def headD (s : State) : PDesc := readPDesc s 0 0 0 0x400
/-- The descriptor of a RUN_POURS entry at position 0 reads without error. -/
def descOk (s : State) : Bool :=
  headOk s && !entryBad (headE s) && decide ((headE s).kind = 1) && decide ((headE s).list = 0x400) &&
  partReachesRange s 0 0x400 128 && !memBadIn s 0x400 128 && !memBadIn s (headD s).bindings (16 * min (headD s).nbind 64)

theorem wit_DispatcherRules :
    (Canon State.reset ∧ mayDispatch State.reset 7 = false) ∧
    (mayDispatch { ringS 0 [] [] with memBad := [(0, true)] } 0 = true ∧ memBadIn { ringS 0 [] [] with memBad := [(0, true)] } 0 64 = true) ∧
    (headOk (ringS 0 [] []) = true ∧ entryBad (headE (ringS 0 [] [])) = true) ∧
    (headOk (ringS 0 [] runW) = true ∧ entryBad (headE (ringS 0 [] runW)) = false ∧ (headE (ringS 0 [] runW)).kind = 1) ∧
    (headOk (barS .aborted 0) = true ∧ entryBad (headE (barS .aborted 0)) = false ∧ (headE (barS .aborted 0)).kind = 2 ∧
      barrierWait (partOf (barS .aborted 0) 0) 1 = .failed) ∧
    (headOk (barS .resident 0) = true ∧ barrierWait (partOf (barS .resident 0) 0) 1 = .waiting) ∧
    (barrierWait (partOf (barS .committed 0x8000000000000001) 0) 1 = .met ∧
      counterMet (barS .committed 0x8000000000000001) 0 (headE (barS .committed 0x8000000000000001)) = false) ∧
    (barrierWait (partOf (barS .committed 0) 0) 1 = .met ∧ counterMet (barS .committed 0) 0 (headE (barS .committed 0)) = true) ∧
    (descOk (ringS 0 [] runW) = true ∧ pdescBad (ringS 0 [] runW) 0 (headD (ringS 0 [] runW)) = true) ∧
    (let s := putS [(rFLT_FENCE 0, ⟨1, 0⟩, 1)] (ringS 0 [] (runW ++ descW 0))
     descOk s = true ∧ pdescBad s 0 (headD s) = false ∧ fenceOf s (headD s).core ≠ 0) ∧
    (let l := [(64, 0x1000000000000000), (72, 0x400)] ++ descW 0x80010000
     let s := ringS 1 [(0, ⟨1, [(0, .aborted)]⟩)] l
     let d := readPDesc s 0 1 0 0x400
     headOk s = true ∧ pdescBad s 0 d = false ∧ fenceOf s d.core = 0 ∧
      (d.links.map (linkWait (partOf s 0) 1)).foldl Wait.and .met = .failed) ∧
    (let s := ringS 0 [] (runW ++ descW 0)
     descOk s = true ∧ pdescBad s 0 (headD s) = false ∧ fenceOf s (headD s).core = 0 ∧ (headD s).links = [] ∧
      (coreOf s (headD s).core).scrubbing = false ∧
      counterMet s 0 (headE s) = true ∧ (List.range 4).all (fun x => decide ((ctxOf s (headD s).core x).pour = none)) = true ∧
      (ctxOf s (headD s).core (headD s).ctx).st = .idle ∧ recUsed s 0 < recRingSize s 0) ∧
    (let s := modCore (ringS 0 [] (runW ++ descW 0)) 0 (fun k => { k with scrubbing := true })
     descOk s = true ∧ pdescBad s 0 (headD s) = false ∧ fenceOf s (headD s).core = 0 ∧ (headD s).links = [] ∧
      (coreOf s (headD s).core).scrubbing = true) := by
  refine ⟨?_, ?_, ?_, ?_, ?_, ?_, ?_, ?_, ?_, ?_, ?_, ?_, ?_⟩ <;> decide +kernel

/-- What activation needs of partition 7. -/
def actS : State :=
  regsS [(rPART_CORES 7 2, 0x80000000), (rPART_STACKS 7, 0x00000000FF800000)]
    (putS [(rCQ_CFG 7, fCQ_CFG_ENABLE, 1), (rCQ_CFG 7, fCQ_CFG_BASE, 0x020000000000 / 64)] State.reset)
def onS : State := putS [(rPART_CTRL 7, fPART_CTRL_STATE, 1)] actS

theorem wit_PartitionLifecycle :
    (Canon actS ∧ wbit 1 0 = true ∧ partState actS 7 = 0 ∧ activateOk actS 7 = true) ∧
    (partState State.reset 7 = 0 ∧ activateOk State.reset 7 = false) ∧
    (wbit 2 1 = true ∧ partState onS 7 = 1) ∧
    (let s := putS [(rPART_CTRL 7, fPART_CTRL_STATE, 2)] actS
     partState s 7 = 2 ∧ (poursOf s 7).isEmpty = true ∧ quoteWaits s 7 = false) ∧
    (wbit 4 2 = true ∧ rflag (putS [(rRING_STATUS 7, fRING_STATUS_HALTED, 1)] onS) (rRING_STATUS 7) fRING_STATUS_HALTED = true) ∧
    ((wfld 32 31 0 + 2 ^ 32 - (partOf onS 7).head % 2 ^ 32) % 2 ^ 32 ≤ ringSize onS 7 ∧
      (wfld 32 31 0 + 2 ^ 32 - ringTail onS 7) % 2 ^ 32 < 2 ^ 31) ∧
    ¬ ((wfld 33 31 0 + 2 ^ 32 - (partOf onS 7).head % 2 ^ 32) % 2 ^ 32 ≤ ringSize onS 7 ∧
      (wfld 33 31 0 + 2 ^ 32 - ringTail onS 7) % 2 ^ 32 < 2 ^ 31) ∧
    (let r : TierReq := { agent := .core 0 0, data := none, add := none, bad := false, part := 7, addr := 0 }
     let s := { State.reset with metered := [(0, r)] }
     Canon s ∧ s.metered = [(0, r)] ∧ s.erg.metered = [] ∧ pathsPass s r.part (tierPaths 0 r) = true ∧ wbit (rd s (tuyReg 7 0)) 32 = false) ∧
    (State.reset.metered = [] ∧ State.reset.erg.metered = []) ∧
    wbit (rd State.reset (tuyReg 7 21)) 32 = false ∧ wbit (rd (regsS [(tuyReg 7 21, 0x100000000)] State.reset) (tuyReg 7 21)) 32 = true := by
  decide +kernel

/-- The ring of the smallest size: 32 entries are within it, 33 are not (R303, R307). -/
theorem test_tail_reject :
    after (exec (.ringTailWrite 7 33) onS) (fun t => (ringTail t 7, rflag t (rRING_STATUS 7) fRING_STATUS_TAIL_REJECT)) = some (0, true) ∧
    after (exec (.ringTailWrite 7 32) onS) (fun t => (ringTail t 7, rflag t (rRING_STATUS 7) fRING_STATUS_TAIL_REJECT)) = some (32, false) := by
  decide +kernel

def preP : Preempt := { t0 := 0, newpos := 0, cores := [0], killed := 1, committed := 0 }

theorem wit_PreemptionRules :
    (Canon onS ∧ wbit 1 0 = true ∧ partState onS 7 = 1 ∧ rflag onS (rPREEMPT 7) fPREEMPT_BUSY = false ∧
      (wfld 1 63 32 + 2 ^ 32 - (partOf onS 7).head % 2 ^ 32) % 2 ^ 32 ≤
        (ringTail onS 7 + 2 ^ 32 - (partOf onS 7).head % 2 ^ 32) % 2 ^ 32) ∧
    partState State.reset 7 ≠ 1 ∧ (partOf State.reset 7).preempt = none ∧
    (let s := { coreS (ctxK (runC [])) 0 with parts := [(0, { Part.reset with preempt := some preP })] }
     (partOf s 0).preempt = some preP ∧ (ctxOf s 0 0).pour = some thePour ∧ thePour.part = 0 ∧ 0 ∈ preP.cores) ∧
    (let s := { State.reset with parts := [(0, { Part.reset with preempt := some preP })] }
     (partOf s 0).preempt = some preP ∧ (List.range nCores).all (fun c => (List.range 4).all (fun x =>
       decide ((ctxOf s c x).pour = none))) = true) := by decide +kernel

/-! ### Tier controllers and die-to-die links -/

/-- The last controller, in tier 2, and an address of its stack. -/
def endA : Nat := 0x024000003F00
def tierS (t : TCtl) : State := { State.reset with tier := [(31, t)] }
def aReq (data : Option (List Byte)) : TierReq := { addr := endA, data := data, add := none, bad := false, part := 0, agent := .core 0 0 }
def wrReq : TierReq := aReq (some (List.replicate 32 7))
def chS (src : Nat) (q : List TierReq) : State := tierS { TCtl.reset with chans := [(15, { TChan.reset with queues := [(src, q)] })] }
def upS (s : State) : Prop := (tctlOf s 31).faulted = false ∧ (tctlOf s 31).repair = none

/-- A request without credit; one that meets a faulted controller and one under repair; one that joins a full queue,
one behind a held request of its requester and one to a protected page; and in slots an empty queue, a write that is
served, one with a bad codeword, and a read. -/
theorem wit_TierRequestsAndSlots :
    (stackOf endA = some 31 ∧ channelOf endA = 15 ∧ agentOk (aReq none).agent = true ∧ sourceOf 31 (aReq none) = 1 ∧ sourceOf 31 wrReq = 2) ∧
    (let s := putS [(rPART_TUY 0 5, fPART_TUY_ENABLE, 1)] State.reset
     Canon s ∧ ¬ pathsPass s (aReq none).part (tierPaths 31 (aReq none)) = true) ∧
    (let s := tierS { TCtl.reset with faulted := true }
     Canon s ∧ pathsPass s (aReq none).part (tierPaths 31 (aReq none)) = true ∧ (tctlOf s 31).faulted = true) ∧
    ((tctlOf (tierS { TCtl.reset with repair := some (15, 0, 0) }) 31).repair.isSome = true) ∧
    ((aReq none).agent = .core 0 0 ∧ beforeCommit (ctxOf { seqS [] 0 with tier := [(31, { TCtl.reset with faulted := true })] } 0 0) = true) ∧
    (let s := chS 1 (List.replicate 32 (aReq none))
     Canon s ∧ upS s ∧ pathsPass s (aReq none).part (tierPaths 31 (aReq none)) = true ∧ (tctlOf s 31).held = [] ∧
      ((aReq none).data.isSome && ckptProtected s endA) = false) ∧
    (let s := tierS { TCtl.reset with held := [(15, 2, wrReq)] }
     upS s ∧ ∃ h ∈ (tctlOf s 31).held, h.2.2.agent = (aReq none).agent) ∧
    (let s := { State.reset with ckpt := { Ckpt.reset with prot := [pageOf endA] } }
     upS s ∧ (wrReq.data.isSome && ckptProtected s endA) = true ∧ ((aReq none).data.isSome && ckptProtected s endA) = false) ∧
    (let s := putS [(rTIER_CAL_CTRL 31, fTIER_CAL_CTRL_ACTIVE, 1)] State.reset
     15 < ctlChans 31 ∧ dozeOf s (chanUnit 31 15) = DozeUnit.reset ∧ chanEntry s 31 15 % 16 ≠ 15 ∧
      kGet [] (chanOf (tctlOf s 31) 15).queues (chanEntry s 31 15 % 16) = []) ∧
    (let s := chS 2 [wrReq]
     upS s ∧ calActive s 31 = 0 ∧ dozeOf s (chanUnit 31 15) = DozeUnit.reset ∧ bankOf endA ∉ [bankOf endA + 1] ∧
      chanOf (tctlOf s 31) 15 = { TChan.reset with queues := [(2, [wrReq])] } ∧
      wrReq.data = some (List.replicate 32 7) ∧ wrReq.add = none ∧ partialWrite wrReq = false ∧ wrReq.bad = false) ∧
    (let r := { wrReq with bad := true }
     chanOf (tctlOf (chS 2 [r]) 31) 15 = { TChan.reset with queues := [(2, [r])] } ∧ r.data.isSome = true ∧ r.bad = true) ∧
    (chanOf (tctlOf (chS 1 [aReq none]) 31) 15 = { TChan.reset with queues := [(1, [aReq none])] } ∧ (aReq none).data = none) := by
  refine ⟨?_, ?_, ?_, ?_, ?_, ?_, ?_, ?_, ?_, ?_, ?_, ?_⟩ <;> (try unfold upS) <;> decide +kernel

/-- A slot that serves a write of 32 bytes (R204). -/
theorem test_tier_slot : memAfter (exec (.tierSlot 31 15 [] 0) (chS 2 [wrReq])) (endA + 31) = some 7 := by
  decide +kernel

theorem wit_TierCalendarRefreshTemperature :
    (Canon State.reset ∧ wbit 1 1 = false) ∧
    (wbit 2 1 = true ∧ tierCalOk State.reset 31 0 = false) ∧
    (let s := regsS [(rTIER_CAL 31 0 0, 15)] (putS [(rTIER_CAL_LEN 31 0, fTIER_CAL_LEN_F_M1, 0), (rTIER_CAL_CTRL 31, fTIER_CAL_CTRL_ACTIVE, 2)] State.reset)
     Canon s ∧ tierCalOk s 31 0 = true ∧ calActive s 31 = 2) ∧
    (tctlOf State.reset 31).armed = none ∧ (tctlOf (tierS { TCtl.reset with armed := some 2 }) 31).armed = some 2 ∧
    (let s := putS [(rTIER_CAL_CTRL 31, fTIER_CAL_CTRL_ACTIVE, 1)] (tierS { TCtl.reset with chans := [(15, { TChan.reset with debt := 6 })] })
     dozeOf s (chanUnit 31 15) = DozeUnit.reset ∧ calActive s 31 ≠ 0 ∧ (chanOf (tctlOf s 31) 15).debt + 1 < 8) ∧
    (let s := putS [(rTIER_CAL_CTRL 31, fTIER_CAL_CTRL_ACTIVE, 1)] (tierS { TCtl.reset with chans := [(15, { TChan.reset with debt := 7 })] })
     dozeOf s (chanUnit 31 15) = DozeUnit.reset ∧ (if calActive s 31 = 0 then 1 else 8) ≤ min 8 ((chanOf (tctlOf s 31) 15).debt + 1)) ∧
    rget (putS [(rTIER_TEMP 31, fTIER_TEMP_RATE, 1)] State.reset) (rTIER_TEMP 31) fTIER_TEMP_RATE = 1 := by decide +kernel

/-- R209 at 92, 93, 94 and 95 degrees: the rate holds between the thresholds. -/
theorem test_temp_hysteresis :
    after (exec (.stackTempRead 31 93) State.reset) (fun t => rget t (rTIER_TEMP 31) fTIER_TEMP_RATE) = some 1 ∧
    after (exec (.stackTempRead 31 94) (putS [(rTIER_TEMP 31, fTIER_TEMP_RATE, 2)] State.reset)) (fun t => rget t (rTIER_TEMP 31) fTIER_TEMP_RATE) = some 2 := by
  decide +kernel

theorem wit_TierFaultsAndLinks :
    (Canon State.reset ∧ State.reset.pins.thermtrip = false ∧ (tctlOf State.reset 31).faulted = false ∧
      (tctlOf State.reset 31).retraining = false ∧ (tctlOf State.reset 31).repair = none) ∧
    ((tctlOf (tierS { TCtl.reset with retraining := true }) 31).retraining = true ∧
      (tctlOf (tierS { TCtl.reset with retraining := true }) 31).faulted = false) ∧
    (tctlOf (tierS { TCtl.reset with faulted := true }) 31).faulted = true ∧
    (tctlOf (tierS { TCtl.reset with repair := some (15, 63, 0xFFFF) }) 31).repair = some (15, 63, 0xFFFF) ∧
    (kGet 0 { State.reset with d2d := [(37, 7)] }.d2d (2 * 18 + 1) = 7 ∧ kGet 0 { State.reset with d2d := [(37, 8)] }.d2d (2 * 18 + 1) = 8 ∧
      rflag State.reset rFLT_STATE fFLT_STATE_DRAIN = false) := by
  refine ⟨?_, ?_, ?_, ?_, ?_⟩ <;> decide +kernel

/-! ### The Erg fabric -/

/-- Port 11 in a state, with the port's own record. -/
def portS (st : Nat) (e : EPort) : State :=
  putS [(rPORT_STATUS 11, fPORT_STATUS_STATE, st)] { State.reset with erg := { State.reset.erg with ports := [(11, e)] } }
/-- A link with frame `n` to be acknowledged, which has failed `f` times. -/
def sentL (n : Nat) (f : Nat) : Link (BitVec 320) := { (Link.reset : Link (BitVec 320)) with replay := [(n, [])], failSeq := n, fails := f }
def linkS (l : Link (BitVec 320)) : State := portS 2 { EPort.reset with link := l }
/-- Port 11 dozes. -/
def napS : State := { portS 2 EPort.reset with doze := [(3051, { (DozeUnit.reset) with dz := 1 })] }
/-- A packet of class 5 waits at port 11. -/
def waitPkt : Packet :=
  { ty := 0x20, tc := 5, mc := false, dst := 9, src := 5, tag := 0, job := 0, addr := 0, timeLo := 0, token := 0, tokV := false,
    first := false, last := false, srcCore := 0xFF, status := 0, w3 := 0, payload := [] }

/-- A DOWN port; one that trains, with and without a training frame seen; an UP one with a frame outstanding and a
response waiting; one that dozes; calendars armed and not; a node number above the highest. -/
theorem wit_ErgPortStates :
    (Canon (portS 0 EPort.reset) ∧ portState (portS 0 EPort.reset) 11 = 0 ∧
      rflag (portS 0 EPort.reset) (rPORT_CTRL 11) fPORT_CTRL_DISABLE = false) ∧
    (portState (portS 1 { EPort.reset with peer := some (6, 3, true) }) 11 = 1 ∧ 0xFFF < 0x1000 ∧ portWaiting (portS 1 EPort.reset) 11 = []) ∧
    (let s := portS 2 { EPort.reset with link := sentL 511 0, txq := [(5, [waitPkt])] }
     portState s 11 = 2 ∧ portDozes s 11 = false ∧ (eportOf s 11).link.replay ≠ [] ∧
      (∀ k ∈ portWaiting s 11, k.mc = true ∨ isRequest k.ty = false)) ∧
    (portState napS 11 = 2 ∧ portDozes napS 11 = true) ∧
    wbit 1 1 = false ∧ (eportOf (portS 2 { EPort.reset with armed := some 2 }) 11).armed = some 2 ∧
    (eportOf (portS 2 EPort.reset) 11).armed = none ∧ 0x3FFF < wfld 0x4000 15 0 := by
  refine ⟨?_, ?_, ?_, ?_, ?_, ?_, ?_, ?_⟩ <;> decide +kernel

/-- Frames of port 11: with the payload flit that a packet's end waits for, and with a header that fails its check. -/
def pktF : Frame := ⟨frameHead 0 0 511, [0]⟩
def badF : Frame := ⟨frameHead 0 0 511, [1]⟩

theorem wit_ErgLinkLayer :
    (Canon (portS 1 EPort.reset) ∧ portState (portS 1 EPort.reset) 11 = 1 ∧ looped (portS 1 EPort.reset) 11 = false ∧
      frameKind (mkFrame 2 0 0 [trainFlit 6 3 true]) = 2 ∧ frameKind pktF ≠ 2) ∧
    (portState (portS 0 EPort.reset) 11 = 0 ∧ portWaiting (portS 0 EPort.reset) 11 = []) ∧
    (portState napS 11 = 2 ∧ portDozes napS 11 = true ∧ looped napS 11 = false) ∧
    (let s := linkS { sentL 511 0 with retryOwed := true }
     portState s 11 = 2 ∧ portDozes s 11 = false ∧ looped s 11 = false ∧ (eportOf s 11).link.retryOwed = true) ∧
    (let l := (eportOf (linkS { sentL 511 0 with resend := some 511 }) 11).link
     l.retryOwed = false ∧ l.resend = some 511 ∧ l.replay.find? (fun r => r.1 = 511) = some (511, [])) ∧
    (let e := eportOf (portS 2 EPort.reset) 11
     e.link.retryOwed = false ∧ e.link.resend = none ∧ e.link.replay.length < 256 ∧ e.txq = [] ∧ e.carry = none ∧
      e.due = List.replicate 8 0 ∧ e.beaconDue = false) ∧
    (let l := (eportOf (linkS { (Link.reset : Link (BitVec 320)) with replay := List.replicate 256 (0, []), nextSeq := 256 }) 11).link
     l.retryOwed = false ∧ l.resend = none ∧ 256 ≤ l.replay.length) ∧
    (frameKind pktF = 0 ∧ frameSeq pktF = ((eportOf (portS 2 EPort.reset) 11).link.rxLast + 1) % 512 ∧
      readPackets (some (waitPkt, 1)) pktF.flits = (none, [{ waitPkt with payload := List.replicate 4 (0, false) }], true)) ∧
    (frameKind badF = 0 ∧ frameSeq badF = 0 ∧ (readPackets none badF.flits).2.2 = false ∧ frameSeq (mkFrame 0 1 511 []) ≠ 0) ∧
    (let l := (eportOf (linkS (sentL 511 8)) 11).link
     (511, []) ∈ l.replay ∧ l.failSeq = 511 ∧ 8 ≤ l.fails ∧ portWaiting (linkS (sentL 511 8)) 11 = []) ∧
    (let l := (eportOf (linkS (sentL 511 7)) 11).link
     (511, []) ∈ l.replay ∧ l.failSeq = 511 ∧ 0 < l.fails ∧ l.fails < 8) ∧
    (let l := (eportOf (linkS (sentL 511 0)) 11).link
     (511, []) ∈ l.replay ∧ l.fails = 0 ∧ l.replay.all (fun f => decide (f.1 ≠ 0)) = true) ∧
    (fabValid (portS 2 EPort.reset) = false ∧ fabValid (putS [(rFAB_NODE, fFAB_NODE_VALID, 1)] (portS 2 EPort.reset)) = true) := by
  refine ⟨?_, ?_, ?_, ?_, ?_, ?_, ?_, ?_, ?_, ?_, ?_, ?_, ?_⟩ <;> decide +kernel

/-- Node 5, adopted, with partition 7 ACTIVE over every stack and job 3 admitted; node 6 is reached through port 11. -/
def nodeS (l : List ErgReq) : State :=
  let s := regsS [(rPART_STACKS 7, 0xFFFFFFFF), (rFAB_ACC 7, BitVec.ofNat 64 (3 <<< 48 + 0x3FFF <<< 34 + 0x3F)), (rROUTE 6, BitVec.ofNat 64 0xB5AD6B5AD6B)]
    (putS [(rPORT_STATUS 11, fPORT_STATUS_STATE, 2), (rFAB_NODE, fFAB_NODE_NODE, 5), (rFAB_NODE, fFAB_NODE_VALID, 1),
           (rFAB_CTRL, fFAB_CTRL_LIFETIME_US, 1), (rPART_CTRL 7, fPART_CTRL_STATE, 1)] (runS State.reset))
  { s with ergReqs := l }

/-- A packet to node 5 from node 9 of job 3, for the tier-2 line. -/
def aPkt (ty dst : Nat) (w3 : Word) (pay : List (Word × Bool)) : Packet :=
  { ty := ty, tc := 5, mc := false, dst := dst, src := 9, tag := 77, job := 3, addr := 0x020000000000, timeLo := 0, token := 0, tokV := false,
    first := false, last := false, srcCore := 0xFF, status := 0, w3 := w3, payload := pay }
def mcPkt (g : Nat) : Packet := { aPkt 0x0C g 0 [] with mc := true }

theorem wit_PacketsArrive :
    (arrival (.wr 11 (aPkt 0x09 5 0 [])) = some (11, aPkt 0x09 5 0 [], 0x09, true) ∧ portState (portS 1 EPort.reset) 11 ≠ 2) ∧
    (portState (portS 2 EPort.reset) 11 = 2 ∧ fabValid (portS 2 EPort.reset) = false) ∧
    (aPkt 0x09 0xFFFF 0 []).dst = 0xFFFF ∧
    (portState (nodeS []) 11 = 2 ∧ fabValid (nodeS []) = true ∧ aged (nodeS []) { aPkt 0x09 5 0 [] with timeLo := 0xFFFFF000 } = true) ∧
    (aged (nodeS []) (aPkt 0x09 6 0 []) = false ∧ (6 : Nat) ≠ nodeId (nodeS []) ∧ routeOf (nodeS []) 6 5 = some 11) ∧
    (let s := regsS [(rROUTE 8, 0xFFFFFFFFFFFFFFFF)] (nodeS [])
     routeOf s 8 5 = none ∧ (8 : Nat) ≠ nodeId s ∧ portState s 11 = 2 ∧ aged s (aPkt 0x09 8 0 []) = false ∧ isRequest 0x09 = true ∧ isRequest 0x20 = false) ∧
    (aged (nodeS []) (aPkt 0x09 5 0 []) = false ∧ (5 : Nat) = nodeId (nodeS [])) ∧
    (arrival (.rdRsp 11 (aPkt 0x20 5 0 [])) = some (11, aPkt 0x20 5 0 [], 0x20, false) ∧
      reqFor (takeRx (nodeS []) 11 (aPkt 0x20 5 0 [])) (aPkt 0x20 5 0 []) = none) ∧
    (arrival (.mcastWr 11 (mcPkt 0xFFF)) = some (11, mcPkt 0xFFF, 0x0C, true) ∧ (mcPkt 0xFFF).mc = true ∧ mcastLocal (nodeS []) 0xFFF = false ∧
      aged (nodeS []) (mcPkt 0xFFF) = false ∧ mcastLocal (putS [(rMCAST_PORTS 0xFFF, fMCAST_PORTS_LOCAL, 1)] (nodeS [])) 0xFFF = true) := by
  refine ⟨?_, ?_, ?_, ?_, ?_, ?_, ?_, ?_, ?_⟩ <;> decide +kernel

def pay32 (bad : Bool) : List (Word × Bool) := [(1, bad), (2, false), (3, false), (4, false)]
/-- The check of a request passes for partition 7, or answers an error. -/
def passes (ty : Nat) (w3 : Word) (pay : List (Word × Bool)) : Bool :=
  decide (reqCheck (takeRx (nodeS []) 11 (aPkt ty 5 w3 pay)) (aPkt ty 5 w3 pay) = (0, 7))

/-- Group 255: two members, of which this device is the first, one chunk of one binary32 element. -/
def groupS : State :=
  memS [(255 * 64, BitVec.ofNat 64 (2 ^ 63 + 8 * 2 ^ 56 + 7 * 2 ^ 40 + 1)), (255 * 64 + 8, 0x4000), (255 * 64 + 24, 0x8000), (0x4000, 5)] (nodeS [])
def leafPkt : Packet := { aPkt 0x0D 5 0 (pay32 false) with addr := 255 * 2 ^ 39 }

theorem wit_RequestsPerformed :
    (Canon (nodeS []) ∧ portState (nodeS []) 11 = 2 ∧ fabValid (nodeS []) = true ∧ nodeId (nodeS []) = 5) ∧
    (∀ ty w3, aged (nodeS []) { aPkt 0x08 5 8 [] with ty := ty, w3 := w3 } = false) ∧
    (passes 0x08 8 [] = true ∧ tierDown (nodeS []) 0x020000000000 = false ∧ openHit (nodeS []) [] 0x020000000000 256 = [] ∧
      tierDown { nodeS [] with tier := [(24, { TCtl.reset with faulted := true })] } 0x020000000000 = true) ∧
    (passes 0x09 0 (pay32 true) = true ∧ payloadBad (pay32 true) = true ∧ isTier 0x020000000000 = true) ∧
    (passes 0x09 0 (pay32 false) = true ∧ payloadBad (pay32 false) = false ∧
      writeFails (nodeS []) 0x020000000000 (payloadBytes (pay32 false)).length = false) ∧
    passes 0x0C 0 (pay32 false) = true ∧
    (passes 0x0E 0 (pay32 false) = true ∧ (matchGroup (nodeS []) 0x020000000000).toOption.map (fun o => o.isNone) = some true) ∧
    (passes 0x0A 0 (pay32 false) = true ∧ memBadIn (nodeS []) 0x020000000000 32 = false ∧ openHit (nodeS []) [] 0x020000000000 32 = [] ∧
      (pay32 false).length = 4) ∧
    (passes 0x0A 0 (pay32 true) = true ∧ payloadBad (pay32 true) = true) ∧
    passes 0x10 0x07000000 [] = true ∧
    (Canon groupS ∧ portState groupS 11 = 2 ∧ fabValid groupS = true ∧ nodeId groupS = 5 ∧ ctlState groupS ≠ 2 ∧
      bitsOf leafPkt.addr 46 39 = 255 ∧ malformed leafPkt = false ∧ (readGroup groupS 255).valid = true ∧
      memBadIn groupS (groupAddr groupS 255) 64 = false ∧ groupOk groupS (readGroup groupS 255) = true ∧ (readGroup groupS 255).n = 2 ∧
      chunkCount (readGroup groupS 255) = 1 ∧ partState groupS (readGroup groupS 255).part = 1 ∧ jobSrcOk groupS leafPkt 7 = true ∧
      memberNode groupS (readGroup groupS 255) 0 = some 5 ∧ isSelf groupS 5 = true ∧ parentNode 2 0 1 = some (0, 1, 2)) ∧
    (passes 0x11 (wput 0x07000000 31 30 1) [] = true ∧ passes 0x11 (wput 0x07000000 31 30 2) [] = true) ∧
    (reqCheck (takeRx (nodeS []) 11 { aPkt 0x09 5 0 (pay32 false) with job := 4 }) { aPkt 0x09 5 0 (pay32 false) with job := 4 }).1 ≠ 0 := by
  refine ⟨by decide +kernel, fun ty w3 => ?_, by decide +kernel, by decide +kernel, by decide +kernel, by decide +kernel,
    by decide +kernel, by decide +kernel, by decide +kernel, by decide +kernel, by decide +kernel, by decide +kernel, by decide +kernel⟩
  show aged (nodeS []) (aPkt 0x08 5 8 []) = false
  decide +kernel

/-- A request of core 0's pour awaiting node 9, and one of the control node. -/
def myReq (by_ : ReqBy) (mc : Bool) (dst : Nat) (w : List Nat) : ErgReq :=
  { pkt := { aPkt 0x09 dst 0 [] with mc := mc, ty := if mc then 0x0C else 0x09 }, origin := by_, part := 0, core := 0, ctx := 0, wait := w, fill := none,
    spmAt := none, sentAt := 0, sent := mc, xfer := 0 }
def reqS (r : ErgReq) : State := { nodeS [r] with cores := (seqS [] 0).cores }
def pourReqS : State := reqS (myReq .pour false 9 [9])
/-- A read whose 32 bytes fill the slot of token 1023, at the end of a powered scratchpad. -/
def rdReq : ErgReq := { myReq .pour false 9 [9] with pkt := aPkt 0x08 9 0 [], fill := some 1023, spmAt := some (0x3FFFE0, 32, 32, 0) }
def rdS : State := putS [(rSPM_POWER 0, ⟨31, 0⟩, 0xFFFFFFFF)] { nodeS [rdReq] with cores := (tokS .filling).cores }
def quenchS (expected : Nat) : State :=
  putS [(rFAB_QSTATUS 1, fFAB_QSTATUS_BUSY, 1), (rFAB_QSTATUS 1, fFAB_QSTATUS_EXPECTED, expected)] (nodeS [myReq (.quench 1) false 9 [9]])

/-- The response `k` of type `ty` that arrives answers `r`. -/
def answers (s : State) (ty : Nat) (k : Packet) (r : ErgReq) : Bool :=
  decide (reqFor (takeRx s 11 { k with ty := ty }) { k with ty := ty } = some r) && decide (r.pkt.mc = false) && decide (Canon s) &&
    decide (portState s 11 = 2) && fabValid s && decide (nodeId s = 5)

theorem wit_ResponsesAndTimeouts :
    (arrival (.wrAck 11 (aPkt 0x21 5 0 [])) = some (11, aPkt 0x21 5 0 [], 0x21, false) ∧
      answers pourReqS 0x21 (aPkt 0x21 5 0 []) (myReq .pour false 9 [9]) = true ∧
      answers pourReqS 0x21 { aPkt 0x21 5 0 [] with status := 3 } (myReq .pour false 9 [9]) = true ∧
      beforeCommit (ctxOf pourReqS 0 0) = true ∧ payloadBad [] = false) ∧
    (answers (reqS (myReq (.engine 255) false 9 [9])) 0x21 (aPkt 0x21 5 0 []) (myReq (.engine 255) false 9 [9]) = true ∧
      answers (reqS (myReq (.notice 0 0 0) false 9 [9])) 0x21 (aPkt 0x21 5 0 []) (myReq (.notice 0 0 0) false 9 [9]) = true) ∧
    (answers rdS 0x20 (aPkt 0x20 5 0 (pay32 false)) rdReq = true ∧ smWf (fun _ => Tok.empty) (coreOf rdS 0).toks = true ∧
      smWf (spmDflt (coreOf rdS 0)) (coreOf rdS 0).spm = true ∧ (coreOf rdS 0).spmBad = [] ∧ (payloadBytes (pay32 false)).length = 32 ∧
      rangeServed rdS 0 0xD 0x3FFFE0 32 = true ∧ rangeOn rdS 0 0x3FFFE0 32 = true ∧ rdS.erg.ext = [] ∧
      tokOf (coreOf rdS 0) 1023 = .filling ∧ rdS.ergReqs.erase rdReq = []) ∧
    (let r := myReq (.quench 1) false 9 [9]
     answers (quenchS 2) 0x21 (aPkt 0x21 5 0 []) r = true ∧ rflag (quenchS 2) (rFAB_QSTATUS 1) fFAB_QSTATUS_BUSY = true ∧
      rget (quenchS 2) (rFAB_QSTATUS 1) fFAB_QSTATUS_OK < 0xFFFF ∧
      quenchAcks (quenchS 2) 1 + 1 < rget (quenchS 2) (rFAB_QSTATUS 1) fFAB_QSTATUS_EXPECTED ∧
      rget (quenchS 1) (rFAB_QSTATUS 1) fFAB_QSTATUS_EXPECTED ≤ quenchAcks (quenchS 1) 1 + 1) ∧
    ((nodeS []).ergReqs.all (fun r => decide (r.pkt.tag ≠ 77)) = true) ∧
    pourReqS.ergReqs.find? (fun r => r.pkt.tag = 77) = some (myReq .pour false 9 [9]) ∧
    (let s := { nodeS [myReq .caravan false 9 [9]] with ctl := { State.reset.ctl with fwd := [⟨0, 1, 77, false⟩], ports := [(0, { CPort.reset with open_ := [1] })] } }
     s.ergReqs = [myReq .caravan false 9 [9]] ∧ s.ctl.fwd = [⟨0, 1, 77, false⟩] ∧ 1 ∈ (cportOf s 0).open_) ∧
    (∀ ty, aged (nodeS []) { aPkt 0x08 5 0 [] with ty := ty } = false) := by
  refine ⟨?_, ?_, ?_, ?_, ?_, ?_, ?_, fun ty => ?_⟩
  case refine_8 =>
    show aged (nodeS []) (aPkt 0x08 5 0 []) = false
    decide +kernel
  all_goals decide +kernel

theorem test_request_timeout : abortAfter (exec (.requestTimeout 77) pourReqS) = some (0x14, 0) := by decide +kernel

/-- Two leaves of group 255, whose memory entry reads as one member; the nodes of a group of three. -/
def leaf (a b : Nat) : Chunk := { group := 255, chunk := 0, a := a, b := b, vals := [], flag := false, stamp := 0, since := 0 }
def stageS (l : List Chunk) (n : Nat) : State :=
  let s := regsS [] State.reset
  memS [(groupAddr s 255, BitVec.ofNat 64 (n - 1))] { s with erg := { s.erg with staging := l } }
/-- A multicast write to group 0xFFF, of `n` payload units, awaiting node 9. -/
def mcReq (sent : Bool) (n x : Nat) : ErgReq :=
  { myReq .pour true 0xFFF [9] with sent := sent, xfer := x, pkt := { (myReq .pour true 0xFFF [9]).pkt with payload := List.replicate (4 * n) (0, false) } }
def aDrop : MDrop := ⟨0xFFF, 9, 1, 0, false⟩
def dropS (l : List ErgReq) (d : MDrop) : State := { nodeS l with erg := { Erg.reset with dropped := [d] } }

theorem wit_CollectivesAndMulticast :
    (Canon State.reset ∧ 255 % 2 ≠ 0) ∧ (255 % 2 = 1 ∧ State.reset.erg.staging = []) ∧
    (let s := stageS [leaf 0 1, leaf 1 2] 3
     Canon s ∧ s.erg.staging = [leaf 0 1, leaf 1 2] ∧ parentNode (readGroup s 255).n 0 1 = some (0, 1, 2) ∧
      parentNode (readGroup s 255).n 0 2 = some (0, 2, 3) ∧ memberNode s (readGroup s 255) 0 ≠ none) ∧
    (let s := stageS [leaf 1 2] 2
     s.erg.staging = [leaf 1 2] ∧ ¬ ((leaf 1 2).a = 0 ∧ (leaf 1 2).b = (readGroup s 255).n)) ∧
    (mcastReqs State.reset 0xFFF = [] ∧ (tidyDrops State.reset).erg.dropped = []) ∧
    (let s := dropS [mcReq true 8 1, mcReq false 8 1] aDrop
     (tidyDrops s).erg.dropped.find? (fun d => d.group = 0xFFF && !d.resent) = some aDrop ∧ mcastReqs s 0xFFF = [mcReq true 8 1, mcReq false 8 1] ∧
      (mcReq false 8 1).xfer = aDrop.xfer ∧ (mcReq false 8 1).sent = false) ∧
    (let s := dropS [mcReq true 8 1] aDrop
     (tidyDrops s).erg.dropped.find? (fun d => d.group = 0xFFF && !d.resent) = some aDrop ∧ mcastReqs s 0xFFF = [mcReq true 8 1] ∧ fabValid s = true) ∧
    (tidyDrops (dropS [mcReq true 8 1] { aDrop with resent := true })).erg.dropped = [{ aDrop with resent := true }] ∧
    (let l := mcReq true 60 1
     let n := mcReq false 8 2
     mcastReqs (nodeS [l, n]) 0xFFF = [l, n] ∧ liveWait (nodeS [l, n]) l = [9] ∧
      64 < windowFlits (nodeS [l, n]) 0xFFF + pktFlits n.pkt) ∧
    rflag (putS [(rFAB_QSTATUS 1, fFAB_QSTATUS_BUSY, 1)] State.reset) (rFAB_QSTATUS 1) fFAB_QSTATUS_BUSY = true ∧
    (rflag (nodeS []) (rFAB_QSTATUS 1) fFAB_QSTATUS_BUSY = false ∧ wbit 0x60001 15 = false ∧ wfld 0x60001 31 16 = 6 ∧
      isSelf (nodeS []) 6 = false ∧ routeOf (nodeS []) 6 7 ≠ none) := by
  refine ⟨?_, ?_, ?_, ?_, ?_, ?_, ?_, ?_, ?_, ?_, ?_⟩ <;> decide +kernel

/-! ### Time, the control link and adoption -/

/-- A beacon is due at port 11 of a device with time state `st`. -/
def timeS (st : Nat) (good : Nat) : State :=
  let s := putS [(rTIME_CTRL, fTIME_CTRL_PARENT, 11), (rTIME_CTRL, fTIME_CTRL_STEP_NS, 100), (rTIME_CTRL, fTIME_CTRL_CHILDREN, 0x800),
    (rTIME_STATUS, fTIME_STATUS_STATE, st)] (nodeS [])
  { s with time := { s.time with now := 1000, good := good } }
def beaconP (t : Nat) : Packet := { aPkt 0x12 5 0 [] with addr := t, job := 0 }

/-- Offsets at ±5, ±6, ±STEP and one beyond each, and TIME_SET on both sides of NOW. -/
theorem wit_TimeBaseIsCorrected :
    (Canon (nodeS []) ∧ portState (nodeS []) 11 = 2 ∧ fabValid (nodeS []) = true ∧ rget (nodeS []) rTIME_CTRL fTIME_CTRL_PARENT ≠ 11) ∧
    (Canon (timeS 2 7) ∧ portState (timeS 2 7) 11 = 2 ∧ fabValid (timeS 2 7) = true ∧ rget (timeS 2 7) rTIME_CTRL fTIME_CTRL_PARENT = 11 ∧
      7 ≤ (timeS 2 7).time.good ∧ rget (timeS 2 7) rTIME_CTRL fTIME_CTRL_STEP_NS = 100) ∧
    (beaconOffset (timeS 2 7) 11 1005 = 5 ∧ beaconOffset (timeS 2 7) 11 995 = -5 ∧ beaconOffset (timeS 2 7) 11 1006 = 6 ∧
      beaconOffset (timeS 2 7) 11 994 = -6 ∧ beaconOffset (timeS 2 7) 11 1100 = 100 ∧ beaconOffset (timeS 2 7) 11 900 = -100 ∧
      beaconOffset (timeS 2 7) 11 1101 = 101 ∧ beaconOffset (timeS 2 7) 11 899 = -101) ∧
    (timeState (timeS 2 7) = 2 ∧ wbit (rd (timeS 2 7) rTIME_CTRL) (20 + 11) = true) ∧
    (fabValid State.reset = false ∧ wbit (rd State.reset rTIME_CTRL) (20 + 11) = false ∧ timeState (timeS 1 0) = 1 ∧ isMaster (timeS 1 0) = false) ∧
    (let s := { timeS 2 7 with erg := { Erg.reset with ports := [(11, { EPort.reset with beaconDue := true })] } }
     Canon s ∧ portState s 11 = 2 ∧ portDozes s 11 = false ∧ looped s 11 = false ∧ fabValid s = true ∧ (eportOf s 11).beaconDue = true ∧
      (eportOf s 11).carry = none ∧ (eportOf s 11).link = Link.reset ∧ 7 ≤ slotEntry s 11 ∧ 0 < (eportOf s 11).credit.getD 7 0) ∧
    (timeState (timeS 3 0) = 3 ∧ isMaster (timeS 3 0) = false) ∧
    (timeState (timeS 0 0) = 0 ∧ now (timeS 0 0) < (1001 : Word).toNat ∧ (1000 : Word).toNat ≤ now (timeS 0 0)) := by
  refine ⟨?_, ?_, ?_, ?_, ?_, ?_, ?_, ?_⟩ <;> decide +kernel

/-- A beacon 101 ns ahead of a base whose STEP is 100 ns steps it (R252). -/
theorem test_beacon_step : after (exec (.beacon 11 (beaconP 1101)) (timeS 2 7)) now = some 1101 ∧
    after (exec (.beacon 11 (beaconP 1100)) (timeS 2 7)) now = some 1000 := by decide +kernel

/-- Caravan port `k` in a state, its record, and the port that is active. -/
def carS (k st act : Nat) (e : CPort) : State :=
  putS [(rCTL_PORT k, fCTL_PORT_STATE, st), (rCTL_STATE, fCTL_STATE_ACTIVE_PORT, act)]
    { State.reset with ctl := { State.reset.ctl with ports := [(k, e)] } }
def carL (fails : Nat) : CPort := { CPort.reset with link := { (Link.reset : Link (BitVec 320)) with replay := [(511, [])], failSeq := 511, fails := fails } }

theorem wit_CaravanPortStates :
    (Canon (carS 1 0 0 CPort.reset) ∧ cportState (carS 1 0 0 CPort.reset) 1 = 0 ∧
      rflag (carS 1 0 0 CPort.reset) (rCTL_PORT 1) fCTL_PORT_DISABLE = false) ∧
    cportState (carS 1 1 0 CPort.reset) 1 = 1 ∧
    (cportState (carS 1 2 0 (carL 0)) 1 = 2 ∧ (cportOf (carS 1 2 0 (carL 0)) 1).link.replay ≠ [] ∧ activePort (carS 1 2 0 (carL 0)) ≠ 1 ∧
      wbit 0 3 = false ∧ wbit 0 8 = false) ∧
    activePort (carS 1 2 1 CPort.reset) = 1 ∧
    (activePort (putS [(rCTL_PORT 0, fCTL_PORT_STATE, 2)] (carS 1 2 1 CPort.reset)) = 1 ∧
      cportUp (putS [(rCTL_PORT 0, fCTL_PORT_STATE, 2)] (carS 1 2 1 CPort.reset)) (1 - 1) = true) := by decide +kernel

def aMsg (ty : Nat) (n : Nat) : CMsg :=
  { ty := ty, tag := 7, session := 0, addr := 0, part := 0, status := 0, w3 := 0, payload := List.replicate (4 * n) (0, false), timeLo := 0 }

/-- A frame with the payload unit that a message's end waits for. -/
def carF : Frame := ⟨frameHead 0 0 511, [0]⟩

theorem wit_CaravanLinkLayer :
    (Canon (carS 1 1 0 CPort.reset) ∧ cportState (carS 1 1 0 CPort.reset) 1 ≠ 2) ∧
    (cportState (carS 1 1 0 CPort.reset) 1 = 1 ∧ cportState (carS 1 0 0 CPort.reset) 1 ≠ 1 ∧ cportState (carS 1 0 0 CPort.reset) 1 ≠ 2) ∧
    (let s := carS 1 2 0 { CPort.reset with link := { (Link.reset : Link (BitVec 320)) with retryOwed := true } }
     cportState s 1 = 2 ∧ (cportOf s 1).link.retryOwed = true) ∧
    (let l := (cportOf (carS 1 2 0 { CPort.reset with link := { (carL 0).link with resend := some 511 } }) 1).link
     l.retryOwed = false ∧ l.resend = some 511 ∧ l.replay.find? (fun r => r.1 = 511) = some (511, [])) ∧
    (let e := cportOf (carS 1 2 0 { CPort.reset with txq := [aMsg 0x21 8] }) 1
     e.link.retryOwed = false ∧ e.link.resend = none ∧ e.link.replay.length < 480 ∧ e.txq = [aMsg 0x21 8] ∧ e.carry = none ∧ msgUnits (aMsg 0x21 8) ≤ 16 ∧
      0 = (e.link.rxLast + 1) % 512 ∧ 1 ≠ (e.link.rxLast + 1) % 512) ∧
    (let e := cportOf (carS 1 2 0 CPort.reset) 1
     e.link.retryOwed = false ∧ e.link.resend = none ∧ e.txq = [] ∧ e.carry = none) ∧
    (let l := (cportOf (carS 1 2 0 { CPort.reset with link := { (Link.reset : Link (BitVec 320)) with replay := List.replicate 480 (0, []), nextSeq := 480 } }) 1).link
     l.retryOwed = false ∧ l.resend = none ∧ 480 ≤ l.replay.length) ∧
    (frameKind carF = 0 ∧ frameSeq carF = 0 ∧ readMsgs (some (aMsg 6 0, 1)) carF.flits = (none, [aMsg 6 1], true) ∧ (aMsg 6 1).ty ∈ carTypes) ∧
    (frameKind badF = 0 ∧ frameSeq badF = 0 ∧ (readMsgs none badF.flits).2.2 = false) ∧
    (frameKind (mkFrame 2 0 0 []) ≠ 0 ∧ frameKind (mkFrame 2 0 0 []) ≠ 1 ∧ frameSeq (mkFrame 0 1 511 []) ≠ 0 ∧ frameKind (mkFrame 0 1 511 []) = 0) ∧
    (let e := cportOf (carS 1 2 0 (carL 8)) 1
     (511, []) ∈ e.link.replay ∧ e.link.failSeq = 511 ∧ 8 ≤ e.link.fails ∧ e.link.replay.all (fun f => decide (f.1 ≠ 0)) = true) ∧
    (let e := cportOf (carS 1 2 0 (carL 7)) 1
     (511, []) ∈ e.link.replay ∧ e.link.failSeq = 511 ∧ 0 < e.link.fails ∧ e.link.fails < 8) ∧
    (cportOf (carS 1 2 0 (carL 0)) 1).link.fails = 0 := by
  refine ⟨?_, ?_, ?_, ?_, ?_, ?_, ?_, ?_, ?_, ?_, ?_, ?_, ?_⟩ <;> decide +kernel

/-- Port 1 is UP, session 6 is open, and 64 requests are outstanding where `full`. -/
def sesS (full : Bool) (st : Nat) : State :=
  putS [(rCTL_STATE, fCTL_STATE_STATE, st), (rCTL_SESSION, fCTL_SESSION_SESSION, 6), (rCTL_SESSION, fCTL_SESSION_EPOCH, 3)]
    (carS 1 2 0 { CPort.reset with open_ := if full then List.range 64 else List.range 63 })

theorem wit_SessionRequests_needs :
    (request (sesS false 1) (.heartbeat 1 99 6) = some (1, 99, 0x24, 6, true) ∧ Canon (sesS false 1)) ∧
    cportState State.reset 1 ≠ 2 ∧ (cportState (sesS true 1) 1 = 2 ∧ 64 ≤ outstanding (sesS true 1) 1) ∧
    (outstanding (sesS false 2) 1 < 64 ∧ ctlState (sesS false 2) ≠ 1) ∧
    (outstanding (sesS false 1) 1 < 64 ∧ ctlState (sesS false 1) = 1 ∧ rget (sesS false 1) rCTL_SESSION fCTL_SESSION_SESSION = 6) := by
  decide +kernel

/-- Is a write at an offset refused (R206)? -/
def refusedAt (s : State) (off : Nat) : Option Bool := (regAt off).map (fun (r, ix, o) => regRefused (started s 1 99) r.name ix o)

/-- Registers with and without a row, a calendar store in force and the other one, a tier-2 address at the end of a line, each error of a read, a write of
no unit, and a request of node 6 through port 11. -/
theorem wit_SessionRequests :
    (Canon (sesS false 1) ∧ cportState (sesS false 1) 1 = 2 ∧ outstanding (sesS false 1) 1 < 64 ∧ ctlState (sesS false 1) = 1) ∧
    (regAt rTIME_NOW).isSome = true ∧ regAt 0xFFFFFFF8 = none ∧
    (refusedAt (putS [(rTIER_CAL_CTRL 31, fTIER_CAL_CTRL_ACTIVE, 1)] (sesS false 1)) (rTIER_CAL 31 0 0) = some true ∧
      refusedAt (putS [(rTIER_CAL_CTRL 31, fTIER_CAL_CTRL_ACTIVE, 1)] (sesS false 1)) (rTIER_CAL 31 1 0) = some false) ∧
    (1 ≤ 1 ∧ 0x0200000000E0 % 32 = 0 ∧ 0x0200000000E0 % 256 + 32 * 1 ≤ 256 ∧ isTier 0x0200000000E0 = true ∧ tierDown (sesS false 1) 0x0200000000E0 = false ∧
      openHit (sesS false 1) [] 0x0200000000E0 32 = [] ∧ writeFails (sesS false 1) 0x0200000000E0 32 = false) ∧
    (let s := { sesS false 1 with tier := [(24, { TCtl.reset with faulted := true })] }
     Canon s ∧ tierDown s 0x020000000000 = true ∧ writeFails s 0x020000000000 32 = true) ∧
    (256 < 0x0200000000E0 % 256 + 32 * 2 ∧ isRegSpace 0x040000000000 = true) ∧
    (0 < (pay32 false).length ∧ (pay32 false).length ≤ 32 ∧ (pay32 false).length % 4 = 0 ∧ payloadBad (pay32 false) = false ∧
      0x0200000000E0 % 256 + 8 * (pay32 false).length ≤ 256) ∧
    (let s := putS [(rPORT_STATUS 11, fPORT_STATUS_STATE, 2), (rFAB_NODE, fFAB_NODE_NODE, 5), (rFAB_NODE, fFAB_NODE_VALID, 1)]
       (regsS [(rROUTE 6, BitVec.ofNat 64 0xB5AD6B5AD6B)] (sesS false 1))
     Canon s ∧ cportState s 1 = 2 ∧ ctlState s = 1 ∧ fabValid s = true ∧ (6 : Nat) ≠ nodeId s ∧ routeOf s 6 5 = some 11) := by
  refine ⟨?_, ?_, ?_, ?_, ?_, ?_, ?_, ?_, ?_⟩ <;> decide +kernel

/-- Word 1 of a 32-byte unit, read through the session (R228). -/
theorem test_mem_rd :
    after (exec (.memRd 1 99 6 0 (0xFFFF * 2 ^ 48 + 0x020000000000) 1) (memS [(0x020000000008, 0xABCD)] (sesS false 1)))
      (fun t => ((cportOf t 1).txq.map (fun m => (m.ty, m.tag, m.status, m.payload.map (·.1))))) =
    some [(0x23, 99, 0, [0, 0xABCD, 0, 0])] := by decide +kernel

theorem wit_OrphanTransition :
    (Canon (sesS false 1) ∧ ctlState (sesS false 1) = 1) ∧ ctlState (sesS false 2) ≠ 1 ∧
    (cportState (sesS false 1) 1 = 2 ∧ outstanding (sesS false 1) 1 < 64 ∧ rget (sesS false 1) rCTL_SESSION fCTL_SESSION_SESSION = 6) := by decide +kernel

def aChal (n : Nat) : Challenge := { nonce := 1, quote := List.replicate n 0, expires := 0 }
def adoptS (f : Sec → Sec) : State := { sesS false 2 with sec := f State.reset.sec }

/-- Adoptable and not, the key used up, the log full, and each operand of GET and PUT at its ends. -/
theorem wit_Adoption :
    (Canon (sesS false 1) ∧ cportState (sesS false 1) 1 = 2 ∧ outstanding (sesS false 1) 1 < 64 ∧ adoptable (sesS false 1) = false) ∧
    (adoptable (sesS false 2) = true ∧ keyExhausted (sesS false 2) = false ∧ (sesS false 2).sec.log.length < 256 ∧ (sesS false 2).sec.challenge = none) ∧
    keyExhausted { sesS false 2 with mram := { Mram.shipped with recA := some ⟨keyLimit, 9⟩, recB := none } } = true ∧
    256 ≤ (adoptS (fun c => { c with log := List.replicate 256 ⟨1, 0, 0⟩ })).sec.log.length ∧
    ((adoptS (fun c => { c with challenge := some (aChal 2960) })).sec.challenge = some (aChal 2960) ∧ (aChal 2960).quote.length = 2960 ∧ 86 + 8 ≤ 94 ∧ 94 < 87 + 8 ∧
      tokenOk (adoptS id) (aChal 0) 0 = false) ∧
    (pay32 false ≠ [] ∧ (pay32 false).length % 4 = 0 ∧ 255 + (pay32 false).length / 4 ≤ 256 ∧ 256 < 256 + ((pay32 false).length + 3) / 4 ∧
      smWf (fun _ => (0 : Byte)) (sesS false 2).sec.token = true) := by
  refine ⟨by decide +kernel, by decide +kernel, by decide +kernel, ?_, ⟨rfl, ?_, by decide, by decide, by decide +kernel⟩, by decide +kernel⟩
  · show 256 ≤ (List.replicate 256 _).length; rw [List.length_replicate]
  · show (List.replicate 2960 _).length = 2960; rw [List.length_replicate]

theorem wit_RegisterWrites : Canon State.reset ∧ regAt 0xFFFFFFF8 = none := by decide +kernel

/-! ### Records, trace and faults -/

/-- Record queue 0 is enabled at 0x020000000000 with 64 records' room and holds `k`. -/
def recS (k : RecQ) (used : Nat) : State :=
  putS [(rCQ_CFG 0, fCQ_CFG_ENABLE, 1), (rCQ_CFG 0, fCQ_CFG_BASE, 0x020000000000 / 64), (rCQ_CFG 0, fCQ_CFG_LOG2_SIZE, 6),
    (rCQ_PTR 0, fCQ_PTR_TAIL, used)] (carS 0 2 0 CPort.reset |> fun s => { s with recq := [(0, k)] })
def aRecd (kind : Nat) : Rec := { kind := kind, code := 1, core := 0, ctx := 0, part := 0, pv := true, time := 9, body := [] }

/-- A completion and an event record, a full ring, both answers of a write, and a record to send. -/
theorem wit_RecordQueues :
    (Canon (recS RecQ.reset 0) ∧ (recqOf (recS RecQ.reset 0) 0).waiting = []) ∧
    (let s := recS { RecQ.reset with waiting := [aRecd 1] } 0
     Canon s ∧ (recqOf s 0).inFlight = none ∧ (recqOf s 0).waiting = [aRecd 1] ∧ (aRecd 1).kind ≠ 2) ∧
    (let s := recS { RecQ.reset with waiting := [aRecd 2] } (recRingSize (recS RecQ.reset 0) 0 - 1)
     Canon s ∧ (recqOf s 0).inFlight = none ∧ (recqOf s 0).waiting = [aRecd 2] ∧ (aRecd 2).kind = 2 ∧ recUsed s 0 < recRingSize s 0) ∧
    (let s := recS { RecQ.reset with waiting := [aRecd 2] } (recRingSize (recS RecQ.reset 0) 0)
     Canon s ∧ (recqOf s 0).waiting = [aRecd 2] ∧ recRingSize s 0 ≤ recUsed s 0) ∧
    (let s := recS { RecQ.reset with inFlight := some (List.replicate 8 7, false, 0) } 3
     Canon s ∧ (recqOf s 0).inFlight = some (List.replicate 8 7, false, 0) ∧ (List.replicate 8 (7 : Word)).length = 8 ∧
       isTier (recAddr s 0 3) = true ∧ writeFails s (recAddr s 0 3) 64 = false) ∧
    (let s := recS { RecQ.reset with inFlight := some (List.replicate 8 7, true, 1) } 3
     Canon s ∧ (recqOf s 0).inFlight = some (List.replicate 8 7, true, 1) ∧ (1 : Nat) ≠ 0) ∧
    (let s := recS { RecQ.reset with toSend := [([1], 5)] } 3
     (recqOf s 0).toSend = [([1], 5)] ∧ cportUp s (activePort s) = true ∧ recordsOff s = false) ∧
    (let s := { recS { RecQ.reset with toSend := [([1], 5)] } 3 with regs := [] }
     (recqOf s 0).toSend = [([1], 5)] ∧ cportUp s (activePort s) = false) ∧
    (let s := recS RecQ.reset 3
     (wfld 3 31 0 + 2 ^ 32 - 0) % 2 ^ 32 ≤ (3 + 2 ^ 32 - 0) % 2 ^ 32 ∧ rget s (rCQ_PTR 0) fCQ_PTR_TAIL = 3 ∧
       (3 + 2 ^ 32 - 0) % 2 ^ 32 < (wfld 4 31 0 + 2 ^ 32 - 0) % 2 ^ 32) := by
  refine ⟨?_, ?_, ?_, ?_, ?_, ?_, ?_, ?_, ?_⟩ <;> decide +kernel

/-- HEAD may move up to TAIL and no further (R331). -/
theorem test_cq_head :
    after (exec (.cqPtrHeadWrite 0 3) (recS RecQ.reset 3)) (fun t => rget t (rCQ_PTR 0) fCQ_PTR_HEAD) = some 3 ∧
    after (exec (.cqPtrHeadWrite 0 4) (recS RecQ.reset 3)) (fun t => rget t (rCQ_PTR 0) fCQ_PTR_HEAD) = some 0 := by decide +kernel

/-- The trace ring of 1024 records stands at `base`, with `tail` records written and the FIFO `l`. -/
def trcS (base tail wrap : Nat) (l : List (List Word)) : State :=
  { putS [(rTRC_CTRL, fTRC_CTRL_ENABLE, 1), (rTRC_CTRL, ⟨8, 8⟩, 1), (rTRC_CTRL, fTRC_CTRL_WRAP, wrap), (rTRC_BASE, fTRC_BASE_BASE, base / 4096),
      (rTRC_BASE, fTRC_BASE_LOG2_SIZE, 10), (rTRC_PTR, fTRC_PTR_TAIL, tail)] State.reset with trc := ⟨l, false, false⟩ }
def trR : List Word := [8 * 2 ^ 56, 1, 2, 3]

/-- The FIFO at 4095 and 4096 records, and the ring at 1023 and 1024. -/
theorem wit_TraceRing :
    (Canon State.reset ∧ State.reset.pins.thermtrip = false ∧ traceOn State.reset 8 = false ∧ State.reset.trc.fifo = []) ∧
    (traceOn (trcS 0 0 0 (List.replicate 4095 trR)) 8 = true ∧ (trcS 0 0 0 (List.replicate 4095 trR)).trc.fifo.length < 4096) ∧
    4096 ≤ (trcS 0 0 0 (List.replicate 4096 trR)).trc.fifo.length ∧
    (Canon (trcS 0x020000000000 1023 0 [trR]) ∧ trR.length = 4 ∧ wfld (trR.getD 0 0) 40 0 = 0 ∧
      trcFull (trcS 0x020000000000 1023 0 [trR]) = false ∧ isTier 0x020000000000 = true ∧ writeFails (trcS 0x020000000000 1023 0 [trR]) 0x020000000000 32 = false) ∧
    (trcFull (trcS 0x020000000000 1024 0 [trR]) = true ∧ rflag (trcS 0x020000000000 1024 0 [trR]) rTRC_CTRL fTRC_CTRL_WRAP = false) ∧
    (rflag (trcS 0x020000000000 1024 1 [trR]) rTRC_CTRL fTRC_CTRL_WRAP = true) ∧ isTier 0x800000000000 = false := by
  refine ⟨by decide +kernel, ⟨by decide +kernel, ?_⟩, ?_, by decide +kernel, by decide +kernel, by decide +kernel, by decide +kernel⟩
  · show (List.replicate 4095 trR).length < 4096; simp only [List.length_replicate]; decide
  · show 4096 ≤ (List.replicate 4096 trR).length; simp only [List.length_replicate]; decide

/-- A record that goes to a full ring with WRAP set replaces the oldest one (R470). -/
theorem test_trace_wrap :
    after (exec .traceRecordWrite (trcS 0x020000000000 1024 1 [trR])) (fun t => (rget t rTRC_PTR fTRC_PTR_TAIL, rget t rTRC_PTR fTRC_PTR_HEAD,
      memWord t 0x020000000008)) = some (1025, 1, 1) := by decide +kernel

/-- Cores 8 to 15 are fenced FAULT where `n = 8`, core `c` as `v` says. -/
def fencedS (n v : Nat) : State := (List.range n).foldl (fun s j => setFence s (8 + j) 1) (setFence State.reset 0 v)
/-- The word of FLT_FENCE_0 that leaves the other cores of `fencedS n` as they are. -/
def fenceW (n v : Nat) : Word := BitVec.ofNat 64 (v + ((List.range n).map (fun j => 4 ^ (8 + j))).foldl (· + ·) 0)
def othersSame (n v w : Nat) : Bool :=
  (List.range 32).all (fun d => d == 0 || wfld (fenceW n w) (2 * d + 1) (2 * d) == fenceOf (fencedS n v) d)

theorem same_other (n v w : Nat) (h : othersSame n v w = true) :
    ∀ d, d < nCores → d / 32 = 0 / 32 → d ≠ 0 → wfld (fenceW n w) (2 * (d % 32) + 1) (2 * (d % 32)) = fenceOf (fencedS n v) d := by
  intro d _ hd hne
  have hd' : d < 32 := by omega
  have := List.all_eq_true.mp h d (List.mem_range.mpr hd')
  simp only [Bool.or_eq_true, beq_iff_eq] at this
  rw [Nat.mod_eq_of_lt hd']
  exact this.resolve_left hne

/-- Seven and eight other cores fenced; each field value on each state; the key and its lack. -/
theorem wit_FencesAndDrain :
    (Canon (fencedS 7 0) ∧ (fencedS 7 0).flt.unfencing = [] ∧ othersSame 7 0 1 = true ∧ wfld (fenceW 7 1) 1 0 = 1 ∧ fenceOf (fencedS 7 0) 0 ≠ 1 ∧
      (fencedCores (fencedS 7 0) 1).length < 8) ∧
    (othersSame 8 0 1 = true ∧ wfld (fenceW 8 1) 1 0 = 1 ∧ fenceOf (fencedS 8 0) 0 ≠ 1 ∧ 8 ≤ (fencedCores (fencedS 8 0) 1).length ∧
      rflag (fencedS 8 0) rFLT_STATE fFLT_STATE_DRAIN = false ∧ (fencedS 8 0).pins.thermtrip = false) ∧
    (othersSame 8 0 2 = true ∧ (fencedCores (fencedS 8 0) 1).length ≤ 8 ∧ wfld (fenceW 8 2) 1 0 = 2 ∧ fenceOf (fencedS 8 0) 0 ≠ 2 ∧
      coreQuiet (coreOf (fencedS 8 0) 0) = true) ∧
    coreQuiet (coreOf { fencedS 8 0 with cores := (seqS [] 0).cores } 0) = false ∧
    (othersSame 8 2 0 = true ∧ wfld (fenceW 8 0) 1 0 = 0 ∧ fenceOf (fencedS 8 2) 0 = 2 ∧ (fencedCores (fencedS 8 2) 1).length ≤ 8) ∧
    (othersSame 7 1 0 = true ∧ wfld (fenceW 7 0) 1 0 = 0 ∧ fenceOf (fencedS 7 1) 0 = 1 ∧ (fencedCores (fencedS 7 1) 1).length ≤ 8) ∧
    (let s := { fencedS 0 1 with flt := { (fencedS 0 1).flt with unfencing := [0] } }
     Canon s ∧ 0 ∈ s.flt.unfencing) ∧ (0 ∉ State.reset.flt.unfencing) ∧
    (wfld 0x5A04 15 8 = 0x5A ∧ wbit 0x5A04 2 = true ∧ wbit 0x5A00 2 = false) := by decide +kernel

/-- UNFENCE only ends once the scrub is complete (R356). -/
theorem test_unfence :
    after (exec (.fltFenceWrite 0 0) (fencedS 0 1)) (fun t => (fenceOf t 0, t.flt.unfencing)) = some (1, [0]) := by decide +kernel

/-- Cores 0 and 1 are named; QUEUED, RUNNING and CONTENT as given. -/
def stS (named queued running content rounds : Nat) (st : SelfTest) (f : Nat) : State :=
  let s := putS [(rFLT_ST_CORES 0, ⟨63, 0⟩, named), (rFLT_ST_CTRL, fFLT_ST_CTRL_QUEUED, queued), (rFLT_ST_CTRL, fFLT_ST_CTRL_RUNNING, running),
    (rFLT_ST_CTRL, fFLT_ST_CTRL_CONTENT, content), (rFLT_ST_CTRL, fFLT_ST_CTRL_ROUNDS, rounds)] (setFence (setFence State.reset 0 f) 1 f)
  { s with flt := { s.flt with selfTest := st } }
def stZ : SelfTest := (State.reset).flt.selfTest

/-- A request refused and taken, started and held back, a phase that is not the last and one that is, and rounds
whose spills agree and differ. -/
theorem wit_RuntimeSelfTest :
    (Canon (stS 1 0 0 0 0 stZ 0) ∧ wbit 1 1 = false ∧ wbit 1 5 = false ∧ (stNamed (stS 1 0 0 0 0 stZ 0)).length < 2) ∧
    (stQueued (stS 3 0 0 0 0 stZ 0) = false ∧ stRunning (stS 3 0 0 0 0 stZ 0) = false ∧ 2 ≤ (stNamed (stS 3 0 0 0 0 stZ 0)).length) ∧
    wbit 2 0 = false ∧ (∃ c ∈ stNamed (stS 3 1 0 7 0 stZ 0), fenceOf (stS 3 1 0 7 0 stZ 0) c ≠ 2) ∧
    (stQueued (stS 3 1 0 7 0 stZ 2) = true ∧ (∀ c ∈ stNamed (stS 3 1 0 7 0 stZ 2), fenceOf (stS 3 1 0 7 0 stZ 2) c = 2) ∧
      rget (stS 3 1 0 7 0 stZ 2) rFLT_ST_CTRL fFLT_ST_CTRL_CONTENT ≠ 0) ∧
    stRunning (stS 3 0 1 7 0 ⟨1, 0, []⟩ 2) = true ∧ (1 < 2 ∧ stPhaseFrom 7 2 ≠ 3) ∧ stPhaseFrom 7 3 = 3 ∧
    (let s := stS 3 0 1 7 5 ⟨2, 4, []⟩ 2
     Canon s ∧ stRunning s = true ∧ s.flt.selfTest.phase = 2 ∧ s.flt.selfTest.round < rget s rFLT_ST_CTRL fFLT_ST_CTRL_ROUNDS ∧ stNamed s = [0, 1] ∧
       s.flt.selfTest.failed = []) ∧
    rget (stS 3 0 1 7 5 ⟨2, 5, []⟩ 2) rFLT_ST_CTRL fFLT_ST_CTRL_ROUNDS ≤ 5 ∧
    (stQueued (stS 3 1 0 0 0 stZ 2) = true ∧ (∀ c ∈ stNamed (stS 3 1 0 0 0 stZ 2), fenceOf (stS 3 1 0 0 0 stZ 2) c = 2) ∧
      rget (stS 3 1 0 0 0 stZ 2) rFLT_ST_CTRL fFLT_ST_CTRL_CONTENT = 0) := by
  refine ⟨?_, ?_, ?_, ?_, ?_, ?_, ?_, ?_, ?_, ?_, ?_⟩ <;> decide +kernel

theorem xor_one_ne (b : Byte) : b ^^^ 1 ≠ b := by
  revert b
  decide

/-- Spills that agree, of cores with no fault, and that differ, in the low bit of the first byte of core 0's array 0. -/
theorem wit_RuntimeSelfTest_spills (seed : Word) (n : Nat) :
    (spillsOf (xTile seed n) [] 0 = spillsOf (xTile seed n) [] 1 ∧ (spillsOf (xTile seed n) [] 0).1 = (spillsOf (xTile seed n) [] 0).2) ∧
    spillsOf (xTile seed n) [(0, 0, 0, 1)] 0 ≠ spillsOf (xTile seed n) [(0, 0, 0, 1)] 1 := by
  refine ⟨⟨rfl, rfl⟩, fun h => ?_⟩
  have h1 : (xTile seed n).modify 0 (fun b => b ^^^ 1) = xTile seed n := congrArg Prod.fst h
  have hm : ∃ b, b ∈ xTile seed n := by
    unfold xTile imageBytes
    exact ⟨_, List.mem_flatMap.2 ⟨(0, 0), by decide +kernel, List.mem_cons_self⟩⟩
  rcases hx : xTile seed n with _ | ⟨b, l⟩
  · obtain ⟨b, hb⟩ := hm
    rw [hx] at hb
    cases hb
  · rw [hx] at h1
    have hb : b ^^^ 1 = b := (List.cons.inj h1).1
    exact xor_one_ne b hb

/-- The monitor armed or not, with threshold `th` and hysteresis `hy`. -/
def hmS (armed th hy : Nat) (ev : List (Nat × Nat)) : State :=
  let s := putS [(rFLT_HM_RISK, fFLT_HM_RISK_ARMED, armed), (rFLT_HM_CTRL, fFLT_HM_CTRL_THRESH, th), (rFLT_HM_CTRL, fFLT_HM_CTRL_HYST, hy),
    (rFLT_HM_CTRL, fFLT_HM_CTRL_TREF, 255), (rFLT_HM_W 0, fFLT_HM_W_W, 256)] State.reset
  { s with flt := { s.flt with events := ev } }
def hmRisk (s : State) : Nat := min 255 (min (hmAccum s (rget s rFLT_HM_RISK fFLT_HM_RISK_H)) 0xFFFFFFFF / 256)

/-- RISK equal to THRESH and one below it, and both ways of coming to be armed. -/
theorem wit_MonitorReportsAndDigests :
    (Canon (hmS 1 9 1 [(0, 9)]) ∧ rflag (hmS 1 9 1 [(0, 9)]) rFLT_HM_RISK fFLT_HM_RISK_ARMED = true ∧ 9 ≤ hmRisk (hmS 1 9 1 [(0, 9)]) ∧
      hmRisk (hmS 1 9 1 [(0, 8)]) < 9) ∧
    (rflag (hmS 0 9 1 [(0, 7)]) rFLT_HM_RISK fFLT_HM_RISK_ARMED = false ∧ hmRisk (hmS 0 9 1 [(0, 7)]) < 9 - 1 ∧ ¬ hmRisk (hmS 0 9 1 [(0, 8)]) < 9 - 1 ∧
      hmRisk (hmS 0 1 1 []) = 0) ∧
    (State.reset.pins.thermtrip = false ∧ State.reset.flt.ceRise = []) ∧
    (let s := { State.reset with flt := { State.reset.flt with ceRise := [((0, 0, 1, 0), 3)] } }
     Canon s ∧ s.flt.ceRise = [((0, 0, 1, 0), 3)]) ∧
    ((wfld 0 31 0 + 2 ^ 32 - 0) % 2 ^ 32 ≤ (0 + 2 ^ 32 - 0) % 2 ^ 32 ∧ (0 + 2 ^ 32 - 0) % 2 ^ 32 < (wfld 1 31 0 + 2 ^ 32 - 0) % 2 ^ 32) ∧
    rflag State.reset rFLT_DIG_CTRL fFLT_DIG_CTRL_BUSY = false ∧ rflag (putS [(rFLT_DIG_CTRL, fFLT_DIG_CTRL_BUSY, 1)] State.reset) rFLT_DIG_CTRL fFLT_DIG_CTRL_BUSY = true := by
  decide +kernel

/-- Nine events of weight 1.0 reach THRESH 9 (R353): SECURE is set and the monitor disarms. -/
theorem test_health_monitor :
    after (exec .healthMonitorTick (hmS 1 9 1 [(0, 9)])) (fun t => (rget t rFLT_HM_RISK fFLT_HM_RISK_RISK,
      rflag t rFLT_HM_RISK fFLT_HM_RISK_ARMED, rflag t rFLT_HM_RISK fFLT_HM_RISK_SECURE)) = some (9, false, true) := by decide +kernel

/-! ### Checkpoints and security -/

/-- Partition 0 is ACTIVE over every stack and the engines are in CKPT_CTRL.STATE `st` with `k`. -/
def ckS (st ncopy : Nat) (k : Ckpt) : State :=
  { putS [(rCKPT_CTRL, fCKPT_CTRL_STATE, st), (rCKPT_EPOCH, fCKPT_EPOCH_NCOPY2, ncopy)] (partOn State.reset) with ckpt := k }
/-- An epoch of page 7, in a phase of its copy. -/
def ckP (reading : List (Nat × Nat)) (phase : Nat) : Ckpt := { Ckpt.reset with pages := [7], runs := [0x700000000], prot := [7], reading := reading, phase := phase }

theorem down_none (s : State) (h : s.tier = []) (a : Nat) : tierDown s a = false := by
  unfold tierDown; rw [h]; split <;> rfl

theorem away_none (s : State) (n : Nat) (h : fabValid s = false) (hn : n ≠ 0xFFFF) : storeAway s n := by
  refine ⟨?_, Or.inl h⟩
  simp [isSelf, h, hn]

/-- An epoch refused for its partition, for its list and for its pages, and one that opens; a page that is read, that
does not read, and one that is not in progress; each end of a copy. -/
theorem wit_CheckpointEpoch :
    (Canon State.reset ∧ wbit 1 1 = false ∧ wbit 1 2 = false ∧ wbit 1 3 = false ∧ wbit 1 16 = false ∧ partState State.reset 0 ≠ 1) ∧
    (let s := putS [(rCKPT_LIST, fCKPT_LIST_BASE, 0x020000000000 / 8)] (ckS 0 0 Ckpt.reset)
     Canon s ∧ partState s 0 = 1 ∧ hasPending s 0 = false ∧ (partOf s 0).poisoned = [] ∧ ckptState s = 0 ∧ ckptPart s = 0 ∧ epochRuns s = none) ∧
    (let s := memS [(0, 0xFFFFF)] (ckS 0 0 Ckpt.reset)
     Canon s ∧ partState s 0 = 1 ∧ hasPending s 0 = false ∧ (partOf s 0).poisoned = [] ∧ ckptState s = 0 ∧ ckptPart s = 0 ∧
       epochRuns s = some [0xFFFFF] ∧ listPages s 0 [0xFFFFF] = none) ∧
    (let s := memS [(0, 0x700000001)] (ckS 0 0 Ckpt.reset)
     Canon s ∧ partState s 0 = 1 ∧ hasPending s 0 = false ∧ (partOf s 0).poisoned = [] ∧ ckptState s = 0 ∧ ckptPart s = 0 ∧
       epochRuns s = some [0x700000001] ∧ listPages s 0 [0x700000001] = some [7, 8]) ∧
    storeAway (memS [(0, 0x700000001)] (ckS 0 0 Ckpt.reset)) 0 ∧
    (let s := ckS 1 0 (ckP [] 0)
     Canon s ∧ ckptState s = 1 ∧ bufHeld s 0 < 8 ∧ nextPage s.ckpt 0 = some 0 ∧ nextPage s.ckpt 1 = none) ∧
    (let s := ckS 1 0 (ckP [(0, 0)] 0)
     ckptState s = 1 ∧ (0, 0) ∈ s.ckpt.reading ∧ s.ckpt.imageBad = [] ∧ (∀ j, j < 8192 → tierDown s (7 * pageBytes + 256 * j) = false) ∧
       rget s (rCKPT_DEST 0) fCKPT_DEST_NODE ≠ 0xFFFF ∧ fabValid s = false) ∧
    (let s := ckS 1 0 { ckP [(0, 0)] 0 with imageBad := [(7 * pageBytes / 8, true)] }
     ∃ w ∈ s.ckpt.imageBad, pageOf (8 * w.1) = s.ckpt.pages.getD 0 0) ∧
    (let s := ckS 1 0 (ckP [] 2)
     ckptState s = 1 ∧ s.ckpt.phase = 2 ∧ ckptIdle s = true ∧ rflag s rCKPT_EPOCH fCKPT_EPOCH_NCOPY2 = false) ∧
    (let s := ckS 1 1 (ckP [] 2)
     ckptState s = 1 ∧ s.ckpt.phase = 2 ∧ ckptIdle s = true ∧ rflag s rCKPT_EPOCH fCKPT_EPOCH_NCOPY2 = true ∧
       rget s (rCKPT_DEST 1) fCKPT_DEST_NODE ≠ 0xFFFF ∧ fabValid s = false) ∧
    (let s := ckS 2 1 (ckP [] 1)
     ckptState s = 2 ∧ s.ckpt.phase = 1 ∧ ckptIdle s = true) ∧
    (wbit 2 0 = false ∧ wbit 2 2 = false ∧ wbit 2 3 = false ∧ wbit 2 16 = false) := by
  refine ⟨?_, ?_, ?_, ?_, away_none _ 0 (by decide +kernel) (by decide), ?_, ⟨?_, ?_, ?_, fun j _ => down_none _ rfl _, ?_, ?_⟩, ?_, ?_, ?_, ?_, ?_⟩ <;> decide +kernel

/-- A descriptor of one of partition 0's contexts, its table at 0 with one entry. -/
def vtS : State := putS [(rPART_VCOUNT 0, fPART_VCOUNT_COUNT, 1)]
  (memS [(0, BitVec.ofNat 64 (1 <<< 60 + 1 <<< 58)), (8, 1), (16, BitVec.ofNat 64 (2 <<< 61 + 5 <<< 51 + 0x1000))] (ckS 0 0 Ckpt.reset))
/-- The slot that becomes FREE lies outside the table. -/
theorem vt_apart (b i j : Nat) (hb : b < descAddr vtS 0 1) (hi : i < 1) (hj : j < 4) :
    ¬ (((((readDesc vtS (descAddr vtS 0 i)).slots.getD j VSlot.none).st = 1 ∨ ((readDesc vtS (descAddr vtS 0 i)).slots.getD j VSlot.none).st = 2)) ∧
      ((readDesc vtS (descAddr vtS 0 i)).slots.getD j VSlot.none).base ≤ b) := by
  obtain rfl : i = 0 := by omega
  have ha : descAddr vtS 0 1 = 64 := by decide +kernel
  have hs : ∀ j, j < 4 → ((readDesc vtS (descAddr vtS 0 0)).slots.getD j VSlot.none).base = (if j = 0 then 0x1000 else 0) ∧
      (j ≠ 0 → ((readDesc vtS (descAddr vtS 0 0)).slots.getD j VSlot.none).st = 0) := by decide +kernel
  rintro ⟨h1, h2⟩
  rcases Nat.eq_zero_or_pos j with rfl | h
  · have := (hs 0 hj).1
    simp only [if_true] at this
    omega
  · have := (hs j hj).2 (by omega)
    omega
/-- A fill of no page whose store names the digest of no bytes. -/
def fillK : Ckpt :=
  { Ckpt.reset with phase := 4, buf := [(48, 0x46), (49, 0xB9), (50, 0xDD), (51, 0x2B), (52, 0x0B), (53, 0xA8), (54, 0x8D), (55, 0x13), (56, 0x23),
      (57, 0x3B), (58, 0x3F), (59, 0xEB), (60, 0x74), (61, 0x3E), (62, 0xEB), (63, 0x24), (64, 0x3F), (65, 0xCD), (66, 0x52), (67, 0xEA), (68, 0x62),
      (69, 0xB8), (70, 0x1B), (71, 0x82), (72, 0xB5), (73, 0x0C), (74, 0x27), (75, 0x64), (76, 0x6E), (77, 0xD5), (78, 0x76), (79, 0x2F)] }
def residS : State := { ckS 0 0 Ckpt.reset with cores := (seqS [] 0).cores }

/-- A fill with a resident pour and without; a fill whose digest checks; a table that is repaired. -/
theorem wit_FillAndRepair :
    (Canon residS ∧ wbit 4 0 = false ∧ wbit 4 1 = false ∧ wbit 4 3 = false ∧ wbit 4 16 = false ∧ poursOf residS (ckptPart residS) ≠ []) ∧
    (Canon (ckS 0 0 Ckpt.reset) ∧ ckptState (ckS 0 0 Ckpt.reset) = 0 ∧ poursOf (ckS 0 0 Ckpt.reset) (ckptPart (ckS 0 0 Ckpt.reset)) = [] ∧ ckptReqs (ckS 0 0 Ckpt.reset) = [] ∧
      rget (ckS 0 0 Ckpt.reset) rCKPT_FILL fCKPT_FILL_NODE ≠ 0xFFFF ∧ fabValid (ckS 0 0 Ckpt.reset) = false) ∧
    (let s := ckS 3 0 { Ckpt.reset with phase := 4 }
     Canon s ∧ ckptState s = 3 ∧ s.ckpt.phase = 4 ∧ ckptIdle s = true) ∧
    BitVec.ofNat 256 (bufNat fillK 48 32) = shake256 (bufBytes fillK 0x100000 (32 * fillK.pages.length)) ∧
    BitVec.ofNat 256 (bufNat { fillK with buf := [] } 48 32) ≠ shake256 (bufBytes { fillK with buf := [] } 0x100000 0) ∧
    (wbit 8 0 = false ∧ wbit 8 1 = false ∧ wbit 8 2 = false ∧ wbit 8 16 = false) ∧
    (Canon vtS ∧ poursOf vtS (ckptPart vtS) = [] ∧ 0 < rget vtS (rPART_VCOUNT 0) fPART_VCOUNT_COUNT ∧ (readDesc vtS (descAddr vtS 0 0)).kind = 1 ∧
      isTier (descAddr vtS 0 0) = true ∧ memBadIn vtS (descAddr vtS 0 0) 64 = false ∧ ((readDesc vtS 0).slots.getD 0 VSlot.none).st = 2 ∧
      ckptPart vtS = 0 ∧ descAddr vtS 0 1 = 64 ∧ rget vtS (rPART_VCOUNT 0) fPART_VCOUNT_COUNT = 1) := by
  refine ⟨?_, ?_, ?_, ?_, ?_, ?_, ?_⟩ <;> decide +kernel

/-- The first slot is PENDING with 5 holders; VFIX makes it FREE with none (R377). -/
theorem test_vfix :
    after (exec (.ckptVfix 8) vtS) (fun t => (((readDesc t 0).slots.getD 0 VSlot.none).st, ((readDesc t 0).slots.getD 0 VSlot.none).hold)) = some (0, 0) ∧
    ((readDesc vtS 0).slots.getD 0 VSlot.none).st = 2 := by decide +kernel

def secS (f : Sec → Sec) (m : Mram → Mram) (busy : Nat) : State :=
  { putS [(rSEC_OP, fSEC_OP_BUSY, busy)] (partOn State.reset) with sec := f State.reset.sec, mram := m State.reset.mram }
def logsOf (n : Nat) : List LogEntry := List.replicate n ⟨0x8000, 0, 0⟩
def usedUp (m : Mram) : Mram := { m with recA := some ⟨keyLimit, 9⟩, recB := none }
def keyAt (n : Nat) (m : Mram) : Mram := { m with recA := some ⟨n, 9⟩, recB := some ⟨n - 1, 8⟩ }

/-- Types 0x7FFF and 0x8000, logs at 223 and 224 and at 31 and 32 entries, the key's last index and its end. -/
theorem wit_SecurityRequests :
    (Canon (secS id id 1) ∧ rflag (secS id id 1) rSEC_OP fSEC_OP_BUSY = true) ∧
    (rflag (secS id id 0) rSEC_OP fSEC_OP_BUSY = false ∧ wfld 0x7FFF000000000000 63 48 < 0x8000 ∧ 0x8000 ≤ wfld 0x8000000000000000 63 48) ∧
    (224 ≤ (secS (fun c => { c with log := logsOf 224 }) id 0).sec.log.length ∧ (secS (fun c => { c with log := logsOf 223 }) id 0).sec.log.length < 224) ∧
    (partState State.reset 0 ≠ 1 ∧ partState (secS id id 0) 0 = 1) ∧
    (32 ≤ (plogOf (secS (fun c => { c with plog := [(0, logsOf 32)] }) id 0) 0).length ∧ (plogOf (secS (fun c => { c with plog := [(0, logsOf 31)] }) id 0) 0).length < 32) ∧
    (keyExhausted (secS id usedUp 0) = true ∧ keyExhausted (secS id (keyAt (keyLimit - 1)) 0) = false) ∧
    ((secS (fun c => { c with rngFail := true }) (keyAt 5) 0).sec.rngFail = true ∧ (secS id (keyAt 5) 0).sec.rngFail = false) ∧
    (authFilled (secS id (fun m => { m with auth := [(2, 1)] }) 0) = [2] ∧ authFilled (secS id (fun m => { m with auth := [] }) 0) ≠ [2]) ∧
    (let s := secS (fun c => { c with imageSvn := 4 }) (fun m => { m with minSvn := 3 }) 0
     s.mram.minSvn < wfld 4 31 0 ∧ wfld 4 31 0 ≤ s.sec.imageSvn ∧ wbit 4 32 = false ∧ wbit 4 33 = false ∧ wfld 3 31 0 ≤ s.mram.minSvn ∧
       s.sec.imageSvn < wfld 5 31 0 ∧ wfld 3 31 0 ≠ 0 ∧ wfld 0x100000000 31 0 = 0 ∧ wbit 0x100000000 33 = false) := by
  refine ⟨?_, ?_, ⟨?_, ?_⟩, ?_, ⟨?_, ?_⟩, ?_, ?_, ?_, ?_⟩
  case refine_3 => show 224 ≤ (logsOf 224).length; simp only [logsOf, List.length_replicate]; decide
  case refine_4 => show (logsOf 223).length < 224; simp only [logsOf, List.length_replicate]; decide
  all_goals decide +kernel

def sigS (kind : Nat) (m : Mram → Mram) : State :=
  secS (fun c => { c with signing := [⟨kind, 0, 1, 2, 0, 0, []⟩], hello := [(0, 7)] }) m 1

/-- The index A in use, the index B in use, and none left; `free` values of either outcome are allowed by the statement. -/
theorem wit_SignatureUsesAnIndex :
    (Canon State.reset ∧ State.reset.sec.signing = []) ∧
    (keyExhausted (sigS 2 usedUp) = true ∧ (sigS 2 usedUp).sec.signing ≠ []) ∧
    (newerRec (sigS 1 (keyAt (keyLimit - 1))).mram = some (0, ⟨keyLimit - 1, 9⟩) ∧ keyLimit - 1 < keyLimit ∧ (sigS 1 id).sec.hello = [(0, 7)]) ∧
    newerRec (sigS 3 (fun m => { m with recA := some ⟨4, 1⟩, recB := some ⟨5, 2⟩ })).mram = some (1, ⟨5, 2⟩) := by
  refine ⟨?_, ?_, ?_, ?_⟩ <;> decide +kernel

theorem test_quote_key_end :
    after (exec (.quoteDev 0) (secS id usedUp 0)) (fun t => rget t rSEC_OP fSEC_OP_ERR) = some 4 ∧
    after (exec (.quoteDev 0) (secS id (keyAt 5) 0)) (fun t => (rget t rSEC_OP fSEC_OP_ERR, rflag t rSEC_OP fSEC_OP_BUSY)) = some (0, true) := by decide +kernel

/-! ### Clocks, crossings and doze -/

/-- The CORE domain (PLL 0) of die 0 in a state, its PLL in another, its divider at `div`. -/
def clkS (p : PllRun) (d : DomRun) (div busy : Nat) : State :=
  setDom (setPll (putS [(rCLK_DOM 0 3, fCLK_DOM_DIV, div), (rCLK_DOM 0 3, fCLK_DOM_BUSY, busy)] State.reset) 0 0 p) 0 3 d
/-- A CLK_DOM write: P = 1, N, F. -/
def domW (n f : Nat) : Word := BitVec.ofNat 64 (1 <<< 54 + n <<< 47 + f <<< 31 + 1 <<< 61)

/-- Every state of a PLL and of a domain, both sides of the divider's ends, settings at a limit and past it, and
CLKOUT at 200 MHz and above. -/
theorem wit_ClocksAndRamps :
    (domOfPll 0 0 = some 3 ∧ Canon (clkS .locking .onRef 5 1) ∧ pllRun (clkS .locking .onRef 5 1) 0 0 = .locking) ∧
    (pllRun (clkS .lost .gated 0 0) 0 0 = .lost ∧ (clkS .lost .gated 0 0).pins.thermtrip = false ∧
      rflag (clkS .lost .gated 0 0) rCLK_PLL_ERR fCLK_PLL_ERR_VALID = false) ∧
    (pllRun (clkS .locked .full 0 0) 0 0 = .locked ∧ pllRun (clkS .dead .gated 0 0) 0 0 ≠ .locking ∧ pllRun (clkS .dead .gated 0 0) 0 0 ≠ .lost) ∧
    (domOfPll 6 0 = some 1 ∧ domOfPll 1 1 = some 4 ∧ domOfPll 4 0 = some 6) ∧
    (domRun (clkS .locked .rampDown 3 1) 0 3 = .rampDown ∧ rget (clkS .locked .rampDown 3 1) (rCLK_DOM 0 3) fCLK_DOM_DIV < 4 ∧
      4 ≤ rget (clkS .locked .rampDown 4 1) (rCLK_DOM 0 3) fCLK_DOM_DIV) ∧
    (domRun (clkS .locked .rampUp 2 1) 0 3 = .rampUp ∧ 1 < rget (clkS .locked .rampUp 2 1) (rCLK_DOM 0 3) fCLK_DOM_DIV ∧
      rget (clkS .locked .rampUp 1 1) (rCLK_DOM 0 3) fCLK_DOM_DIV ≤ 1) ∧
    (let s := clkS .locked .full 0 0
     domSettingOk 3 (wfld (domW 78 0) 53 47) (wfld (domW 78 0) 46 31) (wfld (domW 78 0) 55 54) = true ∧
     domSettingOk 3 (wfld (domW 79 0xFFFF) 53 47) (wfld (domW 79 0xFFFF) 46 31) (wfld (domW 79 0xFFFF) 55 54) = true ∧
     domSettingOk 3 (wfld (domW 80 0) 53 47) (wfld (domW 80 0) 46 31) (wfld (domW 80 0) 55 54) = false ∧
     rflag s (rCLK_DOM 0 3) fCLK_DOM_BUSY = false ∧ domRun s 0 3 = .full ∧
     (List.range nCores).all (fun c => decide (dieOfCore c ≠ 0) || coreQuiet (coreOf s c)) = true) ∧
    (clkoutKhz State.reset 11 0 = some 50000 ∧ clkoutDiv 0 = some 1 ∧ 50000 ≤ 200000 * 1) ∧
    (clkoutKhz State.reset 8 0 = some 1000000 ∧ clkoutDiv (0x20040000 : Word) = some 5 ∧ 1000000 ≤ 200000 * 5 ∧
      clkoutDiv (0x20030000 : Word) = some 4 ∧ 200000 * 4 < 1000000) ∧
    (clkoutKhz State.reset 8 12 = none ∧ clkoutDiv (0x00100000 : Word) = none) := by
  refine ⟨?_, ?_, ?_, ?_, ?_, ?_, ?_, ?_, ?_, ?_⟩ <;> decide +kernel

/-- The last step of the upward ramp (R389): BUSY clears and the domain runs at full rate. -/
theorem test_ramp_end :
    after (exec (.dividerRampDwell 0 3) (clkS .locked .rampUp 1 1)) (fun t => (rget t (rCLK_DOM 0 3) fCLK_DOM_DIV,
      rflag t (rCLK_DOM 0 3) fCLK_DOM_BUSY, domRun t 0 3)) = some (0, false, .full) ∧
    after (exec (.clkDomGo 0 3 (domW 80 0)) (clkS .locked .full 0 0)) (fun t => rflag t (rCLK_DOM 0 3) fCLK_DOM_REJECT) = some true := by decide +kernel

theorem wit_ClocksAndRamps_crossings :
    (Canon (seqS [] 0) ∧ rflag (seqS [] 0) rCRS_ERR fCRS_ERR_VALID = false ∧ beforeCommit (ctxOf (seqS [] 0) 0 0) = true) ∧
    rflag (putS [(rCRS_ERR, fCRS_ERR_VALID, 1)] State.reset) rCRS_ERR fCRS_ERR_VALID = true := by decide +kernel

theorem test_crossing_timeout :
    after (exec (.crossingTimeout 3 5 6 17 [(0, 0)]) (seqS [] 0)) (fun t => ((ctxOf t 0 0).abortCode, rget t rCRS_ERR fCRS_ERR_DIE,
      rget t rCRS_ERR fCRS_ERR_INDEX, rflag t rCRS_ERR fCRS_ERR_ABORTED)) = some (6, 3, 17, true) := by decide +kernel

/-- Unit `u` dozes as `k` says; PWR_CTRL has ENABLE and a guard of 10 ns, and it is 1000 ns. -/
def dzS (u : Nat) (k : DozeUnit) : State :=
  let s := putS [(rPWR_CTRL, fPWR_CTRL_ENABLE, 1), (rPWR_CTRL, fPWR_CTRL_GUARD_NS, 10), (rPORT_STATUS 11, fPORT_STATUS_STATE, 2)] State.reset
  { s with doze := [(u, k)], time := { s.time with now := 1000 } }

/-- A unit that may doze with each kind of horizon, at the end of a state's time and one before it; one that dozes,
one that wakes, late and in time, and a core in DZ4. -/
theorem wit_UnitsDozeAndWake :
    (let s := putS [(rPWR_CTRL, fPWR_CTRL_ENABLE, 0)] State.reset; Canon s ∧ rflag s rPWR_CTRL fPWR_CTRL_ENABLE = false) ∧
    (Canon (dzS 159 ⟨0, .at 2010, false, 0⟩) ∧ (dozeOf (dzS 159 ⟨0, .at 2010, false, 0⟩) 159).dz = 0 ∧
      (dozeOf (dzS 159 ⟨0, .at 2010, false, 0⟩) 159).waking = false ∧ unitIdle (dzS 159 ⟨0, .at 2010, false, 0⟩) 159 = true ∧
      allowedDz (dzS 159 ⟨0, .at 2010, false, 0⟩) 159 = [1, 2, 3] ∧ wakeNs 2 + guardNs (dzS 159 ⟨0, .at 2010, false, 0⟩) + 1000 ≤ 2010 ∧
      2009 < wakeNs 2 + 10 + 1000) ∧
    (unitIdle (dzS 3051 ⟨0, .noKnown, false, 0⟩) 3051 = true ∧ unitIdle (dzS 479 ⟨0, .cleared, false, 0⟩) 479 = true ∧ 1029 < wakeNs 1 + 10 + 1000) ∧
    ((dozeOf (dzS 159 ⟨2, .at 5, false, 0⟩) 159).dz ≠ 0 ∧ (dozeOf (dzS 159 ⟨2, .at 5, false, 0⟩) 159).hz = .at 5) ∧
    ((dozeOf (dzS 159 ⟨4, .at 999, true, 0⟩) 159).waking = true ∧ 999 < now (dzS 159 ⟨4, .at 999, true, 0⟩)) ∧
    ((dozeOf (dzS 3051 ⟨3, .at 1000, true, 0⟩) 3051).waking = true ∧ ¬ (1000 < now (dzS 3051 ⟨3, .at 1000, true, 0⟩))) ∧
    (hzReg 159 = some (rPWR_HZ_CORE 159) ∧ wfld (5 : Word) 47 0 ≠ 0 ∧ wfld (0xFFFFFFFFFFFF : Word) 47 0 = 0xFFFFFFFFFFFF) ∧
    (portState (dzS 0 ⟨0, .cleared, false, 0⟩) 11 = 2 ∧ portState State.reset 11 = 0 ∧ portWaiting State.reset 11 = []) ∧
    (portWaiting (dzS 0 ⟨0, .cleared, false, 0⟩) 11).all (fun k => k.mc || !isRequest k.ty) = true := by
  refine ⟨?_, ?_, ?_, ?_, ?_, ?_, ?_, ?_, ?_⟩ <;> decide +kernel

/-- A horizon 1010 ns away just fits DZ2 (1000 ns and a guard of 10 ns); one ns less gives DZ1 (R401). -/
theorem test_doze_entry :
    after (exec (.dozeEntry 159) (dzS 159 ⟨0, .at 2010, false, 0⟩)) (fun t => (dozeOf t 159).dz) = some 2 ∧
    after (exec (.dozeEntry 159) (dzS 159 ⟨0, .at 2009, false, 0⟩)) (fun t => (dozeOf t 159).dz) = some 1 := by decide +kernel

/-! ### Start-up, resets and the sideband -/

def pinS (f : Pins → Pins) : State := { State.reset with pins := f State.reset.pins }

/-- RST_N and PWRGOOD at both levels, a rail held low, and a trip that is still hot. -/
theorem wit_ColdEvents :
    (Canon State.reset ∧ (pinS (fun p => { p with rstN := true })).pins.rstN = true) ∧
    (let s := pinS (fun p => { p with rstN := false, pwrgood := true, uvHold := [] })
     s.pins.rstN = false ∧ s.pins.pwrgood = true ∧ s.pins.uvHold = [] ∧ stillHot s = false) ∧
    (let s := pinS (fun p => { p with rstN := false, pwrgood := false, uvHold := [2] })
     s.pins.rstN = false ∧ s.pins.pwrgood = false) ∧
    (let s := pinS (fun p => { p with rstN := true, pwrgood := false, uvHold := [] })
     s.pins.rstN = true ∧ s.pins.pwrgood = false ∧ s.pins.uvHold = [] ∧ stillHot s = false) ∧
    (let s := pinS (fun p => { p with rstN := true, pwrgood := true, uvHold := [17] })
     s.pins.uvHold ≠ [] ∧ s.pins.rstN = true ∧ s.pins.pwrgood = true ∧ stillHot s = false) ∧
    (stillHot (pinS (fun p => { p with thermtrip := true, sensors := [(3, 115)] })) = true ∧
      stillHot (pinS (fun p => { p with thermtrip := true, sensors := [(3, 114)] })) = false) := by
  refine ⟨?_, ?_, ?_, ?_, ?_, ?_⟩ <;> decide +kernel

/-- The straps are sampled at the end of reset (R384, R429): DELAY is straps 2..0 and BYPASS strap 3. -/
theorem test_straps :
    after (exec (.rstNDeassert 0x0D) State.reset) (fun t => (bootStage t, rget t rCLK_STATUS fCLK_STATUS_DELAY,
      rget t rCLK_STATUS fCLK_STATUS_BYPASS)) = some (1, 5, 1) := by decide +kernel

/-- Start-up stage `st` with the record `b`. -/
def bootS (st : Nat) (b : Boot → Boot) : State :=
  { putS [(rBOOT_STATUS, fBOOT_STATUS_STAGE, st)] State.reset with boot := b State.reset.boot }
/-- The MGMT and TIME domains run, and every other one where `all`. -/
def runAll (s : State) : State :=
  let u := setDom (setDom s 6 1 .full) 6 2 .full
  let l := (List.range 6).flatMap (fun d => (List.range 3).filterMap (fun p => (domOfPll d p).map (fun x => (d, x))))
  l.foldl (fun v e => setDom v e.1 e.2 .full) u

/-- An image of SVN 9 with one byte of payload, whose digest is `d`. -/
def imageS (svn : Nat) (d : BitVec 256) : State :=
  let img := memPutBytes [] 0 (bytesLE 4 0x474D5853 ++ bytesLE 4 svn ++ bytesLE 4 1 ++ bytesLE 2 0x4101)
  bootS 4 (fun b => { b with image := memPutBytes img 16 (digestBytes d) })

/-- The empty message (FIPS 202). -/
theorem test_shake256 : digestBytes (shake256 []) = [0x46, 0xB9, 0xDD, 0x2B, 0x0B, 0xA8, 0x8D, 0x13, 0x23, 0x3B, 0x3F, 0xEB, 0x74, 0x3E, 0xEB, 0x24,
    0x3F, 0xCD, 0x52, 0xEA, 0x62, 0xB8, 0x1B, 0x82, 0xB5, 0x0C, 0x27, 0x64, 0x6E, 0xD5, 0x76, 0x2F] := by decide +kernel

/-- An image that passes every check but its signature, whose verdict is the configuration's (R413). -/
theorem image_ok (h : Config.imageSigOk 0 (imgBytes (imageS 9 (shake256 [0])) 0 64) (imgBytes (imageS 9 (shake256 [0])) 64 9893) = true) :
    imageCause (imageS 9 (shake256 [0])) = 0 := by
  have h0 : imgNat (imageS 9 (shake256 [0])) 14 1 = 0 := by decide +kernel
  have h1 : imgNat (imageS 9 (shake256 [0])) 8 4 = 1 := by decide +kernel
  have h2 : imgNat (imageS 9 (shake256 [0])) 0 4 = 0x474D5853 := by decide +kernel
  have h3 : imgNat (imageS 9 (shake256 [0])) 15 1 = 0 := by decide +kernel
  have h4 : imgNat (imageS 9 (shake256 [0])) 48 16 = 0 := by decide +kernel
  have h5 : imgNat (imageS 9 (shake256 [0])) 12 2 = 0x4101 := by decide +kernel
  have h6 : imgNat (imageS 9 (shake256 [0])) 4 4 = 9 := by decide +kernel
  have h7 : shake256 (imgBytes (imageS 9 (shake256 [0])) 9957 1) = BitVec.ofNat 256 (imgNat (imageS 9 (shake256 [0])) 16 32) := by decide +kernel
  have h8 : (imageS 9 (shake256 [0])).mram.disable0 = false := by decide +kernel
  have h9 : (imageS 9 (shake256 [0])).mram.minSvn ≤ 9 := by decide +kernel
  unfold imageCause
  simp only [h0, h1, h2, h3, h4, h5, h6, h8, h7, h]
  simpa using h9

/-- Each stage and phase, the crystal's limits and one beyond each, the last image word, an image whose checks pass where its signature
does and one that fails, and the self-test at seven and eight failed cores. -/
theorem wit_StartUpStages :
    (Canon (bootS 1 id) ∧ (bootS 1 id).pins.thermtrip = false ∧ (bootS 1 id).boot.xtalPending = false ∧ bootStage (bootS 1 id) = 1 ∧ (bootS 1 id).boot.phase = 0) ∧
    (98 * 8192 ≤ 100 * 8029 ∧ 100 * 8028 < 98 * 8192 ∧ 100 * 8355 ≤ 102 * 8192 ∧ 102 * 8192 < 100 * 8356) ∧
    (let s := bootS 1 (fun b => { b with phase := 1 })
     bootStage s = 1 ∧ s.boot.phase = 1 ∧ cportState s 0 = 0 ∧ rflag s (rCTL_PORT 0) fCTL_PORT_DISABLE = false) ∧
    (let s := runAll (bootS 2 id)
     bootStage s = 2 ∧ domRun s 6 1 = .full ∧ domRun s 6 2 = .full ∧ cportState s 0 ≠ 1 ∧ cportState s 1 ≠ 1 ∧ s.sec.log.length ≤ 254) ∧
    (let s := putS [(rBOOT_IMG_PTR, fBOOT_IMG_PTR_OFFSET, 0x7FFFF)] (bootS 3 id)
     bootStage s = 3 ∧ s.boot.phase ≠ 1 ∧ smWf (fun _ => (0 : Byte)) s.boot.image = true ∧
       8 * rget s rBOOT_IMG_PTR fBOOT_IMG_PTR_OFFSET + 8 = 0x400000) ∧
    (bootS 3 (fun b => { b with phase := 1 })).boot.phase = 1 ∧
    (bootStage (imageS 9 (shake256 [0])) = 4 ∧ (imageS 9 (shake256 [0])).sec.log.length ≤ 254 ∧ imageCause (bootS 4 id) = 1) ∧
    (let s := bootS 5 (fun b => { b with phase := 1 })
     bootStage s = 5 ∧ s.boot.phase = 1 ∧ domainsSettled s = false) ∧
    (let s := runAll (bootS 5 (fun b => { b with phase := 6, failedCores := List.range 7 }))
     bootStage s = 5 ∧ domainsSettled s = true ∧ s.boot.fatal = none ∧ s.boot.phase < 7 ∧ s.boot.failedCores.length ≤ 7 ∧ coreFault 11 = true ∧
       coreFault 8 = false ∧ (8 : Nat) ≠ 6) ∧
    (let s := runAll (bootS 5 (fun b => { b with phase := 6, failedCores := List.range 8 }))
     bootStage s = 5 ∧ s.boot.phase = 6 ∧ s.boot.fatal = none ∧ s.boot.failedCores.length ≤ 8) ∧
    (let s := bootS 5 (fun b => { b with phase := 3, failedCores := List.range 8 })
     s.boot.phase ≠ 1 ∧ s.boot.failedCores.length = 8 ∧ 159 ∉ s.boot.failedCores) ∧
    (let s := bootS 5 (fun b => { b with phase := 7 })
     bootStage s = 5 ∧ s.boot.phase = 7 ∧ s.boot.failedCores = [] ∧ s.boot.failedPorts = [] ∧ s.boot.fatal = none) := by
  refine ⟨?_, ?_, ?_, ?_, ?_, ?_, ?_, ?_, ?_, ?_, ?_, ?_⟩ <;> decide +kernel

theorem test_crystal_limit :
    after (exec (.referenceCheckDone 8029) (bootS 1 (fun b => { b with phase := 1 }))) bootStage = some 2 ∧
    after (exec (.referenceCheckDone 8355) (bootS 1 (fun b => { b with phase := 1 }))) bootStage = some 2 := by decide +kernel

/-- The ninth failed core ends start-up (R432). -/
theorem test_ninth_core :
    after (exec (.selftestPhaseComplete [⟨0, 0, 159⟩]) (bootS 5 (fun b => { b with phase := 3, failedCores := List.range 8 }))) bootStage = some 7 ∧
    after (exec (.selftestPhaseComplete [⟨0, 0, 159⟩]) (bootS 5 (fun b => { b with phase := 3, failedCores := List.range 7 }))) bootStage = some 5 := by
  decide +kernel

/-- The monitor's limits, both clock sources, each stage of a PLL's first lock, the keys, and sensors at 124 and 125. -/
theorem wit_ResetsAndTrips :
    (98 * 50000 ≤ 100 * 49000 ∧ 100 * 48999 < 98 * 50000 ∧ 100 * 51000 ≤ 102 * 50000 ∧ 102 * 50000 < 100 * 51001) ∧
    (let s := putS [(rCLK_STATUS, fCLK_STATUS_SRC, 1)] (bootS 5 id)
     Canon s ∧ rflag s rCLK_STATUS fCLK_STATUS_SRC = true ∧ 2 ≤ bootStage s ∧ bootStage s ≤ 5 ∧ (∀ p, p < 12 → portState s p ≠ 2) ∧
       (∀ k, k < 2 → cportState s k ≠ 2)) ∧
    (let s := putS [(rCLK_STATUS, fCLK_STATUS_SRC, 1), (rPORT_STATUS 11, fPORT_STATUS_STATE, 2), (rCTL_PORT 1, fCTL_PORT_STATE, 2)] State.reset
     rflag s rCLK_STATUS fCLK_STATUS_SRC = true ∧ portState s 11 = 2 ∧ portDozes s 11 = false ∧ cportState s 1 = 2) ∧
    rflag State.reset rCLK_STATUS fCLK_STATUS_SRC = false ∧
    (pllRun (clkS .locking .onRef 5 1) 0 0 = .locking ∧ bootStage (setPll (bootS 2 id) 6 0 .locking) = 2 ∧ bootStage (setPll (bootS 5 id) 0 0 .locking) = 5 ∧
      bootStage (setPll (bootS 6 id) 0 0 .locking) = 6) ∧
    (wbit 0xC302 0 = false ∧ wbit 0xC302 2 = false ∧ wfld 0xC302 15 8 = 0xC3 ∧ bootStage (bootS 7 id) = 7) ∧
    (wbit 0xA501 0 = true ∧ wfld 0xA501 15 8 = 0xA5 ∧ bootStage (bootS 6 id) = 6 ∧ (bootS 6 id).boot.failedCores = [] ∧ (bootS 6 id).pins.thermtrip = false ∧
      ∀ c ∈ (bootS 6 (fun b => { b with failedCores := [0, 159] })).boot.failedCores, c < nCores) ∧
    (let s := pinS (fun p => { p with sensors := [(73, 125)] })
     s.pins.thermtrip = false ∧ (∃ e ∈ [(73, 125)], 125 ≤ e.2 ∧ ∃ v ∈ s.pins.sensors.map (·.2), 125 ≤ v)) ∧
    (∀ e ∈ [(73, 124), (0, 255)], e.2 < 256) ∧ ([(73, 124)].filter (fun e => sensorDie e.1 = sensorDie 73)) ≠ [] ∧
    (kGet TCtl.reset State.reset.tier 31).faulted = false ∧ (logicUnit 1 383 = true ∧ logicUnit 2 1 = true ∧ logicUnit 3 0 = true) := by
  refine ⟨?_, ?_, ?_, ?_, ?_, ?_, ?_, ?_, ?_, ?_, ?_, ?_⟩ <;> decide +kernel

theorem test_thermtrip :
    after (exec (.thermalSensorRead [(73, 125)]) (pinS (fun p => { p with sensors := [(73, 125)] }))) (fun t => t.pins.thermtrip) = some true ∧
    after (exec (.thermalSensorRead [(73, 125)]) (pinS (fun p => { p with sensors := [(73, 124)] }))) (fun t => t.pins.thermtrip) = some false := by decide +kernel

/-- Another address and the device's own; commands with and without a register, and the first and last CPER command. -/
theorem wit_SidebandAccess :
    (bootStage State.reset < 2 ∧ (0x47 : BitVec 7).toNat ≠ smbAddr (bootS 2 id) ∧ 2 ≤ bootStage (bootS 2 id) ∧ (0x48 : BitVec 7).toNat = smbAddr (bootS 2 id)) ∧
    (smbReg 0x7F = none ∧ smbReg 0x1F = some (rBOOT_ST 7) ∧ 0x80 ≤ (0x80 : Byte).toNat ∧ 0x80 ≤ (0xFF : Byte).toNat) ∧
    (State.reset.pins.rstN = false ∧ bootStage (bootS 7 id) = 7 ∧ ¬ ((pinS (fun p => { p with rstN := true })).pins.rstN = false ∨
      bootStage (pinS (fun p => { p with rstN := true })) = 7)) := by decide +kernel

/-- BOOT_STATUS in stage READY, as SMBus gives it: a byte count of 8, the register, and a check byte. -/
theorem test_smbus :
    after (exec (.smbusBlockRead 0x48 4) (bootS 6 id)) (fun t => t.pins.smbOut.take 9) = some [8, 6, 0, 0, 0, 0, 0, 0, 0] := by decide +kernel

/-! ### Streams, gathers and update sweeps -/

/-- Core 0's context 0 runs `thePour` with stream 7 as given; every stack is partition 0's and every quad is on. -/
def strS (r : Stream) (toks : SMap Tok) : State :=
  regsS [(rSPM_POWER 0, 0xFFFFFFFF)] (partOn { State.reset with
    cores := [(0, { ctxK (runC []) with streams := [(7, r)], toks := toks })] })
/-- A stream at a TILE operation: two rows of 64 bytes at pitch 128 from 0x020000000000, slots of `size` bytes. -/
def aStr (store : Bool) (base size : Nat) : Stream :=
  { Stream.reset with owner := some 0, store := store, ops := [6 * 2 ^ 27, 0], bases := [base], tok0 := 1020, ring := 2, depth := 1, compTok := 1022, slotOff := 0x3FFF80, slotSize := size, rows := 2, rowLen := 1, pitch := 128 }
def gthS (r : Gath) (toks : SMap Tok) : State :=
  regsS [(rSPM_POWER 0, 0xFFFFFFFF)] (partOn { State.reset with
    cores := [(0, { ctxK (runC []) with gaths := [(1, r)], toks := toks })] })
/-- A gather of rows 3 and 9 of 64 bytes. -/
def aGth (store : Bool) (base bound visit : Nat) : Gath :=
  { Gath.reset with owner := some 0, store := store, base := base, stride := 64, rowLen := 1, bound := bound, rows := [3, 9], tok0 := 5, visit := visit }
/-- A quad that dozes, so that its port is not served there (R177). -/
def quadDz (q : Nat) (s : State) : State := { s with doze := [(quadUnit 0 q, ⟨1, .cleared, false, 0⟩)] }
/-- What a tile asks of the stream, and its place by a TILE. -/
def tileOk (r : Stream) (addr : Nat) (s : State) : Bool :=
  decide (soOp (r.ops.getD r.pos 0) = 6) && strReady (coreOf s 0) r && decide (addr < 2 ^ 48) && decide (addr % 64 = 0) && decide (r.pitch % 64 = 0) &&
  decide (((addr : Nat) : Int) = ((r.bases.getD (bitsOf (r.ops.getD r.pos 0) 26 25) 0 : Nat) : Int) + r.a.getD (bitsOf (r.ops.getD r.pos 0) 24 23) 0) &&
  beforeCommit (ctxOf s 0 0) && decide ((streamOf s 0 7).owner = some 0) && !(streamOf s 0 7).ended
/-- The same at a PAGE operation: entry 1 of the table at 0x020000000000, rows 256 on of the page's second part, row 2. -/
def pageStr : Stream := { aStr false 0x020000000000 128 with ops := [7 * 2 ^ 27 + 2 ^ 22 + 2 * 2 ^ 14, 0], a := [1, 0, 0, 0] }
def pageS : State := memS [(0x020000000008, BitVec.ofNat 64 (2 ^ 63 + 0x020000010000))] (strS pageStr [])

theorem tile_at {r : Stream} {addr : Nat} {s : State} (p : Nat) (h : tileOk r addr s = true) : tileAt s p r addr r.pitch := by
  simp only [tileOk, Bool.and_eq_true, decide_eq_true_eq, Bool.not_eq_true'] at h
  exact Or.inl ⟨h.1.1.1.1.1.1.1.1, h.1.1.1.2, h.1.1.1.1.1.1.2, h.1.1.1.1.1.2, rfl, h.1.1.1.1.2⟩

/-- A page's rows begin 258 rows of 64 bytes into the page. -/
theorem page_at : tileAt pageS 0 pageStr (0x020000010000 + 256 * 64 + 2 * 64) 64 :=
  Or.inr ⟨by decide +kernel, by decide +kernel, by decide +kernel, by decide +kernel, 0x020000010000, by decide +kernel, by decide +kernel, by decide +kernel⟩

/-- No owner, an ended stream with and without a tile in flight, a stream that must wait, a skewed tile, one too large for its
slot, one that the partition cannot reach, a slot whose quad dozes, a load by TILE and by PAGE, and a store. -/
theorem wit_StreamsAndGathers_streams :
    (Canon (strS Stream.reset []) ∧ (streamOf (strS Stream.reset []) 0 7).owner = none) ∧
    (let r : Stream := { aStr false 0 128 with ended := true, live := [3] }
     (streamOf (strS r [(3, .full)]) 0 7).ended = true ∧ tokOf (coreOf (strS r [(3, .full)]) 0) 3 ≠ .filling ∧ tokOf (coreOf (strS r [(3, .filling)]) 0) 3 = .filling) ∧
    (let r : Stream := { aStr false 0 128 with depth := 0 }
     beforeCommit (ctxOf (strS r []) 0 0) = true ∧ r.ended = false ∧ tileSkew (soRun soFuel r) = false ∧ strReady (coreOf (strS r []) 0) (soRun soFuel r) = false) ∧
    (let r := aStr false 0x020000000020 128
     Canon (strS r []) ∧ (streamOf (strS r []) 0 7).owner = some 0 ∧ r.ended = false ∧ beforeCommit (ctxOf (strS r []) 0 0) = true ∧
       soOp (r.ops.getD r.pos 0) = 6 ∧ tileSkew r = true ∧ tileSkew { aStr false 0 128 with pitch := 32 } = true) ∧
    (tileOk (aStr false 0x020000000000 127) 0x020000000000 (strS (aStr false 0x020000000000 127) []) = true ∧ (127 : Nat) < 2 * 64) ∧
    (tileOk (aStr false 0x800000000000 128) 0x800000000000 (strS (aStr false 0x800000000000 128) []) = true ∧ 2 * 64 ≤ 128 ∧
      partReachesRange (strS (aStr false 0x800000000000 128) []) 0 (0x800000000000 + 1 * 128) 64 = false) ∧
    (let s := quadDz 15 (strS (aStr false 0x020000000000 128) [])
     Canon s ∧ tileOk (aStr false 0x020000000000 128) 0x020000000000 s = true ∧ partReachesRange s 0 0x020000000000 64 = true ∧
       partReachesRange s 0 0x020000000080 64 = true ∧ rangeServed s 0 0xA 0x3FFF80 (2 * 64) = false) ∧
    (let s := strS (aStr false 0x020000000000 128) []
     Canon s ∧ tileOk (aStr false 0x020000000000 128) 0x020000000000 s = true ∧ partReachesRange s 0 0x020000000000 64 = true ∧ partReachesRange s 0 0x020000000080 64 = true ∧
       rangeServed s 0 0xA 0x3FFF80 128 = true ∧ rangeOn s 0 0x3FFF80 128 = true ∧ smWf (fun _ => Tok.empty) (coreOf s 0).toks = true ∧
       smWf (spmDflt (coreOf s 0)) (coreOf s 0).spm = true ∧ tierDownIn s 0x020000000000 64 = false ∧ tierDownIn s 0x020000000080 64 = false) ∧
    (strReady (coreOf pageS 0) pageStr = true ∧ partReachesRange pageS 0 0x020000014080 64 = true ∧ partReachesRange pageS 0 0x0200000140C0 64 = true ∧
      (streamOf pageS 0 7).owner = some 0 ∧ rangeServed pageS 0 0xA 0x3FFF80 128 = true ∧ rangeOn pageS 0 0x3FFF80 128 = true) ∧
    (let s := strS (aStr true 0x020000000000 128) [(1020, .full)]
     Canon s ∧ tileOk (aStr true 0x020000000000 128) 0x020000000000 s = true ∧ spmBadIn (coreOf s 0) 0x3FFF80 128 = false ∧ (64 : Nat) ≤ 128 ∧
       rangeServed s 0 0xA 0x3FFF80 128 = true ∧ writeFails s 0x020000000000 64 = false ∧ writeFails s 0x020000000080 64 = false ∧
       rangeOn s 0 0x3FFF80 128 = true ∧ smWf (fun _ => Tok.empty) (coreOf s 0).toks = true) := by
  refine ⟨?_, ?_, ?_, ?_, ?_, ?_, ?_, ?_, ?_, ?_⟩ <;> decide +kernel

/-- The same for a gather, with a row at its bound and below it, and a stack that takes no write. -/
theorem wit_StreamsAndGathers_gathers :
    (gathOf (strS Stream.reset []) 0 1).owner = none ∧
    ((aGth false 0 10 1).visit < (aGth false 0 10 1).rows.length ∧ (aGth false 0 10 2).rows.length ≤ (aGth false 0 10 2).visit ∧
      smWf (fun _ => Tok.empty) (coreOf (gthS (aGth false 0 10 2) [(5, .filling)]) 0).toks = true) ∧
    ((aGth false 0 9 1).rows[1]? = some 9 ∧ beforeCommit (ctxOf (gthS (aGth false 0 9 1) []) 0 0) = true ∧
      gathReady (coreOf (gthS (aGth false 0 9 1) []) 0) (aGth false 0 9 1) = true ∧ (aGth false 0 9 1).bound ≤ 9 ∧ 9 < (aGth false 0 10 1).bound) ∧
    partReachesRange (gthS (aGth false 0x800000000000 10 1) []) 0 (0x800000000000 + 9 * 64) 64 = false ∧
    (let s := quadDz 0 (gthS (aGth false 0x020000000000 10 1) [])
     partReachesRange s 0 (0x020000000000 + 9 * 64) 64 = true ∧ rangeServed s 0 0xC 0 64 = false) ∧
    (let s := gthS (aGth false 0x020000000000 10 1) []
     Canon s ∧ gathReady (coreOf s 0) (aGth false 0x020000000000 10 1) = true ∧ partReachesRange s 0 (0x020000000000 + 9 * 64) 64 = true ∧
       rangeServed s 0 0xC 0 64 = true ∧ rangeOn s 0 0 64 = true ∧ tierDownIn s (0x020000000000 + 9 * 64) 64 = false) ∧
    (let s := gthS (aGth true 0x020000000000 10 1) [(5, .full)]
     Canon s ∧ gathReady (coreOf s 0) (aGth true 0x020000000000 10 1) = true ∧ partReachesRange s 0 (0x020000000000 + 9 * 64) 64 = true ∧
       rangeServed s 0 0xC 0 64 = true ∧ rangeOn s 0 0 64 = true ∧
       smWf (fun _ => Tok.empty) (coreOf s 0).toks = true ∧ smWf (spmDflt (coreOf s 0)) (coreOf s 0).spm = true ∧ spmBadIn (coreOf s 0) 0 64 = false ∧
       writeFails s (0x020000000000 + 9 * 64) 64 = false ∧
       writeFails { s with tier := (List.range 32).map (fun i => (i, { TCtl.reset with faulted := true })) } (0x020000000000 + 9 * 64) 64 = true) := by
  refine ⟨?_, ?_, ?_, ?_, ?_, ?_, ?_⟩ <;> decide +kernel

/-- Row 1 of a tile is read at its pitch (R185). -/
theorem test_stream_tile :
    after (exec (.streamTileBegin 0 7) (memS [(0x020000000080, 0x77)] (strS (aStr false 0x020000000000 128) []))) (fun t =>
      (spmByte (coreOf t 0) (0x3FFF80 + 64), tokOf (coreOf t 0) 1020, (streamOf t 0 7).tiles)) = some (0x77, .filling, 1) := by decide +kernel

/-- Row 9 at stride 64 (R189). -/
theorem test_gather_row :
    after (exec (.gatherRequest 0 1) (memS [(0x020000000240, 0x66)] (gthS (aGth false 0x020000000000 10 1) []))) (fun t =>
      (spmByte (coreOf t 0) 0, (gathOf t 0 1).visit)) = some (0x66, 2) := by decide +kernel

/-- A run of the one operation `op`, whose record slot is `rec` and whose kernel is at 0x1020. -/
def aRun (op rec : Nat) : UpdRun :=
  { blk := [0, 0, 0, 0, BitVec.ofNat 64 (rec * 256), 0, 0, 0], prog := [op], ktab := [0x1020], consts := [], dg := 0, dw := 0,
    opAt := 0, sweep := 0, retPc := 0x1008, inKernel := false, busy := true, mMax := none, sat := false, ssq := 0 }
/-- Core 0 runs an update sweep of one operation; one more of its instructions is under way. -/
def updS (op rec : Nat) (binds : List Bind) (busy : Bool) : State :=
  coreS { ctxK { runC [] with updRun := some { aRun op rec with busy := busy }, pour := some { thePour with binds := binds } } with flights := [aFlight 0] } 0
def recB : Bind := { codeB with out := true, base := 0x020000000000 }

/-- A sweep that is not busy, one that ends in CALL, and one that ends the program with a record binding and without. -/
theorem wit_UpdateSweepEnds :
    (Canon (updS 0 63 [codeB] false) ∧ (((ctxOf (updS 0 63 [codeB] false) 0 0).updRun).map (·.busy)) = some false) ∧
    (let s := updS (0x20 * 2 ^ 26) 63 [codeB] true
     Canon s ∧ beforeCommit (ctxOf s 0 0) = true ∧ uOp ((aRun (0x20 * 2 ^ 26) 63).prog.getD 0 0) = 0x20 ∧ sweepOps (aRun (0x20 * 2 ^ 26) 63).prog 0 = []) ∧
    (let s := updS 0 1 [codeB, recB] true
     let pr : Pour := { thePour with binds := [codeB, recB] }
     Canon s ∧ beforeCommit (ctxOf s 0 0) = true ∧ uOp ((aRun 0 1).prog.getD 0 0) ≠ 0x20 ∧ hasOp (aRun 0 1).prog 0x18 = false ∧
       (ublkOf (aRun 0 1).blk).record = 1 ∧
       writeBase pr 1 = some (0x020000000000, 3) ∧ writeBase pr 63 = none ∧ writeFails s 0x020000000000 256 = false) := by
  refine ⟨?_, ?_, ?_⟩ <;> decide +kernel

/-- A CALL continues at the kernel its table names (R154). -/
theorem test_update_call :
    after (exec (.updateSweepComplete 0 0) (updS (0x20 * 2 ^ 26) 63 [codeB] true)) (fun t => (ctxOf t 0 0).pc) = some 0x1020 ∧
    after (exec (.updateSweepComplete 0 0) (updS 0 63 [codeB] true)) (fun t => ((ctxOf t 0 0).pc, (coreOf t 0).flights.length)) = some (0x1008, 1) := by decide +kernel

/-! ### The block as a whole -/

/-- Reset is in canonical form with no command waiting, and the time base is at its nominal rate. -/
theorem wit_IdleStepTicks : Canon State.reset ∧ State.reset.pending = [] ∧ State.reset.time.half = 0 ∧ State.reset.time.rate = 0 ∧
    State.reset.time.slew = 0 ∧ State.reset.time.frac < 2 ^ 32 := by decide +kernel

/-- The last unit of a kind and the one after it. -/
theorem wit_CommandsCompleteOnUnits : unitsOk (.nop 159 3 0) = true ∧ unitsOk (.nop 160 0 0) = false := by decide +kernel

/-- A command whose step is next. -/
theorem wit_StepKeepsCanonAndIdentity :
    Canon { State.reset with pending := [.jtagBypass, .jtagClamp] } ∧
    ((match Machine.step { State.reset with pending := [.jtagBypass, .jtagClamp] } with | .next t => some t.pending | _ => none) = some [.jtagClamp]) ∧
    ({ State.reset with mram := { State.reset.mram with disable0 := true } }).mram.disable0 = true := by decide +kernel

/-- A step runs the front command (log entry 6). -/
theorem test_step_order :
    after (Machine.step { State.reset with pending := [.timeSet 5, .timeSet 9] }) (fun t => (now t, t.pending)) = some (5, [.timeSet 9]) := by decide +kernel

/-! ### Ill-formed commands -/

/-- A unit that the device does not have, for each kind of unit. -/
theorem wf_units :
    ([.nop 160 0 0, .nop 0 4 0, .pllLock 6 2, .pllLock 4 2, .dividerRampDwell 6 3, .dividerRampDwell 0 1, .crossingResume 7 0 0 0, .crossingResume 0 10 0 0,
      .dozeEntry 3948, .railUndervoltage 1, .railUndervoltage 18, .tierSlot 24 16 [] 0, .tierSlot 32 0 [] 0, .stackTempRead 32 0,
      .d2dLaneLockLoss 19, .ergFrameSend 12, .caravanFrameSend 2, .recordWrite 9, .partActivate 8 0, .tuyereRefill 0 22, .fltFenceWrite 5 0,
      .reductionCombine 2 0 0, .mcastResend 0x1000, .fabQsendGo 2 0, .ckptPageReadStart 2 0, .streamEnd 0 8, .gatherEnd 0 2, .cacheFill 4 0 0, .cacheFill 0 0 8,
      .logicFault 0 32, .logicFault 1 384, .logicFault 4 0] : List Instr).all (fun i => !WellFormed i) = true := by decide +kernel

/-- An operand beyond its field, an instruction word of another row, and a request at a controller that does not hold its address. -/
theorem wf_fields :
    ([.nop 0 0 (wd 1 []), .copy 0 0 (wd 0x38 [(50, 2)]), .attnBwdDs 0 0 (wd 0x32 []), .toksyncRelease 0 0 (wd 0x14 [(32, 1)]),
      .selftestPhaseComplete [⟨12, 0, 0⟩], .selftestPhaseComplete [⟨0, 7, 0⟩], .thermalSensorRead [(74, 20)],
      .wr 0 { aPkt 9 5 0 [] with tc := 8 }, .wr 0 { aPkt 9 5 0 [] with addr := 2 ^ 48 }, .wr 0 (aPkt 9 5 0 [(1, false)]),
      .heartbeat 0 0x10000 0, .tierRequestArrival 0 0 1 { addr := 0x100, data := none, add := none, bad := false, part := 0, agent := .core 0 0 }] : List Instr).all (fun i => !WellFormed i) = true := by
  decide +kernel

/-- Commands that are well formed. -/
theorem wf_ok :
    ([.nop 159 3 (wd 0 []), .copy 0 0 wCopy, .dozeEntry 3947, .wr 11 (aPkt 9 5 0 (pay32 false)), .logicFault 3 0, .railUndervoltage 17,
      .tierRequestArrival 0 0 1 { addr := 0, data := none, add := none, bad := false, part := 0, agent := .core 0 0 }] : List Instr).all WellFormed = true := by decide +kernel

/-! ### Engines, attention and convolution -/

/-- A stream program of two operations of shape and pitch, a TILE and END. -/
def strWs : List Word := [BitVec.ofNat 64 (2 ^ 27 + 2 * 2 ^ 59), BitVec.ofNat 64 (6 * 2 ^ 27)]
def wStream : Word := wd 0x1C [(51, 7), (44, 1), (29, 0)]
def wStop : Word := wd 0x1D [(51, 7)]
def wGather : Word := wd 0x34 [(53, 1), (52, 1), (44, 1), (30, 0), (29, 0)]
def wGStop : Word := wd 0x35 [(53, 1)]

/-- An update program that sums squares: LDG x0, SSQ x0, END, with its block at 0x1040 and schedule at 0x1080. -/
def updWs : List Word :=
  [0x1100, 0x1100, 0x1080, 0, 0, 0x0101, 0x0000000200000001, 0, 0x0000000100000000, 0, 0, 0, 0, 0, 0, 0, 0, 0, 0, 0, 0, 0, 0, 0,
    BitVec.ofNat 64 (2 * 2 ^ 26 + 0x18 * 2 ^ 58), 0]
def wUpd : Word := wd 0x2F [(49, 1)]
/-- The sweep of that program, its block as it stood at issue. -/
def uresR : UpdRun :=
  { aRun 0 0 with blk := (updWs.take 8), prog := [2 * 2 ^ 26, 0x18 * 2 ^ 26, 0], inKernel := true, busy := false, dg := opC.d[0] }
def uresC : Ctx := { opC with updRun := some uresR }

/-- Port 11 leads to node 6, and this device is node 5. -/
def fabS (k : Ctx) (w : Word) : State :=
  putS [(rPORT_STATUS 11, fPORT_STATUS_STATE, 2), (rFAB_NODE, fFAB_NODE_NODE, 5), (rFAB_NODE, fFAB_NODE_VALID, 1)]
    (regsS [(rROUTE 6, BitVec.ofNat 64 0xB5AD6B5AD6B)] (tdS k w []))
def fabC (node : Nat) : Ctx :=
  tdC [(1, BitVec.ofNat 64 (node * 2 ^ 48))] [(0, tdv 0 0 0 6 1 64 64), (1, tdv 1 0 64 6 1 64 64)]
def wFwr (fn : Nat) : Word := wd 0x3C [(52, fn), (46, 1), (40, 1)]
def wFrd : Word := wd 0x3D [(48, 0), (43, 1)]
def wFatom : Word := wd 0x3E [(44, 1), (37, 0), (32, 1)]

theorem no_write_fails {s : State} (h : s.tier = []) (hb : s.memBad = []) (a n : Nat) : writeFails s a n = false := by
  have hp : ∀ b m, poisonIn s b m = false := fun b m => by
    unfold poisonIn
    rw [hb]
    exact List.any_eq_false.2 fun i _ => by simp [smGet]
  simp [writeFails, tierDownIn, h, hp]

theorem wit_EnginesStart :
    (∃ p, Issuable (tdS opC wStream strWs) 0 0 wStream opC thePour p) ∧ (∃ p, Issuable (tdS opC wStop []) 0 0 wStop opC thePour p) ∧
    (∃ p, Issuable (tdS opC wGather []) 0 0 wGather opC thePour p) ∧ (∃ p, Issuable (tdS opC wGStop []) 0 0 wGStop opC thePour p) ∧
    (∃ p, Issuable (tdS opC wUpd updWs) 0 0 wUpd opC thePour p) ∧ (∃ p, Issuable (tdS uresC wUres updWs) 0 0 wUres uresC thePour p) ∧
    (∃ p, Issuable (fabS (fabC 6) (wFwr 0)) 0 0 (wFwr 0) (fabC 6) thePour p) ∧
    (∃ p, Issuable (fabS (fabC 0xFFF) (wFwr 1)) 0 0 (wFwr 1) (fabC 0xFFF) thePour p) ∧
    (∃ p, Issuable (fabS (fabC 6) (wFwr 2)) 0 0 (wFwr 2) (fabC 6) thePour p) ∧
    (∃ p, Issuable (fabS (fabC 6) wFrd) 0 0 wFrd (fabC 6) thePour p) ∧
    (∃ p, Issuable (fabS (fabC 6) wFatom) 0 0 wFatom (fabC 6) thePour p) ∧
    (let s := tdS opC wUpd updWs
     let b := ublkOf (blockAt s (gRead opC (wfld wUpd 53 49)).toNat)
     let prog := (uWords s thePour b.prog).take 3
     let ops := sweepOps prog 0
     uCheck b (uWords s thePour b.prog) 0 [] [] = .ok 3 ∧
       updClean s thePour b ops (sweepRows s thePour b) = true ∧ ops.any (fun v => uOp v = 0x1D) = false ∧
       ops.any (fun v => uOp v = 0x1A) = false ∧ ops.any (fun v => uOp v = 0x1B) = false) ∧
    (∀ a n, writeFails (tdS opC wUpd updWs) a n = false) ∧
    (let s := tdS uresC wUres updWs
     uresC.updRun = some uresR ∧
       updClean s thePour (ublkOf uresR.blk) (sweepOps uresR.prog uresR.opAt) (sweepRows s thePour (ublkOf uresR.blk)) = true) ∧
    (let s := fabS (fabC 6) (wFwr 0)
     (6 : Nat) ≠ 0xFFFF ∧ fabValid s = true ∧ (6 : Nat) ≠ nodeId s ∧ routeOf s 6 0 ≠ none ∧ (gRead (fabC 6) 1).toNat / 2 ^ 48 = 6) ∧
    (mcastLocal (fabS (fabC 0xFFF) (wFwr 1)) 0xFFF = false ∧ mcastMembers (fabS (fabC 0xFFF) (wFwr 1)) 0xFFF = some []) := by
  refine ⟨?_, ?_, ?_, ?_, ?_, ?_, ?_, ?_, ?_, ?_, ?_, by decide +kernel, fun a n => no_write_fails rfl rfl a n, by decide +kernel, by decide +kernel,
    by decide +kernel⟩ <;>
    exact issuable_ok _ _ _ rfl rfl (by decide +kernel)

/-- The slot's 64 bytes, 3 at its head, go to node 6 as one request. -/
theorem test_fwr : after (exec (.fwrWr 0 0 (wFwr 0)) (fabS (fabC 6) (wFwr 0))) (fun t =>
    t.ergReqs.map (fun r => (r.pkt.dst, r.pkt.payload.map (fun q => q.1.toNat)))) =
  some [(6, [3, 0, 0, 0, 0, 0, 0, 0])] := by decide +kernel

/-- ‖(3, 0)‖² of INT8 gradients is 9 (R161). -/
theorem test_update_ssq : after (exec (.update 0 0 wUpd) (tdS opC wUpd updWs)) (fun t =>
    (ctxOf t 0 0).updRun.map (fun u => (u.ssq, u.busy, u.retPc))) = some (some (0x41100000, true, 0x1008)) := by decide +kernel

/-- An attention block of one query of 32 elements in BF16, KLEN 2, with factor and scale 1, and a conversion block of zeros. -/
def attWs : List Word := [2, 0x3F8000003F800000, 0, 0, 0, 0, 0, 0, 0, 0, 0, 0, 0, 0, 0, 0]
/-- Q, K, V, an EMPTY and a FULL row state or output, one-row tiles, and a partial. -/
def attC : Ctx := tdC [(1, 0x1040), (2, 0), (3, 0x1080)]
  [(0, tdv 1 0 0 0 1 32 64), (1, tdv 1 0 64 0 2 32 64), (2, tdv 1 0 192 0 2 32 64), (3, tdv 0 0 512 0 1 32 64),
    (4, tdv 1 0 512 0 1 32 64), (5, tdv 0 0 1088 0 1 32 64), (6, tdv 1 0 2048 0 1 32 640)]
def wFwd (first : Bool) : Word :=
  wd 0x30 [(48, 0), (42, 1), (36, 2), (30, if first then 3 else 4), (25, if first then 1 else 0), (17, 1), (12, 2), (4, 1)]
def wNorm : Word := wd 0x31 [(46, 3), (40, 5), (34, 6), (28, 1), (23, 3)]
def wBwd (ds : Nat) : Word := wd 0x32 [(53, ds), (44, 3), (38, 0), (32, if ds = 1 then 1 else 0), (25, 1), (20, 2), (12, 1), (7, 3)]
def wMerge (last : Nat) : Word := wd 0x33 [(48, 6), (36, 3 * last), (30, 5 * last), (29, last), (23, 1), (18, 3 * last)]
/-- A 2 × 1 map of two channels and a 1 × 1 kernel, from output row 1 on, whose second row lies beyond the map. -/
def convWs : List Word := [BitVec.ofNat 64 (2 * 2 ^ 48 + 2 ^ 32 + 2 * 2 ^ 16 + 2), BitVec.ofNat 64 (2 ^ 48 + 2 ^ 32 + 2 ^ 28 + 2 ^ 24 + 2 ^ 20 + 2 ^ 16 + 2 ^ 12 + 2 ^ 8),
  0, 0, 0, 0, 0, 0]
def convC : Ctx := tdC [(1, 0x1040), (2, 1)] [(0, tdv 1 0 62 6 1 1 64), (1, tdv 1 0 64 6 2 1 64), (2, tdv 1 0 0 6 1 1 64)]
def wConv : Word := wd 0x21 [(47, 1), (41, 2), (35, 1), (24, 1), (19, 2), (10, 1)]
def accsOk (s : State) (i : Nat) : Prop :=
  (accOf (coreOf s 0) i).badPar = [] ∧ smWf (fun _ => (0 : W32)) (accOf (coreOf s 0) i).vals = true ∧ (accOf (coreOf s 0) i).gen = none

theorem wit_AttentionAndConvolution :
    (∃ p, Issuable (tdS convC wConv convWs) 0 0 wConv convC thePour p) ∧
    (∃ p, Issuable (tdS attC (wFwd true) attWs) 0 0 (wFwd true) attC thePour p) ∧
    (∃ p, Issuable (tdS attC (wFwd false) attWs) 0 0 (wFwd false) attC thePour p) ∧
    (∃ p, Issuable (tdS attC wNorm attWs) 0 0 wNorm attC thePour p) ∧
    (∃ p, Issuable (tdS attC (wBwd 0) attWs) 0 0 (wBwd 0) attC thePour p) ∧
    (∃ p, Issuable (tdS attC (wBwd 1) attWs) 0 0 (wBwd 1) attC thePour p) ∧
    (∃ p, Issuable (tdS attC (wMerge 0) attWs) 0 0 (wMerge 0) attC thePour p) ∧
    (∃ p, Issuable (tdS attC (wMerge 1) attWs) 0 0 (wMerge 1) attC thePour p) ∧
    ((convFields wConv).mode = 0 ∧ (∀ i, (accOf (coreOf (tdS attC (wFwd true) attWs) 0) i).inject = false) ∧ ∀ i, accsOk (tdS convC wConv convWs) i) ∧ ∀ i, accsOk (tdS attC (wFwd true) attWs) i := by
  refine ⟨?_, ?_, ?_, ?_, ?_, ?_, ?_, ?_, ⟨by decide +kernel, fun i => rfl, fun i => ⟨rfl, rfl, rfl⟩⟩, fun i => ⟨rfl, rfl, rfl⟩⟩ <;>
    exact issuable_ok _ _ _ rfl rfl (by decide +kernel)

/-- From output row 0 on: its pixel (2, 0) by the weights (3, 0), and the other pixel (0, 0) (R87). -/
theorem test_conv : after (exec (.mmaConv 0 0 wConv) (tdS { convC with g := gRegs [(1, 0x1040)] } wConv convWs)) (fun t =>
    (accVal (accOf (coreOf t 0) 0) 0 0, accVal (accOf (coreOf t 0) 0) 1 0)) = some (6, 0) := by decide +kernel

/-- Two keys of equal score: mrow 0, lrow 2 (R124). -/
theorem test_attn_fwd : after (exec (.attnFwd 0 0 (wFwd true)) (tdS attC (wFwd true) attWs)) (fun t =>
    rowState (coreOf t 0) 512 0) = some (0, 0x40000000) := by decide +kernel

end Sys2Proof.Tests
end

section
/-! PROOFS. Laws of tier memory: what a store and an undefined region do to the bytes read. -/

namespace Sys2Proof.Machine

/-! ### Maps -/

/-- Keeping some entries of a canonical map leaves what the kept keys read as. -/
theorem smGet_smKeep {α : Type} [DecidableEq α] (dflt : Nat → α) (d : α) (p : Nat → Bool) (m : SMap α) (k : Nat)
    (b : Option Nat) (h : smWfAbove dflt b m = true) (hk : p k = true) : smGet d (smKeep p m) k = smGet d m k := by
  induction m generalizing b with
  | nil => rfl
  | cons hd t ih =>
    obtain ⟨a, x⟩ := hd
    simp only [smWfAbove, Bool.and_eq_true] at h
    obtain ⟨-, ht⟩ := h
    simp only [smKeep]
    split
    · simp [smGet, ih _ ht]
    · next hp =>
      have hne : k ≠ a := fun e => hp (e ▸ hk)
      rw [ih _ ht]
      by_cases hlt : k < a
      · simp [smGet, hne, hlt, smGet_of_wfAbove dflt d a k t ht (Nat.le_of_lt hlt)]
      · simp [smGet, hne, hlt]

/-- Replacing every unit by a function that keeps the unit at reset. -/
theorem kGet_map {α : Type} (d : α) (f : α → α) (hd : f d = d) (m : KMap α) (i : Nat) :
    kGet d (m.map (fun (k, v) => (k, f v))) i = f (kGet d m i) := by
  induction m with
  | nil => simp [kGet, hd]
  | cons h t ih =>
    obtain ⟨a, x⟩ := h
    simp only [List.map_cons, kGet]
    split
    · rfl
    · split
      · exact hd.symm
      · exact ih

/-! ### Undefined regions -/

/-- An empty region holds no byte. -/
theorem undefGen_filter_append (ps l : List (Nat × Nat × Nat)) (x : Nat) :
    undefGen (ps.filter (fun r => decide (r.1 < r.2.1)) ++ l) x = undefGen (ps ++ l) x := by
  induction ps with
  | nil => rfl
  | cons p ps ih =>
    obtain ⟨lo, hi, g⟩ := p
    by_cases h : lo < hi
    · simp [h, undefGen, ih]
    · have hout : ¬ (lo ≤ x ∧ x < hi) := by omega
      simp [h, undefGen, ih, hout]

/-- A byte is undefined after a cut where it was so before, outside the bytes cut out. -/
theorem undefGen_undefCut (l : List (Nat × Nat × Nat)) (a b x : Nat) :
    undefGen (undefCut l a b) x = if a ≤ x ∧ x < b then none else undefGen l x := by
  induction l with
  | nil => simp [undefCut, undefGen]
  | cons hd l ih =>
    obtain ⟨lo, hi, g⟩ := hd
    have hcut : undefGen (undefCut ((lo, hi, g) :: l) a b) x =
        if lo ≤ x ∧ x < min hi a then some g else if max lo b ≤ x ∧ x < hi then some g else undefGen (undefCut l a b) x :=
      undefGen_filter_append [(lo, min hi a, g), (max lo b, hi, g)] (undefCut l a b) x
    rw [hcut, ih, undefGen]
    by_cases hin : lo ≤ x ∧ x < hi
    · by_cases hab : a ≤ x ∧ x < b
      · rw [if_neg (by omega), if_neg (by omega), if_pos hab, if_pos hab]
      · by_cases ha : x < a
        · rw [if_pos (by omega), if_neg hab, if_pos hin]
        · rw [if_neg (by omega), if_pos (by omega), if_neg hab, if_pos hin]
    · rw [if_neg (by omega), if_neg (by omega), if_neg hin]

/-- Several cuts leave a byte that none of them holds. -/
theorem undefGen_foldl_undefCut_other {β : Type} (lo hi : β → Nat) (x : Nat) (is : List β)
    (h : ∀ i ∈ is, ¬ (lo i ≤ x ∧ x < hi i)) (l : List (Nat × Nat × Nat)) :
    undefGen (is.foldl (fun u i => undefCut u (lo i) (hi i)) l) x = undefGen l x := by
  induction is generalizing l with
  | nil => rfl
  | cons i is ih =>
    rw [List.foldl_cons, ih (fun j hj => h j (List.mem_cons_of_mem _ hj)), undefGen_undefCut,
      if_neg (h i List.mem_cons_self)]

/-- A byte that one of several cuts holds is defined after them. -/
theorem undefGen_foldl_undefCut_mem {β : Type} (lo hi : β → Nat) (x : Nat) (is : List β) (i : β) (hi' : i ∈ is)
    (h : lo i ≤ x ∧ x < hi i) (l : List (Nat × Nat × Nat)) :
    undefGen (is.foldl (fun u i => undefCut u (lo i) (hi i)) l) x = none := by
  have stays : ∀ (js : List β) (l : List (Nat × Nat × Nat)), undefGen l x = none →
      undefGen (js.foldl (fun u i => undefCut u (lo i) (hi i)) l) x = none := by
    intro js l hl
    refine List.foldlRecOn (motive := fun u => undefGen u x = none) js _ hl (fun u hu j _ => ?_)
    rw [undefGen_undefCut, hu, ite_self]
  induction is generalizing l with
  | nil => cases hi'
  | cons j js ih =>
    rcases List.mem_cons.1 hi' with rfl | hj
    · exact stays js _ (by rw [undefGen_undefCut, if_pos h])
    · exact ih hj _

/-! ### Lines and their controllers -/

/-- A line lies at one controller (R197). -/
theorem stackOf_line (a : Nat) : stackOf (a / 256 * 256) = stackOf a := by
  have h : tierSplit (a / 256 * 256) = tierSplit a := by
    have h1 : isTier1 (a / 256 * 256) = isTier1 a := by simp only [isTier1, decide_eq_decide]; omega
    have h2 : isTier2 (a / 256 * 256) = isTier2 a := by
      simp only [isTier2]; rw [Bool.eq_iff_iff]; simp only [Bool.and_eq_true, decide_eq_true_eq]; omega
    unfold tierSplit
    rw [h1, h2]
    split
    · next h => simp only [Option.some.injEq, Prod.mk.injEq, true_and]; omega
    · split
      · next h =>
        simp only [isTier2, Bool.and_eq_true, decide_eq_true_eq] at h
        simp only [Option.some.injEq, Prod.mk.injEq, true_and]; omega
      · rfl
  simp only [stackOf, h]

theorem tierDown_line (s : State) (a : Nat) : tierDown s (a / 256 * 256) = tierDown s a := by
  simp only [tierDown, stackOf_line]

/-- Without a controller in use none is down. -/
theorem tierDown_of_isEmpty (s : State) (h : s.tier.isEmpty = true) (a : Nat) : tierDown s a = false := by
  rw [List.isEmpty_iff] at h
  unfold tierDown
  split
  · simp [h, kGet, TCtl.reset]
  · rfl

/-! ### Stores -/

/-- A byte lies among those a store of `bs` at `a` performs: in its range, at a controller that takes writes. -/
def StoredAt (s : State) (a : Nat) (bs : List Byte) (x : Nat) : Prop :=
  (a ≤ x ∧ x < a + bs.length) ∧ tierDown s x = false

/-- The cells after a store. -/
theorem smGet_memPutUp (s : State) (m : List Host.Cell) (a : Nat) (bs : List Byte)
    (h : smWf (fun _ => (0 : Byte)) m = true) (x : Nat) :
    (StoredAt s a bs x → smGet 0 (memPutUp s m a bs) x = bs.getD (x - a) 0) ∧
    (¬ StoredAt s a bs x → smGet 0 (memPutUp s m a bs) x = smGet 0 m x) := by
  induction bs generalizing m a with
  | nil => exact ⟨fun hx => absurd hx.1 (by simp), fun _ => rfl⟩
  | cons b bs ih =>
    have hput : ∀ y, smGet 0 (memPutByte m a b) y = if y = a then b else smGet 0 m y :=
      fun y => smGet_smSet (fun _ => (0 : Byte)) m a y b h
    have hm : smWf (fun _ => (0 : Byte)) (if tierDown s a then m else memPutByte m a b) = true := by
      split
      · exact h
      · exact smSet_wf (fun _ => (0 : Byte)) m a b h
    obtain ⟨hin, hout⟩ := ih (if tierDown s a then m else memPutByte m a b) (a + 1) hm
    simp only [memPutUp]
    by_cases hxa : x = a
    · subst hxa
      rw [hout (fun hx => by have := hx.1; omega)]
      by_cases hd : tierDown s x = true
      · exact ⟨fun hx => by simp [StoredAt, hd] at hx, fun _ => by rw [if_pos hd]⟩
      · refine ⟨fun _ => by rw [if_neg hd, hput, if_pos rfl, Nat.sub_self]; rfl, fun hx => absurd ?_ hx⟩
        exact ⟨by simp, by simpa using hd⟩
    · have hiff : StoredAt s a (b :: bs) x ↔ StoredAt s (a + 1) bs x := by
        simp only [StoredAt, List.length_cons]
        constructor <;> rintro ⟨hr, hd⟩ <;> exact ⟨by omega, hd⟩
      refine ⟨fun hx => ?_, fun hx => ?_⟩
      · have hx' := hiff.1 hx
        rw [hin hx', show x - a = (x - (a + 1)) + 1 by have := hx'.1; omega, List.getD_cons_succ]
      · rw [hout (fun h' => hx (hiff.2 h'))]
        split
        · rfl
        · rw [hput, if_neg hxa]

/-- With every controller up a store puts all its bytes. -/
theorem memPutBytes_eq_memPutUp (s : State) (h : s.tier.isEmpty = true) (m : List Host.Cell) (a : Nat) (bs : List Byte) :
    memPutBytes m a bs = memPutUp s m a bs := by
  induction bs generalizing m a with
  | nil => rfl
  | cons b bs ih => simp [memPutBytes, memPutUp, tierDown_of_isEmpty s h, ih]

/-- The undefined regions after a store. -/
theorem undefGen_undefWritten (s : State) (a : Nat) (bs : List Byte) (x : Nat) :
    (StoredAt s a bs x → undefGen (undefWritten s a bs.length) x = none) ∧
    (¬ StoredAt s a bs x → undefGen (undefWritten s a bs.length) x = undefGen s.memUndef x) := by
  unfold undefWritten StoredAt
  by_cases hu : s.memUndef.isEmpty = true
  · simp [List.isEmpty_iff.1 hu, undefGen]
  rw [if_neg hu]
  by_cases ht : s.tier.isEmpty = true
  · rw [if_pos ht, undefGen_undefCut]
    simp only [tierDown_of_isEmpty s ht]
    exact ⟨fun h => if_pos h.1, fun h => if_neg (fun h' => h ⟨h', trivial⟩)⟩
  rw [if_neg ht]
  refine ⟨fun h => ?_, fun h => ?_⟩
  · refine undefGen_foldl_undefCut_mem (fun i => max a ((a / 256 + i) * 256)) (fun i => min (a + bs.length) ((a / 256 + i + 1) * 256))
      x _ (x / 256 - a / 256) (List.mem_filter.2 ⟨List.mem_range.2 ?_, ?_⟩) ?_ _
    · omega
    · rw [show a / 256 + (x / 256 - a / 256) = x / 256 by omega, tierDown_line]; simp [h.2]
    · omega
  · refine undefGen_foldl_undefCut_other (fun i => max a ((a / 256 + i) * 256)) (fun i => min (a + bs.length) ((a / 256 + i + 1) * 256))
      x _ (fun i hi hx => h ⟨by omega, ?_⟩) _
    obtain ⟨-, hup⟩ := List.mem_filter.1 hi
    rw [← tierDown_line s x, show x / 256 = a / 256 + i by omega]
    simpa using hup

theorem memByte_congr {s t : State} (hm : t.mem = s.mem) (hu : t.memUndef = s.memUndef) (a : Nat) : memByte t a = memByte s a := by
  simp only [memByte, hm, hu]

/-- A byte outside the regions made undefined keeps its content. -/
theorem memByte_memUndefine_other (s : State) (g a n x : Nat) (hs : memWf s = true) (hx : x < a ∨ a + n ≤ x) :
    memByte (memUndefine s g a n) x = memByte s x := by
  have hout : ¬ (a ≤ x ∧ x < a + n) := by omega
  have hu : undefGen (memUndefine s g a n).memUndef x = undefGen s.memUndef x := by
    have hcut := undefGen_undefCut s.memUndef a (a + n) x
    rw [if_neg hout] at hcut
    simp only [memUndefine]
    split
    · exact hcut
    · simpa [undefGen, hout] using hcut
  have hm : smGet 0 (memUndefine s g a n).mem x = smGet 0 s.mem x :=
    smGet_smKeep (fun _ => (0 : Byte)) 0 _ s.mem x none hs (by simp; omega)
  simp only [memByte, cellByte, hu, hm]

theorem memWf_memUndefine (s : State) (g a n : Nat) (hs : memWf s = true) : memWf (memUndefine s g a n) = true :=
  smKeep_wf (fun _ => (0 : Byte)) _ s.mem hs

end Sys2Proof.Machine
end

section
/-! PROOFS. What counting, recording and storing leave unchanged: counters (R465, R466), trace records (R470), event
records (R331–R335), CPER records (R361) and DRAIN (R357, R358). -/

namespace Sys2Proof.Machine

/-! ### Flags of a register -/

theorem rflag_iff (s : State) (o : Nat) (f : Fld) : rflag s o f = true ↔ rget s o f = 1 := by simp [rflag]

theorem rflag_congr {s t : State} {o : Nat} (h : rd t o = rd s o) (f : Fld) : rflag t o f = rflag s o f := by
  rw [rflag, rflag, rget, rget, h]

/-- A flag just set. -/
theorem rflag_rset_same (s : State) (o : Nat) (f : Fld) (hs : regsWf s) (h1 : f.lo = f.hi) (h2 : f.hi < 64) :
    rflag (rset s o f) o f = true := by
  rw [rflag_iff, rget, rset, rd_rput_same s o f 1 hs, wfld_wput_same _ _ _ _ (Nat.le_of_eq h1) h2, h1]
  simp

/-- A flag that lies below the field replaced. -/
theorem rflag_rput_below (s : State) (o : Nat) (f g : Fld) (v : Nat) (hs : regsWf s) (h1 : g.lo ≤ g.hi) (h2 : g.hi < 64)
    (h : f.hi < g.lo) : rflag (rput s o g v) o f = rflag s o f := by
  rw [rflag, rflag, rget, rget, rd_rput_same s o g v hs, wfld_wput_below _ _ _ _ _ _ h1 h2 h]

/-! ### Registers that records and counters write -/

/-- The registers that counting and recording write: the counters with CNT_SAT, TRC_STATUS, the CPER ring's
pointers and the status of record queue 8. -/
def logReg (o : Nat) : Bool :=
  isCounterOff o || o = rCNT_SAT || o = rTRC_STATUS || o = rFLT_CPER_PTR || o = rFLT_CPER_HEAD || o = rCQ_STATUS 8

theorem logReg_of_counter {o : Nat} (h : isCounterOff o = true) : logReg o = true := by simp [logReg, h]
theorem logReg_rCNT_SAT : logReg rCNT_SAT = true := by decide
theorem logReg_rTRC_STATUS : logReg rTRC_STATUS = true := by decide
theorem logReg_rFLT_CPER_PTR : logReg rFLT_CPER_PTR = true := by decide
theorem logReg_rFLT_CPER_HEAD : logReg rFLT_CPER_HEAD = true := by decide
theorem logReg_rCQ_STATUS : logReg (rCQ_STATUS 8) = true := by decide
theorem logReg_rFLT_STATE : logReg rFLT_STATE = false := by decide

/-- The register of a device counter is one of the counters (R467). -/
theorem isCounterOff_rCNT_DEV {j : Nat} (h : j < 0xE0000) : isCounterOff (rCNT_DEV j) = true := by
  simp only [isCounterOff, Bool.or_eq_true, Bool.and_eq_true, decide_eq_true_eq]
  unfold rCNT_DEV
  omega

/-- The register of a tier controller is none that records write (R212). -/
theorem logReg_tierBase {n k : Nat} (hn : n < 32) (hk : k < 0x2000) : logReg (tierBase n + k) = false := by
  simp only [logReg, isCounterOff, Bool.or_eq_false_iff, Bool.and_eq_false_iff, decide_eq_false_iff_not]
  unfold tierBase rCNT_SAT rTRC_STATUS rFLT_CPER_PTR rFLT_CPER_HEAD rCQ_STATUS
  split <;> omega

/-! ### What a record changes -/

/-- Nothing differs but what recording and counting write: the trace FIFO, record queues, the copies of CPER records
in MRAM, tier memory with the caches, and the registers of `logReg`. -/
structure Logged (s t : State) : Prop where
  frame : t = { s with regs := t.regs, trc := t.trc, sprue := t.sprue, mem := t.mem, memBad := t.memBad,
                       memUndef := t.memUndef, mram := t.mram, recq := t.recq }
  wf : regsWf s → regsWf t
  same : regsWf s → ∀ o, logReg o = false → rd t o = rd s o

namespace Logged

variable {s t u : State}

/-- What leaves the registers alone changes nothing of them. -/
theorem of_regs (hr : t.regs = s.regs)
    (h : t = { s with regs := t.regs, trc := t.trc, sprue := t.sprue, mem := t.mem, memBad := t.memBad,
                      memUndef := t.memUndef, mram := t.mram, recq := t.recq }) : Logged s t :=
  ⟨h, fun hs => by simpa only [regsWf, hr] using hs, fun _ o _ => by simp only [rd, hr]⟩

theorem refl (s : State) : Logged s s := of_regs rfl rfl

theorem trans (h : Logged s t) (h' : Logged t u) : Logged s u :=
  ⟨h'.frame.trans (by rw [h.frame]), fun hs => h'.wf (h.wf hs),
    fun hs o ho => (h'.same (h.wf hs) o ho).trans (h.same hs o ho)⟩

/-- A change of the trace FIFO, the record queues, MRAM or memory before a record. -/
theorem after (h : Logged t u) (hr : t.regs = s.regs)
    (hf : t = { s with regs := t.regs, trc := t.trc, sprue := t.sprue, mem := t.mem, memBad := t.memBad,
                       memUndef := t.memUndef, mram := t.mram, recq := t.recq }) : Logged s u := (of_regs hr hf).trans h

theorem pins (h : Logged s t) : t.pins = s.pins := by rw [h.frame]
theorem cores (h : Logged s t) : t.cores = s.cores := by rw [h.frame]
theorem tier (h : Logged s t) : t.tier = s.tier := by rw [h.frame]
theorem pending (h : Logged s t) : t.pending = s.pending := by rw [h.frame]

theorem rflag_eq (h : Logged s t) (hs : regsWf s) {o : Nat} (ho : logReg o = false) (f : Fld) :
    rflag t o f = rflag s o f := rflag_congr (h.same hs o ho) f

end Logged

/-- A register that records write. -/
theorem logged_rwr (s : State) {o : Nat} (ho : logReg o = true) (v : Word) : Logged s (rwr s o v) :=
  ⟨rfl, regsWf_rwr s o v, fun hs j hj => rd_rwr_other s o j v hs (fun e => by rw [e, ho] at hj; cases hj)⟩

theorem logged_rput (s : State) {o : Nat} (ho : logReg o = true) (f : Fld) (v : Nat) : Logged s (rput s o f v) := logged_rwr s ho _

theorem logged_rset (s : State) {o : Nat} (ho : logReg o = true) (f : Fld) : Logged s (rset s o f) := logged_rwr s ho _

/-! ### Counters and trace records -/

theorem logged_countRaw (s : State) {off : Nat} (h : isCounterOff off = true) (n : Nat) : Logged s (countRaw s off n) := by
  have ho := logReg_of_counter h
  unfold countRaw
  dsimp only
  split
  · exact (logged_rput s ho _ _).trans (logged_rset _ ho _)
  · exact logged_rput s ho _ _

theorem logged_traceRec (s : State) (kind die core part : Nat) (pv : Bool) (w2 w3 : Word) :
    Logged s (traceRec s kind die core part pv w2 w3) := by
  unfold traceRec
  dsimp only
  split
  · exact .refl s
  · split
    · exact .after (.trans (logged_rset _ logReg_rTRC_STATUS _)
        (logged_countRaw _ (isCounterOff_rCNT_DEV (j := 0x4710) (by omega)) 1)) rfl rfl
    · exact .of_regs rfl rfl

theorem logged_countUp (s : State) {off : Nat} (h : isCounterOff off = true) (n : Nat) : Logged s (countUp s off n) := by
  unfold countUp
  dsimp only
  split
  · refine .trans (t := countRaw (if anyOvf s then s else rwr s rCNT_SAT (BitVec.ofNat 64 (counterId off))) off n)
      ?_ (logged_traceRec _ _ _ _ _ _ _ _)
    split
    · exact logged_countRaw s h n
    · exact (logged_rwr s logReg_rCNT_SAT _).trans (logged_countRaw _ h n)
  · exact logged_countRaw s h n

theorem logged_countDev (s : State) {j : Nat} (h : j < 0xE0000) (n : Nat) : Logged s (countDev s j n) :=
  logged_countUp s (isCounterOff_rCNT_DEV h) n

theorem countRaw_frame (s : State) (off n : Nat) : countRaw s off n = { s with regs := (countRaw s off n).regs } := by
  unfold countRaw
  dsimp only
  split <;> rfl

theorem traceRec_frame (s : State) (kind die core part : Nat) (pv : Bool) (w2 w3 : Word) :
    traceRec s kind die core part pv w2 w3 =
      { s with regs := (traceRec s kind die core part pv w2 w3).regs, trc := (traceRec s kind die core part pv w2 w3).trc } := by
  unfold traceRec
  dsimp only
  split
  · rfl
  · split
    · rw [countRaw_frame]; rfl
    · rfl

/-- Counting changes registers and the trace FIFO alone. -/
theorem countUp_frame (s : State) (off n : Nat) :
    countUp s off n = { s with regs := (countUp s off n).regs, trc := (countUp s off n).trc } := by
  unfold countUp
  dsimp only
  split
  · rw [traceRec_frame, countRaw_frame]; split <;> rfl
  · rw [countRaw_frame]

theorem countDev_frame (s : State) (j n : Nat) :
    countDev s j n = { s with regs := (countDev s j n).regs, trc := (countDev s j n).trc } := countUp_frame s _ n

/-- A request that reaches a unit changes its doze state and what counting changes. -/
theorem wakeUnit_frame (s : State) (u : Nat) :
    wakeUnit s u = { s with doze := (wakeUnit s u).doze, regs := (wakeUnit s u).regs, trc := (wakeUnit s u).trc } := by
  unfold wakeUnit
  dsimp only
  split
  · rw [countDev_frame]; rfl
  · rfl

/-! ### Stores into tier memory -/

theorem logged_dropSprue (s : State) {d : Nat} (hd : d < 4) (hit : Nat → Bool) : Logged s (dropSprue s d hit) := by
  unfold dropSprue
  dsimp only
  split
  · exact .refl s
  · exact .after (logged_countUp _ (isCounterOff_rCNT_DEV (by omega)) _) rfl rfl

theorem dropSprue_cells (s : State) (d : Nat) (hit : Nat → Bool) :
    (dropSprue s d hit).mem = s.mem ∧ (dropSprue s d hit).memUndef = s.memUndef := by
  unfold dropSprue
  dsimp only
  split
  · exact ⟨rfl, rfl⟩
  · rw [countUp_frame]; exact ⟨rfl, rfl⟩

theorem logged_dropLines (s : State) (a n : Nat) : Logged s (dropLines s a n) :=
  List.foldlRecOn (motive := Logged s) _ _ (.refl s)
    (fun t ht _ hd => ht.trans (logged_dropSprue t (List.mem_range.1 hd) _))

theorem dropLines_cells (s : State) (a n : Nat) :
    (dropLines s a n).mem = s.mem ∧ (dropLines s a n).memUndef = s.memUndef :=
  List.foldlRecOn (motive := fun t => t.mem = s.mem ∧ t.memUndef = s.memUndef) _ _ ⟨rfl, rfl⟩
    (fun t ht d _ => ⟨(dropSprue_cells t d _).1.trans ht.1, (dropSprue_cells t d _).2.trans ht.2⟩)

/-- The poison marks of some codewords are set or cleared, and nothing else. -/
theorem foldl_setBad_frame (f : Nat → Nat) (b : Bool) (l : List Nat) (s : State) :
    l.foldl (fun u i => setBad u (f i) b) s = { s with memBad := (l.foldl (fun u i => setBad u (f i) b) s).memBad } :=
  List.foldlRecOn (motive := fun u => u = { s with memBad := u.memBad }) l _ rfl
    (fun u hu i _ => (show setBad u (f i) b = { u with memBad := (setBad u (f i) b).memBad } from rfl).trans (by rw [hu]))

theorem logged_memWrite (s : State) (a : Nat) (bs : List Byte) : Logged s (memWrite s a bs) := by
  unfold memWrite
  dsimp only
  refine .trans ?_ (logged_dropLines _ a bs.length)
  exact List.foldlRecOn (motive := Logged s) _ _ (.of_regs rfl rfl) (fun t ht _ _ => ht.trans (.of_regs rfl rfl))

/-- The cells and the undefined regions after a store. -/
theorem memWrite_cells (s : State) (a : Nat) (bs : List Byte) :
    (memWrite s a bs).mem = (if s.tier.isEmpty then memPutBytes s.mem a bs else memPutUp s s.mem a bs) ∧
    (memWrite s a bs).memUndef = undefWritten s a bs.length := by
  unfold memWrite
  dsimp only
  rw [(dropLines_cells _ a bs.length).1, (dropLines_cells _ a bs.length).2,
    foldl_setBad_frame (fun i => (a / 8 + i) * 8) false]
  exact ⟨rfl, rfl⟩

/-- A store puts its bytes at the controllers that take writes, and leaves every other byte (R210, R211). -/
theorem memByte_memWrite (s : State) (a : Nat) (bs : List Byte) (hs : memWf s = true) (x : Nat) :
    (StoredAt s a bs x → memByte (memWrite s a bs) x = bs.getD (x - a) 0) ∧
    (¬ StoredAt s a bs x → memByte (memWrite s a bs) x = memByte s x) := by
  obtain ⟨hm, hu⟩ := memWrite_cells s a bs
  have hput : (memWrite s a bs).mem = memPutUp s s.mem a bs := by
    rw [hm]
    split
    · next h => exact memPutBytes_eq_memPutUp s h _ _ _
    · rfl
  obtain ⟨cellIn, cellOut⟩ := smGet_memPutUp s s.mem a bs hs x
  obtain ⟨genIn, genOut⟩ := undefGen_undefWritten s a bs x
  simp only [memByte, cellByte, hput, hu]
  exact ⟨fun h => by rw [genIn h, cellIn h], fun h => by rw [genOut h, cellOut h]⟩

/-! ### Records -/

theorem logged_raiseDev (s : State) (code core : Nat) (body : List Word) : Logged s (raiseDev s code core body) := by
  unfold raiseDev postRec
  dsimp only
  split
  · exact .refl s
  · split
    · exact .of_regs rfl rfl
    · exact .after (logged_rset _ logReg_rCQ_STATUS _) rfl rfl

theorem logged_cperWrite (s : State) (i : CperInfo) : Logged s (cperWrite s i) := by
  unfold cperWrite
  dsimp only
  have copied : ∀ m v, Logged s (rput { s with mram := m } rFLT_CPER_PTR fFLT_CPER_PTR_NEXT v) :=
    fun m v => .after (logged_rput _ logReg_rFLT_CPER_PTR _ _) rfl rfl
  split
  · exact .refl s
  · split
    · refine .trans ?_ (logged_raiseDev _ _ _ _)
      have stored := fun m v a bs => (copied m v).trans (logged_memWrite _ a bs)
      split
      · exact .trans (.trans (stored _ _ _ _) (logged_rput _ logReg_rFLT_CPER_HEAD _ _)) (logged_rset _ logReg_rFLT_CPER_PTR _)
      · exact stored _ _ _ _
    · exact .trans (.trans (copied _ _) (logged_rput _ logReg_rFLT_CPER_HEAD _ _)) (logged_raiseDev _ _ _ _)

/-! ### DRAIN -/

/-- What stands after a fault of a shared structure (R357, R358): DRAIN is in force, and where the device was not in
DRAIN before, FAULT_N is asserted and the replacement mark is set.  Cores, controllers and waiting commands are as
before, and so is every register but FLT_STATE and those that records write. -/
structure Drained (s t : State) : Prop where
  drain : rflag t rFLT_STATE fFLT_STATE_DRAIN = true
  entered : rflag s rFLT_STATE fFLT_STATE_DRAIN = false → t.pins.fault = true ∧ t.mram.replaceMark = true
  pending : t.pending = s.pending
  cores : t.cores = s.cores
  tier : t.tier = s.tier
  same : ∀ o, o ≠ rFLT_STATE → logReg o = false → rd t o = rd s o

/-- The marks that DRAIN leaves the partitions change nothing else (R358). -/
theorem foldl_drainMark_frame (l : List Nat) (s : State) :
    l.foldl (fun t p => modPart t p (drainMark (rget t (rRING_TAIL p) fRING_TAIL_TAIL))) s =
      { s with parts := (l.foldl (fun t p => modPart t p (drainMark (rget t (rRING_TAIL p) fRING_TAIL_TAIL))) s).parts } :=
  List.foldlRecOn (motive := fun u => u = { s with parts := u.parts }) l _ rfl
    (fun u hu p _ => (show modPart u p (drainMark (rget u (rRING_TAIL p) fRING_TAIL_TAIL)) =
      { u with parts := (modPart u p (drainMark (rget u (rRING_TAIL p) fRING_TAIL_TAIL))).parts } from rfl).trans (by rw [hu]))

theorem drained_enterDrain (s : State) (ht : s.pins.thermtrip = false) (hs : regsWf s) : Drained s (enterDrain s) := by
  unfold enterDrain
  by_cases hd : rflag s rFLT_STATE fFLT_STATE_DRAIN = true
  · simp only [hd, Bool.true_or, if_true]
    exact ⟨hd, fun h => absurd (hd.symm.trans h) (by decide), rfl, rfl, rfl, fun _ _ _ => rfl⟩
  · simp only [Bool.not_eq_true] at hd
    simp only [hd, ht, Bool.or_self, Bool.false_eq_true, if_false]
    rw [foldl_drainMark_frame]
    set s1 := rset s rFLT_STATE fFLT_STATE_DRAIN
    set s2 : State := { s1 with pins := { s1.pins with fault := true } }
    have wf1 : regsWf s1 := regsWf_rset s _ _ hs
    have wf2 : regsWf s2 := wf1
    have hl : Logged s2 (raiseDev (cperWrite s2 (cperInfo 1 0x12 6 10 0)) 0x23 0xFF
        [rd (cperWrite s2 (cperInfo 1 0x12 6 10 0)) rFLT_STATE]) := (logged_cperWrite s2 _).trans (logged_raiseDev _ _ _ _)
    refine ⟨(hl.rflag_eq wf2 logReg_rFLT_STATE _).trans (rflag_rset_same s _ _ hs rfl (by decide)),
      fun _ => ⟨congrArg Pins.fault hl.pins, rfl⟩, hl.pending, hl.cores, hl.tier, fun o ho hlo => ?_⟩
    exact (hl.same wf2 o hlo).trans (rd_rset_other s _ o _ hs ho)

/-- A fault of a shared structure shows in `t`: DRAIN, and where `s` was not in DRAIN, FAULT_N and the mark. -/
def ShowsDrain (s t : State) : Prop :=
  rflag t rFLT_STATE fFLT_STATE_DRAIN = true ∧
    (rflag s rFLT_STATE fFLT_STATE_DRAIN = false → t.pins.fault = true ∧ t.mram.replaceMark = true) ∧
    t.pending = s.pending

/-- The same seen from an earlier state with the same DRAIN bit and the same waiting commands. -/
theorem Drained.shows {s t u : State} (h : Drained u t)
    (hr : rflag u rFLT_STATE fFLT_STATE_DRAIN = rflag s rFLT_STATE fFLT_STATE_DRAIN) (hp : u.pending = s.pending) :
    ShowsDrain s t :=
  ⟨h.drain, fun hs => h.entered (hr.trans hs), h.pending.trans hp⟩

theorem drained_sharedFault (s : State) (die unit inst : Nat) (detail : Word) (ht : s.pins.thermtrip = false) (hs : regsWf s) :
    Drained s (sharedFault s die unit inst detail) := by
  have hl := logged_cperWrite s { cperInfo 1 0x11 die unit inst with detail := detail }
  obtain ⟨hd, he, hp, hc, hti, hsame⟩ := drained_enterDrain _ (by rw [hl.pins]; exact ht) (hl.wf hs)
  exact ⟨hd, fun h => he ((hl.rflag_eq hs logReg_rFLT_STATE _).trans h), hp.trans hl.pending, hc.trans hl.cores,
    hti.trans hl.tier, fun o ho hlo => (hsame o ho hlo).trans (hl.same hs o hlo)⟩

end Sys2Proof.Machine
end

section
/-! PROOFS. The tier controllers' state operations, one rule each: a controller and its channel after an update, what
an answer, a flush and a controller fault change (R203, R210, R211). -/

namespace Sys2Proof.Machine

/-! ### Controllers and channels -/

theorem modTctl_frame (s : State) (n : Nat) (f : TCtl → TCtl) : modTctl s n f = { s with tier := (modTctl s n f).tier } := rfl

@[simp] theorem tctlOf_modTctl_same (s : State) (n : Nat) (f : TCtl → TCtl) : tctlOf (modTctl s n f) n = f (tctlOf s n) := by
  simp [tctlOf, modTctl]

theorem tctlOf_modTctl_other (s : State) {n m : Nat} (f : TCtl → TCtl) (h : m ≠ n) : tctlOf (modTctl s n f) m = tctlOf s m := by
  simp [tctlOf, modTctl, kGet_kSet_other _ _ _ _ _ h]

theorem tctlOf_congr {s t : State} (h : t.tier = s.tier) (n : Nat) : tctlOf t n = tctlOf s n := by simp only [tctlOf, h]

@[simp] theorem tctlOf_rset (s : State) (o : Nat) (f : Fld) (n : Nat) : tctlOf (rset s o f) n = tctlOf s n := rfl
@[simp] theorem tctlOf_monEvent (s : State) (i k n : Nat) : tctlOf (monEvent s i k) n = tctlOf s n := rfl
@[simp] theorem tctlOf_countDev (s : State) (j k n : Nat) : tctlOf (countDev s j k) n = tctlOf s n :=
  tctlOf_congr (by rw [countDev_frame]) n
@[simp] theorem tctlOf_chanCount (s : State) (n c k m : Nat) : tctlOf (chanCount s n c k) m = tctlOf s m := tctlOf_countDev _ _ _ _
@[simp] theorem tctlOf_wakeUnit (s : State) (u n : Nat) : tctlOf (wakeUnit s u) n = tctlOf s n :=
  tctlOf_congr (by rw [wakeUnit_frame]) n
@[simp] theorem tctlOf_memWrite (s : State) (a : Nat) (bs : List Byte) (n : Nat) : tctlOf (memWrite s a bs) n = tctlOf s n :=
  tctlOf_congr (logged_memWrite s a bs).tier n

@[simp] theorem chanOf_setChan_same (t : TCtl) (c : Nat) (k : TChan) : chanOf (setChan t c k) c = k := by simp [chanOf, setChan]

/-- The count of a channel is a device counter (R469). -/
theorem logged_chanCount (s : State) {n c k : Nat} (hn : n < 32) (hc : c < 32) (hk : k < 16) : Logged s (chanCount s n c k) := by
  refine logged_countDev s ?_ 1
  unfold chanIndex
  split <;> omega

theorem chanCount_frame (s : State) (n c k : Nat) :
    chanCount s n c k = { s with regs := (chanCount s n c k).regs, trc := (chanCount s n c k).trc } := countDev_frame s _ 1

/-! ### What the controllers alone change -/

/-- Nothing but controllers and cores differs, and of the controllers none but `n`. -/
structure CtlOnly (s t : State) (n : Nat) : Prop where
  frame : t = { s with tier := t.tier, cores := t.cores }
  others : ∀ m, m ≠ n → tctlOf t m = tctlOf s m

theorem CtlOnly.trans {s t u : State} {n : Nat} (h : CtlOnly s t n) (h' : CtlOnly t u n) : CtlOnly s u n :=
  ⟨h'.frame.trans (by rw [h.frame]), fun m hm => (h'.others m hm).trans (h.others m hm)⟩

theorem CtlOnly.regs {s t : State} {n : Nat} (h : CtlOnly s t n) : t.regs = s.regs := by rw [h.frame]

theorem CtlOnly.memByte {s t : State} {n : Nat} (h : CtlOnly s t n) (a : Nat) : memByte t a = memByte s a := by
  rw [h.frame]; rfl

theorem ctlOnly_modTctl (s : State) (n : Nat) (f : TCtl → TCtl) : CtlOnly s (modTctl s n f) n :=
  ⟨rfl, fun _ hm => tctlOf_modTctl_other s f hm⟩

/-! ### Answers -/

theorem beginAbort_frame (s : State) (c x code trap : Nat) :
    beginAbort s c x code trap = { s with cores := (beginAbort s c x code trap).cores } := by
  unfold beginAbort
  dsimp only
  split <;> rfl

/-- An abort of a pour before its commit point (R24, R49). -/
theorem ctxOf_beginAbort (s : State) (c x code : Nat) (h : beforeCommit (ctxOf s c x) = true) :
    ctxOf (beginAbort s c x code 0) c x = Safety.abortedAt (ctxOf s c x) code := by
  unfold beginAbort
  simp only [h, if_true, ctxOf_setCtx_same]
  rfl

/-- The controllers after an answer. -/
theorem tierAnswer_tier (s : State) (n : Nat) (r : TierReq) (status : Nat) (poison : Bool) :
    (tierAnswer s n r status poison).tier =
      (modTctl s n (fun t => { t with answers := t.answers ++ [⟨r, status, poison⟩] })).tier := by
  unfold tierAnswer
  dsimp only
  split
  · split
    · rfl
    · rw [beginAbort_frame]
  · rfl

@[simp] theorem tctlOf_tierAnswer_same (s : State) (n : Nat) (r : TierReq) (status : Nat) (poison : Bool) :
    tctlOf (tierAnswer s n r status poison) n =
      { tctlOf s n with answers := (tctlOf s n).answers ++ [⟨r, status, poison⟩] } := by
  rw [tctlOf_congr (tierAnswer_tier s n r status poison), tctlOf_modTctl_same]

theorem ctlOnly_tierAnswer (s : State) (n : Nat) (r : TierReq) (status : Nat) (poison : Bool) :
    CtlOnly s (tierAnswer s n r status poison) n := by
  refine ⟨?_, fun m hm => by rw [tctlOf_congr (tierAnswer_tier s n r status poison), tctlOf_modTctl_other _ _ hm]⟩
  unfold tierAnswer
  dsimp only
  split
  · split
    · rfl
    · rw [beginAbort_frame]; rfl
  · rfl

/-- An answer without an error and without poison leaves the cores. -/
theorem tierAnswer_cores_of_ok (s : State) (n : Nat) (r : TierReq) : (tierAnswer s n r 0 false).cores = s.cores := by
  unfold tierAnswer
  dsimp only
  split <;> rfl

/-- An error answer aborts the pour that asked with UNCORRECTED (R26). -/
theorem ctxOf_tierAnswer_error (s : State) (n : Nat) (r : TierReq) {d x : Nat} (hr : r.agent = .core d x)
    (h : beforeCommit (ctxOf s d x) = true) : ctxOf (tierAnswer s n r 4 false) d x = Safety.abortedAt (ctxOf s d x) 0x04 := by
  unfold tierAnswer
  rw [hr]
  exact ctxOf_beginAbort (modTctl s n _) d x 0x04 h

/-! ### A flush of the waiting requests -/

/-- The requests that wait at a controller, queued and then held (R203, R368). -/
def waitingReqs (t : TCtl) : List TierReq := tierWaiting t ++ t.held.map (fun h => h.2.2)

/-- The error answers to every request that waits at a controller (R210, R211). -/
def errorsOf (t : TCtl) : List TierAns := (waitingReqs t).map (fun r => ⟨r, 4, false⟩)

/-- A channel without waiting requests. -/
def emptied (k : TChan) : TChan := { k with queues := [], rmw := [], tries := [] }

/-- A controller whose waiting requests have been answered with errors. -/
def flushed (t : TCtl) : TCtl :=
  { t with held := [], chans := t.chans.map (fun (c, k) => (c, emptied k)), answers := t.answers ++ errorsOf t }

theorem chanOf_flushed (t : TCtl) (c : Nat) : chanOf (flushed t) c = emptied (chanOf t c) :=
  kGet_map TChan.reset emptied rfl t.chans c

theorem tctlOf_foldl_tierAnswer (n : Nat) (l : List TierReq) (s : State) :
    tctlOf (l.foldl (fun u r => tierAnswer u n r 4 false) s) n =
      { tctlOf s n with answers := (tctlOf s n).answers ++ l.map (fun r => ⟨r, 4, false⟩) } := by
  induction l generalizing s with
  | nil => simp
  | cons r l ih => simp [ih]

theorem ctlOnly_foldl_tierAnswer (n : Nat) (l : List TierReq) {s t : State} (h : CtlOnly s t n) :
    CtlOnly s (l.foldl (fun u r => tierAnswer u n r 4 false) t) n :=
  List.foldlRecOn (motive := fun u => CtlOnly s u n) l _ h (fun u hu r _ => hu.trans (ctlOnly_tierAnswer u n r 4 false))

theorem tctlOf_tierFlush (s : State) (n : Nat) : tctlOf (tierFlush s n) n = flushed (tctlOf s n) := by
  unfold tierFlush
  dsimp only
  rw [tctlOf_foldl_tierAnswer, tctlOf_modTctl_same]
  rfl

theorem ctlOnly_tierFlush (s : State) (n : Nat) : CtlOnly s (tierFlush s n) n :=
  ctlOnly_foldl_tierAnswer n _ (ctlOnly_modTctl s n _)

/-! ### Controller faults -/

/-- A fault of a controller that has not faulted (R210): its waiting requests answered with errors, FAULT set, and the
device in DRAIN. -/
theorem tierFault_spec (s : State) {n : Nat} (hf : (tctlOf s n).faulted = false)
    (ht : s.pins.thermtrip = false) (hs : regsWf s) :
    ∃ u : State, CtlOnly s u n ∧ tctlOf u n = flushed { tctlOf s n with faulted := true, retraining := false } ∧
      Drained (rput u (rTIER_ERR n) fTIER_ERR_FAULT 1) (tierFault s n) := by
  unfold tierFault
  simp only [hf, Bool.false_eq_true, if_false]
  set s1 := modTctl s n (fun t => { t with faulted := true, retraining := false }) with h1
  have hu : CtlOnly s (tierFlush s1 n) n := (ctlOnly_modTctl s n _).trans (ctlOnly_tierFlush s1 n)
  refine ⟨tierFlush s1 n, hu, by rw [tctlOf_tierFlush, h1, tctlOf_modTctl_same], drained_sharedFault _ _ _ _ _ ?_ ?_⟩
  · show (tierFlush s1 n).pins.thermtrip = false
    rw [hu.frame]; exact ht
  · refine regsWf_rput _ _ _ _ ?_
    rw [regsWf, hu.regs]; exact hs

end Sys2Proof.Machine
end

section
/-! PROOFS. Training loss, controller faults, soft repair and die-to-die links (R13, R210, R211, R357). -/

namespace Sys2Proof.Safety

open Sys2Proof Sys2Proof.Machine

/-- A command that names units the device has runs. -/
theorem runs_of_onUnit {i : Instr} {s t : State} {ok : Bool} {name : String} {P : State → Prop}
    (he : Machine.exec i s = onUnit ok name (.next t)) (hok : ok = true) (hp : P t) : Runs i s P :=
  ⟨t, by rw [he, hok]; rfl, hp⟩

/-! ### Fields of a written word -/

/-- A field above bit 0 of a word does not see bit 0 set. -/
theorem wfld_or_one (v : Word) {hi lo : Nat} (h : 0 < lo) : wfld (v ||| 1) hi lo = wfld v hi lo := by
  have h1 : (1 : Nat) >>> lo = 0 := by
    rw [Nat.shiftRight_eq_div_pow]
    exact Nat.div_eq_of_lt (Nat.one_lt_two_pow (by omega))
  simp only [wfld, bitsOf, BitVec.toNat_or, Nat.shiftRight_or_distrib]
  rw [show (1 : Word).toNat = 1 from rfl, h1, Nat.or_zero]

theorem wbit_or_one (v : Word) : wbit (v ||| 1) 0 = true := by
  have h : wfld (v ||| 1) 0 0 = 1 := by
    rw [wfld, bitsOf, BitVec.toNat_or, Nat.shiftRight_zero]
    exact Nat.or_mod_two_eq_one.2 (Or.inr rfl)
  exact decide_eq_true h

/-! ### Training -/

theorem rTIER_ERR_ne_rFLT_STATE (n : Nat) : rTIER_ERR n ≠ rFLT_STATE := by
  unfold rTIER_ERR tierBase rFLT_STATE
  split <;> omega

theorem queues_of_flushed (t : TCtl) (c : Nat) : (chanOf (flushed t) c).queues = [] := by rw [chanOf_flushed]; rfl

theorem trainingLoss_faulted {s : State} {n : Nat} (h : (tctlOf s n).faulted = true) : trainingLoss s n = s := by
  simp [trainingLoss, h]

theorem trainingLoss_retrains {s : State} {n : Nat} (h : (tctlOf s n).faulted = false) :
    trainingLoss s n = modTctl s n (fun t => { t with retraining := true }) := by simp [trainingLoss, h]

theorem retrainTimeout_idle {s : State} {n : Nat} (h : (tctlOf s n).retraining = false) : retrainTimeout s n = s := by
  simp [retrainTimeout, h]

/-- A retraining that fails faults the controller (R210). -/
theorem retrainTimeout_faults {s : State} {n : Nat} (hn : n < 32) (hr : (tctlOf s n).retraining = true)
    (hf : (tctlOf s n).faulted = false) (ht : s.pins.thermtrip = false) (hs : regsWf s) :
    tctlOf (retrainTimeout s n) n = flushed { tctlOf s n with faulted := true, retraining := false } ∧
    rflag (retrainTimeout s n) (rTIER_ERR n) fTIER_ERR_FAULT = true ∧ ShowsDrain s (retrainTimeout s n) := by
  rw [show retrainTimeout s n = tierFault s n by simp [retrainTimeout, hr]]
  obtain ⟨u, hu, htctl, hdrained⟩ := tierFault_spec s hf ht hs
  have hwf : regsWf u := by rw [regsWf, hu.regs]; exact hs
  have hne := rTIER_ERR_ne_rFLT_STATE n
  refine ⟨(tctlOf_congr hdrained.tier n).trans htctl, ?_, hdrained.shows (rflag_congr ?_ _) ?_⟩
  · rw [rflag_congr (hdrained.same _ hne (logReg_tierBase hn (by omega)))]
    exact rflag_rset_same u _ _ hwf rfl (by decide)
  · rw [rd_rput_other u _ _ _ _ hwf hne.symm, rd, hu.regs, rd]
  · show u.pending = s.pending
    rw [hu.frame]

/-! ### Soft repair -/

/-- The row that a write of TIER_PPR names (R211): its channel, bank and row. -/
def pprRow (v : Word) : Nat × Nat × Nat := (wfld v 63 58, wfld v 57 52, wfld v 51 36)

/-- GO starts the repair of the row named, where none runs and the controller has not faulted: every waiting request is
answered with an error, and no byte and no other register differs. -/
theorem pprGo_starts {s : State} {n : Nat} (v : Word) (hr : (tctlOf s n).repair = none) (hf : (tctlOf s n).faulted = false)
    (hs : regsWf s) :
    tctlOf (pprGo s n (v ||| 1)) n = flushed { tctlOf s n with answers := [], repair := some (pprRow v) } ∧
    SameMem s (pprGo s n (v ||| 1)) ∧ ∀ o, o ≠ rTIER_PPR n → rd (pprGo s n (v ||| 1)) o = rd s o := by
  have hgo : pprGo s n (v ||| 1) = tierFlush (modTctl (regSet s (rTIER_PPR n) (v ||| 1)) n
      (fun t => { t with answers := [], repair := some (pprRow v) })) n := by
    have ht : tctlOf (regSet s (rTIER_PPR n) (v ||| 1)) n = tctlOf s n := rfl
    have hrow : pprRow (v ||| 1) = pprRow v := by
      simp only [pprRow, wfld_or_one v (lo := 58) (by omega), wfld_or_one v (lo := 52) (by omega),
        wfld_or_one v (lo := 36) (by omega)]
    rw [← hrow]
    simp only [pprGo, wbit_or_one, ht, hr, hf]
    rfl
  have hflush := ctlOnly_tierFlush (modTctl (regSet s (rTIER_PPR n) (v ||| 1)) n
    (fun t => { t with answers := [], repair := some (pprRow v) })) n
  rw [hgo]
  refine ⟨?_, fun a => hflush.memByte a, fun o ho => ?_⟩
  · rw [tctlOf_tierFlush, tctlOf_modTctl_same]; rfl
  · rw [rd, hflush.regs]
    exact rd_rwr_other s _ o _ hs ho

theorem pprComplete_idle {s : State} {n : Nat} (ok : Bool) (h : (tctlOf s n).repair = none) : pprComplete s n ok = s := by
  simp [pprComplete, h]

/-- The state of a controller whose repair has ended. -/
def repaired (s : State) (n : Nat) : State := modTctl s n (fun t => { t with repair := none })

theorem pprComplete_fails {s : State} {n : Nat} {row : Nat × Nat × Nat} (h : (tctlOf s n).repair = some row) :
    pprComplete s n false = rset (repaired s n) (rTIER_PPR n) fTIER_PPR_FAIL := by
  simp [pprComplete, h, repaired]

/-- The lines at `f j` become undefined, and nothing else differs. -/
theorem foldl_memUndefine_frame (g : Nat) (f : Nat → Nat) (l : List Nat) (s : State) :
    l.foldl (fun u j => memUndefine u g (f j) 256) s =
      { s with mem := (l.foldl (fun u j => memUndefine u g (f j) 256) s).mem,
               memUndef := (l.foldl (fun u j => memUndefine u g (f j) 256) s).memUndef } :=
  List.foldlRecOn (motive := fun u => u = { s with mem := u.mem, memUndef := u.memUndef }) l _ rfl
    (fun u hu j _ => (show memUndefine u g (f j) 256 =
      { u with mem := (memUndefine u g (f j) 256).mem, memUndef := (memUndefine u g (f j) 256).memUndef } from rfl).trans (by rw [hu]))

/-- A byte outside the lines made undefined keeps its content. -/
theorem memByte_foldl_memUndefine (g : Nat) (f : Nat → Nat) (l : List Nat) (s : State) (hs : memWf s = true) (x : Nat)
    (hx : ∀ j ∈ l, x < f j ∨ f j + 256 ≤ x) : memByte (l.foldl (fun u j => memUndefine u g (f j) 256) s) x = memByte s x :=
  (List.foldlRecOn (motive := fun u => memWf u = true ∧ memByte u x = memByte s x) l _ ⟨hs, rfl⟩
    (fun u hu j hj => ⟨memWf_memUndefine u g (f j) 256 hu.1,
      (memByte_memUndefine_other u g (f j) 256 x hu.1 (hx j hj)).trans hu.2⟩)).2

/-- A repair that succeeds leaves every byte outside the row and every core (R211). -/
theorem pprComplete_done {s : State} {n c b row : Nat} (h : (tctlOf s n).repair = some (c, b, row)) (hs : regsWf s)
    (hm : memWf s = true) :
    (tctlOf (pprComplete s n true) n).repair = none ∧ rflag (pprComplete s n true) (rTIER_PPR n) fTIER_PPR_DONE = true ∧
    (∀ a, (∀ j, j < (if n < 24 then 4 else 8) → a < rowByteAddr n c b row (256 * j) ∨ rowByteAddr n c b row (256 * j) + 256 ≤ a) →
      memByte (pprComplete s n true) a = memByte s a) ∧ (pprComplete s n true).cores = s.cores := by
  set u := (List.range (if n < 24 then 4 else 8)).foldl
    (fun u j => memUndefine u s.free (rowByteAddr n c b row (256 * j)) 256) { repaired s n with free := s.free + 1 } with hu
  have hdone : pprComplete s n true = rset u (rTIER_PPR n) fTIER_PPR_DONE := by
    simp only [pprComplete, h]
    rfl
  have hframe := foldl_memUndefine_frame s.free (fun j => rowByteAddr n c b row (256 * j)) (List.range (if n < 24 then 4 else 8))
    { repaired s n with free := s.free + 1 }
  rw [← hu] at hframe
  rw [hdone]
  refine ⟨?_, rflag_rset_same u _ _ ?_ rfl (by decide), fun a ha => ?_, ?_⟩
  · rw [tctlOf_rset, tctlOf_congr (s := repaired s n) (by rw [hframe]), repaired, tctlOf_modTctl_same]
  · rw [hframe]; exact hs
  · exact memByte_foldl_memUndefine s.free (fun j => rowByteAddr n c b row (256 * j)) _ { repaired s n with free := s.free + 1 } hm a
      (fun j hj => ha j (List.mem_range.1 hj))
  · show u.cores = s.cores
    rw [hframe]; rfl

/-! ### Die-to-die links -/

/-- One more failure at the receiving end of a link. -/
def d2dFailed (s : State) (l dir : Nat) : State := { s with d2d := kSet s.d2d (2 * l + dir) (kGet 0 s.d2d (2 * l + dir) + 1) }

/-- A frame that fails is counted up to its eighth failure in succession (R13). -/
theorem d2dFrame_counts {s : State} {l dir : Nat} (h : kGet 0 s.d2d (2 * l + dir) < 8) :
    d2dFrame s l dir false = monEvent (countDev (d2dFailed s l dir) (0x4400 + (2 * l + dir)) 1) 7 1 := by
  simp only [d2dFrame, Bool.false_eq_true, if_false, if_neg (show ¬ 9 ≤ kGet 0 s.d2d (2 * l + dir) + 1 by omega)]
  rfl

/-- The ninth failure in succession is a link fault (R13). -/
theorem d2dFrame_faults {s : State} {l dir : Nat} (h : 8 ≤ kGet 0 s.d2d (2 * l + dir)) :
    d2dFrame s l dir false = sharedFault (d2dFailed s l dir) (linkDie l) 6 l 0 := by
  simp only [d2dFrame, Bool.false_eq_true, if_false, if_pos (show 9 ≤ kGet 0 s.d2d (2 * l + dir) + 1 by omega)]
  rfl

/-- Settles O27: each command's own law gives its case; the link faults and the controller fault end in DRAIN by
`drained_sharedFault`. -/
theorem tierFaultsAndLinks : Obligations.TierFaultsAndLinks := by
  unfold Obligations.TierFaultsAndLinks
  intro s n hn hcanon htherm
  obtain ⟨⟨hmem, -⟩, hregs⟩ := hcanon
  have hunit : decide (n < 32) = true := decide_eq_true hn
  refine ⟨fun hf => ?loss, fun hf => ?lossFaulted, fun hr => ?timeoutIdle, fun hr hf => ?timeout, fun v hr hf => ?go,
    fun hr ok => ?completeIdle, fun c b row hr => ⟨?fail, ?done⟩,
    fun l dir hl hdir => ?links⟩
  case loss =>
    refine runs_of_onUnit (t := trainingLoss s n) rfl hunit ?_
    rw [trainingLoss_retrains hf]
    exact ⟨tctlOf_modTctl_same s n _, fun m hm => tctlOf_modTctl_other s _ hm, rfl⟩
  case lossFaulted => exact runs_of_onUnit (t := trainingLoss s n) rfl hunit (trainingLoss_faulted hf)
  case timeoutIdle => exact runs_of_onUnit (t := retrainTimeout s n) rfl hunit (retrainTimeout_idle hr)
  case timeout =>
    refine runs_of_onUnit (t := retrainTimeout s n) rfl hunit ?_
    obtain ⟨htctl, hfault, hdrain⟩ := retrainTimeout_faults hn hr hf htherm hregs
    rw [htctl]
    exact ⟨rfl, rfl, fun ch => queues_of_flushed _ ch, rfl, hfault, hdrain⟩
  case go =>
    refine runs_of_onUnit (t := pprGo s n (v ||| 1)) rfl hunit ?_
    obtain ⟨htctl, hbytes, hothers⟩ := pprGo_starts v hr hf hregs
    rw [htctl]
    exact ⟨rfl, rfl, fun ch => queues_of_flushed _ ch, rfl, hbytes, hothers⟩
  case completeIdle => exact runs_of_onUnit (t := pprComplete s n ok) rfl hunit (pprComplete_idle ok hr)
  case fail =>
    refine runs_of_onUnit (t := pprComplete s n false) rfl hunit ?_
    rw [pprComplete_fails hr, tctlOf_rset, repaired, tctlOf_modTctl_same]
    exact ⟨rfl, rflag_rset_same _ _ _ hregs rfl (by decide), fun a => rfl⟩
  case done => exact runs_of_onUnit (t := pprComplete s n true) rfl hunit (pprComplete_done hr hregs hmem)
  case links =>
    have hend : (decide (l < 19) && decide (dir < 2)) = true := by simp [hl, hdir]
    refine ⟨runs_of_onUnit (t := d2dFrame s l dir true) rfl hend ⟨kGet_kSet_same _ _ _ _, rfl⟩,
      fun hk => runs_of_onUnit (t := d2dFrame s l dir false) rfl hend ?counts,
      fun hk => runs_of_onUnit (t := d2dFrame s l dir false) rfl hend ?faults,
      runs_of_onUnit (t := sharedFault s (linkDie l) 6 l 0) rfl (decide_eq_true hl) ?lock⟩
    case counts =>
      rw [d2dFrame_counts hk, countDev_frame]
      exact ⟨kGet_kSet_same _ _ _ _, rfl⟩
    case faults =>
      rw [d2dFrame_faults hk]
      have hdrained := drained_sharedFault (d2dFailed s l dir) (linkDie l) 6 l 0 htherm hregs
      exact ⟨hdrained.shows rfl rfl, hdrained.cores⟩
    case lock =>
      have hdrained := drained_sharedFault s (linkDie l) 6 l 0 htherm hregs
      exact ⟨hdrained.shows rfl rfl, hdrained.cores⟩

end Sys2Proof.Safety
end

section
/-! PROOFS. Requests on their way into a tier controller: meters, held requests and queues (R14, R203, R319, R368). -/

namespace Sys2Proof.Machine

/-! ### Meters -/

theorem tuyTake_frame (s : State) (p path n : Nat) : tuyTake s p path n = { s with parts := (tuyTake s p path n).parts } := by
  unfold tuyTake
  split <;> rfl

/-- A transfer that enters its paths changes the partitions' credits alone. -/
theorem pathsTake_frame (s : State) (p : Nat) (l : List (Nat × Nat)) :
    pathsTake s p l = { s with parts := (pathsTake s p l).parts } := by
  unfold pathsTake
  split
  · rfl
  · exact List.foldlRecOn (motive := fun u => u = { s with parts := u.parts }) (b := s) l
      (fun u x => tuyTake u p x.1 x.2) rfl (fun u hu x _ => (tuyTake_frame u p x.1 x.2).trans (by rw [hu]))

/-- A state with other controllers. -/
def withTier (s : State) (m : KMap TCtl) : State := { s with tier := m }

theorem tuyTake_withTier (s : State) (m : KMap TCtl) (p path n : Nat) :
    tuyTake (withTier s m) p path n = withTier (tuyTake s p path n) m := by
  have hrd : rd (withTier s m) (tuyReg p path) = rd s (tuyReg p path) := rfl
  unfold tuyTake
  rw [hrd]
  split <;> rfl

/-- What a transfer takes does not depend on the controllers. -/
theorem pathsTake_withTier (s : State) (m : KMap TCtl) (p : Nat) (l : List (Nat × Nat)) :
    pathsTake (withTier s m) p l = withTier (pathsTake s p l) m := by
  unfold pathsTake
  split
  · rfl
  · induction l generalizing s with
    | nil => rfl
    | cons x l ih => simp only [List.foldl_cons, tuyTake_withTier, ih]

/-! ### Arrival -/

/-- A controller at the start of a command: it has answered nothing yet. -/
def cleared (s : State) (n : Nat) : State := modTctl s n (fun t => { t with answers := [] })

@[simp] theorem tctlOf_cleared (s : State) (n : Nat) : tctlOf (cleared s n) n = { tctlOf s n with answers := [] } :=
  tctlOf_modTctl_same s n _

/-- A request whose meters pass it, once it has taken its bytes from their credit (R319). -/
def credited (s : State) (n : Nat) (r : TierReq) : State := pathsTake (cleared s n) r.part (tierPaths n r)

theorem credited_eq (s : State) (n : Nat) (r : TierReq) :
    credited s n r = { s with tier := (cleared s n).tier, parts := (pathsTake s r.part (tierPaths n r)).parts } := by
  have h : credited s n r = withTier (pathsTake s r.part (tierPaths n r)) (cleared s n).tier :=
    pathsTake_withTier s (cleared s n).tier _ _
  rw [h, pathsTake_frame]
  rfl

@[simp] theorem tctlOf_credited (s : State) (n : Nat) (r : TierReq) (m : Nat) : tctlOf (credited s n r) m = tctlOf (cleared s n) m := by
  rw [credited_eq]; rfl

theorem tierArrival_waits {s : State} {n : Nat} {r : TierReq} (h : ¬ pathsPass s r.part (tierPaths n r) = true) :
    tierArrival s n r = { cleared s n with metered := s.metered ++ [(n, r)] } := by
  unfold tierArrival
  exact if_neg h

theorem tierArrival_enters {s : State} {n : Nat} {r : TierReq} (h : pathsPass s r.part (tierPaths n r) = true) :
    tierArrival s n r = tierEnter (credited s n r) n r := by
  unfold tierArrival
  exact if_pos h

/-! ### Entry into a controller -/

/-- Does a controller answer every request with an error (R210, R211)? -/
def ctlDown (t : TCtl) : Bool := t.faulted || t.repair.isSome

/-- Is a request held at its controller: behind a held request of its requester, or as a write of a protected page
(R368)? -/
def heldBack (s : State) (n : Nat) (r : TierReq) : Bool :=
  (tctlOf s n).held.any (fun h => h.2.2.agent = r.agent) || (r.data.isSome && ckptProtected s r.addr)

theorem tierEnter_down {s : State} {n : Nat} {r : TierReq} (h : ctlDown (tctlOf s n) = true) :
    tierEnter s n r = tierAnswer s n r 4 false := by
  unfold tierEnter
  exact if_pos h

theorem ckptProtected_wakeUnit (s : State) (u a : Nat) : ckptProtected (wakeUnit s u) a = ckptProtected s a := by
  rw [wakeUnit_frame]; rfl

theorem tierEnter_joins {s : State} {n : Nat} {r : TierReq} (hd : ctlDown (tctlOf s n) = false) (hb : heldBack s n r = false) :
    tierEnter s n r = modTctl (wakeUnit s (chanUnit n (channelOf r.addr))) n
      (fun t => joinQueue t (channelOf r.addr) (sourceOf n r) r) := by
  unfold tierEnter
  dsimp only
  rw [if_neg (by simpa [ctlDown] using hd), ckptProtected_wakeUnit]
  exact if_neg (by simpa [heldBack] using hb)

/-- A request that is held joins the held requests; where its page is protected, the page has a write that waits. -/
theorem tierEnter_holds {s : State} {n : Nat} {r : TierReq} (hd : ctlDown (tctlOf s n) = false) (hb : heldBack s n r = true) :
    tctlOf (tierEnter s n r) n =
      { tctlOf s n with held := (tctlOf s n).held ++ [(channelOf r.addr, sourceOf n r, r)] } ∧
    (∀ a, memByte (tierEnter s n r) a = memByte s a) ∧
    ((r.data.isSome && ckptProtected s r.addr) = true → pageOf r.addr ∈ (tierEnter s n r).ckpt.waiting) := by
  set u := modTctl (wakeUnit s (chanUnit n (channelOf r.addr))) n
    (fun t => { t with held := t.held ++ [(channelOf r.addr, sourceOf n r, r)] }) with hu
  have hprot : ckptProtected u r.addr = ckptProtected s r.addr := ckptProtected_wakeUnit s _ _
  have henter : tierEnter s n r =
      if r.data.isSome && ckptProtected u r.addr && !u.ckpt.waiting.contains (pageOf r.addr) then
        { u with ckpt := { u.ckpt with waiting := u.ckpt.waiting ++ [pageOf r.addr] } }
      else u := by
    unfold tierEnter
    dsimp only
    rw [if_neg (by simpa [ctlDown] using hd), ckptProtected_wakeUnit]
    exact if_pos (by simpa [heldBack] using hb)
  have htctl : tctlOf u n = { tctlOf s n with held := (tctlOf s n).held ++ [(channelOf r.addr, sourceOf n r, r)] } := by
    rw [hu, tctlOf_modTctl_same, tctlOf_wakeUnit]
  have hbytes : ∀ a, memByte u a = memByte s a := by
    intro a
    show memByte (wakeUnit s _) a = _
    rw [wakeUnit_frame]; rfl
  rw [henter, hprot]
  split
  · exact ⟨htctl, hbytes, fun _ => List.mem_append_right _ List.mem_cons_self⟩
  · next h =>
    refine ⟨htctl, hbytes, fun hp => ?_⟩
    simpa [hp] using h

/-! ### Queues -/

theorem joinQueue_queues_same (t : TCtl) (c src : Nat) (r : TierReq) :
    kGet [] (chanOf (joinQueue t c src r) c).queues src = kGet [] (chanOf t c).queues src ++ [r] := by
  simp [joinQueue]

theorem joinQueue_queues_other (t : TCtl) (c : Nat) {src j : Nat} (r : TierReq) (h : j ≠ src) :
    kGet [] (chanOf (joinQueue t c src r) c).queues j = kGet [] (chanOf t c).queues j := by
  simp [joinQueue, kGet_kSet_other _ _ _ _ _ h]

end Sys2Proof.Machine
end

section
/-! PROOFS. Slots of a tier controller's channels: what a slot serves, and what each outcome of a read or write changes
(R199, R200, R204, R208). -/

namespace Sys2Proof.Machine

/-! ### The frame of a slot -/

/-- A slot of a channel that does not doze. -/
theorem tierSlot_awake {s : State} {n c : Nat} (busy : List Nat) (res : Nat) (h : dozeOf s (chanUnit n c) = DozeUnit.reset) :
    tierSlot s n c busy res =
      slotEnd (slotAccess (slotRefresh (cleared s n) n c (chanEntry s n c)) n c (chanEntry s n c % 16) busy res) n c := by
  have hdoze : dozeOf (cleared s n) (chanUnit n c) = DozeUnit.reset := h
  have hentry : chanEntry (cleared s n) n c = chanEntry s n c := by
    have hact : calActive (cleared s n) n = calActive s n := rfl
    simp only [chanEntry, hact, tctlOf_cleared]
    rfl
  unfold tierSlot
  rw [← cleared]
  dsimp only
  rw [hentry, hdoze]
  exact congrArg (fun u => slotEnd u n c) (if_neg (by simp [DozeUnit.reset]))

/-- The next slot of a channel, with one slot less of each refresh to go (R208). -/
theorem chanOf_slotEnd (s : State) (n c : Nat) :
    (chanOf (tctlOf (slotEnd s n c) n) c).queues = (chanOf (tctlOf s n) c).queues ∧
    (chanOf (tctlOf (slotEnd s n c) n) c).slot = (chanOf (tctlOf s n) c).slot + 1 := by
  rw [slotEnd, tctlOf_modTctl_same, chanOf_setChan_same]
  exact ⟨rfl, rfl⟩

theorem answers_slotEnd (s : State) (n c : Nat) : (tctlOf (slotEnd s n c) n).answers = (tctlOf s n).answers := by
  rw [slotEnd, tctlOf_modTctl_same]; rfl

/-- A slot's refresh changes the channel's debt and rotation and what counting changes. -/
theorem slotRefresh_frame (s : State) (n c e : Nat) :
    slotRefresh s n c e = { s with tier := (slotRefresh s n c e).tier, regs := (slotRefresh s n c e).regs,
                                   trc := (slotRefresh s n c e).trc } := by
  unfold slotRefresh
  dsimp only
  split
  · rfl
  · split
    · rfl
    · rw [chanCount_frame]

theorem chanOf_slotRefresh (s : State) (n c e : Nat) :
    (chanOf (tctlOf (slotRefresh s n c e) n) c).queues = (chanOf (tctlOf s n) c).queues ∧
    (chanOf (tctlOf (slotRefresh s n c e) n) c).slot = (chanOf (tctlOf s n) c).slot := by
  unfold slotRefresh
  dsimp only
  split
  · exact ⟨rfl, rfl⟩
  · split
    · rw [tctlOf_modTctl_same, chanOf_setChan_same]; exact ⟨rfl, rfl⟩
    · rw [tctlOf_chanCount]; exact ⟨rfl, rfl⟩

/-- A slot of a source whose queue is empty serves nothing (R204). -/
theorem slotAccess_empty {s : State} {n c src : Nat} (busy : List Nat) (res : Nat) (h15 : src ≠ 15)
    (hq : kGet [] (chanOf (tctlOf s n) c).queues src = []) : slotAccess s n c src busy res = s := by
  unfold slotAccess
  dsimp only
  rw [if_neg h15, hq]
  exact ite_self s

/-! ### The OPEN slot of default mode (R204, R206) -/

/-- The source of a request is one of its controller's. -/
theorem sourceOf_range (n : Nat) (r : TierReq) : 1 ≤ sourceOf n r ∧ sourceOf n r ≤ ctlSources n := by
  unfold sourceOf ctlSources
  cases r.agent <;> dsimp only <;> split_ifs <;> omega

theorem sourceOf_mem_openOrder (n : Nat) (r : TierReq) : sourceOf n r ∈ openOrder n := by
  obtain ⟨h1, h2⟩ := sourceOf_range n r
  exact List.mem_reverse.2 (List.mem_map.2 ⟨sourceOf n r - 1, List.mem_range.2 (by omega), by omega⟩)

/-- A search in which only `a` succeeds finds it. -/
theorem findSome?_of_only {α β : Type} {f : α → Option β} {a : α} {y : β} {l : List α} (ha : a ∈ l) (hf : f a = some y)
    (hn : ∀ b, b ≠ a → f b = none) : l.findSome? f = some y := by
  induction l with
  | nil => cases ha
  | cons b l ih =>
    by_cases hb : b = a
    · rw [List.findSome?_cons, hb, hf]
    · rw [List.findSome?_cons, hn b hb]
      exact ih ((List.mem_cons.1 ha).resolve_left (Ne.symm hb))

/-- An OPEN slot serves the one request of a channel, its bank free. -/
theorem slotAccess_open {s : State} {n c : Nat} {busy : List Nat} (res : Nat) {r : TierReq}
    (hk : chanOf (tctlOf s n) c = { TChan.reset with queues := [(sourceOf n r, [r])] }) (hb : bankOf r.addr ∉ busy) :
    slotAccess s n c 15 busy res = serveHead s n c (sourceOf n r) res r := by
  have hfree : headBlocked (chanOf (tctlOf s n) c) (sourceOf n r) busy r = none := by
    simp [headBlocked, lineHeld, hk, TChan.reset, hb]
  have hq : kGet [] (chanOf (tctlOf s n) c).queues (sourceOf n r) = [r] := by simp [hk, kGet]
  unfold slotAccess
  dsimp only
  rw [if_neg (by omega), if_pos rfl, findSome?_of_only (y := (sourceOf n r, r)) (sourceOf_mem_openOrder n r)]
  · rw [hq]
    simp [hfree]
  · intro q hne
    have : kGet [] (chanOf (tctlOf s n) c).queues q = [] := by
      rw [hk]
      simp [kGet, hne]
    rw [this]

/-- In default mode a slot carries no REF mark. -/
theorem slotRefresh_default (s : State) (n c : Nat) : slotRefresh s n c 15 = s := by
  simp [slotRefresh, refApplies]

/-- A slot in default mode of a channel with one request waiting, its bank free. -/
theorem tierSlot_default {s : State} {n c : Nat} {busy : List Nat} (res : Nat) {r : TierReq} (hcal : calActive s n = 0)
    (hdoze : dozeOf s (chanUnit n c) = DozeUnit.reset)
    (hk : chanOf (tctlOf s n) c = { TChan.reset with queues := [(sourceOf n r, [r])] }) (hb : bankOf r.addr ∉ busy) :
    tierSlot s n c busy res = slotEnd (serveHead (cleared s n) n c (sourceOf n r) res r) n c := by
  have hentry : chanEntry s n c = 15 := by simp [chanEntry, hcal]
  rw [tierSlot_awake busy res hdoze, hentry, slotRefresh_default]
  exact congrArg (fun u => slotEnd u n c) (slotAccess_open res (by rw [tctlOf_cleared]; exact hk) hb)

/-! ### Heads of queues -/

/-- A channel whose head of source `src` has left its queue. -/
def popped (k : TChan) (src : Nat) : TChan :=
  { k with queues := kSet k.queues src ((kGet [] k.queues src).drop 1), rmw := k.rmw.filter (· ≠ src), tries := kSet k.tries src 0 }

theorem tctlOf_headDone (s : State) (n c src : Nat) (r : TierReq) (status : Nat) (poison : Bool) :
    tctlOf (headDone s n c src r status poison) n =
      { setChan (tctlOf s n) c (popped (chanOf (tctlOf s n) c) src) with
        answers := (tctlOf s n).answers ++ [⟨r, status, poison⟩] } := by
  rw [headDone, tctlOf_tierAnswer_same, popHead, tctlOf_modTctl_same]
  rfl

theorem ctlOnly_headDone (s : State) (n c src : Nat) (r : TierReq) (status : Nat) (poison : Bool) :
    CtlOnly s (headDone s n c src r status poison) n :=
  (ctlOnly_modTctl s n _).trans (ctlOnly_tierAnswer _ n r status poison)

theorem headDone_cores_of_ok (s : State) (n c src : Nat) (r : TierReq) : (headDone s n c src r 0 false).cores = s.cores :=
  tierAnswer_cores_of_ok (popHead s n c src) n r

/-- The one request of source `src` has left its queue and is the one answered. -/
def AnsweredHead (t : State) (n c src : Nat) (a : TierAns) : Prop :=
  kGet [] (chanOf (tctlOf t n) c).queues src = [] ∧ (tctlOf t n).answers = [a]

theorem answeredHead_headDone {s : State} {n c src : Nat} {r : TierReq} (status : Nat) (poison : Bool)
    (hq : kGet [] (chanOf (tctlOf s n) c).queues src = [r]) (ha : (tctlOf s n).answers = []) :
    AnsweredHead (headDone s n c src r status poison) n c src ⟨r, status, poison⟩ := by
  rw [AnsweredHead, tctlOf_headDone, ha]
  refine ⟨?_, rfl⟩
  show kGet [] (chanOf (setChan (tctlOf s n) c (popped (chanOf (tctlOf s n) c) src)) c).queues src = []
  rw [chanOf_setChan_same, popped, hq]
  exact kGet_kSet_same _ _ _ _

theorem AnsweredHead.congr {s t : State} {n c src : Nat} {a : TierAns} (h : AnsweredHead s n c src a) (ht : tctlOf t n = tctlOf s n) :
    AnsweredHead t n c src a := by rw [AnsweredHead, ht]; exact h

theorem AnsweredHead.slotEnd {s : State} {n c src : Nat} {a : TierAns} (h : AnsweredHead s n c src a) :
    AnsweredHead (slotEnd s n c) n c src a :=
  ⟨by rw [(chanOf_slotEnd s n c).1]; exact h.1, by rw [answers_slotEnd]; exact h.2⟩

/-- Controllers with the same faults and repairs are down at the same addresses. -/
theorem tierDown_congr {s t : State}
    (h : ∀ m, (tctlOf t m).faulted = (tctlOf s m).faulted ∧ (tctlOf t m).repair = (tctlOf s m).repair) (a : Nat) :
    tierDown t a = tierDown s a := by
  unfold tierDown
  split
  · next m _ =>
    obtain ⟨hf, hr⟩ := h m
    simp only [tctlOf] at hf hr
    rw [hf, hr]
  · rfl

/-! ### Service of a head (R199, R200) -/

/-- A controller that serves a request: a retraining has succeeded, and the access is counted. -/
def serving (s : State) (n c : Nat) : State := chanCount (modTctl s n (fun t => { t with retraining := false })) n c 6

@[simp] theorem tctlOf_serving (s : State) (n c : Nat) : tctlOf (serving s n c) n = { tctlOf s n with retraining := false } := by
  simp [serving]

theorem serving_frame (s : State) (n c : Nat) :
    serving s n c = { s with tier := (serving s n c).tier, regs := (serving s n c).regs, trc := (serving s n c).trc } := by
  rw [serving, chanCount_frame]
  rfl

theorem regsWf_serving {s : State} {n c : Nat} (hn : n < 32) (hc : c < 32) (hs : regsWf s) : regsWf (serving s n c) :=
  (logged_chanCount _ hn hc (by omega)).wf hs

theorem serveHead_bad {s : State} {n c src : Nat} (res : Nat) {r : TierReq} (hw : r.data.isSome = true) (hb : r.bad = true) :
    serveHead s n c src res r = headDone (serving s n c) n c src r 4 false := by
  unfold serveHead
  dsimp only
  rw [if_neg (by simpa [Option.isSome_iff_ne_none] using hw), if_pos hb]
  rfl

theorem serveHead_fullWrite {s : State} {n c src : Nat} (res : Nat) {r : TierReq} (hw : r.data.isSome = true) (hb : r.bad = false)
    (hp : partialWrite r = false) : serveHead s n c src res r = serveWrite (serving s n c) n c src res r := by
  unfold serveHead
  dsimp only
  rw [if_neg (by simpa [Option.isSome_iff_ne_none] using hw), if_neg (by simp [hb]), if_neg (by simp [hp])]
  rfl

theorem serveHead_read {s : State} {n c src : Nat} (res : Nat) {r : TierReq} (hd : r.data = none) :
    serveHead s n c src res r = serveRead (serving s n c) n c src res r
      (fun u => headDone u n c src r 0 false) (fun u => headDone u n c src r 0 true) := by
  unfold serveHead
  dsimp only
  rw [if_pos (by simp [hd])]
  rfl

theorem serveWrite_done (s : State) (n c src : Nat) {r : TierReq} {bs : List Byte} (hd : r.data = some bs) (ha : r.add = none) :
    serveWrite s n c src 0 r = memWrite (headDone s n c src r 0 false) r.addr bs := by
  simp [serveWrite, writtenBytes, hd, ha]

theorem serveWrite_resend {s : State} {n c src : Nat} (r : TierReq) (ht : headTries (chanOf (tctlOf s n) c) src < 8) :
    serveWrite s n c src 4 r = tryAgain (rset s (rTIER_ERR n) fTIER_ERR_RESEND) n c src 2 := by
  unfold serveWrite
  rw [if_pos rfl, if_pos ht]

/-- A failed attempt keeps the queues. -/
theorem chanOf_tryAgain (s : State) (n c src kind : Nat) :
    (chanOf (tctlOf (tryAgain s n c src kind) n) c).queues = (chanOf (tctlOf s n) c).queues := by
  rw [tryAgain, tctlOf_monEvent, tctlOf_chanCount, tctlOf_modTctl_same, chanOf_setChan_same]

theorem memByte_tryAgain (s : State) (n c src kind a : Nat) : memByte (tryAgain s n c src kind) a = memByte s a := by
  rw [tryAgain, chanCount_frame]; rfl

theorem rflag_tryAgain {s : State} {n c src kind : Nat} (hn : n < 32) (hc : c < 32) (hk : kind < 16) (hs : regsWf s) {o : Nat}
    (ho : logReg o = false) (f : Fld) : rflag (tryAgain s n c src kind) o f = rflag s o f :=
  (logged_chanCount (modTctl s n _) hn hc hk).rflag_eq hs ho f

/-! ### Reads -/

theorem markLine_frame (s : State) (line : Nat) (b : Bool) : markLine s line b = { s with memBad := (markLine s line b).memBad } :=
  foldl_setBad_frame (fun i => line * 256 + 8 * i) b _ s

theorem markLine_regs (s : State) (line : Nat) (b : Bool) : (markLine s line b).regs = s.regs := by rw [markLine_frame]
theorem markLine_tier (s : State) (line : Nat) (b : Bool) : (markLine s line b).tier = s.tier := by rw [markLine_frame]

/-- A read that passes on its first attempt: at most the poison marks of its line are cleared. -/
theorem serveRead_passes {s : State} {n c src : Nat} (r : TierReq) (done failed : State → State)
    (ht : headTries (chanOf (tctlOf s n) c) src = 0) :
    ∃ u : State, u = { s with memBad := u.memBad } ∧ serveRead s n c src 0 r done failed = done u := by
  refine ⟨if memBadIn s (r.addr / 256 * 256) 256 then markLine s (r.addr / 256) false else s, ?_, ?_⟩
  · split
    · exact markLine_frame s _ false
    · rfl
  · simp [serveRead, ht]

theorem serveRead_uncorrected (s : State) (n c src : Nat) (r : TierReq) (done failed : State → State) :
    serveRead s n c src 3 r done failed = failed (poisonLine (rset s (rTIER_ERR n) fTIER_ERR_ONDIE_UE) n c r false) := rfl

/-- The first line poisoned is logged with its channel (R200). -/
def poisonLogged (s : State) (n c : Nat) (r : TierReq) : State :=
  if rflag s (rTIER_ERR n) fTIER_ERR_POISON then s
  else rwr (rput s (rTIER_ERR n) fTIER_ERR_CHANNEL c) (rTIER_ERR_ADDR n) (BitVec.ofNat 64 (r.addr / 256 * 256))

/-- A line delivered poisoned, before its record: the log, POISON, the count and the marks. -/
def poisonMarked (s : State) (n c : Nat) (r : TierReq) : State :=
  markLine (chanCount (rset (poisonLogged s n c r) (rTIER_ERR n) fTIER_ERR_POISON) n c 3) (r.addr / 256) true

/-- Without a failed CRC check a poisoned line ends in a CPER record (R200). -/
theorem poisonLine_record (s : State) (n c : Nat) (r : TierReq) :
    ∃ i, poisonLine s n c r false = cperWrite (monEvent (poisonMarked s n c r) 2 1) i := by
  unfold poisonLine poisonMarked poisonLogged
  dsimp only
  exact ⟨_, if_pos rfl⟩

theorem poisonLogged_spec {s : State} (n c : Nat) (r : TierReq) (hs : regsWf s) :
    (poisonLogged s n c r).tier = s.tier ∧ regsWf (poisonLogged s n c r) ∧
    rflag (poisonLogged s n c r) (rTIER_ERR n) fTIER_ERR_ONDIE_UE = rflag s (rTIER_ERR n) fTIER_ERR_ONDIE_UE := by
  unfold poisonLogged
  split
  · exact ⟨rfl, hs, rfl⟩
  · have hwf := regsWf_rput s (rTIER_ERR n) fTIER_ERR_CHANNEL c hs
    have hne : rTIER_ERR n ≠ rTIER_ERR_ADDR n := by unfold rTIER_ERR rTIER_ERR_ADDR; omega
    refine ⟨rfl, regsWf_rwr _ _ _ hwf, ?_⟩
    rw [rflag_congr (rd_rwr_other _ _ _ _ hwf hne)]
    exact rflag_rput_below s _ _ _ _ hs (by decide) (by decide) (by decide)

theorem poisonMarked_spec {s : State} {n c : Nat} (r : TierReq) (hn : n < 32) (hc : c < 32) (hs : regsWf s) :
    (poisonMarked s n c r).tier = s.tier ∧ regsWf (poisonMarked s n c r) ∧
    rd (poisonMarked s n c r) (rTIER_ERR n) = rd (rset (poisonLogged s n c r) (rTIER_ERR n) fTIER_ERR_POISON) (rTIER_ERR n) := by
  obtain ⟨htier, hwf, -⟩ := poisonLogged_spec n c r hs
  have hwf' := regsWf_rset _ (rTIER_ERR n) fTIER_ERR_POISON hwf
  have hl : Logged _ (chanCount (rset (poisonLogged s n c r) (rTIER_ERR n) fTIER_ERR_POISON) n c 3) :=
    logged_chanCount _ hn hc (by omega)
  rw [poisonMarked, markLine_tier, regsWf, rd, markLine_regs]
  exact ⟨(hl.tier.trans (rset_tier _ _ _)).trans htier, hl.wf hwf', hl.same hwf' _ (logReg_tierBase hn (by omega))⟩

/-- A line poisoned without a failed CRC check (R200): POISON is set, ONDIE_UE stays as it was, and the controllers are
as before. -/
theorem poisonLine_uncorrected {s : State} {n c : Nat} (r : TierReq) (hn : n < 32) (hc : c < 32) (hs : regsWf s) :
    (poisonLine s n c r false).tier = s.tier ∧
    rflag (poisonLine s n c r false) (rTIER_ERR n) fTIER_ERR_POISON = true ∧
    rflag (poisonLine s n c r false) (rTIER_ERR n) fTIER_ERR_ONDIE_UE = rflag s (rTIER_ERR n) fTIER_ERR_ONDIE_UE := by
  obtain ⟨-, hwfLogged, hue⟩ := poisonLogged_spec n c r hs
  obtain ⟨htier, hwf, hrd⟩ := poisonMarked_spec r hn hc hs
  obtain ⟨i, hi⟩ := poisonLine_record s n c r
  set u := poisonMarked s n c r
  have hl := logged_cperWrite (monEvent u 2 1) i
  have hwf' : regsWf (monEvent u 2 1) := by rw [regsWf, monEvent_regs]; exact hwf
  have hrd' : rd (poisonLine s n c r false) (rTIER_ERR n) = rd (rset (poisonLogged s n c r) (rTIER_ERR n) fTIER_ERR_POISON) (rTIER_ERR n) := by
    rw [hi]
    rw [rTIER_ERR, hl.same hwf' _ (logReg_tierBase hn (by omega)), rd, monEvent_regs]
    exact hrd
  refine ⟨by rw [hi, hl.tier, monEvent_tier, htier], ?_, ?_⟩
  · rw [rflag_congr hrd']
    exact rflag_rset_same _ _ _ hwfLogged rfl (by decide)
  · rw [rflag_congr hrd']
    exact (rflag_rput_below _ _ _ _ 1 hwfLogged (by decide) (by decide) (by decide)).trans hue

end Sys2Proof.Machine
end

section
/-! PROOFS. What an arriving request and a slot of a tier controller change (R14, R199–R204, R210, R319, R368). -/

namespace Sys2Proof.Safety

open Sys2Proof Sys2Proof.Machine

/-! ### Controllers that take writes -/

/-- An operation that leaves the faults and repairs leaves the addresses at which writes are taken. -/
theorem tierDown_of_ctl {s t : State} {n : Nat} (ho : ∀ m, m ≠ n → tctlOf t m = tctlOf s m)
    (hf : (tctlOf t n).faulted = (tctlOf s n).faulted) (hr : (tctlOf t n).repair = (tctlOf s n).repair) (a : Nat) :
    tierDown t a = tierDown s a := by
  refine tierDown_congr (fun m => ?_) a
  by_cases hm : m = n
  · rw [hm]; exact ⟨hf, hr⟩
  · rw [ho m hm]; exact ⟨rfl, rfl⟩

theorem tierDown_cleared (s : State) (n a : Nat) : tierDown (cleared s n) a = tierDown s a :=
  tierDown_of_ctl (n := n) (fun _ hm => by rw [cleared, tctlOf_modTctl_other s _ hm])
    (by rw [tctlOf_cleared]) (by rw [tctlOf_cleared]) a

theorem tierDown_serving (s : State) (n c a : Nat) : tierDown (serving s n c) a = tierDown s a :=
  tierDown_of_ctl (n := n) (fun _ hm => by rw [serving, tctlOf_chanCount, tctlOf_modTctl_other _ _ hm])
    (by rw [tctlOf_serving]) (by rw [tctlOf_serving]) a

theorem tierDown_headDone (s : State) (n c src : Nat) (r : TierReq) (status : Nat) (poison : Bool) (a : Nat) :
    tierDown (headDone s n c src r status poison) a = tierDown s a :=
  tierDown_of_ctl (ctlOnly_headDone s n c src r status poison).others (by rw [tctlOf_headDone]; rfl) (by rw [tctlOf_headDone]; rfl) a

theorem memByte_slotEnd (s : State) (n c a : Nat) : memByte (slotEnd s n c) a = memByte s a := memByte_congr rfl rfl a

theorem cores_slotEnd (s : State) (n c : Nat) : (slotEnd s n c).cores = s.cores := rfl

theorem rflag_slotEnd (s : State) (n c o : Nat) (f : Fld) : rflag (slotEnd s n c) o f = rflag s o f := rfl

/-! ### A slot in default mode -/

/-- A channel of a controller in default mode holds one request, and its bank is free. -/
structure OneWaiting (s : State) (n c : Nat) (busy : List Nat) (r : TierReq) : Prop where
  ctl : n < 32
  chan : c < 32
  canon : Canon s
  noCal : calActive s n = 0
  awake : dozeOf s (chanUnit n c) = DozeUnit.reset
  waits : chanOf (tctlOf s n) c = { TChan.reset with queues := [(sourceOf n r, [r])] }
  free : bankOf r.addr ∉ busy

namespace OneWaiting

variable {s : State} {n c : Nat} {busy : List Nat} {r : TierReq}

theorem slot (h : OneWaiting s n c busy r) (res : Nat) :
    tierSlot s n c busy res = slotEnd (serveHead (cleared s n) n c (sourceOf n r) res r) n c :=
  tierSlot_default res h.noCal h.awake h.waits h.free

theorem chan_at (h : OneWaiting s n c busy r) :
    chanOf (tctlOf (serving (cleared s n) n c) n) c = { TChan.reset with queues := [(sourceOf n r, [r])] } := by
  rw [tctlOf_serving, tctlOf_cleared]
  exact h.waits

theorem queue_at (h : OneWaiting s n c busy r) :
    kGet [] (chanOf (tctlOf (serving (cleared s n) n c) n) c).queues (sourceOf n r) = [r] := by
  rw [h.chan_at]
  simp [kGet]

theorem tries_at (h : OneWaiting s n c busy r) : headTries (chanOf (tctlOf (serving (cleared s n) n c) n) c) (sourceOf n r) = 0 := by
  rw [h.chan_at]
  rfl

theorem answers_at (s : State) (n c : Nat) : (tctlOf (serving (cleared s n) n c) n).answers = [] := by
  rw [tctlOf_serving, tctlOf_cleared]

theorem mem_at (s : State) (n c : Nat) : (serving (cleared s n) n c).mem = s.mem := by rw [serving_frame]; rfl
theorem memUndef_at (s : State) (n c : Nat) : (serving (cleared s n) n c).memUndef = s.memUndef := by rw [serving_frame]; rfl
theorem cores_at (s : State) (n c : Nat) : (serving (cleared s n) n c).cores = s.cores := by rw [serving_frame]; rfl

theorem memByte_at (s : State) (n c a : Nat) : memByte (serving (cleared s n) n c) a = memByte s a :=
  memByte_congr (mem_at s n c) (memUndef_at s n c) a

theorem regsWf_at (h : OneWaiting s n c busy r) : regsWf (serving (cleared s n) n c) := regsWf_serving h.ctl h.chan h.canon.2

/-- A full-line write stores its bytes where controllers take writes, and no other byte differs (R199, R204). -/
theorem write_done (h : OneWaiting s n c busy r) {bs : List Byte} (hd : r.data = some bs) (ha : r.add = none)
    (hp : partialWrite r = false) (hb : r.bad = false) :
    (∀ i, i < bs.length → tierDown s (r.addr + i) = false → memByte (tierSlot s n c busy 0) (r.addr + i) = bs.getD i 0) ∧
    (∀ a, (a < r.addr ∨ r.addr + bs.length ≤ a) → memByte (tierSlot s n c busy 0) a = memByte s a) ∧
    AnsweredHead (tierSlot s n c busy 0) n c (sourceOf n r) ⟨r, 0, false⟩ ∧ (tierSlot s n c busy 0).cores = s.cores := by
  set u := headDone (serving (cleared s n) n c) n c (sourceOf n r) r 0 false with hu
  have hslot : tierSlot s n c busy 0 = slotEnd (memWrite u r.addr bs) n c := by
    rw [h.slot, serveHead_fullWrite 0 (by rw [hd]; rfl) hb hp, serveWrite_done _ _ _ _ hd ha]
  have hctl := ctlOnly_headDone (serving (cleared s n) n c) n c (sourceOf n r) r 0 false
  have hwf : memWf u = true := by
    rw [memWf, hu, hctl.frame]
    exact (congrArg (smWf (fun _ => (0 : Byte))) (mem_at s n c)).trans h.canon.1.1
  have hdown : ∀ a, tierDown u a = tierDown s a := fun a =>
    (tierDown_headDone _ n c _ r 0 false a).trans ((tierDown_serving _ n c a).trans (tierDown_cleared s n a))
  rw [hslot]
  refine ⟨fun i hi hup => ?_, fun a ha' => ?_, ?_, ?_⟩
  · rw [memByte_slotEnd, (memByte_memWrite u r.addr bs hwf (r.addr + i)).1 ⟨by omega, (hdown _).trans hup⟩,
      Nat.add_sub_cancel_left]
  · rw [memByte_slotEnd, (memByte_memWrite u r.addr bs hwf a).2 (fun hst => by have := hst.1; omega), hctl.memByte, memByte_at]
  · exact ((answeredHead_headDone 0 false h.queue_at (answers_at s n c)).congr (tctlOf_memWrite u r.addr bs n)).slotEnd
  · rw [cores_slotEnd, (logged_memWrite u r.addr bs).cores, headDone_cores_of_ok, cores_at]

/-- A write-link error keeps the write for a resend and raises RESEND (R199, R210). -/
theorem write_resend (h : OneWaiting s n c busy r) (hw : r.data.isSome = true) (hp : partialWrite r = false) (hb : r.bad = false) :
    SameMem s (tierSlot s n c busy 4) ∧
    kGet [] (chanOf (tctlOf (tierSlot s n c busy 4) n) c).queues (sourceOf n r) = [r] ∧
    rflag (tierSlot s n c busy 4) (rTIER_ERR n) fTIER_ERR_RESEND = true := by
  set u := rset (serving (cleared s n) n c) (rTIER_ERR n) fTIER_ERR_RESEND with hu
  have hslot : tierSlot s n c busy 4 = slotEnd (tryAgain u n c (sourceOf n r) 2) n c := by
    rw [h.slot, serveHead_fullWrite 4 hw hb hp, serveWrite_resend r (by rw [h.tries_at]; omega)]
  rw [hslot]
  refine ⟨fun a => ?_, ?_, ?_⟩
  · rw [memByte_slotEnd, memByte_tryAgain]
    exact memByte_at s n c a
  · rw [(chanOf_slotEnd _ n c).1, chanOf_tryAgain, hu, tctlOf_rset]
    exact h.queue_at
  · have hlog : logReg (rTIER_ERR n) = false := logReg_tierBase h.ctl (by omega)
    rw [rflag_slotEnd, rflag_tryAgain (kind := 2) h.ctl h.chan (by omega) (regsWf_rset _ _ _ h.regsWf_at) hlog]
    exact rflag_rset_same _ _ _ h.regsWf_at rfl (by decide)

/-- A write with an uncorrectable codeword is answered with an error and stores nothing (R199). -/
theorem write_bad (h : OneWaiting s n c busy r) (res : Nat) (hw : r.data.isSome = true) (hb : r.bad = true) :
    SameMem s (tierSlot s n c busy res) ∧ AnsweredHead (tierSlot s n c busy res) n c (sourceOf n r) ⟨r, 4, false⟩ := by
  rw [h.slot, serveHead_bad res hw hb]
  refine ⟨fun a => ?_, (answeredHead_headDone 4 false h.queue_at (answers_at s n c)).slotEnd⟩
  rw [memByte_slotEnd, (ctlOnly_headDone _ n c _ r 4 false).memByte, memByte_at]

/-- A read that passes is answered with memory as it was (R200). -/
theorem read_passes (h : OneWaiting s n c busy r) (hd : r.data = none) :
    SameMem s (tierSlot s n c busy 0) ∧ AnsweredHead (tierSlot s n c busy 0) n c (sourceOf n r) ⟨r, 0, false⟩ ∧
    (tierSlot s n c busy 0).cores = s.cores := by
  rw [h.slot, serveHead_read 0 hd]
  obtain ⟨u, hu, hread⟩ := serveRead_passes r (fun u => headDone u n c (sourceOf n r) r 0 false)
    (fun u => headDone u n c (sourceOf n r) r 0 true) h.tries_at
  rw [hread]
  have htctl : tctlOf u n = tctlOf (serving (cleared s n) n c) n := tctlOf_congr (by rw [hu]) n
  refine ⟨fun a => ?_, (answeredHead_headDone 0 false ?_ ?_).slotEnd, ?_⟩
  · rw [memByte_slotEnd, (ctlOnly_headDone u n c _ r 0 false).memByte,
      memByte_congr (s := serving (cleared s n) n c) (by rw [hu]) (by rw [hu]), memByte_at]
  · rw [htctl]; exact h.queue_at
  · rw [htctl]; exact answers_at s n c
  · rw [cores_slotEnd, headDone_cores_of_ok, show u.cores = (serving (cleared s n) n c).cores by rw [hu], cores_at]

/-- A read reported uncorrected is answered as poisoned, with ONDIE_UE and POISON raised (R200). -/
theorem read_uncorrected (h : OneWaiting s n c busy r) (hd : r.data = none) :
    AnsweredHead (tierSlot s n c busy 3) n c (sourceOf n r) ⟨r, 0, true⟩ ∧
    rflag (tierSlot s n c busy 3) (rTIER_ERR n) fTIER_ERR_ONDIE_UE = true ∧
    rflag (tierSlot s n c busy 3) (rTIER_ERR n) fTIER_ERR_POISON = true := by
  set u := rset (serving (cleared s n) n c) (rTIER_ERR n) fTIER_ERR_ONDIE_UE with hu
  have hwf : regsWf u := regsWf_rset _ _ _ h.regsWf_at
  obtain ⟨htier, hpoison, hue⟩ := poisonLine_uncorrected r h.ctl h.chan hwf
  have htctl : tctlOf (poisonLine u n c r false) n = tctlOf (serving (cleared s n) n c) n := tctlOf_congr htier n
  have hregs := (ctlOnly_headDone (poisonLine u n c r false) n c (sourceOf n r) r 0 true).regs
  have hflag : ∀ f, rflag (headDone (poisonLine u n c r false) n c (sourceOf n r) r 0 true) (rTIER_ERR n) f =
      rflag (poisonLine u n c r false) (rTIER_ERR n) f := fun f => rflag_congr (by rw [rd, hregs, rd]) f
  rw [h.slot, serveHead_read 3 hd, serveRead_uncorrected, rflag_slotEnd, rflag_slotEnd, hflag, hflag]
  refine ⟨(answeredHead_headDone 0 true ?_ ?_).slotEnd, hue.trans ?_, hpoison⟩
  · rw [htctl]; exact h.queue_at
  · rw [htctl]; exact answers_at s n c
  · exact rflag_rset_same _ _ _ h.regsWf_at rfl (by decide)

end OneWaiting

/-! ### A slot of a source without requests -/

/-- Such a slot serves nothing: its refresh apart, only the slot's number goes on (R204, R208). -/
theorem tierSlot_idle {s : State} {n c : Nat} (busy : List Nat) (res : Nat) (hdoze : dozeOf s (chanUnit n c) = DozeUnit.reset)
    (h15 : chanEntry s n c % 16 ≠ 15) (hq : kGet [] (chanOf (tctlOf s n) c).queues (chanEntry s n c % 16) = []) :
    SameMem s (tierSlot s n c busy res) ∧ (tierSlot s n c busy res).cores = s.cores ∧
    (chanOf (tctlOf (tierSlot s n c busy res) n) c).queues = (chanOf (tctlOf s n) c).queues ∧
    (chanOf (tctlOf (tierSlot s n c busy res) n) c).slot = (chanOf (tctlOf s n) c).slot + 1 := by
  set u := slotRefresh (cleared s n) n c (chanEntry s n c) with hu
  obtain ⟨hqueues, hslots⟩ := chanOf_slotRefresh (cleared s n) n c (chanEntry s n c)
  rw [tctlOf_cleared] at hqueues hslots
  have hframe := slotRefresh_frame (cleared s n) n c (chanEntry s n c)
  rw [← hu] at hqueues hslots hframe
  have hslot : tierSlot s n c busy res = slotEnd u n c := by
    rw [tierSlot_awake busy res hdoze, slotAccess_empty busy res h15 (by rw [← hu, hqueues]; exact hq)]
  rw [hslot, (chanOf_slotEnd u n c).1, (chanOf_slotEnd u n c).2, cores_slotEnd]
  refine ⟨fun a => ?_, by rw [hframe]; rfl, hqueues, by rw [hslots]; rfl⟩
  rw [memByte_slotEnd]
  exact memByte_congr (by rw [hframe]; rfl) (by rw [hframe]; rfl) a

/-! ### Arrival -/

/-- A tier-1 address lies on one of the four compute dies. -/
theorem tierSplit_die {a d l : Nat} (h : tierSplit a = some (true, d, l)) : d < 4 := by
  unfold tierSplit at h
  split at h
  · next h1 =>
    simp only [isTier1, decide_eq_true_eq] at h1
    simp only [Option.some.injEq, Prod.mk.injEq, true_and] at h
    omega
  · split at h <;> cases h

/-- The channel of an address is one of its controller's (R196). -/
theorem channelOf_lt_ctlChans {a n : Nat} (h : stackOf a = some n) : channelOf a < ctlChans n := by
  unfold stackOf at h
  unfold channelOf ctlChans
  cases hs : tierSplit a with
  | none => simp [hs] at h
  | some q =>
    obtain ⟨one, d, l⟩ := q
    rw [hs] at h
    cases one with
    | true =>
      have hd := tierSplit_die hs
      have hn : 6 * d + l % 6 = n := Option.some.inj h
      show l / 6 % 32 < _
      rw [if_pos (by omega)]
      omega
    | false =>
      have hn : 24 + 4 * d + l % 4 = n := Option.some.inj h
      show l / 4 % 16 < _
      rw [if_neg (by omega)]
      omega

theorem ctlChans_le (n : Nat) : ctlChans n ≤ 32 := by
  unfold ctlChans
  split <;> omega

theorem ctlDown_iff (t : TCtl) : ctlDown t = true ↔ t.faulted = true ∨ t.repair.isSome = true := by simp [ctlDown]

/-- What holds a request back at its controller, seen once it has passed its meters (R368). -/
theorem heldBack_credited (s : State) (n : Nat) (r : TierReq) :
    heldBack (credited s n r) n r = true ↔
      (∃ h ∈ (tctlOf s n).held, h.2.2.agent = r.agent) ∨ (r.data.isSome && ckptProtected s r.addr) = true := by
  have hprot : ckptProtected (credited s n r) r.addr = ckptProtected s r.addr := by rw [credited_eq]; rfl
  rw [heldBack, tctlOf_credited, tctlOf_cleared, hprot, Bool.or_eq_true, List.any_eq_true]
  simp only [decide_eq_true_eq]

theorem memByte_credited (s : State) (n : Nat) (r : TierReq) (a : Nat) : memByte (credited s n r) a = memByte s a :=
  memByte_congr (by rw [credited_eq]) (by rw [credited_eq]) a

theorem ctxOf_credited (s : State) (n : Nat) (r : TierReq) (d x : Nat) : ctxOf (credited s n r) d x = ctxOf s d x := by
  rw [credited_eq]; rfl

/-- A request that joins its queue: the queue has it at its end, no other queue and no other controller differs, and
its bytes are taken from its meters (R203, R319). -/
theorem tierEnter_joins_spec {s : State} {n : Nat} {r : TierReq} (hd : ctlDown (tctlOf s n) = false)
    (hb : heldBack (credited s n r) n r = false) :
    let t := tierEnter (credited s n r) n r
    let k := chanOf (tctlOf s n) (channelOf r.addr)
    kGet [] (chanOf (tctlOf t n) (channelOf r.addr)).queues (sourceOf n r) = kGet [] k.queues (sourceOf n r) ++ [r] ∧
    (∀ j, j ≠ sourceOf n r → kGet [] (chanOf (tctlOf t n) (channelOf r.addr)).queues j = kGet [] k.queues j) ∧
    (∀ m, m ≠ n → tctlOf t m = tctlOf s m) ∧ t.parts = (pathsTake s r.part (tierPaths n r)).parts ∧
    t = { s with tier := t.tier, doze := t.doze, regs := t.regs, trc := t.trc, parts := t.parts } := by
  have hd' : ctlDown (tctlOf (credited s n r) n) = false := by rw [tctlOf_credited, tctlOf_cleared]; exact hd
  rw [tierEnter_joins hd' hb]
  dsimp only
  have htctl : tctlOf (wakeUnit (credited s n r) (chanUnit n (channelOf r.addr))) n = { tctlOf s n with answers := [] } := by
    rw [tctlOf_wakeUnit, tctlOf_credited, tctlOf_cleared]
  rw [tctlOf_modTctl_same, htctl]
  refine ⟨joinQueue_queues_same _ _ _ r, fun j hj => joinQueue_queues_other _ _ r hj, fun m hm => ?_, ?_, ?_⟩
  · rw [tctlOf_modTctl_other _ _ hm, tctlOf_wakeUnit, tctlOf_credited, cleared, tctlOf_modTctl_other _ _ hm]
  · rw [modTctl_frame, wakeUnit_frame, credited_eq]
  · rw [modTctl_frame, wakeUnit_frame, credited_eq]

/-- Settles O25: the arrival clauses by what lets a request pass, the slot clauses by what the slot serves. -/
theorem tierRequestsAndSlots : Obligations.TierRequestsAndSlots := by
  unfold Obligations.TierRequestsAndSlots
  intro s n c src r hn hstack hc hagent hsrc hcanon
  subst hc hsrc
  have harrives : (decide (n < 32) && stackOf r.addr = some n && decide (channelOf r.addr = channelOf r.addr) && agentOk r.agent &&
      decide (sourceOf n r = sourceOf n r)) = true := by simp [hn, hstack, hagent]
  have hctl : tctlOf (credited s n r) n = { tctlOf s n with answers := [] } := by rw [tctlOf_credited, tctlOf_cleared]
  refine ⟨fun hpass => ?waits, fun hpass hdown => ?error, fun hpass hup => ⟨fun hfree hopen => ?joins, fun hheld => ?holds⟩,
    fun ch busy res hch hdoze h15 hq => ?idle, fun busy hup hcal hdoze hk hb => ?serves⟩
  case waits =>
    refine runs_of_onUnit (t := tierArrival s n r) rfl harrives ?_
    rw [tierArrival_waits hpass]
    have htctl : tctlOf { cleared s n with metered := s.metered ++ [(n, r)] } n = { tctlOf s n with answers := [] } :=
      tctlOf_cleared s n
    rw [htctl]
    exact ⟨rfl, rfl, rfl, rfl⟩
  case error =>
    refine runs_of_onUnit (t := tierArrival s n r) rfl harrives ?_
    have hd : ctlDown (tctlOf (credited s n r) n) = true := by rw [hctl]; exact (ctlDown_iff _).2 hdown
    rw [tierArrival_enters hpass, tierEnter_down hd, tctlOf_tierAnswer_same, hctl]
    refine ⟨rfl, rfl, fun a => ?_, fun d x hr hbefore => ?_⟩
    · rw [(ctlOnly_tierAnswer _ n r 4 false).memByte, memByte_credited]
    · rw [← ctxOf_credited s n r] at hbefore ⊢
      exact ctxOf_tierAnswer_error _ n r hr hbefore
  case joins =>
    refine runs_of_onUnit (t := tierArrival s n r) rfl harrives ?_
    have hd : ctlDown (tctlOf s n) = false := Bool.eq_false_iff.2 (fun h => hup ((ctlDown_iff _).1 h))
    have hb : heldBack (credited s n r) n r = false := Bool.eq_false_iff.2 (fun h => by
      rcases (heldBack_credited s n r).1 h with ⟨q, hq, he⟩ | hp
      · exact hfree q hq he
      · rw [hopen] at hp; cases hp)
    rw [tierArrival_enters hpass]
    exact tierEnter_joins_spec hd hb
  case holds =>
    refine runs_of_onUnit (t := tierArrival s n r) rfl harrives ?_
    have hd : ctlDown (tctlOf (credited s n r) n) = false := by
      rw [hctl]; exact Bool.eq_false_iff.2 (fun h => hup ((ctlDown_iff _).1 h))
    obtain ⟨htctl, hbytes, hpage⟩ := tierEnter_holds hd ((heldBack_credited s n r).2 hheld)
    rw [tierArrival_enters hpass, htctl, hctl]
    refine ⟨rfl, rfl, fun a => (hbytes a).trans (memByte_credited s n r a), fun hp => hpage ?_⟩
    rw [show ckptProtected (credited s n r) r.addr = ckptProtected s r.addr by rw [credited_eq]; rfl]
    exact hp
  case idle =>
    exact runs_of_onUnit (t := tierSlot s n ch busy res) rfl (by simp [tierOk, hn, hch]) (tierSlot_idle busy res hdoze h15 hq)
  case serves =>
    have h : OneWaiting s n (channelOf r.addr) busy r :=
      ⟨hn, Nat.lt_of_lt_of_le (channelOf_lt_ctlChans hstack) (ctlChans_le n), hcanon, hcal, hdoze, hk, hb⟩
    have hunit : tierOk n (channelOf r.addr) = true := by
      simp [tierOk, hn, channelOf_lt_ctlChans hstack]
    have run : ∀ res P, P (tierSlot s n (channelOf r.addr) busy res) → Runs (.tierSlot n (channelOf r.addr) busy res) s P :=
      fun res P => runs_of_onUnit (t := tierSlot s n (channelOf r.addr) busy res) rfl hunit
    exact ⟨fun bs hd ha hp hbad => ⟨run _ _ (h.write_done hd ha hp hbad), run _ _ (h.write_resend (by rw [hd]; rfl) hp hbad)⟩,
      fun res hw hbad => run _ _ (h.write_bad res hw hbad),
      fun hd => ⟨run _ _ (h.read_passes hd), run _ _ (h.read_uncorrected hd)⟩⟩

end Sys2Proof.Safety
end

section
/-! PROOFS. What a change of a version descriptor leaves unchanged, and how a descriptor just written reads (R27–R42,
R38): the store of its words, its fields, and the claims, holds and commits that write it. -/

namespace Sys2Proof.Machine

/-! ### Fields above the counters -/

/-- No register but CNT_SAT differs above bit 48, where no counter and no status flag lies. -/
def TopKept (s t : State) : Prop :=
  regsWf s → ∀ o, o ≠ rCNT_SAT → ∀ h l, 48 < l → wfld (rd t o) h l = wfld (rd s o) h l

theorem topKept_of_regs {s t : State} (h : t.regs = s.regs) : TopKept s t := fun _ o _ _ _ _ => by simp only [rd, h]

theorem TopKept.trans {s t u : State} (h : TopKept s t) (wf : regsWf s → regsWf t) (h' : TopKept t u) : TopKept s u :=
  fun hs o ho hi lo hl => (h' (wf hs) o ho hi lo hl).trans (h hs o ho hi lo hl)

/-- A change of what is no register, before. -/
theorem TopKept.after {s t u : State} (h : TopKept t u) (hr : t.regs = s.regs) : TopKept s u :=
  (topKept_of_regs hr).trans (fun hs => by simpa only [regsWf, hr] using hs) h

theorem topKept_rput (s : State) (o : Nat) {f : Fld} (v : Nat) (h1 : f.lo ≤ f.hi) (h2 : f.hi ≤ 48) : TopKept s (rput s o f v) := by
  intro hs j _ h l hl
  by_cases hj : j = o
  · rw [hj, rd_rput_same s o f v hs, wfld_wput_above _ _ _ _ _ _ h1 (by omega) (by omega)]
  · rw [rd_rput_other s o j f v hs hj]

theorem topKept_rset (s : State) (o : Nat) {f : Fld} (h1 : f.lo ≤ f.hi) (h2 : f.hi ≤ 48) : TopKept s (rset s o f) :=
  topKept_rput s o 1 h1 h2

theorem topKept_rwr_rCNT_SAT (s : State) (v : Word) : TopKept s (rwr s rCNT_SAT v) :=
  fun hs o ho _ _ _ => by rw [rd_rwr_other s _ o v hs ho]

theorem topKept_countRaw (s : State) (off n : Nat) : TopKept s (countRaw s off n) := by
  have counted := fun v => topKept_rput s off (f := fCNT_CORE_COUNT) v (by decide) (by decide)
  unfold countRaw
  dsimp only
  split
  · exact (counted _).trans (regsWf_rput s _ _ _) (topKept_rset _ _ (by decide) (by decide))
  · exact counted _

theorem topKept_traceRec (s : State) (kind die core part : Nat) (pv : Bool) (w2 w3 : Word) :
    TopKept s (traceRec s kind die core part pv w2 w3) := by
  unfold traceRec
  dsimp only
  split
  · exact topKept_of_regs rfl
  · split
    · exact .after (.trans (topKept_rset _ _ (by decide) (by decide)) (regsWf_rset _ _ _) (topKept_countRaw _ _ 1)) rfl
    · exact topKept_of_regs rfl

theorem regsWf_countRaw (s : State) (off n : Nat) (hs : regsWf s) : regsWf (countRaw s off n) := by
  unfold countRaw
  dsimp only
  split
  · exact regsWf_rset _ _ _ (regsWf_rput s _ _ _ hs)
  · exact regsWf_rput s _ _ _ hs

theorem topKept_countUp (s : State) (off n : Nat) : TopKept s (countUp s off n) := by
  unfold countUp
  dsimp only
  split
  · refine TopKept.trans (t := countRaw (if anyOvf s then s else rwr s rCNT_SAT (BitVec.ofNat 64 (counterId off))) off n)
      ?_ ?_ (topKept_traceRec _ _ _ _ _ _ _ _)
    · split
      · exact topKept_countRaw s off n
      · exact (topKept_rwr_rCNT_SAT s _).trans (regsWf_rwr s _ _) (topKept_countRaw _ off n)
    · split
      · exact regsWf_countRaw s off n
      · exact fun hs => regsWf_countRaw _ off n (regsWf_rwr s _ _ hs)
  · exact topKept_countRaw s off n

/-! ### What a store changes -/

/-- Nothing differs but what a store of a descriptor changes: tier memory, the caches, the free-value counter, the
trace FIFO, and registers that counting writes, those below bit 49 or CNT_SAT. -/
structure Stored (s t : State) : Prop where
  frame : t = { s with regs := t.regs, trc := t.trc, sprue := t.sprue, mem := t.mem, memBad := t.memBad,
                       memUndef := t.memUndef, free := t.free }
  wf : regsWf s → regsWf t
  same : regsWf s → ∀ o, logReg o = false → rd t o = rd s o
  top : TopKept s t

namespace Stored

variable {s t u : State}

/-- What leaves the registers alone changes nothing of them. -/
theorem of_regs (hr : t.regs = s.regs)
    (h : t = { s with regs := t.regs, trc := t.trc, sprue := t.sprue, mem := t.mem, memBad := t.memBad,
                      memUndef := t.memUndef, free := t.free }) : Stored s t :=
  ⟨h, fun hs => by simpa only [regsWf, hr] using hs, fun _ o _ => by simp only [rd, hr], topKept_of_regs hr⟩

theorem refl (s : State) : Stored s s := of_regs rfl rfl

theorem trans (h : Stored s t) (h' : Stored t u) : Stored s u :=
  ⟨h'.frame.trans (by rw [h.frame]), fun hs => h'.wf (h.wf hs),
    fun hs o ho => (h'.same (h.wf hs) o ho).trans (h.same hs o ho), h.top.trans h.wf h'.top⟩

theorem cores (h : Stored s t) : t.cores = s.cores := by rw [h.frame]
theorem recq (h : Stored s t) : t.recq = s.recq := by rw [h.frame]
theorem pins (h : Stored s t) : t.pins = s.pins := by rw [h.frame]
theorem time (h : Stored s t) : t.time = s.time := by rw [h.frame]

end Stored

theorem dropSprue_frame (s : State) (d : Nat) (hit : Nat → Bool) : dropSprue s d hit =
    { s with regs := (dropSprue s d hit).regs, trc := (dropSprue s d hit).trc, sprue := (dropSprue s d hit).sprue } := by
  unfold dropSprue
  dsimp only
  split
  · rfl
  · rw [countUp_frame]; rfl

theorem topKept_dropSprue (s : State) (d : Nat) (hit : Nat → Bool) : TopKept s (dropSprue s d hit) := by
  unfold dropSprue
  dsimp only
  split
  · exact topKept_of_regs rfl
  · exact .after (topKept_countUp _ _ _) rfl

theorem stored_dropSprue (s : State) {d : Nat} (hd : d < 4) (hit : Nat → Bool) : Stored s (dropSprue s d hit) :=
  have hl := logged_dropSprue s hd hit
  ⟨by rw [dropSprue_frame], hl.wf, hl.same, topKept_dropSprue s d hit⟩

theorem stored_dropLines (s : State) (a n : Nat) : Stored s (dropLines s a n) :=
  List.foldlRecOn (motive := Stored s) _ _ (.refl s)
    (fun t ht _ hd => ht.trans (stored_dropSprue t (List.mem_range.1 hd) _))

theorem stored_memWrite (s : State) (a : Nat) (bs : List Byte) : Stored s (memWrite s a bs) := by
  unfold memWrite
  dsimp only
  refine .trans ?_ (stored_dropLines _ a bs.length)
  exact List.foldlRecOn (motive := Stored s) _ _ (.of_regs rfl rfl) (fun t ht _ _ => ht.trans (.of_regs rfl rfl))

theorem stored_writeDesc (s : State) (a : Nat) (d : VDesc) : Stored s (writeDesc s a d) := stored_memWrite s a _

theorem stored_undefSlot (s : State) (d : VDesc) (i : Nat) : Stored s (undefSlot s d i) := .of_regs rfl rfl

/-! ### Claims, holds and commits -/

/-- A claim makes the slot's content undefined, then stores its descriptor (R27). -/
theorem stored_claim (s : State) (d e : VDesc) (i a : Nat) : Stored s (writeDesc (undefSlot s d i) a e) :=
  (stored_undefSlot s d i).trans (stored_writeDesc _ a e)

/-- The start of a binding leaves the state, claims a slot, or takes a hold (R29–R31). -/
theorem startBind_state (s : State) (p : Nat) (pr : Pour) (b : Bind) : (startBind s p pr b).2.2 = s ∨
    (∃ d i a e, (startBind s p pr b).2.2 = writeDesc (undefSlot s d i) a e) ∨
    ∃ a e, (startBind s p pr b).2.2 = writeDesc s a e := by
  unfold startBind
  extract_lets a known d0 d v
  clear_value v d d0 known a
  by_cases hout : (known && !isTier a) = true
  · exact .inl (by rw [if_pos hout])
  by_cases hbad : (known && memBadIn s a 64) = true
  · exact .inl (by rw [if_neg hout, if_pos hbad])
  by_cases hform : descMalformed s p d = true
  · exact .inl (by rw [if_neg hout, if_neg hbad, if_pos hform])
  rw [if_neg hout, if_neg hbad, if_neg hform]
  by_cases hdir : b.out = true
  · rw [if_pos hdir]
    by_cases hplain : d.kind = 0
    · exact .inl (by rw [if_pos hplain])
    rw [if_neg hplain]
    by_cases hsingle : d.kind = 2
    · rw [if_pos hsingle]
      split
      · exact .inl rfl
      · split
        · dsimp only
          exact .inr (.inl ⟨_, _, _, _, rfl⟩)
        · split <;> exact .inl rfl
    · rw [if_neg hsingle]
      split
      · exact .inl rfl
      · dsimp only
        exact .inr (.inl ⟨_, _, _, _, rfl⟩)
  · rw [if_neg hdir]
    split
    · exact .inl rfl
    · split
      · exact .inl rfl
      · dsimp only
        exact .inr (.inr ⟨_, _, rfl⟩)

theorem stored_startBind (s : State) (p : Nat) (pr : Pour) (b : Bind) : Stored s (startBind s p pr b).2.2 := by
  rcases startBind_state s p pr b with h | ⟨d, i, a, e, h⟩ | ⟨a, e, h⟩ <;> rw [h]
  · exact .refl s
  · exact stored_claim s d e i a
  · exact stored_writeDesc s a e

theorem stored_startBinds (p : Nat) (pr : Pour) (bs : List Bind) (s : State) : Stored s (startBinds s p pr bs).2.2 := by
  induction bs generalizing s with
  | nil => exact .refl s
  | cons b bs ih => exact (stored_startBind s p pr b).trans (ih _)

theorem stored_releaseBind (s : State) (p : Nat) (b : Bind) : Stored s (releaseBind s p b) := by
  unfold releaseBind
  dsimp only
  split
  · exact .refl s
  · split
    · split
      · exact stored_claim s _ _ _ _
      · exact .refl s
    · split
      · exact stored_writeDesc s _ _
      · exact .refl s

theorem stored_releaseBinds (s : State) (p : Nat) (bs : List Bind) : Stored s (releaseBinds s p bs) :=
  List.foldlRecOn (motive := Stored s) _ _ (.refl s) (fun t ht b _ => ht.trans (stored_releaseBind t p b))

theorem stored_unholdBinds (s : State) (p : Nat) (bs : List Bind) : Stored s (unholdBinds s p bs) := stored_releaseBinds s p _

theorem stored_commitBind (s : State) (p : Nat) (pr : Pour) (b : Bind) : Stored s (commitBind s p pr b) := by
  unfold commitBind
  dsimp only
  split
  · exact .refl s
  · split
    · exact stored_writeDesc s _ _
    · exact stored_writeDesc s _ _

/-- The commit of every claimed output of a pour (R32). -/
def commitOuts (s : State) (pr : Pour) : State :=
  pr.binds.foldl (fun u b => if b.out then commitBind u pr.part pr b else u) s

theorem stored_commitOuts (s : State) (pr : Pour) : Stored s (commitOuts s pr) :=
  List.foldlRecOn (motive := Stored s) _ _ (.refl s) (fun t ht b _ => by
    split
    · exact ht.trans (stored_commitBind t pr.part pr b)
    · exact ht)

/-! ### Words of a store -/

theorem length_bytesLE (k v : Nat) : (bytesLE k v).length = k := by
  induction k generalizing v with
  | zero => rfl
  | succ k ih => simp [bytesLE, ih]

/-- The number that the bytes of a number make. -/
theorem ofBytesLE_bytesLE (k v : Nat) : ofBytesLE (bytesLE k v) = v % 256 ^ k := by
  induction k generalizing v with
  | zero => simp [bytesLE, ofBytesLE, Nat.mod_one]
  | succ k ih =>
    rw [bytesLE, ofBytesLE, ih, BitVec.toNat_ofNat, show 2 ^ 8 = 256 from rfl, Nat.pow_succ, Nat.mul_comm (256 ^ k),
      Nat.mod_mul]

/-- The bytes of word `i` of a list of words. -/
theorem take_drop_flatMap_bytesLE (ws : List Nat) (i : Nat) (h : i < ws.length) :
    ((ws.flatMap (bytesLE 8)).drop (8 * i)).take 8 = bytesLE 8 (ws.getD i 0) := by
  induction ws generalizing i with
  | nil => simp at h
  | cons w ws ih =>
    rw [List.flatMap_cons]
    cases i with
    | zero => rw [Nat.mul_zero, List.drop_zero, List.take_left' (length_bytesLE 8 w)]; rfl
    | succ i =>
      rw [show 8 * (i + 1) = (bytesLE 8 w).length + 8 * i by rw [length_bytesLE]; omega, ← List.drop_drop, List.drop_left,
        ih i (Nat.lt_of_succ_lt_succ h)]
      rfl

theorem length_flatMap_bytesLE (ws : List Nat) : (ws.flatMap (bytesLE 8)).length = 8 * ws.length := by
  induction ws with
  | nil => rfl
  | cons w ws ih => simp [List.flatMap_cons, length_bytesLE, ih]; omega

/-- A word that a store wrote, where its controller takes writes. -/
theorem memWord_memWrite (s : State) (a : Nat) (ws : List Nat) (i : Nat) (h : i < ws.length) (hs : memWf s = true)
    (hup : ∀ x, a ≤ x → x < a + 8 * ws.length → tierDown s x = false) :
    memWord (memWrite s a (ws.flatMap (bytesLE 8))) (a + 8 * i) = BitVec.ofNat 64 (ws.getD i 0) := by
  have hlen := length_flatMap_bytesLE ws
  have hbytes : memBytes (memWrite s a (ws.flatMap (bytesLE 8))) (a + 8 * i) 8 = bytesLE 8 (ws.getD i 0) := by
    rw [← take_drop_flatMap_bytesLE ws i h]
    refine List.ext_getElem (by simp [memBytes, hlen]; omega) (fun j hj _ => ?_)
    have hj8 : j < 8 := by simpa [memBytes] using hj
    have hin : 8 * i + j < (ws.flatMap (bytesLE 8)).length := by omega
    have hst : StoredAt s a (ws.flatMap (bytesLE 8)) (a + 8 * i + j) := ⟨by omega, hup _ (by omega) (by omega)⟩
    simp only [memBytes, List.getElem_map, List.getElem_range, List.getElem_take, List.getElem_drop]
    rw [(memByte_memWrite s a _ hs _).1 hst, show a + 8 * i + j - a = 8 * i + j by omega, List.getD_eq_getElem _ _ hin]
  rw [memWord, hbytes, ofBytesLE_bytesLE]
  exact BitVec.eq_of_toNat_eq (by simp)

/-- A field of a word given as a number. -/
theorem wfld_ofNat (n : Nat) {hi lo : Nat} (h : hi < 64) : wfld (BitVec.ofNat 64 n) hi lo = n / 2 ^ lo % 2 ^ (hi + 1 - lo) := by
  rw [wfld, bitsOf, BitVec.toNat_ofNat, Nat.shiftRight_eq_div_pow]
  by_cases hl : lo ≤ hi
  · rw [show (64 : Nat) = lo + (64 - lo) by omega, Nat.pow_add, Nat.mod_mul_right_div_self, Nat.mod_mod_of_dvd]
    exact Nat.pow_dvd_pow 2 (by omega)
  · simp [show hi + 1 - lo = 0 by omega, Nat.mod_one]

/-! ### A descriptor just written -/

/-- The fields of a descriptor that stand beside its state, version and CURRENT slot fit their places (R38). -/
structure DescFits (d : VDesc) : Prop where
  part : d.part < 8
  cur : d.cur < 4
  slots : ∀ v ∈ d.slots, v.st < 8 ∧ v.hold < 1024 ∧ v.base < 2 ^ 48

theorem DescFits.getD {d : VDesc} (h : DescFits d) (i : Nat) :
    (d.slots.getD i VSlot.none).st < 8 ∧ (d.slots.getD i VSlot.none).hold < 1024 ∧ (d.slots.getD i VSlot.none).base < 2 ^ 48 := by
  by_cases hi : i < d.slots.length
  · rw [List.getD_eq_getElem _ _ hi]; exact h.slots _ (List.getElem_mem hi)
  · rw [List.getD_eq_default _ _ (Nat.le_of_not_lt hi)]; decide

theorem wfld_lt (w : Word) (hi lo : Nat) : wfld w hi lo < 2 ^ (hi + 1 - lo) := Nat.mod_lt _ (Nat.two_pow_pos _)

theorem descFits_readDesc (s : State) (a : Nat) : DescFits (readDesc s a) := by
  refine ⟨wfld_lt _ 50 48, wfld_lt _ 57 56, fun v hv => ?_⟩
  obtain ⟨i, -, rfl⟩ := List.mem_map.1 hv
  exact ⟨wfld_lt _ 63 61, wfld_lt _ 60 51, wfld_lt _ 47 0⟩

theorem length_slots_readDesc (s : State) (a : Nat) : (readDesc s a).slots.length = 4 := rfl

theorem DescFits.setSlot {d : VDesc} (h : DescFits d) (i : Nat) {v : VSlot} (hv : v.st < 8 ∧ v.hold < 1024 ∧ v.base < 2 ^ 48) :
    DescFits (setSlot d i v) :=
  ⟨h.part, h.cur, fun u hu => (List.mem_or_eq_of_mem_set hu).elim (h.slots u) (fun e => e ▸ hv)⟩

/-- Changing states and version offsets of slots keeps what fits. -/
theorem DescFits.map {d : VDesc} (h : DescFits d) {f : VSlot → VSlot}
    (hf : ∀ v, (f v).hold = v.hold ∧ (f v).base = v.base ∧ ((f v).st = v.st ∨ (f v).st < 8)) (n : Nat) :
    DescFits { d with slots := d.slots.map f, curVer := n } := by
  refine ⟨h.part, h.cur, fun u hu => ?_⟩
  obtain ⟨v, hv, rfl⟩ := List.mem_map.1 hu
  obtain ⟨hst, hhold, hbase⟩ := h.slots v hv
  obtain ⟨eh, eb, es⟩ := hf v
  exact ⟨by omega, by omega, by omega⟩

theorem DescFits.rebase {d : VDesc} (h : DescFits d) (n : Nat) : DescFits (rebase d n) :=
  h.map (fun v => by split <;> exact ⟨rfl, rfl, .inl rfl⟩) n

theorem DescFits.makeCurrent {d : VDesc} (h : DescFits d) {i : Nat} (n : Nat) (hi : i < 4) : DescFits (makeCurrent d i n) := by
  have h1 : DescFits { d with slots := d.slots.map (fun v => if v.st = 3 then { v with st := 4 } else v) } :=
    h.map (fun v => by split <;> exact ⟨rfl, rfl, by simp⟩) d.curVer
  have h2 := h1.rebase n
  obtain ⟨-, hhold, hbase⟩ := h2.getD i
  refine ⟨h2.part, hi, (h2.setSlot i ?_).slots⟩
  exact ⟨show 3 < 8 by omega, hhold, hbase⟩

/-- Word 0 of a descriptor, as a number (R38). -/
def descHead (d : VDesc) : Nat := d.kind <<< 60 + d.ring <<< 58 + d.cur <<< 56 + d.part <<< 48 + d.curVer % 2 ^ 48

/-- The word of slot `i` of a descriptor, as a number (R38). -/
def descSlot (d : VDesc) (i : Nat) : Nat :=
  let v := d.slots.getD i VSlot.none
  v.st <<< 61 + v.hold <<< 51 + (wrapTo 3 v.voff) <<< 48 + v.base

/-- A descriptor is stored as its head, its buffer, its four slots and their stamps (R38). -/
theorem writeDesc_words (s : State) (a : Nat) (d : VDesc) : ∃ w1 w6 w7, writeDesc s a d =
    memWrite s a ([descHead d, w1, descSlot d 0, descSlot d 1, descSlot d 2, descSlot d 3, w6, w7].flatMap (bytesLE 8)) :=
  ⟨_, _, _, rfl⟩

theorem wrapTo_lt (n : Nat) (i : Int) : wrapTo n i < 2 ^ n := by
  have h : ((2 ^ n : Nat) : Int) ≠ 0 := by positivity
  have := Int.emod_nonneg i h
  have := Int.emod_lt_of_pos i (show (0 : Int) < ((2 ^ n : Nat) : Int) by positivity)
  unfold wrapTo
  omega

/-- The CURRENT slot, the version and the slots' states of a descriptor just written, where its controller takes
writes. -/
theorem readDesc_writeDesc {s : State} {a : Nat} {d : VDesc} (hd : DescFits d) (hs : memWf s = true)
    (hup : ∀ x, a ≤ x → x < a + 64 → tierDown s x = false) :
    (readDesc (writeDesc s a d) a).cur = d.cur ∧ (readDesc (writeDesc s a d) a).curVer = d.curVer % 2 ^ 48 ∧
    ∀ i, i < 4 → ((readDesc (writeDesc s a d) a).slots.getD i VSlot.none).st = (d.slots.getD i VSlot.none).st := by
  obtain ⟨w1, w6, w7, hw⟩ := writeDesc_words s a d
  have word := fun i h => memWord_memWrite s a
    [descHead d, w1, descSlot d 0, descSlot d 1, descSlot d 2, descSlot d 3, w6, w7] i h hs hup
  rw [← hw] at word
  have head : memWord (writeDesc s a d) (a + 8 * 0) = BitVec.ofNat 64 (descHead d) := word 0 (by simp)
  have hpart := hd.part
  have hcur := hd.cur
  refine ⟨?_, ?_, fun i hi => ?_⟩
  · show wfld (memWord (writeDesc s a d) (a + 8 * 0)) 57 56 = d.cur
    rw [head, wfld_ofNat _ (by decide), descHead]
    simp only [Nat.shiftLeft_eq]
    omega
  · show wfld (memWord (writeDesc s a d) (a + 8 * 0)) 47 0 = d.curVer % 2 ^ 48
    rw [head, wfld_ofNat _ (by decide), descHead]
    simp only [Nat.shiftLeft_eq]
    omega
  · have slot : memWord (writeDesc s a d) (a + 8 * (2 + i)) = BitVec.ofNat 64 (descSlot d i) := by
      rw [word (2 + i) (by simp; omega)]
      interval_cases i <;> rfl
    have hst : ((readDesc (writeDesc s a d) a).slots.getD i VSlot.none).st =
        wfld (memWord (writeDesc s a d) (a + 8 * (2 + i))) 63 61 := by interval_cases i <;> rfl
    obtain ⟨hs8, hhold, hbase⟩ := hd.getD i
    have hv := wrapTo_lt 3 (d.slots.getD i VSlot.none).voff
    rw [hst, slot, wfld_ofNat _ (by decide), descSlot]
    simp only [Nat.shiftLeft_eq]
    omega

/-! ### Descriptors that read -/

/-- Where the words read, no controller of theirs is down. -/
theorem tierDown_of_memBadIn {s : State} {a n : Nat} (h : memBadIn s a n = false) (x : Nat) (h1 : a ≤ x) (h2 : x < a + n) :
    tierDown s x = false := by
  simp only [memBadIn, Bool.or_eq_false_iff, tierDownIn, Bool.and_eq_false_iff, Bool.not_eq_false'] at h
  rcases h.1 with ht | hl
  · exact tierDown_of_isEmpty s ht x
  · have := List.any_eq_false.1 hl (x / 256 - a / 256) (List.mem_range.2 (by omega))
    rw [show a / 256 + (x / 256 - a / 256) = x / 256 by omega, tierDown_line] at this
    simpa using this

theorem readDesc_congr {s t : State} (hm : t.mem = s.mem) (hu : t.memUndef = s.memUndef) (a : Nat) :
    readDesc t a = readDesc s a := by
  have hw : ∀ x, memWord t x = memWord s x := fun x => by simp only [memWord, memBytes, memByte_congr hm hu]
  simp only [readDesc, hw]

end Sys2Proof.Machine
end

section
/-! PROOFS. The states a pour passes through in its context (R22–R34, R57, R64, R65): what its start, commit request,
abort and end change, and what they leave. -/

namespace Sys2Proof.Machine

/-! ### Contexts -/

theorem coreOf_congr {s t : State} (h : t.cores = s.cores) (d : Nat) : coreOf t d = coreOf s d := by rw [coreOf, coreOf, h]

theorem ctxOf_congr {s t : State} (h : t.cores = s.cores) (d y : Nat) : ctxOf t d y = ctxOf s d y := by
  rw [ctxOf, ctxOf, coreOf_congr h]

theorem ctxOf_modCtx_other (s : State) (c : Nat) {x y : Nat} (f : Ctx → Ctx) (h : y ≠ x) :
    ctxOf (modCtx s c x f) c y = ctxOf s c y := ctxOf_setCtx_other s c x y _ h

/-- The contexts of every core are the same. -/
def CtxsKept (s t : State) : Prop := ∀ d, (coreOf t d).ctxs = (coreOf s d).ctxs

namespace CtxsKept

variable {s t u : State}

theorem of_cores (h : t.cores = s.cores) : CtxsKept s t := fun d => by rw [coreOf_congr h]

theorem refl (s : State) : CtxsKept s s := fun _ => rfl

theorem trans (h : CtxsKept s t) (h' : CtxsKept t u) : CtxsKept s u := fun d => (h' d).trans (h d)

theorem ctxOf (h : CtxsKept s t) (d y : Nat) : ctxOf t d y = Machine.ctxOf s d y := by
  rw [Machine.ctxOf, Machine.ctxOf, ctxOfCore, ctxOfCore, h d]

end CtxsKept

/-- A change of a core beside its contexts. -/
theorem ctxsKept_modCore (s : State) (c : Nat) {f : Core → Core} (hf : (f (coreOf s c)).ctxs = (coreOf s c).ctxs) :
    CtxsKept s (modCore s c f) := by
  intro d
  by_cases h : d = c
  · rw [h, coreOf_modCore_same, hf]
  · rw [coreOf_modCore_other s c d f h]

/-- Replacing one context changes that context alone. -/
theorem onlyCtx_of_setCtx (s : State) (c x : Nat) (k : Ctx) : Safety.OnlyCtx s (setCtx s c x k) c x :=
  ⟨⟨rfl, fun d h => coreOf_setCtx_other s c x d k h⟩, by rw [coreOf_setCtx_same], fun y h => ctxOf_setCtx_other s c x y k h⟩

/-- An abort of a pour before its commit point changes its context alone (R24, R49). -/
theorem onlyCtx_beginAbort (s : State) (c x code : Nat) : Safety.OnlyCtx s (beginAbort s c x code 0) c x := by
  unfold beginAbort
  dsimp only
  split
  · exact onlyCtx_of_setCtx s c x _
  · exact ⟨⟨rfl, fun _ _ => rfl⟩, rfl, fun _ _ => rfl⟩

/-! ### The frame of a pour's commands -/

theorem pourFrame_trans {s t u : State} (h : PourFrame s t) (h' : PourFrame t u) : PourFrame s u :=
  (show u = _ from h').trans (by rw [show t = _ from h])

theorem Stored.pourFrame {s t : State} (h : Stored s t) : PourFrame s t := by
  unfold PourFrame
  rw [h.frame]

/-! ### The end of a pour -/

theorem postRec_frame (s : State) (q : Nat) (r : Rec) :
    postRec s q r = { s with recq := (postRec s q r).recq, regs := (postRec s q r).regs } := by
  unfold postRec
  dsimp only
  split
  · rfl
  · split
    · rfl
    · split <;> rfl

/-- A record joins its queue, where records are taken and the queue is enabled (R332). -/
theorem waiting_postRec {s : State} {q : Nat} (r : Rec) (hoff : recordsOff s = false) (hen : rflag s (rCQ_CFG q) fCQ_CFG_ENABLE = true) :
    (recqOf (postRec s q r) q).waiting = (recqOf s q).waiting ++ [r] := by
  simp [postRec, hoff, hen]

/-- The completion record of a pour (R334). -/
def endRec (s : State) (c x : Nat) (pr : Pour) (code : Nat) (replayed : Bool) : Rec :=
  ⟨1, code, c, x, pr.part, true, now s,
    [BitVec.ofNat 64 ((pr.pos % 2 ^ 32) <<< 32 + pr.idx <<< 20 + b2n replayed <<< 19 + b2n pr.pending <<< 17 +
      b2n (decide (pr.watch ≠ 0) && decide ((rd s (rNUM_OVF c x)) ≠ 0)) <<< 18),
     BitVec.ofNat 64 (pr.stamp <<< 32 + (ctxOf s c x).trapCode), BitVec.ofNat 64 (if code = 0 then 0 else (ctxOf s c x).abortPc)]⟩

/-- The outcome the dispatcher keeps of a pour that ends (R309). -/
def endOut (code : Nat) (replayed : Bool) : POut :=
  if code = 0 then (if replayed then .replayed else .committed) else if code = 1 then .killed else .aborted

/-- The context of a pour that has ended (R57). -/
def endedCtx (k : Ctx) (code : Nat) : Ctx :=
  { k with st := .idle, pour := none, lastAbort := code, queue := [], commitSent := false, stopped := false, updRun := none }

theorem partOf_congr {s t : State} (h : t.parts = s.parts) (p : Nat) : partOf t p = partOf s p := by rw [partOf, partOf, h]

/-- Replacing a unit of a map whose units are seen through a function. -/
theorem map_kSet {α β : Type} (f : α → β) (m : KMap α) (i : Nat) (v : α) :
    (kSet m i v).map (fun (n, o) => (n, f o)) = kSet (m.map (fun (n, o) => (n, f o))) i (f v) := by
  induction m with
  | nil => rfl
  | cons hd m ih =>
    obtain ⟨a, w⟩ := hd
    simp only [kSet, List.map_cons]
    split
    · rfl
    · split
      · rfl
      · simp [ih]

/-- The outcome just kept. -/
theorem outOf_setOutcome (s : State) (pr : Pour) (o : POut) :
    outOf (kGet ⟨0, []⟩ (partOf (setOutcome s pr o) pr.part).cmds pr.pos) pr.idx = some o := by
  rw [setOutcome, partOf_modPart_same]
  simp only [kGet_kSet_same, outOf]
  rw [map_kSet some, kGet_kSet_same]

section EndPour

variable (s : State) (c x : Nat) (pr : Pour) (code : Nat) (replayed : Bool)

/-- A pour ends with its records, in `u`, then its outcome, the count of a preemption, and its context. -/
theorem endPour_eq : ∃ u f, u = { s with recq := u.recq, regs := u.regs, trc := u.trc } ∧
    (recordsOff s = false → rflag s (rCQ_CFG pr.part) fCQ_CFG_ENABLE = true →
      (recqOf u pr.part).waiting = (recqOf s pr.part).waiting ++ [endRec s c x pr code replayed]) ∧
    endPour s c x pr code replayed =
      modCtx (modPart (setOutcome u pr (endOut code replayed)) pr.part (fun k => { k with preempt := k.preempt.map f })) c x
        (fun k => endedCtx k code) := by
  refine ⟨_, _, ?frame, fun hoff hen => ?record, rfl⟩
  case frame => rw [traceRec_frame, postRec_frame]
  case record =>
    rw [← waiting_postRec _ hoff hen, traceRec_frame]
    rfl

theorem ctxOf_endPour_same : ctxOf (endPour s c x pr code replayed) c x = endedCtx (ctxOf s c x) code := by
  obtain ⟨u, f, hu, -, h⟩ := endPour_eq s c x pr code replayed
  rw [h, ctxOf_modCtx_same]
  exact congrArg (endedCtx · code) (ctxOf_congr (congrArg State.cores hu) c x)

theorem ctxOf_endPour_other {y : Nat} (hy : y ≠ x) : ctxOf (endPour s c x pr code replayed) c y = ctxOf s c y := by
  obtain ⟨u, f, hu, -, h⟩ := endPour_eq s c x pr code replayed
  rw [h, ctxOf_modCtx_other _ _ _ hy]
  exact ctxOf_congr (congrArg State.cores hu) c y

theorem pourFrame_endPour : PourFrame s (endPour s c x pr code replayed) := by
  obtain ⟨u, f, hu, -, h⟩ := endPour_eq s c x pr code replayed
  rw [h, PourFrame, hu]
  rfl

/-- The end of a pour stores nothing in tier memory. -/
theorem readDesc_endPour (a : Nat) : readDesc (endPour s c x pr code replayed) a = readDesc s a := by
  obtain ⟨u, f, hu, -, h⟩ := endPour_eq s c x pr code replayed
  rw [h]
  exact readDesc_congr (congrArg State.mem hu) (congrArg State.memUndef hu) a

/-- The completion record of a pour joins its partition's queue (R332, R334). -/
theorem waiting_endPour (hoff : recordsOff s = false) (hen : rflag s (rCQ_CFG pr.part) fCQ_CFG_ENABLE = true) :
    (recqOf (endPour s c x pr code replayed) pr.part).waiting = (recqOf s pr.part).waiting ++ [endRec s c x pr code replayed] := by
  obtain ⟨u, f, -, hrec, h⟩ := endPour_eq s c x pr code replayed
  rw [h]
  exact hrec hoff hen

/-- The dispatcher keeps the outcome of a pour that ends (R309). -/
theorem outOf_endPour : outOf (kGet ⟨0, []⟩ (partOf (endPour s c x pr code replayed) pr.part).cmds pr.pos) pr.idx =
    some (endOut code replayed) := by
  obtain ⟨u, f, -, -, h⟩ := endPour_eq s c x pr code replayed
  have hcmds : (partOf (endPour s c x pr code replayed) pr.part).cmds = (partOf (setOutcome u pr (endOut code replayed)) pr.part).cmds := by
    rw [h, partOf_congr (modCtx_parts _ c x _), partOf_modPart_same]
  rw [hcmds, outOf_setOutcome]

end EndPour

/-! ### Tokens and accumulator sets -/

theorem mem_tokenRange (p : Pour) (j : Nat) : j ∈ tokenRange p ↔ p.tokFirst ≤ j ∧ j ≤ p.tokLast := by
  unfold tokenRange
  split
  · simp; omega
  · simp only [List.mem_map, List.mem_range]
    exact ⟨fun ⟨i, hi, e⟩ => by omega, fun h => ⟨j - p.tokFirst, by omega, by omega⟩⟩

theorem emptyTokens_frame (l : List Nat) (k : Core) : emptyTokens k l =
    { k with toks := (emptyTokens k l).toks, tokAt := (emptyTokens k l).tokAt, tokTile := (emptyTokens k l).tokTile,
             tokRead := (emptyTokens k l).tokRead } := by
  induction l generalizing k with
  | nil => rfl
  | cons t l ih =>
    rw [show emptyTokens k (t :: l) = emptyTokens _ l from rfl, ih]
    rfl

/-- The tokens of a list become EMPTY, and no other (R58). -/
theorem tokOf_emptyTokens (l : List Nat) (k : Core) (hk : smWf (fun _ => Tok.empty) k.toks = true) (j : Nat) :
    tokOf (emptyTokens k l) j = if j ∈ l then .empty else tokOf k j := by
  induction l generalizing k with
  | nil => rfl
  | cons t l ih =>
    have hset : tokOf (setTok k t .empty) j = if j = t then .empty else tokOf k j :=
      smGet_smSet (fun _ => Tok.empty) k.toks t j .empty hk
    rw [show emptyTokens k (t :: l) = emptyTokens _ l from rfl, ih _ (smSet_wf (fun _ => Tok.empty) k.toks t .empty hk)]
    by_cases hl : j ∈ l
    · simp [hl]
    · rw [if_neg hl]
      by_cases ht : j = t
      · subst ht
        exact hset.trans (by simp)
      · exact hset.trans (by simp [hl, ht])

theorem undefAccs_frame (n : Nat) (l : List Nat) (k : Core) : undefAccs k l n = { k with accs := (undefAccs k l n).accs } := by
  induction l generalizing k with
  | nil => rfl
  | cons i l ih =>
    rw [show undefAccs k (i :: l) n = undefAccs _ l n from rfl, ih]
    rfl

/-! ### What happens beside the contexts of a core -/

/-- Nothing differs but registers, the trace FIFO, the free-value counter, and core `c` beside its contexts. -/
structure Beside (s t : State) (c : Nat) : Prop where
  frame : t = { s with regs := t.regs, trc := t.trc, free := t.free, cores := t.cores }
  others : ∀ d, d ≠ c → coreOf t d = coreOf s d
  ctxs : (coreOf t c).ctxs = (coreOf s c).ctxs

namespace Beside

variable {s t u : State} {c : Nat}

theorem of_cores (hc : t.cores = s.cores) (h : t = { s with regs := t.regs, trc := t.trc, free := t.free, cores := t.cores }) :
    Beside s t c := ⟨h, fun d _ => coreOf_congr hc d, by rw [coreOf_congr hc]⟩

theorem trans (h : Beside s t c) (h' : Beside t u c) : Beside s u c :=
  ⟨h'.frame.trans (by rw [h.frame]), fun d hd => (h'.others d hd).trans (h.others d hd), h'.ctxs.trans h.ctxs⟩

theorem mem (h : Beside s t c) : t.mem = s.mem := by rw [h.frame]

theorem ctxsKept (h : Beside s t c) : CtxsKept s t := fun d => by
  by_cases hd : d = c
  · rw [hd, h.ctxs]
  · rw [h.others d hd]

theorem pourFrame (h : Beside s t c) : PourFrame s t := by
  rw [PourFrame, h.frame]

end Beside

theorem beside_modCore (s : State) (c : Nat) {f : Core → Core} (hf : (f (coreOf s c)).ctxs = (coreOf s c).ctxs) :
    Beside s (modCore s c f) c :=
  ⟨rfl, fun d hd => coreOf_modCore_other s c d f hd, by rw [coreOf_modCore_same, hf]⟩

theorem beside_useFree (s : State) (c : Nat) : Beside s (useFree s).2 c := .of_cores rfl rfl

theorem cores_countCore (s : State) (c i n : Nat) : (countCore s c i n).cores = s.cores := by
  rw [countCore, countUp_frame]

theorem beside_countCore (s : State) (c i n d : Nat) : Beside s (countCore s c i n) d :=
  .of_cores (cores_countCore s c i n) (by rw [countCore, countUp_frame])

theorem beside_resetTokens (s : State) (c : Nat) (l : List Nat) : Beside s (resetTokens s c l) c :=
  ((beside_countCore s c _ _ c).trans (beside_countCore _ c _ _ c)).trans
    (beside_modCore _ c (f := fun k => emptyTokens k l) (by rw [emptyTokens_frame]))

theorem coreOf_resetTokens (s : State) (c : Nat) (l : List Nat) : coreOf (resetTokens s c l) c = emptyTokens (coreOf s c) l := by
  unfold resetTokens
  dsimp only
  rw [coreOf_modCore_same, coreOf_congr (cores_countCore _ _ _ _), coreOf_congr (cores_countCore _ _ _ _)]

/-- Counting at a core writes no register but those that counting writes. -/
theorem logged_countCore (s : State) {c i : Nat} (hc : c < nCores) (hi : i < 512) (n : Nat) : Logged s (countCore s c i n) := by
  refine logged_countUp s ?_ n
  simp only [isCounterOff, Bool.or_eq_true, Bool.and_eq_true, decide_eq_true_eq]
  unfold rCNT_CORE
  unfold nCores at hc
  omega

theorem rd_resetTokens {s : State} {c : Nat} (hc : c < nCores) (l : List Nat) (hs : regsWf s) {o : Nat} (ho : logReg o = false) :
    rd (resetTokens s c l) o = rd s o :=
  ((logged_countCore s hc (by omega) _).trans (logged_countCore _ hc (by omega) _)).same hs o ho

/-! ### Lost scratchpad content -/

/-- A core that loses the content of some regions: free value `n` (R44). -/
def loseCore (n : Nat) (l : List (Nat × Nat)) (k : Core) : Core := l.foldl (fun k (o, m) => undefSpm k n o m) k

theorem loseRegions_eq (s : State) (c : Nat) (l : List (Nat × Nat)) :
    loseRegions s c l = modCore (useFree s).2 c (loseCore (useFree s).1 l) := rfl

theorem loseCore_frame (n : Nat) (l : List (Nat × Nat)) (k : Core) :
    loseCore n l k = { k with spm := (loseCore n l k).spm, spmOver := (loseCore n l k).spmOver } := by
  induction l generalizing k with
  | nil => rfl
  | cons r l ih =>
    rw [show loseCore n (r :: l) k = loseCore n l (undefSpm k n r.1 r.2) from rfl, ih]
    rfl

theorem beside_loseRegions (s : State) (c : Nat) (l : List (Nat × Nat)) : Beside s (loseRegions s c l) c := by
  rw [loseRegions_eq]
  exact (beside_useFree s c).trans (beside_modCore _ c (by rw [loseCore_frame]))

theorem toks_loseRegions (s : State) (c : Nat) (l : List (Nat × Nat)) : (coreOf (loseRegions s c l) c).toks = (coreOf s c).toks := by
  rw [loseRegions_eq, coreOf_modCore_same, loseCore_frame]
  rfl

/-! ### The stop of an aborting pour -/

/-- A core without what a pour of context `x` has at work: its instructions, its window, its engines, and the waits of
its tokens for power (R64). -/
def stoppedCore (k : Core) (x : Nat) (rng : List Nat) : Core :=
  stopEngines { k with
    flights := k.flights.filter (fun f => f.ctx ≠ x)
    window := (match k.window with
      | some w => if w.ctx = x then none else some w
      | none => none)
    powering := k.powering.map (fun (m, t) => (m, t.filter (fun u => !rng.contains u))) } x

/-- No stream or gather of a stopped core belongs to the pour. -/
theorem owner_stopEngines (k : Core) (x : Nat) :
    (∀ r ∈ (stopEngines k x).streams, r.2.owner ≠ some x) ∧ (∀ r ∈ (stopEngines k x).gaths, r.2.owner ≠ some x) := by
  constructor <;> intro r hr <;> obtain ⟨q, -, rfl⟩ := List.mem_map.1 hr <;> dsimp only <;> split
  · simp
  · assumption
  · simp
  · assumption

/-- Nothing of a pour of context `x` is at work in a core whose tokens are those of `k` but for its range (R64). -/
structure Quiet (k k' : Core) (x : Nat) (rng : List Nat) : Prop where
  flights : ∀ f ∈ k'.flights, f.ctx ≠ x
  streams : ∀ r ∈ k'.streams, r.2.owner ≠ some x
  gaths : ∀ r ∈ k'.gaths, r.2.owner ≠ some x
  toks : ∀ j, tokOf k' j = if j ∈ rng then .empty else tokOf k j

/-- The abort of a pour stops what its core has at work, in `v`; then its fabric requests and its queue go (R64). -/
theorem pourAbort_stops {s : State} {c x : Nat} {pr : Pour} (hst : (ctxOf s c x).st = .aborting)
    (hp : (ctxOf s c x).pour = some pr) (htok : smWf (fun _ => Tok.empty) (coreOf s c).toks = true) :
    ∃ v, Beside s v c ∧ Quiet (coreOf s c) (coreOf v c) x (tokenRange pr) ∧ pourAbort s c x =
      modCtx { v with ergReqs := v.ergReqs.filter (fun r => !(r.core = c && r.ctx = x)) } c x
        (fun k => { k with queue := [], updRun := none, stopped := true }) := by
  set s0 := undefAfterAbort s c x (ctxOf s c x).abortCode with h0
  set u := (useFree (resetTokens s0 c (tokenRange pr))).2 with hu
  refine ⟨modCore u c (fun k => undefAccs (stoppedCore k x (tokenRange pr)) (accsOf pr) (resetTokens s0 c (tokenRange pr)).free),
    ?beside, ?quiet, ?eq⟩
  case beside =>
    exact (((beside_loseRegions s c _).trans (beside_resetTokens s0 c _)).trans (beside_useFree _ c)).trans
      (beside_modCore u c (by rw [undefAccs_frame]; rfl))
  case quiet =>
    have htoks : (coreOf u c).toks = (emptyTokens (coreOf s0 c) (tokenRange pr)).toks := by rw [← coreOf_resetTokens]; rfl
    have h0toks : (coreOf s0 c).toks = (coreOf s c).toks := toks_loseRegions s c _
    rw [coreOf_modCore_same, undefAccs_frame]
    refine ⟨fun f hf => by simpa using (List.mem_filter.1 hf).2, (owner_stopEngines _ x).1, (owner_stopEngines _ x).2, fun j => ?_⟩
    have hempty := tokOf_emptyTokens (tokenRange pr) (coreOf s0 c) (by rw [h0toks]; exact htok) j
    rw [tokOf, ← htoks, tokOf, h0toks] at hempty
    exact hempty
  case eq =>
    unfold pourAbort
    simp only [hst, hp]
    rfl

end Sys2Proof.Machine
end

section
/-! PROOFS. The start of a pour (R30, R54, R55, R317): what it does besides setting its context running. -/

namespace Sys2Proof.Machine

/-- The contexts are kept, and registers in canonical form stay so. -/
def Prepared (s t : State) : Prop := CtxsKept s t ∧ (regsWf s → regsWf t)

namespace Prepared

variable {s t u : State}

theorem refl (s : State) : Prepared s s := ⟨.refl s, id⟩

theorem trans (h : Prepared s t) (h' : Prepared t u) : Prepared s u := ⟨h.1.trans h'.1, fun hs => h'.2 (h.2 hs)⟩

theorem of_stored (h : Stored s t) : Prepared s t := ⟨.of_cores h.cores, h.wf⟩

theorem of_logged (h : Logged s t) : Prepared s t := ⟨.of_cores h.cores, h.wf⟩

end Prepared

theorem prepared_countRaw (s : State) (off n : Nat) : Prepared s (countRaw s off n) :=
  ⟨.of_cores (by rw [countRaw_frame]), regsWf_countRaw s off n⟩

theorem prepared_countRes (s : State) (p c : Nat) (bs : List Bind) : Prepared s (countRes s p c bs) :=
  List.foldlRecOn (motive := Prepared s) _ _ (.refl s) (fun t ht _ _ => ht.trans (prepared_countRaw t _ 1))

theorem prepared_dropSeqLines (s : State) (p base len : Nat) : Prepared s (dropSeqLines s p base len) :=
  List.foldlRecOn (motive := Prepared s) _ _ (.refl s) (fun t ht c _ => ht.trans ⟨ctxsKept_modCore t c rfl, id⟩)

theorem rd_modCore (s : State) (c : Nat) (f : Core → Core) (o : Nat) : rd (modCore s c f) o = rd s o := rfl
theorem rd_modCtx (s : State) (c x : Nat) (f : Ctx → Ctx) (o : Nat) : rd (modCtx s c x f) o = rd s o := rfl
theorem rd_useFree (s : State) (o : Nat) : rd (useFree s).2 o = rd s o := rfl

/-- The cached lines of the slots that a pour has claimed are dropped (R54, R192). -/
def dropClaimed (s : State) (p : Nat) (bs : List Bind) : State :=
  (bs.filter (fun b => b.claimed)).foldl
    (fun u b => dropLines (dropSeqLines u p b.base (b.units * 256)) b.base (b.units * 256)) s

theorem prepared_dropClaimed (s : State) (p : Nat) (bs : List Bind) : Prepared s (dropClaimed s p bs) :=
  List.foldlRecOn (motive := Prepared s) _ _ (.refl s) (fun t ht _ _ =>
    (ht.trans (prepared_dropSeqLines t _ _ _)).trans (.of_logged (logged_dropLines _ _ _)))

/-- The state in which a pour's bindings are in place and its NUM_OVF and L_POUR are set (R103, R120). -/
def bound (s u : State) (c x : Nat) (pr : Pour) (bs : List Bind) : State :=
  rput (rwr (dropClaimed (countRes u pr.part c bs) pr.part bs) (rNUM_OVF c x) 0) (rNUM_CTX c x) fNUM_CTX_L_POUR
    (wrapTo 8 (partOf s pr.part).lscale)

theorem prepared_bound (s : State) {u : State} (c x : Nat) (pr : Pour) (bs : List Bind) : Prepared u (bound s u c x pr bs) := by
  refine ((prepared_countRes u pr.part c bs).trans (prepared_dropClaimed _ pr.part bs)).trans ⟨.of_cores rfl, fun hs => ?_⟩
  exact regsWf_rput _ _ _ _ (regsWf_rwr _ _ _ hs)

theorem rd_bound (s : State) {u : State} (c x : Nat) (pr : Pour) (bs : List Bind) (hu : regsWf u) :
    rd (bound s u c x pr bs) (rNUM_OVF c x) = 0 := by
  have hwf := ((prepared_countRes u pr.part c bs).trans (prepared_dropClaimed _ pr.part bs)).2 hu
  have hne : rNUM_OVF c x ≠ rNUM_CTX c x := by unfold rNUM_OVF rNUM_CTX; omega
  rw [bound, rd_rput_other _ _ _ _ _ (regsWf_rwr _ _ _ hwf) hne, rd_rwr_same _ _ _ hwf]

/-- The state in which the tokens of a core's first pour are reset (R58). -/
def tokensReady (s : State) (c : Nat) (pr : Pour) : State := if pr.first then resetTokens s c (tokenRange pr) else s

theorem beside_tokensReady (s : State) (c : Nat) (pr : Pour) : Beside s (tokensReady s c pr) c := by
  unfold tokensReady
  split
  · exact beside_resetTokens s c _
  · exact .of_cores rfl rfl

theorem rd_tokensReady {s : State} {c : Nat} (hc : c < nCores) (pr : Pour) (hs : regsWf s) {o : Nat} (ho : logReg o = false) :
    rd (tokensReady s c pr) o = rd s o := by
  unfold tokensReady
  split
  · exact rd_resetTokens hc _ hs ho
  · rfl

theorem logReg_rNUM_OVF {c x : Nat} (hc : c < nCores) (hx : x < 4) : logReg (rNUM_OVF c x) = false := by
  unfold nCores at hc
  simp only [logReg, isCounterOff, Bool.or_eq_false_iff, Bool.and_eq_false_iff, decide_eq_false_iff_not]
  unfold rNUM_OVF rCNT_SAT rTRC_STATUS rFLT_CPER_PTR rFLT_CPER_HEAD rCQ_STATUS
  omega

/-- The pour that runs: its bindings resolved, its watchdog set (R22, R30). -/
def runningPour (s : State) (c : Nat) (pr : Pour) (bs : List Bind) : Pour :=
  { pr with binds := bs, watch := watchNs (coreKhz s (dieOfCore c)) }

/-- A pour whose bindings resolve runs in a state `v` with the contexts of before and its NUM_OVF clear (R30, R57). -/
theorem pourStart_runs {s u : State} {c x : Nat} {pr : Pour} {b : Bind} {bs : List Bind}
    (hst : (ctxOf s c x).st = .loading) (hp : (ctxOf s c x).pour = some pr) (hheld : loadingHeld s c = false)
    (h2 : ctlState s ≠ 2) (h3 : ctlState s ≠ 3) (hact : partState s pr.part = 1)
    (hb : startBinds s pr.part pr pr.binds = (0, b :: bs, u)) :
    ∃ v n, CtxsKept s v ∧ (c < nCores → x < 4 → regsWf s → rd v (rNUM_OVF c x) = 0) ∧ pourStart s c x =
      modCtx v c x (fun t => { freshCtx n t with
        st := .running, pour := some (runningPour s c pr (b :: bs))
        pc := BitVec.ofNat 48 (b.base + pr.entry), lastPc := BitVec.ofNat 48 (b.base + pr.entry) }) := by
  have hu : Prepared s u := .of_stored (by simpa only [hb] using stored_startBinds pr.part pr pr.binds s)
  set w := bound s u c x pr (b :: bs) with hw
  have hwp : Prepared u w := prepared_bound s c x pr _
  refine ⟨modCore (tokensReady (useFree w).2 c pr) c (fun k => undefAccs k (accsOf pr) w.free), w.free, ?ctxs, fun hc hx hs => ?ovf, ?eq⟩
  case ctxs =>
    exact (hu.1.trans hwp.1).trans (((beside_useFree w c).trans (beside_tokensReady _ c pr)).trans
      (beside_modCore _ c (by rw [undefAccs_frame]))).ctxsKept
  case ovf =>
    rw [rd_modCore, rd_tokensReady hc pr (s := (useFree w).2) (hwp.2 (hu.2 hs)) (logReg_rNUM_OVF hc hx), rd_useFree, hw,
      rd_bound s c x pr _ (hu.2 hs)]
  case eq =>
    unfold pourStart
    simp only [hst, hp, hheld, h2, h3, hact, hb]
    rfl

/-- A pour whose bindings do not all resolve aborts with the start code (R30). -/
theorem pourStart_fails {s u : State} {c x code : Nat} {pr : Pour} {bs : List Bind}
    (hst : (ctxOf s c x).st = .loading) (hp : (ctxOf s c x).pour = some pr) (hheld : loadingHeld s c = false)
    (h2 : ctlState s ≠ 2) (h3 : ctlState s ≠ 3) (hact : partState s pr.part = 1)
    (hb : startBinds s pr.part pr pr.binds = (code, bs, u)) (hcode : code ≠ 0) :
    pourStart s c x = beginAbort s c x code 0 := by
  unfold pourStart
  simp only [hst, hp, hheld, h2, h3, hact, hb]
  cases code with
  | zero => exact absurd rfl hcode
  | succ n => rfl

/-- A pour is refused in the orphan and Cairn states and in a partition that is not ACTIVE (R337, R438). -/
theorem pourStart_refused {s : State} {c x : Nat} {pr : Pour} (hst : (ctxOf s c x).st = .loading)
    (hp : (ctxOf s c x).pour = some pr) (hheld : loadingHeld s c = false)
    (h : ctlState s = 2 ∨ ctlState s = 3 ∨ partState s pr.part ≠ 1) : pourStart s c x = beginAbort s c x 0x13 0 := by
  unfold pourStart
  simp only [hst, hp, hheld]
  rw [if_neg (by decide), if_pos (by simpa [or_assoc] using h)]

theorem pourStart_waits {s : State} {c x : Nat} (hheld : loadingHeld s c = true) :
    pourStart s c x = s := by
  unfold pourStart
  dsimp only
  split
  · rw [if_pos hheld]
  · rfl

end Sys2Proof.Machine
end

section
/-! PROOFS. The life of a pour: start, commit request, abort, quiet and watchdog (R22, R25, R30, R57, R64, R65). -/

namespace Sys2Proof.Safety

open Sys2Proof Sys2Proof.Machine

section Pour

variable {s : State} {c x : Nat} {pr : Pour}

/-! ### Aborts and ends -/

/-- Where `abortedAt` records the address of the last word fetched, it is `abortedCtx`. -/
theorem abortedAt_eq_abortedCtx {k : Ctx} {code : Nat} (h : k.st ≠ .loading ∨ startCode code = false) :
    abortedAt k code = abortedCtx k code 0 := by
  have : ¬ (k.st = .loading ∧ startCode code = true) := by rcases h with h | h <;> simp [h]
  unfold abortedAt
  rw [if_neg this]
  rfl

/-- An abort that is detected before the commit point (R24, R49). -/
theorem aborts_beginAbort (code : Nat) (h : beforeCommit (ctxOf s c x) = true) :
    OnlyCtx s (beginAbort s c x code 0) c x ∧ ctxOf (beginAbort s c x code 0) c x = abortedAt (ctxOf s c x) code :=
  ⟨onlyCtx_beginAbort s c x code, ctxOf_beginAbort s c x code h⟩

/-- A pour that ends gives back its slots and holds, in `u`, before its context is IDLE (R25, R57). -/
theorem ended_spec {u : State} (hu : Stored s u) (pr : Pour) (code : Nat) (replayed : Bool) :
    let t := endPour u c x pr code replayed
    ctxOf t c x = endedCtx (ctxOf s c x) code ∧ (∀ y, y ≠ x → ctxOf t c y = ctxOf s c y) ∧ PourFrame s t := by
  refine ⟨?_, fun y hy => ?_, pourFrame_trans hu.pourFrame (pourFrame_endPour u c x pr code replayed)⟩
  · rw [ctxOf_endPour_same, ctxOf_congr hu.cores]
  · rw [ctxOf_endPour_other _ _ _ _ _ _ hy, ctxOf_congr hu.cores]

/-- No store of descriptors turns a record queue off: neither CTL_STATE nor ENABLE of any CQ_CFG is written. -/
theorem records_on_of_stored {u : State} (hu : Stored s u) (hs : regsWf s) (q : Nat) :
    recordsOff u = recordsOff s ∧ rflag u (rCQ_CFG q) fCQ_CFG_ENABLE = rflag s (rCQ_CFG q) fCQ_CFG_ENABLE := by
  constructor
  · rw [recordsOff, recordsOff, hu.pins, ctlState, ctlState, rget, rget, hu.same hs rCTL_STATE (by decide)]
  · have hne : rCQ_CFG q ≠ rCNT_SAT := by unfold rCQ_CFG rCNT_SAT; omega
    rw [rflag, rflag, rget, rget, hu.top hs _ hne _ _ (by decide)]

/-! ### COMMIT_REQUEST, POUR_ABORT and POUR_QUIET -/

theorem commitRequest_busy (h : pourBusy s c x = true) : commitRequest s c x = s := by simp [commitRequest, h]

theorem commitRequest_sends (hst : (ctxOf s c x).st = .committing) (h : pourBusy s c x = false) :
    commitRequest s c x = setCtx s c x { ctxOf s c x with commitSent := true } := by
  unfold commitRequest
  rw [if_pos (by simp [hst, h])]
  rfl

/-- Nothing of an aborted pour is at work, and the tokens of its range are EMPTY (R64). -/
theorem quiet_pourAbort (hst : (ctxOf s c x).st = .aborting) (hp : (ctxOf s c x).pour = some pr)
    (htok : smWf (fun _ => Tok.empty) (coreOf s c).toks = true) :
    Quiet (coreOf s c) (coreOf (pourAbort s c x) c) x (tokenRange pr) := by
  obtain ⟨v, -, hquiet, h⟩ := pourAbort_stops hst hp htok
  obtain ⟨l, hcore⟩ : ∃ l, coreOf (pourAbort s c x) c = { coreOf v c with ctxs := l } :=
    ⟨_, by rw [h]; exact coreOf_setCtx_same _ c x _⟩
  rw [hcore]
  exact ⟨hquiet.flights, hquiet.streams, hquiet.gaths, hquiet.toks⟩

theorem pourQuiet_ends (hst : (ctxOf s c x).st = .aborting) (hstop : (ctxOf s c x).stopped = true)
    (hp : (ctxOf s c x).pour = some pr) :
    pourQuiet s c x = endPour (releaseBinds s pr.part pr.binds) c x pr (ctxOf s c x).abortCode false := by
  unfold pourQuiet
  simp only [hst, hstop, hp]

end Pour

/-! ### The statement -/

theorem beforeCommit_of_loading {k : Ctx} (h : k.st = .loading) : beforeCommit k = true := by simp [beforeCommit, h]

/-- g0 reads as zero (R55). -/
theorem gRead_zero (k : Ctx) : gRead k 0 = 0 := if_pos rfl

/-- p0 reads as one (R258). -/
theorem pRead_zero (k : Ctx) : pRead k 0 = true := if_pos rfl

/-- Settles O20: each command of a pour's life by the lemma that says what it does. -/
theorem pourLifecycle : Obligations.PourLifecycle := by
  unfold Obligations.PourLifecycle
  intro s c x pr hc hx hp k
  have hunit : ctxOk c x = true := by simp [ctxOk, hc, hx]
  refine ⟨fun hst hheld => ⟨fun href => ?refused, fun h2 h3 hact => ⟨fun code bs u hb hcode => ?fails, fun b bs u hb => ?runs⟩⟩,
    fun hst hheld => ?waits, fun hst => ⟨fun hbusy => ?busy, fun hbusy => ?requests⟩, fun hst htok => ?aborts,
    fun hst hstop => ?quiet, fun hst hstop hcanon hoff hen => ?record, fun hbefore => ?watchdog⟩
  case refused =>
    refine runs_of_onUnit (t := pourStart s c x) rfl hunit ?_
    rw [pourStart_refused hst hp hheld href]
    exact aborts_beginAbort 0x13 (beforeCommit_of_loading hst)
  case fails =>
    refine runs_of_onUnit (t := pourStart s c x) rfl hunit ?_
    rw [pourStart_fails hst hp hheld h2 h3 hact hb hcode]
    exact aborts_beginAbort code (beforeCommit_of_loading hst)
  case runs =>
    obtain ⟨v, n, hkept, hovf, h⟩ := pourStart_runs hst hp hheld h2 h3 hact hb
    refine runs_of_onUnit (t := pourStart s c x) rfl hunit ⟨?_, gRead_zero _, pRead_zero _, fun y hy => ?_, fun hcanon => ?_⟩
    · rw [h, ctxOf_modCtx_same, hkept.ctxOf]
      dsimp only [freshCtx, runningPour]
    · rw [h, ctxOf_modCtx_other _ _ _ hy, hkept.ctxOf]
    · rw [h, rd_modCtx, hovf hc hx hcanon.2]
  case waits => exact runs_of_onUnit (t := pourStart s c x) rfl hunit (pourStart_waits hheld)
  case busy => exact runs_of_onUnit (t := commitRequest s c x) rfl hunit (commitRequest_busy hbusy)
  case requests =>
    refine runs_of_onUnit (t := commitRequest s c x) rfl hunit ?_
    rw [commitRequest_sends hst hbusy]
    exact ⟨onlyCtx_of_setCtx s c x _, ctxOf_setCtx_same s c x _⟩
  case aborts =>
    obtain ⟨v, hv, -, h⟩ := pourAbort_stops hst hp htok
    obtain ⟨hflights, hstreams, hgaths, htoks⟩ := quiet_pourAbort hst hp htok
    refine runs_of_onUnit (t := pourAbort s c x) rfl hunit ⟨?ctx, fun y hy => ?others, hflights,
      fun j h1 h2 => (htoks j).trans (if_pos ((mem_tokenRange pr j).2 ⟨h1, h2⟩)),
      fun j hj => (htoks j).trans (if_neg (fun hm => by have := (mem_tokenRange pr j).1 hm; omega)), hstreams, hgaths,
      fun r hr => ?requests, fun d hd => ?cores, by rw [h]; exact pourFrame_trans hv.pourFrame rfl, by rw [h]; exact hv.mem⟩
    case ctx =>
      rw [h, ctxOf_modCtx_same]
      exact congrArg (fun k : Ctx => { k with queue := [], updRun := none, stopped := true }) (hv.ctxsKept.ctxOf c x)
    case others =>
      rw [h, ctxOf_modCtx_other _ _ _ hy]
      exact hv.ctxsKept.ctxOf c y
    case requests =>
      rw [h] at hr
      simpa [not_and_or, Decidable.imp_iff_not_or] using (List.mem_filter.1 hr).2
    case cores =>
      rw [h]
      exact (coreOf_setCtx_other _ c x d _ hd).trans (hv.others d hd)
  case quiet =>
    refine runs_of_onUnit (t := pourQuiet s c x) rfl hunit ?_
    obtain ⟨hctx, hother, hframe⟩ := ended_spec (c := c) (x := x) (stored_releaseBinds s pr.part pr.binds) pr (ctxOf s c x).abortCode false
    rw [pourQuiet_ends hst hstop hp, hctx]
    exact ⟨rfl, rfl, rfl, rfl, hother, hframe⟩
  case record =>
    refine runs_of_onUnit (t := pourQuiet s c x) rfl hunit ?_
    have hu := stored_releaseBinds s pr.part pr.binds
    obtain ⟨eoff, een⟩ := records_on_of_stored hu hcanon.2 pr.part
    rw [pourQuiet_ends hst hstop hp, waiting_endPour _ _ _ _ _ _ (eoff.trans hoff) (een.trans hen)]
    refine ⟨endRec (releaseBinds s pr.part pr.binds) c x pr (ctxOf s c x).abortCode false, ?_, rfl, rfl, rfl, rfl, rfl, ?_⟩
    · rw [recqOf, recqOf, hu.recq]
    · exact congrArg TimeB.now hu.time
  case watchdog =>
    refine runs_of_onUnit (t := beginAbort s c x 0x0A 0) rfl hunit ?_
    rw [← abortedAt_eq_abortedCtx (k := k) (.inr (by decide))]
    exact aborts_beginAbort 0x0A hbefore

end Sys2Proof.Safety
end

section
/-! PROOFS. The commit unit (R32, R33, R36, R309): what COMMIT_ACCEPT does by its verdict, how the descriptor of an output
reads after the commit, and the partition number for which that fails. -/

namespace Sys2Proof.Safety

open Sys2Proof Sys2Proof.Machine

section Commit

variable {s : State} {c x : Nat} {pr : Pour}

/-! ### COMMIT_ACCEPT -/

/-- The state in which a pour has committed its outputs and given back its holds (R31, R32). -/
def committed (s : State) (pr : Pour) : State := unholdBinds (commitOuts s pr) pr.part pr.binds

theorem stored_committed (s : State) (pr : Pour) : Stored s (committed s pr) :=
  (stored_commitOuts s pr).trans (stored_unholdBinds _ pr.part pr.binds)

theorem commitAcceptAll_held {page : Nat} (h : commitHeld s c x = some page) : commitAcceptAll s c x = ckptWaits s page := by
  unfold commitAcceptAll
  rw [h]

theorem ckptWaits_spec (s : State) (page : Nat) : page ∈ (ckptWaits s page).ckpt.waiting ∧
    ckptWaits s page = { s with ckpt := { s.ckpt with waiting := (ckptWaits s page).ckpt.waiting } } := by
  unfold ckptWaits
  split
  · next h => exact ⟨by simpa using h, rfl⟩
  · exact ⟨by simp, rfl⟩

/-- The pour of a context has ended without an abort, and the dispatcher keeps its outcome `o` (R57, R309). -/
def EndedWith (s t : State) (c x : Nat) (pr : Pour) (o : POut) : Prop :=
  (ctxOf t c x).st = .idle ∧ (ctxOf t c x).lastAbort = 0 ∧ (ctxOf t c x).pour = none ∧
    outOf (kGet ⟨0, []⟩ (partOf t pr.part).cmds pr.pos) pr.idx = some o ∧ ∀ y, y ≠ x → ctxOf t c y = ctxOf s c y

theorem endedWith_endPour {u : State} (hu : Stored s u) (pr : Pour) (replayed : Bool) :
    EndedWith s (endPour u c x pr 0 replayed) c x pr (endOut 0 replayed) := by
  obtain ⟨hctx, hother, -⟩ := ended_spec (c := c) (x := x) hu pr 0 replayed
  rw [EndedWith, hctx]
  exact ⟨rfl, rfl, rfl, outOf_endPour u c x pr 0 replayed, hother⟩

section Accept

variable (hp : (ctxOf s c x).pour = some pr) (hst : (ctxOf s c x).st = .committing) (hfree : commitHeld s c x = none)

include hp hst hfree in
theorem commitAcceptAll_unsent (hsent : (ctxOf s c x).commitSent = false) : commitAcceptAll s c x = s := by
  unfold commitAcceptAll commitAccept
  simp only [hp, hst, hfree, hsent]

variable (hsent : (ctxOf s c x).commitSent = true)

include hp hst hfree hsent

theorem commitAcceptAll_aborts {code : Nat} (h : commitVerdict s pr.part pr = .abort code) :
    commitAcceptAll s c x = beginAbort s c x code 0 := by
  unfold commitAcceptAll commitAccept
  simp only [hfree, hst, hsent, hp, h]

theorem commitAcceptAll_replays (h : commitVerdict s pr.part pr = .replayed) :
    commitAcceptAll s c x = endPour (releaseBinds s pr.part pr.binds) c x pr 0 true := by
  unfold commitAcceptAll commitAccept
  simp only [hfree, hst, hsent, hp, h]

theorem commitAcceptAll_commits (h : commitVerdict s pr.part pr = .commit) (hnone : pr.notices = []) :
    commitAcceptAll s c x = endPour (committed s pr) c x pr 0 false := by
  unfold commitAcceptAll commitAccept
  simp only [hfree, hst, hsent, hp, h, hnone]
  rfl

end Accept

/-! ### The commit of one output -/

/-- Where the commit unit commits, the descriptor of every output reads and its version check passes (R32, R475). -/
theorem output_of_verdict_commit (h : commitVerdict s pr.part pr = .commit) {b : Bind} (hb : b ∈ pr.binds) (hout : b.out = true) :
    memBadIn s (descAddr s pr.part b.buf) 64 = false ∧ bindPasses s pr.part b = true := by
  have hmem : b ∈ pr.binds.filter (fun b => b.out) := List.mem_filter.2 ⟨hb, hout⟩
  unfold commitVerdict at h
  extract_lets outs unreadable malformed at h
  split at h
  · cases h
  next hread =>
  split at h
  · cases h
  split at h
  · cases h
  split at h
  · cases h
  split at h
  · cases h
  next hpass =>
  simp only [Bool.not_eq_true', Bool.not_eq_false] at hpass
  exact ⟨Bool.eq_false_iff.2 (fun hbad => hread (List.any_eq_true.2 ⟨b, hmem, hbad⟩)), List.all_eq_true.1 hpass b hmem⟩

/-- The next version of a buffer that is not fresh fits 48 bits (R32). -/
theorem baseVer_lt_of_bindPasses {p : Nat} {b : Bind} (h : bindPasses s p b = true) (hf : b.fresh = false) :
    b.baseVer < 2 ^ 48 - 1 := by
  simp only [bindPasses, hf, Bool.false_eq_true, if_false, Bool.and_eq_true, decide_eq_true_eq] at h
  exact h.2

/-- The version a claimed output gets (R32, R34). -/
def newVersion (b : Bind) : Nat := if b.fresh then 1 else b.baseVer + 1

/-- The descriptor that commits slot `b.slot` of a buffer: CURRENT, or PENDING for a pending pour (R32, R36). -/
def committedDesc (pr : Pour) (b : Bind) (d : VDesc) : VDesc :=
  if pr.pending then
    setSlot d b.slot { d.slots.getD b.slot VSlot.none with st := 2, voff := (newVersion b : Int) - (d.curVer : Int) }
  else makeCurrent d b.slot (newVersion b)

theorem commitBind_writes {b : Bind} (hclaim : b.claimed = true) : commitBind s pr.part pr b =
    writeDesc s (descAddr s pr.part b.buf) (committedDesc pr b (readDesc s (descAddr s pr.part b.buf))) := by
  unfold commitBind committedDesc newVersion
  rw [if_neg (by simp [hclaim])]
  dsimp only
  by_cases hpend : pr.pending = true
  · rw [if_pos hpend, if_pos hpend]
  · rw [if_neg hpend, if_neg hpend]

/-- The version table of a partition of the device stays where it is while a descriptor is stored. -/
theorem descAddr_of_stored {u : State} (hu : Stored s u) (hs : regsWf s) {p : Nat} (hp : p < nParts) (buf : Nat) :
    descAddr u p buf = descAddr s p buf := by
  have hlog : logReg (rPART_VTABLE p) = false := by
    unfold nParts at hp
    simp only [logReg, isCounterOff, Bool.or_eq_false_iff, Bool.and_eq_false_iff, decide_eq_false_iff_not]
    unfold rPART_VTABLE rCNT_SAT rTRC_STATUS rFLT_CPER_PTR rFLT_CPER_HEAD rCQ_STATUS
    omega
  rw [descAddr, descAddr, rget, rget, hu.same hs _ hlog]

/-- A slot once committed is not WRITING, so giving back the pour's holds leaves it (R31). -/
theorem unholdBinds_committed {u : State} {b : Bind} (hclaim : b.claimed = true)
    (hst : ((readDesc u (descAddr u pr.part b.buf)).slots.getD b.slot VSlot.none).st ≠ 1) : unholdBinds u pr.part [b] = u := by
  have hrel : releaseBind u pr.part b = u := by
    unfold releaseBind
    simp only [hclaim, if_true, hst, if_false, ite_self]
  unfold unholdBinds releaseBinds
  by_cases hh : b.held = true
  · simp [hh, hrel]
  · simp [hh]

theorem newVersion_lt {b : Bind} (h : b.fresh = false → b.baseVer < 2 ^ 48 - 1) : newVersion b < 2 ^ 48 := by
  unfold newVersion
  split
  · omega
  · next hf => exact Nat.add_lt_of_lt_sub (h (by simpa using hf))

/-- The committed slot of a descriptor of four slots. -/
theorem committedDesc_slot {d : VDesc} (pr : Pour) {b : Bind} (hlen : d.slots.length = 4) (hb : b.slot < 4) :
    ((committedDesc pr b d).slots.getD b.slot VSlot.none).st = if pr.pending then 2 else 3 := by
  unfold committedDesc
  split
  · simp [setSlot, hlen, hb]
  · simp [makeCurrent, setSlot, rebase, hlen, hb]

theorem committedDesc_fits {d : VDesc} (pr : Pour) {b : Bind} (hd : DescFits d) (hb : b.slot < 4) : DescFits (committedDesc pr b d) := by
  unfold committedDesc
  split
  · obtain ⟨-, hhold, hbase⟩ := hd.getD b.slot
    exact hd.setSlot b.slot ⟨show 2 < 8 by decide, hhold, hbase⟩
  · exact hd.makeCurrent _ hb

/-- How the descriptor of a pour's one output reads once it has committed (R32, R34, R36, R38). -/
theorem readDesc_commitBind {b : Bind} (hread : memBadIn s (descAddr s pr.part b.buf) 64 = false) (hs : memWf s = true)
    (hclaim : b.claimed = true) (hslot : b.slot < 4) (hver : newVersion b < 2 ^ 48) :
    let d := readDesc (commitBind s pr.part pr b) (descAddr s pr.part b.buf)
    (d.slots.getD b.slot VSlot.none).st = (if pr.pending then 2 else 3) ∧
    (pr.pending = false → d.cur = b.slot ∧ d.curVer = newVersion b) ∧
    (pr.pending = true → d.curVer = (readDesc s (descAddr s pr.part b.buf)).curVer) := by
  set a := descAddr s pr.part b.buf with ha
  have hfits := descFits_readDesc s a
  obtain ⟨hcur, hcv, hslots⟩ := readDesc_writeDesc (committedDesc_fits pr hfits hslot) hs
    (fun x h1 h2 => tierDown_of_memBadIn hread x h1 h2)
  rw [commitBind_writes hclaim]
  refine ⟨(hslots _ hslot).trans (committedDesc_slot pr (length_slots_readDesc s a) hslot), fun hp => ?_, fun hp => ?_⟩
  · rw [hcur, hcv]
    simp only [committedDesc, hp, Bool.false_eq_true, if_false]
    exact ⟨rfl, Nat.mod_eq_of_lt hver⟩
  · rw [hcv]
    simp only [committedDesc, hp, if_true]
    exact Nat.mod_eq_of_lt (wfld_lt _ 47 0)

/-- The one output of a pour is committed: its slot CURRENT with the next version, or PENDING for a pending pour (R32,
R34, R36). -/
def OutputCommitted (s t : State) (pr : Pour) (b : Bind) : Prop :=
  let d := readDesc t (descAddr s pr.part b.buf)
  (pr.pending = false → (d.slots.getD b.slot VSlot.none).st = 3 ∧ d.cur = b.slot ∧ d.curVer = if b.fresh then 1 else b.baseVer + 1) ∧
  (pr.pending = true → (d.slots.getD b.slot VSlot.none).st = 2 ∧ d.curVer = (readDesc s (descAddr s pr.part b.buf)).curVer)

/-- The one output of a pour after the commit, its holds given back (R31, R32). -/
theorem outputCommitted_one {b : Bind} (hcanon : Canon s) (hpart : pr.part < nParts)
    (hverdict : commitVerdict s pr.part pr = .commit) (hb : pr.binds = [b]) (hout : b.out = true) (hclaim : b.claimed = true)
    (hslot : b.slot < 4) : OutputCommitted s (committed s pr) pr b := by
  obtain ⟨hread, hpass⟩ := output_of_verdict_commit hverdict (by simp [hb]) hout
  have hcommit := readDesc_commitBind hread hcanon.1.1 hclaim hslot (newVersion_lt (baseVer_lt_of_bindPasses hpass))
  have houts : commitOuts s pr = commitBind s pr.part pr b := by simp [commitOuts, hb, hout]
  have hnot : ((readDesc (commitBind s pr.part pr b) (descAddr (commitBind s pr.part pr b) pr.part b.buf)).slots.getD b.slot
      VSlot.none).st ≠ 1 := by
    rw [descAddr_of_stored (stored_commitBind s pr.part pr b) hcanon.2 hpart, hcommit.1]
    split <;> decide
  have hunhold : committed s pr = commitBind s pr.part pr b := by
    rw [committed, houts, hb, unholdBinds_committed hclaim hnot]
  obtain ⟨hst, hcur, hver⟩ := hcommit
  rw [hunhold]
  exact ⟨fun h => ⟨by simpa [h] using hst, hcur h⟩, fun h => ⟨by simpa [h] using hst, hver h⟩⟩

end Commit

/-! ### A partition of the device -/

/-- The commit unit's rules for a pour whose partition the device has: with that premise every clause of O21 holds (R32,
R33, R36, R309). -/
theorem commitUnitDecides_of_part_lt (s : State) (c x : Nat) (pr : Pour) (hc : c < nCores) (hx : x < 4) (hpart : pr.part < nParts)
    (hp : (ctxOf s c x).pour = some pr) (hst : (ctxOf s c x).st = .committing) :
    (∀ page, commitHeld s c x = some page → Runs (.commitAccept c x) s (fun t => page ∈ t.ckpt.waiting ∧
      t = { s with ckpt := { s.ckpt with waiting := t.ckpt.waiting } })) ∧
    (commitHeld s c x = none →
    ((ctxOf s c x).commitSent = false → Runs (.commitAccept c x) s (fun t => t = s)) ∧
    ((ctxOf s c x).commitSent = true →
      (∀ code, commitVerdict s pr.part pr = .abort code → Runs (.commitAccept c x) s (fun t => OnlyCtx s t c x ∧
        ctxOf t c x = abortedCtx (ctxOf s c x) code 0)) ∧
      (commitVerdict s pr.part pr = .replayed → Runs (.commitAccept c x) s (fun t => EndedWith s t c x pr .replayed)) ∧
      (commitVerdict s pr.part pr = .commit → pr.notices = [] → Runs (.commitAccept c x) s (fun t => EndedWith s t c x pr .committed)) ∧
      (∀ b, commitVerdict s pr.part pr = .commit → pr.notices = [] → Canon s → pr.binds = [b] → b.out = true →
        b.claimed = true → b.slot < 4 → Runs (.commitAccept c x) s (fun t => OutputCommitted s t pr b)))) := by
  have hunit : ctxOk c x = true := by simp [ctxOk, hc, hx]
  have run : ∀ P : State → Prop, P (commitAcceptAll s c x) → Runs (.commitAccept c x) s P :=
    fun P => runs_of_onUnit (t := commitAcceptAll s c x) rfl hunit
  refine ⟨fun page hpage => run _ ?held, fun hfree => ⟨fun hsent => run _ (commitAcceptAll_unsent hp hst hfree hsent), fun hsent =>
    ⟨fun code h => run _ ?aborts, fun h => run _ ?replays, fun h hnone => run _ ?commits,
      fun b h hnone hcanon hb hout hclaim hslot => run _ ?stores⟩⟩⟩
  case held =>
    rw [commitAcceptAll_held hpage]
    exact ckptWaits_spec s page
  case aborts =>
    rw [commitAcceptAll_aborts hp hst hfree hsent h, ← abortedAt_eq_abortedCtx (.inl (by simp [hst]))]
    exact aborts_beginAbort code (by simp [beforeCommit, hst])
  case replays =>
    rw [commitAcceptAll_replays hp hst hfree hsent h]
    exact endedWith_endPour (stored_releaseBinds s pr.part pr.binds) pr true
  case commits =>
    rw [commitAcceptAll_commits hp hst hfree hsent h hnone]
    exact endedWith_endPour (stored_committed s pr) pr false
  case stores =>
    rw [commitAcceptAll_commits hp hst hfree hsent h hnone, OutputCommitted, readDesc_endPour]
    exact outputCommitted_one hcanon hpart h hb hout hclaim hslot

/-! ### A partition that the device does not have

Nothing in O21 bounds the number of the pour's partition, and the registers of a partition 128 would stand on those of
the trace block: its version table at CNT_SAT.  The store of the committed descriptor drops a cached line; where that
saturates a counter, CNT_SAT takes the counter's number and the version table moves.  A pour that also holds its output
then gives the hold back at another descriptor, whose WRITING slot covers the committed one: its bytes become free
values, and cannot tell slot 0 from slot 1. -/

/-- An output in slot `i` of buffer 0, fresh, claimed and held. -/
def strayBind (i : Nat) : Bind :=
  { buf := 0, out := true, rmode := 0, res := false, ridx := 0, stamp := 0, slot := i, base := 0, units := 0,
    version := 0, verStamp := 0, baseVer := 0, fresh := true, claimed := true, held := true, replayMet := false }

/-- A pour of partition 128 with that output. -/
def strayPour (i : Nat) : Pour :=
  { part := 128, pos := 0, idx := 0, pending := false, replay := false, stamp := 0, tokFirst := 0, tokLast := 0,
    mStream := 0, mGather := 0, mAcc0 := 0, mAcc1 := 0, entry := 0, binds := [strayBind i], args := [], notices := [],
    first := false, started := 0, watch := 0 }

/-- Its commit request is sent; the descriptor of buffer 0 stands at 0, in a line that the cache of die 0 holds and
whose drop saturates the cache's counter; two WRITING slots at base 0 stand in a descriptor at 0x104600. -/
def strayState (i : Nat) : State :=
  { State.reset with
    regs := [(rPART_CTRL 128, 0x10), (rPART_STACKS 128, 1), (rCNT_DEV 0x4606, 0xFFFFFFFFFFFF)]
    mem := [(7, 0x14), (0x104608, 1), (0x104617, 0x20), (0x10461F, 0x20)]
    sprue := [(0, ⟨[(0, 0)], [], []⟩)]
    cores := [(0, { Core.reset with
      ctxs := [(0, { Ctx.reset with st := .committing, commitSent := true, pour := some (strayPour i) })] })] }

/-- The premises of O21's last clause hold of slots 0 and 1. -/
theorem stray_commits : ∀ i : Fin 2, (ctxOf (strayState i) 0 0).pour = some (strayPour i) ∧
    (ctxOf (strayState i) 0 0).st = .committing ∧ commitHeld (strayState i) 0 0 = none ∧
    (ctxOf (strayState i) 0 0).commitSent = true ∧ commitVerdict (strayState i) 128 (strayPour i) = .commit ∧
    Canon (strayState i) ∧ descAddr (strayState i) 128 0 = 0 := by decide +kernel

/-- After the commit the bytes from 0 to 255 are free value 0, whichever slot has committed. -/
theorem stray_undefined : ∀ i : Fin 2, (commitAcceptAll (strayState i) 0 0).memUndef = [(0, 256, 0)] := by decide +kernel

/-- Bytes that are the same free values read as the same word. -/
theorem memWord_zero_of_undefined {s t : State} (hs : s.memUndef = [(0, 256, 0)]) (ht : t.memUndef = [(0, 256, 0)]) :
    memWord s 0 = memWord t 0 := by
  have hb : memBytes s 0 8 = memBytes t 0 8 := List.map_congr_left (fun i hi => by
    have hi8 : i < 256 := Nat.lt_trans (List.mem_range.1 hi) (by decide)
    simp [memByte, cellByte, hs, ht, undefGen, hi8])
  rw [memWord, hb, memWord]

/-- Refutes O21: the pours of partition 128 that commit slot 0 and slot 1 of one buffer leave descriptors that read
alike, so that slot 0 and slot 1 would both be its CURRENT slot. -/
theorem not_commitUnitDecides : ¬ Obligations.CommitUnitDecides := by
  unfold Obligations.CommitUnitDecides
  intro h
  have current : ∀ i : Fin 2, (readDesc (commitAcceptAll (strayState i) 0 0) 0).cur = i := fun i => by
    obtain ⟨hp, hst, hfree, hsent, hverdict, hcanon, haddr⟩ := stray_commits i
    obtain ⟨-, -, -, hstores⟩ := (h (strayState i) 0 0 (strayPour i) (by decide) (by decide) hp hst).2 hfree |>.2 hsent
    obtain ⟨t, ht, hread⟩ := hstores (strayBind i) hverdict rfl hcanon rfl rfl rfl (by simp [strayBind]; omega)
    obtain rfl : commitAcceptAll (strayState i) 0 0 = t := Host.Outcome.next.inj ht
    have hcur := (hread.1 rfl).2.1
    rw [show descAddr (strayState i) (strayPour i).part (strayBind i).buf = 0 from haddr] at hcur
    exact hcur
  have hsame : (readDesc (commitAcceptAll (strayState 0) 0 0) 0).cur = (readDesc (commitAcceptAll (strayState 1) 0 0) 0).cur :=
    congrArg (wfld · 57 56) (memWord_zero_of_undefined (stray_undefined 0) (stray_undefined 1))
  have hslots : 0 = 1 := (current 0).symm.trans (hsame.trans (current 1))
  exact absurd hslots (by decide)

end Sys2Proof.Safety
end

section
/-! PROOFS. The issue of a tensor instruction (R52, R58, R59, R61, R172, R283): what taking the head of a queue does to
tokens, flights and the rest of the state, and what an attempt to issue it answers. -/

namespace Sys2Proof.Machine

/-! ### Tokens -/

/-- What a sequence of steps on a core does to its tokens, where a step sets the token that `sel` gives to `v` or sets
none. -/
theorem tokOf_foldl {α : Type} (f : Core → α → Core) (sel : α → Option Nat) (v : Tok)
    (hset : ∀ k a t, sel a = some t → (f k a).toks = smSet Tok.empty k.toks t v)
    (hnone : ∀ k a, sel a = none → (f k a).toks = k.toks) (l : List α) (k : Core)
    (hk : smWf (fun _ => Tok.empty) k.toks = true) :
    smWf (fun _ => Tok.empty) (l.foldl f k).toks = true ∧
    ∀ j, tokOf (l.foldl f k) j = if some j ∈ l.map sel then v else tokOf k j := by
  induction l generalizing k with
  | nil => exact ⟨hk, fun j => by simp⟩
  | cons a l ih =>
    cases ha : sel a with
    | none =>
      obtain ⟨hwf, htok⟩ := ih (f k a) (by rw [hnone k a ha]; exact hk)
      refine ⟨hwf, fun j => (htok j).trans ?_⟩
      simp only [tokOf, hnone k a ha, List.map_cons, ha, List.mem_cons, reduceCtorEq, false_or]
    | some t =>
      obtain ⟨hwf, htok⟩ := ih (f k a) (by rw [hset k a t ha]; exact smSet_wf (fun _ => Tok.empty) k.toks t v hk)
      refine ⟨hwf, fun j => (htok j).trans ?_⟩
      have hj : tokOf (f k a) j = if j = t then v else tokOf k j := by
        rw [tokOf, hset k a t ha]
        exact smGet_smSet (fun _ => Tok.empty) k.toks t j v hk
      rw [hj]
      simp only [List.map_cons, ha, List.mem_cons, Option.some.injEq]
      by_cases h1 : j = t <;> simp [h1]

/-- A read slot at issue (R58, R283). -/
def readSlot (k : Core) (r : Nat × Bool) : Core :=
  let k' := { k with tokRead := smSet false k.tokRead r.1 true }
  if r.2 then setTok k' r.1 .draining else k'

/-- A written slot at issue (R58, R283). -/
def fillSlot (rs : List (Nat × Nat)) (k : Core) (t : Nat) : Core :=
  { setTokAt (setTok k t .filling) t rs with
    tokRead := smSet false k.tokRead t false, tokTile := smSet 0 k.tokTile t 0 }

theorem planTokens_eq (k : Core) (p : Plan) :
    planTokens k p = p.writes.foldl (fillSlot p.regions) (p.reads.foldl readSlot k) := rfl

/-- Nothing of a core differs but its tokens and what is noted of their slots. -/
def TokensOnly (k k' : Core) : Prop :=
  ∃ toks toksAt toksRead toksTile, k' = { k with toks := toks, tokAt := toksAt, tokRead := toksRead, tokTile := toksTile }

theorem TokensOnly.trans {k k' k'' : Core} (h : TokensOnly k k') (h' : TokensOnly k' k'') : TokensOnly k k'' := by
  obtain ⟨_, _, _, _, rfl⟩ := h
  obtain ⟨_, _, _, _, rfl⟩ := h'
  exact ⟨_, _, _, _, rfl⟩

theorem tokensOnly_foldl {α : Type} (f : Core → α → Core) (hf : ∀ k a, TokensOnly k (f k a)) (l : List α) (k : Core) :
    TokensOnly k (l.foldl f k) :=
  List.foldlRecOn (motive := TokensOnly k) l f ⟨_, _, _, _, rfl⟩ (fun u hu a _ => hu.trans (hf u a))

theorem tokensOnly_readSlot (k : Core) (r : Nat × Bool) : TokensOnly k (readSlot k r) := by
  unfold readSlot
  dsimp only
  split <;> exact ⟨_, _, _, _, rfl⟩

/-- Only the tokens and what is noted of their slots change at issue. -/
theorem tokensOnly_planTokens (k : Core) (p : Plan) : TokensOnly k (planTokens k p) :=
  (tokensOnly_foldl readSlot tokensOnly_readSlot p.reads k).trans
    (tokensOnly_foldl (fillSlot p.regions) (fun _ _ => ⟨_, _, _, _, rfl⟩) p.writes _)

/-- Written slots are FILLING, slots read with release DRAINING, the others as before (R58). -/
theorem tokOf_planTokens (k : Core) (p : Plan) (hk : smWf (fun _ => Tok.empty) k.toks = true) (j : Nat) :
    tokOf (planTokens k p) j =
      if j ∈ p.writes then .filling else if (j, true) ∈ p.reads then .draining else tokOf k j := by
  have hread := tokOf_foldl readSlot (fun r => if r.2 then some r.1 else none) .draining
    (fun k r t hr => by
      obtain ⟨u, rel⟩ := r
      cases rel with
      | false => cases hr
      | true => cases hr; rfl)
    (fun k r hr => by
      obtain ⟨u, rel⟩ := r
      cases rel with
      | false => rfl
      | true => cases hr) p.reads k hk
  have hmem : some j ∈ p.reads.map (fun r => if r.2 then some r.1 else none) ↔ (j, true) ∈ p.reads := by simp
  have hfill := tokOf_foldl (fillSlot p.regions) some .filling (fun k a t ha => by cases ha; rfl)
    (fun k a ha => by cases ha) p.writes _ hread.1
  rw [planTokens_eq, hfill.2 j, hread.2 j]
  simp [hmem]

/-! ### Taking the head of a queue -/

theorem noteLast_frame (s : State) (c : Nat) (w : Word) (units : List Nat) :
    noteLast s c w units = { s with regs := (noteLast s c w units).regs } := by
  unfold noteLast
  split
  · refine List.foldlRecOn (motive := fun u : State => u = { s with regs := u.regs }) _ _ rfl (fun u hu a _ => ?_)
    split
    · exact (show rwr u _ w = { u with regs := (rwr u _ w).regs } from rfl).trans (by rw [hu])
    · exact hu
  · rfl

/-- A core whose context `x` has lost the head of its queue. -/
def dequeued (k : Core) (x : Nat) : Core :=
  { k with ctxs := kSet k.ctxs x { ctxOfCore k x with queue := (ctxOfCore k x).queue.drop 1 } }

/-- The core whose context `x` issues `e` under plan `p`: the entry leaves the queue, the tokens change, and what flies is
in flight. -/
def issuedCore (k : Core) (x : Nat) (e : QEnt) (p : Plan) : Core :=
  { planTokens (dequeued k x) p with flights := k.flights ++ (if flies e p then
      [⟨x, flightOp e.word, p.units, p.accs, p.writes, p.regions, none, flightMode e.word⟩] else []) }

/-- An issue before it is counted. -/
def headTaken (s : State) (c x : Nat) (e : QEnt) (p : Plan) : State :=
  modCore (modCtx s c x (fun t => { t with queue := t.queue.drop 1 })) c (fun k =>
    let k1 := planTokens k p
    if flies e p then { k1 with flights := k1.flights ++
      [⟨x, flightOp e.word, p.units, p.accs, p.writes, p.regions, none, flightMode e.word⟩] }
    else k1)

theorem takeHead_eq (s : State) (c x : Nat) (e : QEnt) (p : Plan) :
    takeHead s c x e p = noteLast (countCore (headTaken s c x e p) c (0xA1 + x) 1) c e.word p.units := rfl

theorem coreOf_headTaken_same (s : State) (c x : Nat) (e : QEnt) (p : Plan) :
    coreOf (headTaken s c x e p) c = issuedCore (coreOf s c) x e p := by
  have hcore : coreOf (modCtx s c x (fun t => { t with queue := t.queue.drop 1 })) c = dequeued (coreOf s c) x :=
    coreOf_setCtx_same s c x _
  obtain ⟨_, _, _, _, h⟩ := tokensOnly_planTokens (dequeued (coreOf s c) x) p
  rw [headTaken, coreOf_modCore_same, hcore, issuedCore, h]
  dsimp only
  split
  · rfl
  · rw [List.append_nil]
    rfl

theorem coreOf_headTaken_other (s : State) (c x d : Nat) (e : QEnt) (p : Plan) (h : d ≠ c) :
    coreOf (headTaken s c x e p) d = coreOf s d := by
  rw [headTaken, coreOf_modCore_other _ _ _ _ h, modCtx, coreOf_setCtx_other _ _ _ _ _ h]

theorem takeHead_frame (s : State) (c x : Nat) (e : QEnt) (p : Plan) : takeHead s c x e p =
    { headTaken s c x e p with regs := (takeHead s c x e p).regs, trc := (takeHead s c x e p).trc } := by
  rw [takeHead_eq, noteLast_frame, countCore, countUp_frame]

theorem cores_takeHead (s : State) (c x : Nat) (e : QEnt) (p : Plan) :
    (takeHead s c x e p).cores = (headTaken s c x e p).cores := by rw [takeHead_frame]

theorem coreOf_takeHead_same (s : State) (c x : Nat) (e : QEnt) (p : Plan) :
    coreOf (takeHead s c x e p) c = issuedCore (coreOf s c) x e p :=
  (coreOf_congr (cores_takeHead s c x e p) c).trans (coreOf_headTaken_same s c x e p)

theorem coreOf_takeHead_other (s : State) (c x d : Nat) (e : QEnt) (p : Plan) (h : d ≠ c) :
    coreOf (takeHead s c x e p) d = coreOf s d :=
  (coreOf_congr (cores_takeHead s c x e p) d).trans (coreOf_headTaken_other s c x d e p h)

theorem ctxs_issuedCore (k : Core) (x : Nat) (e : QEnt) (p : Plan) : (issuedCore k x e p).ctxs = (dequeued k x).ctxs := by
  obtain ⟨_, _, _, _, h⟩ := tokensOnly_planTokens (dequeued k x) p
  rw [issuedCore, h]

theorem ctxOf_takeHead (s : State) (c x y : Nat) (e : QEnt) (p : Plan) : ctxOf (takeHead s c x e p) c y =
    if y = x then { ctxOf s c x with queue := (ctxOf s c x).queue.drop 1 } else ctxOf s c y := by
  rw [ctxOf, coreOf_takeHead_same, ctxOfCore, ctxs_issuedCore, dequeued, kGet_kSet]
  rfl

end Sys2Proof.Machine

namespace Sys2Proof.Safety

open Sys2Proof Sys2Proof.Machine

/-- What taking the head of a queue does before the data effect (R58, R59, R283). -/
theorem issuesFrom_takeHead (s : State) (c x : Nat) (e : QEnt) (p : Plan) : IssuesFrom s (takeHead s c x e p) c x e p := by
  have hcore := coreOf_takeHead_same s c x e p
  obtain ⟨_, _, _, _, hframe⟩ := tokensOnly_planTokens (dequeued (coreOf s c) x) p
  refine ⟨by rw [ctxOf_takeHead, if_pos rfl], fun y hy => by rw [ctxOf_takeHead, if_neg hy],
    fun d hd => coreOf_takeHead_other s c x d e p hd, fun htok t => ?toks, by rw [hcore]; rfl, ?spm, ?accs,
    by rw [takeHead_frame]; rfl⟩
  case toks =>
    rw [hcore]
    exact tokOf_planTokens (dequeued (coreOf s c) x) p htok t
  case spm => rw [hcore, issuedCore, hframe]; rfl
  case accs => rw [hcore, issuedCore, hframe]; rfl

/-- The effect of an issued instruction takes place at once or is held back (R61, R172, R177). -/
theorem effect_runPlan (u : State) (c x : Nat) (e : QEnt) (p : Plan) : Effect u (runPlan u c x e p) c x e p := by
  unfold Effect runPlan
  refine ⟨fun hheld hserved => ?_, fun hheld => ?_, fun l hheld hwaits => ?_⟩
  · rw [if_neg (by simp [hheld]), hserved]
  · rw [if_pos hheld]
  · rw [if_neg (by simp [hheld]), hwaits]

/-! ### An attempt to issue -/

/-- A command that tries to issue the head `e` of context `x` aborts its pour where a check fails, leaves the state where
something `e` needs is not ready, and otherwise issues it (R58, R59). -/
theorem runs_tryIssue {i : Instr} {s u : State} {c x : Nat} {e : QEnt}
    (hexec : Machine.exec i s = .next (tryIssue u c x e (planOf u c x e))) :
    (∀ code log, planOf u c x e = .stop code log → Runs i s (fun t => t = beginAbort (log u) c x code 0)) ∧
    (∀ p, planOf u c x e = .go p →
      (planReady (coreOf u c) p = false → Runs i s (fun t => t = u)) ∧
      (planReady (coreOf u c) p = true →
        (∀ code log, p.late u = some (code, log) → Runs i s (fun t => t = beginAbort (log u) c x code 0)) ∧
        (p.late u = none → Runs i s (fun t => ∃ v, IssuesFrom u v c x e p ∧ Effect v t c x e p)))) := by
  refine ⟨fun code log hplan => ⟨_, hexec, by rw [hplan]; rfl⟩, fun p hplan => ?_⟩
  have hgo : tryIssue u c x e (planOf u c x e) = if !planReady (coreOf u c) p then u else
      match p.late u with
      | some (code, log) => beginAbort (log u) c x code 0
      | none => applyPlan u c x e p := by rw [hplan]; rfl
  refine ⟨fun hready => ⟨_, hexec, ?_⟩, fun hready => ⟨fun code log hlate => ⟨_, hexec, ?_⟩, fun hlate => ⟨_, hexec, ?_⟩⟩⟩
  · rw [hgo, hready]; rfl
  · rw [hgo, hready, hlate]; rfl
  · rw [hgo, hready, hlate]
    exact ⟨takeHead u c x e p, issuesFrom_takeHead u c x e p, effect_runPlan _ c x e p⟩

end Sys2Proof.Safety
end

section
/-! PROOFS. The words that go through a tensor issue queue (R52, R58, R59, R62, R262): the meaning that every row of them
shares, and what it does with a full queue, a queue that waits, and an empty one. -/

namespace Sys2Proof.Safety

open Sys2Proof Sys2Proof.Machine

/-! ### A word of a tensor queue -/

/-- A context with a full queue runs no word (R52). -/
theorem runWord_full {s : State} {c x : Nat} (hfull : 32 ≤ (ctxOf s c x).queue.length) (mine : Word → Bool)
    (body : State → Ctx → Pour → State) (w : Word) : runWord mine body s c x w = s := by
  have hready : seqReady (coreOf s c) x = false := by
    have hlen : ¬ (ctxOfCore (coreOf s c) x).queue.length < 32 := Nat.not_lt.2 hfull
    simp [seqReady, hlen]
  unfold runWord
  dsimp only
  split
  · rfl
  · rw [hready]; rfl

theorem queue_of_ready {s : State} {c x : Nat} (h : seqReady (coreOf s c) x = true) : (ctxOf s c x).queue.length < 32 := by
  simp only [seqReady, Bool.and_eq_true, decide_eq_true_eq] at h
  exact h.2

section

variable {s : State} {c x : Nat} {w : Word} {k : Ctx} {pr : Pour}

/-- A word enters its context's queue with its operands' present values (R52, R262). -/
theorem placeWord_fetched (h : AtWord s c x w k pr) : placeWord (fetched s c x) c x w (tensorSrcs w) = placed s c x k w := by
  have hroom : ¬ 32 ≤ k.queue.length := by
    have := queue_of_ready h.ready
    rw [h.regs] at this
    omega
  unfold placeWord
  simp only [ctxOf_fetched_same, h.regs]
  exact if_neg hroom

@[simp] theorem ctxOf_placed : ctxOf (placed s c x k w) c x =
    { fetchedCtx k with pc := k.pc + 8, queue := k.queue ++ [entryOf k w] } := ctxOf_setCtx_same _ _ _ _

/-- Placing a word changes neither the active context nor the pending selection. -/
theorem active_placed : (coreOf (placed s c x k w) c).active = (coreOf s c).active ∧
    (coreOf (placed s c x k w) c).selecting = (coreOf s c).selecting := by
  rw [placed, coreOf_setCtx_same, coreOf_fetched]
  exact ⟨rfl, rfl⟩

variable {mine : Word → Bool} {srcs : Word → List Nat} {plan : PlanFn}

/-- A word placed behind others, in a context that is not active, or with a selection pending, waits (R59, R62). -/
theorem tensorWord_waits (h : AtWord s c x w k pr) (ht : Takes k w) (hm : mine w = true) (hs : srcs w = tensorSrcs w)
    (hwait : k.queue ≠ [] ∨ (coreOf s c).active ≠ x ∨ (coreOf s c).selecting = true) :
    tensorWord mine srcs plan s c x w = placed s c x k w := by
  obtain ⟨hactive, hselecting⟩ := active_placed (s := s) (c := c) (x := x) (w := w) (k := k)
  rw [tensorWord, runWord_takes h ht mine _ hm]
  dsimp only
  rw [hs, placeWord_fetched h, if_neg]
  simp only [atHead, hactive, hselecting, Bool.and_eq_true, List.isEmpty_iff, decide_eq_true_eq, Bool.not_eq_true']
  rintro ⟨hq, ⟨ha, hsel⟩, -⟩
  rcases hwait with hw | hw | hw
  · exact hw hq
  · exact hw ha
  · rw [hsel] at hw; cases hw

/-- A word placed at the head of the active context tries to issue at once (R59). -/
theorem tensorWord_tries (h : AtWord s c x w k pr) (ht : Takes k w) (hm : mine w = true) (hs : srcs w = tensorSrcs w)
    (hq : k.queue = []) (ha : (coreOf s c).active = x) (hsel : (coreOf s c).selecting = false) :
    tensorWord mine srcs plan s c x w =
      tryIssue (placed s c x k w) c x (entryOf k w) (plan (placed s c x k w) c x (entryOf k w)) := by
  obtain ⟨hactive, hselecting⟩ := active_placed (s := s) (c := c) (x := x) (w := w) (k := k)
  have hempty : (fetchedCtx k).queue = [] := hq
  have hqueue : (ctxOf (placed s c x k w) c x).queue = [entryOf k w] := by rw [ctxOf_placed, hq]; rfl
  rw [tensorWord, runWord_takes h ht mine _ hm]
  dsimp only
  rw [hs, placeWord_fetched h, if_pos]
  · rw [hqueue]; rfl
  · simp [atHead, hactive, hselecting, hempty, hq, ha, hsel]

end

/-! ### The rows -/

/-- The meaning of a row whose words go through a tensor issue queue: where the check at decode fails (`bad`) the word is
illegal, else it is a tensor word with the operands of `tensorSrcs` and the issue check that `planOf` finds by its
opcode (R262, R267, R270, R276). -/
def TensorRow (i : Instr) (s : State) (c x : Nat) (w : Word) : Prop :=
  ∃ name bad mine body srcs plan,
    Machine.exec i s = onUnit (ctxOk c x) name
      (.next (if bad = true then runWord mine body s c x w else tensorWord mine srcs plan s c x w)) ∧
    mine w = true ∧ srcs w = tensorSrcs w ∧ (∀ u e, e.word = w → plan u c x e = planOf u c x e) ∧
    ∀ pr, (ctxOf s c x).pour = some pr → decodeOk (ctxOf s c x) pr w = true → bad = false

/-- A row without a check of its own at decode. -/
theorem TensorRow.of_tensorWord {i : Instr} {s : State} {c x : Nat} {w : Word} {name : String} {mine : Word → Bool}
    {srcs : Word → List Nat} {plan : PlanFn}
    (he : Machine.exec i s = onUnit (ctxOk c x) name (.next (tensorWord mine srcs plan s c x w))) (hm : mine w = true)
    (hs : srcs w = tensorSrcs w) (hp : ∀ u e, e.word = w → plan u c x e = planOf u c x e) : TensorRow i s c x w :=
  ⟨name, false, mine, fun s _ _ => s, srcs, plan, he, hm, hs, hp, fun _ _ _ => rfl⟩

/-- A row of SPOP. -/
theorem TensorRow.of_spopWord {i : Instr} {s : State} {c x fn : Nat} {w : Word} {name : String}
    {srcs : Word → List Nat} {plan : PlanFn} (hop : wOp w = 0x38) (hfn : wfld w 53 50 = fn)
    (he : Machine.exec i s = onUnit (ctxOk c x) name (.next (spopWord fn srcs plan s c x w)))
    (hs : srcs w = tensorSrcs w) (hp : ∀ u e, e.word = w → plan u c x e = planOf u c x e) : TensorRow i s c x w :=
  .of_tensorWord he (by simp [hop, hfn]) hs hp

/-- A row of FWR. -/
theorem TensorRow.of_fwrEff {i : Instr} {s : State} {c x fn : Nat} {w : Word} {name : String}
    (hop : wOp w = 0x3C) (hfn : wfld w 53 52 = fn)
    (he : Machine.exec i s = onUnit (ctxOk c x) name (.next (fwrEff fn s c x w))) : TensorRow i s c x w :=
  .of_tensorWord he (by simp [hop, hfn]) (by simp [tensorSrcs, hop]) (fun u e hw => by simp [planOf, hw, hop])

/-- A row of TOKSYNC: a token outside the pour's range is illegal (R270, R276). -/
theorem TensorRow.of_toksyncEff {i : Instr} {s : State} {c x fn : Nat} {w : Word} {name : String}
    (hop : wOp w = 0x14) (hfn : wfld w 33 32 = fn)
    (he : Machine.exec i s = onUnit (ctxOk c x) name (.next (toksyncEff fn s c x w))) : TensorRow i s c x w := by
  refine ⟨name, syncOutside (ctxOf s c x) w, _, _, _, _, he, by simp [hop, hfn], by simp [tensorSrcs, hop],
    fun u e hw => by simp [planOf, hw, hop], fun pr hp hd => ?_⟩
  simpa [decodeOk, hop, syncOutside, hp] using hd

/-- UPDATE: illegal inside a kernel (R267). -/
theorem tensorRow_update (s : State) (c x : Nat) {w : Word} (hop : wOp w = 0x2F) : TensorRow (.update c x w) s c x w := by
  refine ⟨_, (ctxOf s c x).updRun.isSome, _, _, _, _, rfl, by simp [hop], by simp [tensorSrcs, hop],
    fun u e hw => by simp [planOf, hw, hop], fun pr hp hd => ?_⟩
  simpa [decodeOk, hop] using hd

/-- URESUME: illegal outside a kernel (R267). -/
theorem tensorRow_uresume (s : State) (c x : Nat) {w : Word} (hop : wOp w = 0x05) : TensorRow (.uresume c x w) s c x w := by
  refine ⟨_, (ctxOf s c x).updRun.isNone, _, _, _, _, rfl, by simp [hop], by simp [tensorSrcs, hop],
    fun u e hw => by simp [planOf, hw, hop], fun pr hp hd => ?_⟩
  simpa [decodeOk, hop, Option.isSome_iff_ne_none] using hd

/-- Every row whose words go through a tensor issue queue. -/
theorem tensorRow_of_queued {i : Instr} {c x : Nat} {w : Word} (hi : instrWord i = some (c, x, w, true))
    (hq : queued w = true) (s : State) : TensorRow i s c x w := by
  cases i <;> simp only [instrWord, Option.some.injEq, Prod.mk.injEq, reduceCtorEq] at hi <;>
    obtain ⟨rfl, rfl, rfl, hw⟩ := hi <;>
    simp only [decide_eq_true_eq, Bool.and_eq_true, Bool.not_eq_true'] at hw
  case nop | br | jal | jalr | trap | alu | alui | movi | cmp | pset | ld | st | yield | commit | vquery =>
    simp [queued, hw] at hq
  case toksyncWaitFull | toksyncWaitEmpty | toksyncRelease => exact .of_toksyncEff hw.1 hw.2 rfl
  case update => exact tensorRow_update s _ _ hw
  case uresume => exact tensorRow_uresume s _ _ hw
  case fwrWr | fwrMcastWr | fwrRedWr => exact .of_fwrEff hw.1 hw.2 rfl
  case fill | copy | scrub | powerDown | powerUp | calendarLoad =>
    refine .of_spopWord hw.1 hw.2 rfl ?_ (fun u e he => ?_)
    · simp [tensorSrcs, hw]
    · simp [planOf, he, hw]
  all_goals
    refine .of_tensorWord rfl ?_ ?_ ?_
    · simp [hw]
    · simp [tensorSrcs, bwdSrcs, hw]
    · intro u e he
      simp [planOf, he, hw]

/-! ### The statement -/

/-- Settles O13: every row shares one meaning (`tensorRow_of_queued`), which runs nothing on a full queue, places the word
where it must wait, and else tries to issue it. -/
theorem tensorWordsIssue : Obligations.TensorWordsIssue := by
  unfold Obligations.TensorWordsIssue
  intro i s c x w k pr hi hq hc hx hk
  have hunit : ctxOk c x = true := by simp [ctxOk, hc, hx]
  obtain ⟨name, bad, mine, body, srcs, plan, hexec, hm, hs, hplan, hdecode⟩ := tensorRow_of_queued hi hq s
  refine ⟨fun hfull => ?full, fun hword htakes hd => ?word⟩
  case full =>
    rw [← hk] at hfull
    refine runs_of_onUnit hexec hunit ?_
    split
    · exact runWord_full hfull mine body w
    · exact runWord_full hfull mine _ w
  case word =>
    have hbad : bad = false := hdecode pr (by rw [hk]; exact hword.pour) (by rw [hk]; exact hd)
    have hrun : Machine.exec i s = .next (tensorWord mine srcs plan s c x w) := by rw [hexec, hunit, hbad]; rfl
    refine ⟨fun hwait => ⟨_, hrun, tensorWord_waits hword htakes hm hs hwait⟩, fun hempty ha hsel => runs_tryIssue ?_⟩
    rw [hrun, tensorWord_tries hword htakes hm hs hempty ha hsel, hplan _ _ rfl]

end Sys2Proof.Safety
end

section
/-! PROOFS. The issue stage's own events (R59, R62, R172, R179, R271, R272, R282, R290): TENSOR_ISSUE with DSET and YIELD,
the switch of the active context, the completion of flights, and the slot watchdog. -/

namespace Sys2Proof.Machine

/-! ### The switch of the active context -/

/-- Nothing differs but core `c`, registers and the trace. -/
def CountedAt (s t : State) (c : Nat) : Prop :=
  (∀ d, d ≠ c → coreOf t d = coreOf s d) ∧ t = { s with cores := t.cores, regs := t.regs, trc := t.trc }

theorem CountedAt.trans {s t u : State} {c : Nat} (h : CountedAt s t c) (h' : CountedAt t u c) : CountedAt s u c :=
  ⟨fun d hd => (h'.1 d hd).trans (h.1 d hd), h'.2.trans (by rw [h.2])⟩

theorem countedAt_modCore (s : State) (c : Nat) (f : Core → Core) : CountedAt s (modCore s c f) c :=
  ⟨fun d hd => coreOf_modCore_other s c d f hd, rfl⟩

theorem countedAt_modCtx (s : State) (c x : Nat) (f : Ctx → Ctx) : CountedAt s (modCtx s c x f) c := countedAt_modCore s c _

theorem countedAt_countCore (s : State) (c i n d : Nat) : CountedAt s (countCore s c i n) d :=
  ⟨fun e _ => coreOf_congr (cores_countCore s c i n) e, by rw [countCore, countUp_frame]⟩

theorem countedAt_takeHead (s : State) (c x : Nat) (e : QEnt) (p : Plan) : CountedAt s (takeHead s c x e p) c :=
  ⟨fun d hd => coreOf_takeHead_other s c x d e p hd, by rw [takeHead_frame]; rfl⟩

theorem countedAt_activate (s : State) (c x : Nat) : CountedAt s (activate s c x) c := by
  unfold activate
  dsimp only
  split
  · exact countedAt_modCore s c _
  · exact (countedAt_modCore s c _).trans (countedAt_countCore _ c _ _ c)

/-- The context made active, with the selection made (R62). -/
theorem coreOf_activate (s : State) (c x : Nat) :
    coreOf (activate s c x) c = { coreOf s c with active := x, selecting := false } := by
  unfold activate
  dsimp only
  split
  · exact coreOf_modCore_same s c _
  · rw [coreOf_congr (cores_countCore _ _ _ _), coreOf_modCore_same]

theorem ctxsKept_activate (s : State) (c x : Nat) : CtxsKept s (activate s c x) := by
  intro d
  by_cases hd : d = c
  · rw [hd, coreOf_activate]
  · rw [(countedAt_activate s c x).1 d hd]

/-! ### YIELD -/

/-- YIELD leaves its queue and is counted, before the scan selects (R272). -/
def yielded (s : State) (c x : Nat) : State :=
  countCore (modCtx s c x (fun t => { t with queue := t.queue.drop 1 })) c (0xA1 + x) 1

theorem countedAt_yielded (s : State) (c x : Nat) : CountedAt s (yielded s c x) c :=
  (countedAt_modCtx s c x _).trans (countedAt_countCore _ c _ _ c)

/-- What the scan does after a YIELD changes no context. -/
theorem yieldNow_spec (s : State) (c x : Nat) : CountedAt s (yieldNow s c x) c ∧ CtxsKept (yielded s c x) (yieldNow s c x) := by
  have hyield : yieldNow s c x = match scanFrom (yielded s c x) c x with
      | none => yielded s c x
      | some y => activate (yielded s c x) c y := rfl
  rw [hyield]
  split
  · exact ⟨countedAt_yielded s c x, .refl _⟩
  · exact ⟨(countedAt_yielded s c x).trans (countedAt_activate _ c _), ctxsKept_activate _ c _⟩

theorem ctxOf_yieldNow (s : State) (c x y : Nat) : ctxOf (yieldNow s c x) c y =
    if y = x then { ctxOf s c x with queue := (ctxOf s c x).queue.drop 1 } else ctxOf s c y := by
  rw [(yieldNow_spec s c x).2.ctxOf, yielded, ctxOf_congr (cores_countCore _ _ _ _)]
  split
  · next h => rw [h, ctxOf_modCtx_same]
  · next h => rw [ctxOf_modCtx_other _ _ _ h]

/-! ### TENSOR_ISSUE -/

theorem tensorIssue_idle {s : State} {c : Nat}
    (h : queueHead s c (coreOf s c).active = none ∨ (coreOf s c).selecting = true) : tensorIssue s c = s := by
  unfold tensorIssue
  dsimp only
  split
  · rfl
  · next e he =>
    have hsel : (coreOf s c).selecting = true := h.resolve_left (by rw [he]; exact Option.some_ne_none e)
    rw [if_pos (by simp [hsel])]

section

variable {s : State} {c : Nat} {e : QEnt}

theorem tensorIssue_yields (he : queueHead s c (coreOf s c).active = some e)
    (hlive : queueLive (ctxOf s c (coreOf s c).active) = true) (hsel : (coreOf s c).selecting = false)
    (hop : wOp e.word = 0x16) : tensorIssue s c = yieldNow s c (coreOf s c).active := by
  simp [tensorIssue, he, hlive, hsel, hop]

theorem tensorIssue_tries (he : queueHead s c (coreOf s c).active = some e)
    (hlive : queueLive (ctxOf s c (coreOf s c).active) = true) (hsel : (coreOf s c).selecting = false)
    (hop : wOp e.word ≠ 0x16) :
    tensorIssue s c = tryIssue s c (coreOf s c).active e (planOf s c (coreOf s c).active e) := by
  simp [tensorIssue, he, hlive, hsel, hop]

end

/-! ### DSET -/

/-- The descriptor that DSET writes. -/
def dsetWritten (e : QEnt) (t : Ctx) : Ctx :=
  { t with d := t.d.set! (wfld e.word 53 48) (BitVec.ofNat 128 ((srcOf e 0).toNat + 2 ^ 64 * (srcOf e 1).toNat)) }

/-- The plan of a DSET that passes its check (R282). -/
def dsetPlan (c x : Nat) (e : QEnt) : Plan := { Plan.nop with run := fun u => modCtx u c x (dsetWritten e) }

theorem planOf_dset {s : State} {c x : Nat} {e : QEnt} (hop : wOp e.word = 0x3B)
    (hok : dsetOk (srcOf e 0) (srcOf e 1) = true) : planOf s c x e = .go (dsetPlan c x e) := by
  have h : planOf s c x e = planDset s c x e := by simp [planOf, hop]
  rw [h, planDset, if_pos hok]
  rfl

/-- Issuing leaves what waits at the ports. -/
theorem unserved_takeHead (s : State) (c x : Nat) (e : QEnt) (p : Plan) :
    (coreOf (takeHead s c x e p) c).unserved = (coreOf s c).unserved := by
  obtain ⟨_, _, _, _, h⟩ := tokensOnly_planTokens (dequeued (coreOf s c) x) p
  rw [coreOf_takeHead_same, issuedCore, h]
  rfl

/-- A DSET that passes its check issues at once (R59, R282). -/
theorem tryIssue_dset {s : State} {c x : Nat} {e : QEnt} (hop : wOp e.word = 0x3B)
    (hok : dsetOk (srcOf e 0) (srcOf e 1) = true) (hserved : (coreOf s c).unserved = none) :
    tryIssue s c x e (planOf s c x e) = modCtx (takeHead s c x e (dsetPlan c x e)) c x (dsetWritten e) := by
  have hunits : unitHeld (coreOf (takeHead s c x e (dsetPlan c x e)) c) (dsetPlan c x e).units = false := by
    simp [unitHeld, dsetPlan, Plan.nop]
  have hrun : (coreOf ((dsetPlan c x e).run (takeHead s c x e (dsetPlan c x e))) c).unserved = none := by
    have hctx : (coreOf (modCtx (takeHead s c x e (dsetPlan c x e)) c x (dsetWritten e)) c).unserved =
        (coreOf (takeHead s c x e (dsetPlan c x e)) c).unserved := by rw [modCtx, coreOf_setCtx_same]
    exact hctx.trans ((unserved_takeHead s c x e _).trans hserved)
  rw [planOf_dset hop hok]
  show runPlan (takeHead s c x e (dsetPlan c x e)) c x e (dsetPlan c x e) = _
  rw [runPlan, hunits, hrun]
  rfl

theorem dRead_dsetWritten (e : QEnt) (t : Ctx) {j : Nat} (hj : j < 64) :
    dRead (dsetWritten e t) j = if j = wfld e.word 53 48 then srcOf e 1 ++ srcOf e 0 else dRead t j := by
  have hword : BitVec.ofNat 128 ((srcOf e 0).toNat + 2 ^ 64 * (srcOf e 1).toNat) = srcOf e 1 ++ srcOf e 0 := by
    apply BitVec.eq_of_toNat_eq
    rw [BitVec.toNat_append, ← Nat.shiftLeft_add_eq_or_of_lt (srcOf e 0).isLt, BitVec.toNat_ofNat, Nat.shiftLeft_eq]
    omega
  unfold dRead dsetWritten
  rw [hword]
  by_cases h : j = wfld e.word 53 48
  · rw [if_pos h, ← h]
    simp [Vector.getD, hj]
  · simp [h, Vector.getD, hj, Ne.symm h]

/-! ### Completion -/

/-- A flight may complete once it is the oldest on each of its units; WAITALL once nothing its context issued before is at
work (R59, R271). -/
theorem flightDone_of {s : State} {c n : Nat} {f : Flight} (hop : f.op ≠ 0x2F)
    (hunits : ∀ g ∈ (coreOf s c).flights.take n, ∀ u ∈ f.units, u ∉ g.units)
    (hwait : f.op = 0x15 → (∀ g ∈ (coreOf s c).flights.take n, g.ctx ≠ f.ctx) ∧
      ∀ r ∈ s.ergReqs, ¬ (r.core = c ∧ r.ctx = f.ctx)) : flightDone s c n f = true := by
  have hall : ((coreOf s c).flights.take n).all (fun g => f.units.all (fun u => !g.units.contains u)) = true := by
    simpa using hunits
  have hlast : (f.op ≠ 0x15 || (((coreOf s c).flights.take n).all (fun g => g.ctx ≠ f.ctx) &&
      !s.ergReqs.any (fun r => r.core = c && r.ctx = f.ctx))) = true := by
    by_cases h : f.op = 0x15
    · obtain ⟨hctx, hreq⟩ := hwait h
      have hctx' : ((coreOf s c).flights.take n).all (fun g => g.ctx ≠ f.ctx) = true := by simpa using hctx
      have hreq' : s.ergReqs.any (fun r => r.core = c && r.ctx = f.ctx) = false := by simpa using hreq
      rw [hctx', hreq']
      simp
    · simp [h]
  simp only [flightDone]
  rw [hall, hlast]
  simp [hop]

theorem tensorComplete_none {s : State} {c n : Nat} (h : (coreOf s c).flights.length ≤ n) : tensorComplete s c n = s := by
  rw [tensorComplete, List.getElem?_eq_none h]

theorem tensorComplete_gone {s : State} {c n : Nat} {f : Flight} (hf : (coreOf s c).flights[n]? = some f)
    (hheld : f.held = none) (hdone : flightDone s c n f = true) : tensorComplete s c n = flightGone s c f := by
  simp only [tensorComplete, hf, hheld, hdone, if_true]

theorem tensorComplete_held {s : State} {c n : Nat} {f : Flight} {h : Held} (hf : (coreOf s c).flights[n]? = some f)
    (hheld : f.held = some h) (hunits : ∀ g ∈ (coreOf s c).flights.take n, ∀ u ∈ f.units, u ∉ g.units) :
    tensorComplete s c n = runHeld s c f h := by
  have hdone : flightDone s c n { f with op := 0 } = true :=
    flightDone_of (Nat.ne_of_beq_eq_false rfl) hunits (fun h => absurd h (Nat.ne_of_beq_eq_false rfl))
  unfold tensorComplete
  rw [hf]
  dsimp only
  split
  · next h' e =>
    obtain rfl : h = h' := Option.some.inj (hheld.symm.trans e)
    rw [if_pos hdone]
  · next e => exact absurd (hheld.symm.trans e) (Option.some_ne_none h)

/-- A flight that is no assay window leaves its core (R59). -/
theorem flightGone_of_ne {s : State} {c : Nat} {f : Flight} (hop : f.op ≠ 0x25) :
    flightGone s c f = modCore s c (fun k => { k with flights := k.flights.erase f }) := by
  simp only [flightGone, hop, if_false]

/-- The core whose assay window closes: its tokens return to EMPTY (R290). -/
def windowClosed (k : Core) (f : Flight) : Core :=
  f.fills.foldl (fun k t => setTok k t .empty) { k with flights := k.flights.erase f, window := none }

theorem flightGone_assay {s : State} {c : Nat} {f : Flight} (hop : f.op = 0x25) :
    flightGone s c f = modCore s c (fun k => windowClosed k f) := by
  simp only [flightGone, hop, if_true]
  rfl

theorem windowClosed_frame (k : Core) (f : Flight) : ∃ toks toksAt, windowClosed k f =
    { k with flights := k.flights.erase f, window := none, toks := toks, tokAt := toksAt } :=
  List.foldlRecOn (motive := fun u => ∃ toks toksAt,
      u = { k with flights := k.flights.erase f, window := none, toks := toks, tokAt := toksAt })
    f.fills (fun k t => setTok k t .empty) ⟨_, _, rfl⟩ (fun u hu t _ => by
      obtain ⟨_, _, rfl⟩ := hu
      exact ⟨_, _, rfl⟩)

theorem tokOf_windowClosed (k : Core) (f : Flight) (hk : smWf (fun _ => Tok.empty) k.toks = true) (j : Nat) :
    tokOf (windowClosed k f) j = if j ∈ f.fills then .empty else tokOf k j := by
  have h := (tokOf_foldl (fun k t => setTok k t .empty) some .empty (fun k a t ha => by cases ha; rfl)
    (fun k a ha => by cases ha) f.fills { k with flights := k.flights.erase f, window := none } hk).2 j
  refine (show tokOf (windowClosed k f) j = _ from h).trans ?_
  simp only [List.mem_map, Option.some.injEq, exists_eq_right]
  rfl

/-! ### The slot watchdog -/

/-- The registers in which a SLOT_WAIT is recorded, before the pour aborts (R179). -/
def waitLogged (s : State) (c : Nat) (w : Word) : State := rwr (rwr s (rSPM_WAIT_INFO c) w) (rSPM_WAIT_TIME c) (nowW s)

theorem slotWait_eq (s : State) (c x agent u tk : Nat) : ∃ w, slotWait s c x agent u tk = beginAbort (waitLogged s c w) c x 0x05 0 :=
  ⟨_, rfl⟩

theorem watchdogExpiry_none {s : State} {c : Nat} {a : SlotAgent} (h : agentWait s c a = none) : watchdogExpiry s c a = s := by
  simp [watchdogExpiry, h]

theorem watchdogExpiry_waits {s : State} {c x agent u tk : Nat} {a : SlotAgent} (h : agentWait s c a = some (x, agent, u, tk))
    (hb : beforeCommit (ctxOf s c x) = true) : watchdogExpiry s c a = slotWait s c x agent u tk := by
  simp [watchdogExpiry, h, hb]

end Sys2Proof.Machine

namespace Sys2Proof.Safety

open Sys2Proof Sys2Proof.Machine

/-- A pour that waits on a slot aborts with SLOT_WAIT, and the wait is recorded (R179). -/
theorem slotWait_spec {s : State} {c x : Nat} (agent u tk : Nat) (hb : beforeCommit (ctxOf s c x) = true) (hs : regsWf s) :
    let t := slotWait s c x agent u tk
    (∀ d, d ≠ c → coreOf t d = coreOf s d) ∧ (∀ y, y ≠ x → ctxOf t c y = ctxOf s c y) ∧
    ctxOf t c x = abortedCtx (ctxOf s c x) 0x05 0 ∧ rd t (rSPM_WAIT_TIME c) = nowW s ∧
    (∀ o, o ≠ rSPM_WAIT_INFO c → o ≠ rSPM_WAIT_TIME c → rd t o = rd s o) ∧
    t = { s with cores := t.cores, regs := t.regs } := by
  obtain ⟨w, hw⟩ := slotWait_eq s c x agent u tk
  have hwf : regsWf (rwr s (rSPM_WAIT_INFO c) w) := regsWf_rwr s _ _ hs
  obtain ⟨⟨⟨-, hcores⟩, -, hctxs⟩, habort⟩ := aborts_beginAbort (s := waitLogged s c w) (c := c) (x := x) 0x05 hb
  have hregs : ∀ o, rd (beginAbort (waitLogged s c w) c x 0x05 0) o = rd (waitLogged s c w) o := fun o => by
    rw [beginAbort_frame]; rfl
  rw [hw]
  refine ⟨hcores, hctxs, ?_, ?_, fun o h1 h2 => ?_, by rw [beginAbort_frame]; rfl⟩
  · rw [habort, abortedAt_eq_abortedCtx (.inr (by decide))]; rfl
  · rw [hregs, waitLogged, rd_rwr_same _ _ _ hwf]
  · rw [hregs, waitLogged, rd_rwr_other _ _ _ _ hwf h2, rd_rwr_other _ _ _ _ hs h1]

/-! ### The statement -/

/-- Settles O15: each event of the issue stage by the lemmas that say what it does. -/
theorem issueStageEvents : Obligations.IssueStageEvents := by
  unfold Obligations.IssueStageEvents
  intro s c hc a counted
  have hunit : decide (c < nCores) = true := decide_eq_true hc
  refine ⟨fun e he hlive hsel => ⟨fun hop hok hserved => ?dset, fun hop => ?issues, fun hop => ?yields⟩, fun hidle => ?idle,
    fun hcause => ⟨fun y hy => ?switches, fun hy => ?pending⟩, fun hsel hcause => ?stays,
    fun n f hf hop hunits => ⟨fun hheld hassay hwait => ?completes, fun hheld hassay htok => ?closes, fun h hheld => ?runs⟩,
    fun n hn => ?nothing, fun g hg => ⟨fun x agent u tk hwait hbefore hcanon => ?expires, fun hwait => ?expiresNot⟩⟩
  case dset =>
    refine runs_of_onUnit (t := tensorIssue s c) rfl hunit ?_
    rw [tensorIssue_tries he hlive hsel (by rw [hop]; decide), tryIssue_dset hop hok hserved]
    refine ⟨(countedAt_takeHead s c a e _).trans (countedAt_modCtx _ c a _), fun y hy => ?_, ?_, fun j hj => ?_⟩
    · rw [ctxOf_modCtx_other _ _ _ hy, ctxOf_takeHead, if_neg hy]
    · rw [ctxOf_modCtx_same, ctxOf_takeHead, if_pos rfl]; rfl
    · rw [ctxOf_modCtx_same, dRead_dsetWritten e _ hj, ctxOf_takeHead, if_pos rfl]; rfl
  case issues =>
    refine runs_tryIssue (?_ : Machine.exec (.tensorIssue c) s = .next (tryIssue s c a e (planOf s c a e)))
    rw [← tensorIssue_tries he hlive hsel hop]
    exact if_pos hunit
  case yields =>
    refine runs_of_onUnit (t := tensorIssue s c) rfl hunit ?_
    rw [tensorIssue_yields he hlive hsel hop]
    exact ⟨(yieldNow_spec s c a).1, fun y hy => by rw [ctxOf_yieldNow, if_neg hy], by rw [ctxOf_yieldNow, if_pos rfl]⟩
  case idle => exact runs_of_onUnit (t := tensorIssue s c) rfl hunit (tensorIssue_idle hidle)
  case switches =>
    refine runs_of_onUnit rfl hunit ?_
    rw [if_pos (by simpa using hcause), selectNext, hy]
    exact ⟨countedAt_activate s c y, coreOf_activate s c y⟩
  case pending =>
    refine runs_of_onUnit rfl hunit ?_
    rw [if_pos (by simpa using hcause), selectNext, hy]
    exact ⟨⟨rfl, fun d hd => coreOf_modCore_other s c d _ hd⟩, coreOf_modCore_same s c _⟩
  case stays =>
    refine runs_of_onUnit rfl hunit ?_
    rw [if_neg (by simp [hsel, hcause])]
  case completes =>
    refine runs_of_onUnit (t := tensorComplete s c n) rfl hunit ?_
    rw [tensorComplete_gone hf hheld (flightDone_of hop hunits hwait), flightGone_of_ne hassay]
    exact ⟨⟨rfl, fun d hd => coreOf_modCore_other s c d _ hd⟩, coreOf_modCore_same s c _⟩
  case closes =>
    have hdone : flightDone s c n f = true := flightDone_of hop hunits (fun h => absurd (hassay.symm.trans h) (by decide))
    refine runs_of_onUnit (t := tensorComplete s c n) rfl hunit ?_
    obtain ⟨_, _, hframe⟩ := windowClosed_frame (coreOf s c) f
    rw [tensorComplete_gone hf hheld hdone, flightGone_assay hassay, coreOf_modCore_same]
    refine ⟨⟨rfl, fun d hd => coreOf_modCore_other s c d _ hd⟩, ?_, ?_, tokOf_windowClosed _ f htok, ?_⟩ <;> rw [hframe]
  case runs => exact runs_of_onUnit (t := tensorComplete s c n) rfl hunit (tensorComplete_held hf hheld hunits)
  case nothing => exact runs_of_onUnit (t := tensorComplete s c n) rfl hunit (tensorComplete_none hn)
  case expires =>
    refine runs_of_onUnit (t := watchdogExpiry s c g) rfl (by simp [hc, hg]) ?_
    rw [watchdogExpiry_waits hwait hbefore]
    exact slotWait_spec agent u tk hbefore hcanon.2
  case expiresNot =>
    exact runs_of_onUnit (t := watchdogExpiry s c g) rfl (by simp [hc, hg]) (watchdogExpiry_none hwait)

end Sys2Proof.Safety
end

section
/-! PROOFS. Writes of a core's registers that act (R67, R93, R109, R120): the bits of a word, the access codes of a
core's registers, and what CORE_CTRL, ARR_CTRL and NUM_LSCALE change. -/

namespace Sys2Proof.Machine

/-! ### Bits of a word -/

theorem wbit_eq_getLsbD (w : Word) (i : Nat) : wbit w i = w.getLsbD i := by
  rw [wbit, wfld, bitsOf, BitVec.getLsbD, Nat.testBit, Nat.and_comm, Nat.and_one_is_mod]
  rcases Nat.mod_two_eq_zero_or_one (w.toNat >>> i) with h | h <;> simp [h]

theorem wfld_eq_extract (w : Word) (hi lo : Nat) : wfld w hi lo = (w.extractLsb' lo (hi + 1 - lo)).toNat := by
  simp [wfld, bitsOf]

theorem wfld_and (v w : Word) (hi lo : Nat) : wfld (v &&& w) hi lo = wfld v hi lo &&& wfld w hi lo := by
  simp only [wfld_eq_extract, BitVec.extractLsb'_and, BitVec.toNat_and]

theorem wfld_or (v w : Word) (hi lo : Nat) : wfld (v ||| w) hi lo = wfld v hi lo ||| wfld w hi lo := by
  simp only [wfld_eq_extract, BitVec.extractLsb'_or, BitVec.toNat_or]

/-! ### Access codes -/

/-- A row of registers held per core, with offset `b` of core 0 at or after its first register and before the block of
core 1 gets to it. -/
def heldPerCore (b : Nat) (r : RegRow) : Bool :=
  decide (r.dims.head? = some (160, 0x10000)) && decide (r.base ≤ b) && decide (b < r.base + 0x10000)

/-- The indices at offset `b` in the block of core `c`, for a row held once per core. -/
theorem rowIndex_core {r : RegRow} {b c : Nat} (hr : heldPerCore b r = true) (hc : c < nCores) :
    rowIndex r (b + c * 0x10000) = (dimIndex r.dims.tail (b - r.base)).map (c :: ·) := by
  simp only [heldPerCore, Bool.and_eq_true, decide_eq_true_eq] at hr
  obtain ⟨⟨hd, hb⟩, hlt⟩ := hr
  have hdims : r.dims = (160, 0x10000) :: r.dims.tail := List.eq_cons_of_mem_head? hd
  have hdiv : (b + c * 0x10000 - r.base) / 0x10000 = c := by omega
  have hmod : (b + c * 0x10000 - r.base) % 0x10000 = b - r.base := by omega
  rw [rowIndex, if_neg (by omega), hdims, dimIndex, hdiv, hmod]
  exact if_pos hc

/-- A row found at offset `b` of the block of core 0, among rows held once per core, is found in the block of core `c`. -/
theorem findRow_core {rows : List RegRow} (rest : List RegRow) {r : RegRow} {ix : List Nat} {b c : Nat}
    (hrows : rows.all (heldPerCore b) = true) (hfind : findRow rows b = some (r, ix)) (hc : c < nCores) :
    ∃ ix', findRow (rows ++ rest) (b + c * 0x10000) = some (r, ix') := by
  induction rows with
  | nil => cases hfind
  | cons q rows ih =>
    simp only [List.all_cons, Bool.and_eq_true] at hrows
    have h0 := rowIndex_core (c := 0) hrows.1 (by decide)
    rw [Nat.zero_mul, Nat.add_zero] at h0
    rw [findRow, h0] at hfind
    rw [List.cons_append, findRow, rowIndex_core hrows.1 hc]
    cases hd : dimIndex q.dims.tail (b - q.base) with
    | none =>
      rw [hd] at hfind
      exact ih hrows.2 hfind
    | some l =>
      rw [hd] at hfind
      obtain ⟨rfl, -⟩ := Prod.mk.inj (Option.some.inj hfind)
      exact ⟨_, rfl⟩

/-- The bits of a row whose access code passes `p`. -/
def rowMask (p : Acc → Bool) (r : RegRow) : Nat :=
  ((r.fields.filter (fun f => p f.acc)).map (fun f => (2 ^ (f.hi + 1 - f.lo) - 1) <<< f.lo)).foldl (· + ·) 0

/-- The access codes of a register held once per core are those of its row. -/
theorem regMask_core {rows : List RegRow} (rest : List RegRow) {r : RegRow} {ix : List Nat} {b c : Nat}
    (htable : regTable = rows ++ rest) (hrows : rows.all (heldPerCore b) = true) (hfind : findRow rows b = some (r, ix))
    (hlisted : ∀ ix, rowListed r ix = true) (hc : c < nCores) (p : Acc → Bool) :
    regMask p (b + c * 0x10000) = rowMask p r := by
  obtain ⟨ix', h⟩ := findRow_core rest hrows hfind hc
  rw [← htable] at h
  simp only [regMask, findReg, h, hlisted, if_true]
  rfl

/-- SWITCH_WAIT alone of CORE_CTRL takes the value written (R67). -/
theorem regMask_rCORE_CTRL {c : Nat} (hc : c < nCores) :
    regMask (fun a => a = .rw || a = .rws) (rCORE_CTRL c) = 0xFFFF ∧ regMask (fun a => a = .w1c) (rCORE_CTRL c) = 0 := by
  have h := regMask_core (rows := regRows03a.take 2) (b := 0x1000008) _ rfl (by decide) rfl (fun _ => rfl) hc
  exact ⟨(h _).trans rfl, (h _).trans rfl⟩

/-- RAISE and L of NUM_LSCALE take the value written; the flags are cleared by a 1 (R120). -/
theorem regMask_rNUM_LSCALE {c : Nat} (hc : c < nCores) :
    regMask (fun a => a = .rw || a = .rws) (rNUM_LSCALE c) = 0xFFFF0000000000FF ∧
    regMask (fun a => a = .w1c) (rNUM_LSCALE c) = 0x300 := by
  have h := regMask_core (rows := regRows03a ++ regRows04a ++ regRows05a.take 2) (b := 0x1002008) _ rfl (by decide) rfl
    (fun _ => rfl) hc
  exact ⟨(h _).trans rfl, (h _).trans rfl⟩

/-! ### CORE_CTRL -/

theorem rd_regSet_other {s : State} {o j : Nat} (v : Word) (hs : regsWf s) (hj : j ≠ o) : rd (regSet s o v) j = rd s j :=
  rd_rwr_other s o j _ hs hj

theorem regsWf_regSet {s : State} (o : Nat) (v : Word) (hs : regsWf s) : regsWf (regSet s o v) := regsWf_rwr s o _ hs

/-- A write of CORE_CTRL sets SWITCH_WAIT (R67). -/
theorem rget_regSet_rCORE_CTRL {s : State} {c : Nat} (hc : c < nCores) (v : Word) (hs : regsWf s) :
    rget (regSet s (rCORE_CTRL c) v) (rCORE_CTRL c) fCORE_CTRL_SWITCH_WAIT = wfld v 15 0 := by
  obtain ⟨hset, hclr⟩ := regMask_rCORE_CTRL hc
  have hmask : wfld v 15 0 &&& 0xFFFF = wfld v 15 0 :=
    (Nat.and_two_pow_sub_one_eq_mod (wfld v 15 0) 16).trans (Nat.mod_eq_of_lt (wfld_lt v 15 0))
  have hkeep : wfld (~~~(BitVec.ofNat 64 0xFFFF)) 15 0 = 0 := by decide
  have htake : wfld (BitVec.ofNat 64 0xFFFF) 15 0 = 0xFFFF := by decide
  have hnone : wfld (~~~(v &&& BitVec.ofNat 64 0)) 15 0 = 0xFFFF := by rw [BitVec.and_zero]; decide
  rw [rget, regSet, rd_rwr_same _ _ _ hs]
  simp only [hset, hclr, wfld_and, wfld_or, fCORE_CTRL_SWITCH_WAIT, hkeep, htake, hnone, Nat.and_zero, Nat.zero_or, hmask]

/-- A core whose sequencer caches hold no line. -/
def linesDropped (k : Core) : Core := { k with iLines := [], dLines := [] }

/-- A write of CORE_CTRL with SEQ_INV drops the lines of both sequencer caches (R67). -/
theorem seqInv_drops (s : State) (c : Nat) {v : Word} (h : wbit v 16 = true) :
    seqInv s c v = modCore (regSet s (rCORE_CTRL c) v) c linesDropped := if_pos h

/-! ### ARR_CTRL -/

theorem arrInject_unfenced {s : State} {c : Nat} (v : Word) (h : fenceOf s c = 0) : arrInject s c v = regSet s (rARR_CTRL c) v := by
  simp [arrInject, h]

/-- A write of ARR_CTRL with INJECT_PARITY arms an injection on a fenced core (R93). -/
theorem arrInject_fenced {s : State} {c : Nat} {v : Word} (hv : wbit v 0 = true) (h : fenceOf s c ≠ 0) :
    arrInject s c v = modCore (regSet s (rARR_CTRL c) v) c (fun k => setAcc k (4 * wfld v 4 4 + wfld v 9 8)
      { accOf k (4 * wfld v 4 4 + wfld v 9 8) with inject := true }) := by
  simp [arrInject, hv, h]

/-! ### NUM_LSCALE -/

theorem rNUM_LSCALE_inj {c d : Nat} (h : rNUM_LSCALE c = rNUM_LSCALE d) : c = d := by
  unfold rNUM_LSCALE at h
  omega

/-- A sequence of steps, each of which rewrites NUM_LSCALE of its core by `g`. -/
theorem rd_foldl_lscale (f : State → Nat → State) (g : Word → Word)
    (hf : ∀ t q, regsWf t → regsWf (f t q) ∧ ∀ o, rd (f t q) o = if o = rNUM_LSCALE q then g (rd t o) else rd t o)
    (l : List Nat) (hl : l.Nodup) (s : State) (hs : regsWf s) : regsWf (l.foldl f s) ∧
      ∀ q, rd (l.foldl f s) (rNUM_LSCALE q) = if q ∈ l then g (rd s (rNUM_LSCALE q)) else rd s (rNUM_LSCALE q) := by
  induction l generalizing s with
  | nil => exact ⟨hs, fun q => by simp⟩
  | cons a l ih =>
    obtain ⟨ha, hl⟩ := List.nodup_cons.1 hl
    obtain ⟨hwf, hstep⟩ := hf s a hs
    obtain ⟨hwf', hrd⟩ := ih hl (f s a) hwf
    refine ⟨hwf', fun q => ?_⟩
    rw [List.foldl_cons, hrd q, hstep]
    by_cases hq : q = a
    · subst hq
      simp [ha]
    · have hne : rNUM_LSCALE q ≠ rNUM_LSCALE a := fun h => hq (rNUM_LSCALE_inj h)
      simp [hq, hne]

/-- NUM_LSCALE of a core that mirrors L, C and N of its partition (R109). -/
def lscaleWord (k : Part) (w : Word) : Word :=
  wput (wput (wput w 7 0 (wrapTo 8 k.lscale)) 47 32 k.lsC) 63 48 k.lsN

/-- NUM_LSCALE with the flags cleared that `v` writes as 1. -/
def flagsCleared (v w : Word) : Word := wput w 9 8 (wfld w 9 8 &&& wfld (~~~v) 9 8)

/-- The steps of `mirrorLscale`. -/
def mirrorStep (k : Part) (t : State) (q : Nat) : State :=
  rput (rput (rput t (rNUM_LSCALE q) fNUM_LSCALE_L (wrapTo 8 k.lscale)) (rNUM_LSCALE q) fNUM_LSCALE_CLEAN k.lsC)
    (rNUM_LSCALE q) fNUM_LSCALE_RAISE k.lsN

/-- The steps that clear the flags. -/
def clearStep (v : Word) (t : State) (q : Nat) : State := rwr t (rNUM_LSCALE q) (flagsCleared v (rd t (rNUM_LSCALE q)))

theorem rd_mirrorStep (k : Part) (t : State) (q : Nat) (ht : regsWf t) : regsWf (mirrorStep k t q) ∧
    ∀ o, rd (mirrorStep k t q) o = if o = rNUM_LSCALE q then lscaleWord k (rd t o) else rd t o := by
  have h1 := regsWf_rput t (rNUM_LSCALE q) fNUM_LSCALE_L (wrapTo 8 k.lscale) ht
  have h2 := regsWf_rput _ (rNUM_LSCALE q) fNUM_LSCALE_CLEAN k.lsC h1
  refine ⟨regsWf_rput _ _ _ _ h2, fun o => ?_⟩
  by_cases ho : o = rNUM_LSCALE q
  · rw [if_pos ho, ho, mirrorStep, rd_rput_same _ _ _ _ h2, rd_rput_same _ _ _ _ h1, rd_rput_same _ _ _ _ ht]
    rfl
  · rw [if_neg ho, mirrorStep, rd_rput_other _ _ _ _ _ h2 ho, rd_rput_other _ _ _ _ _ h1 ho, rd_rput_other _ _ _ _ _ ht ho]

theorem rd_clearStep (v : Word) (t : State) (q : Nat) (ht : regsWf t) : regsWf (clearStep v t q) ∧
    ∀ o, rd (clearStep v t q) o = if o = rNUM_LSCALE q then flagsCleared v (rd t o) else rd t o := by
  refine ⟨regsWf_rwr _ _ _ ht, fun o => ?_⟩
  rw [clearStep, rd_rwr _ _ _ _ ht]
  split
  · next h => rw [h]
  · rfl

theorem regsOnly_foldl {α : Type} (f : State → α → State) (hf : ∀ t a, f t a = { t with regs := (f t a).regs }) (l : List α)
    (s : State) : l.foldl f s = { s with regs := (l.foldl f s).regs } :=
  List.foldlRecOn (motive := fun t : State => t = { s with regs := t.regs }) l f rfl
    (fun t ht a _ => (hf t a).trans (by rw [ht]))

/-- The partition whose L, C and N a write of NUM_LSCALE sets (R120). -/
def lscaleSet (v : Word) (k : Part) : Part := { k with lscale := signedOf 8 (wfld v 7 0), lsC := 0, lsN := wfld v 63 48 }

/-- A write of NUM_LSCALE of a core of partition `p`: the write itself, the partition's state, its mirrors and flags. -/
theorem numLscaleWrite_owned {s : State} {c p : Nat} (v : Word) (h : ownerOfCore s c = some p) :
    numLscaleWrite s c v = (coresOfPart s p).foldl (clearStep v)
      ((coresOfPart (regSet s (rNUM_LSCALE c) v) p).foldl (mirrorStep (lscaleSet v (partOf s p)))
        (modPart (regSet s (rNUM_LSCALE c) v) p (lscaleSet v))) := by
  have hpart : partOf (modPart (regSet s (rNUM_LSCALE c) v) p (lscaleSet v)) p = lscaleSet v (partOf s p) :=
    partOf_modPart_same _ p _
  simp only [numLscaleWrite, h, mirrorLscale]
  rw [← hpart]
  rfl

/-- L of a partition reads in NUM_LSCALE as the number written (R120). -/
theorem wrapTo_signedOf (v : Word) : wrapTo 8 (signedOf 8 (wfld v 7 0)) = wfld v 7 0 := by
  have hlt : wfld v 7 0 < 256 := wfld_lt v 7 0
  simp only [wrapTo, signedOf]
  split <;> omega

/-- The fields of NUM_LSCALE once it mirrors its partition with the flags cleared. -/
theorem fields_lscale (v w : Word) (k : Part) :
    let m := flagsCleared v (lscaleWord (lscaleSet v k) w)
    wfld m 7 0 = wfld v 7 0 ∧ wfld m 47 32 = 0 ∧ wfld m 63 48 = wfld v 63 48 ∧
    wfld m 9 8 = wfld w 9 8 &&& wfld (~~~v) 9 8 := by
  have hl : (wfld v 7 0) % 2 ^ 8 = wfld v 7 0 := Nat.mod_eq_of_lt (wfld_lt v 7 0)
  have hn : (wfld v 63 48) % 2 ^ 16 = wfld v 63 48 := Nat.mod_eq_of_lt (wfld_lt v 63 48)
  have hf : (wfld w 9 8 &&& wfld (~~~v) 9 8) % 2 ^ 2 = wfld w 9 8 &&& wfld (~~~v) 9 8 :=
    Nat.mod_eq_of_lt (Nat.lt_of_le_of_lt Nat.and_le_left (wfld_lt w 9 8))
  have hflags : wfld (lscaleWord (lscaleSet v k) w) 9 8 = wfld w 9 8 := by
    rw [lscaleWord, wfld_wput_below _ _ _ _ _ _ (by decide) (by decide) (by decide),
      wfld_wput_below _ _ _ _ _ _ (by decide) (by decide) (by decide),
      wfld_wput_above _ _ _ _ _ _ (by decide) (by decide) (by decide)]
  refine ⟨?_, ?_, ?_, ?_⟩
  · rw [flagsCleared, wfld_wput_below _ _ _ _ _ _ (by decide) (by decide) (by decide), lscaleWord,
      wfld_wput_below _ _ _ _ _ _ (by decide) (by decide) (by decide),
      wfld_wput_below _ _ _ _ _ _ (by decide) (by decide) (by decide), wfld_wput_same _ _ _ _ (by decide) (by decide)]
    exact (congrArg (· % 2 ^ 8) (wrapTo_signedOf v)).trans hl
  · rw [flagsCleared, wfld_wput_above _ _ _ _ _ _ (by decide) (by decide) (by decide), lscaleWord,
      wfld_wput_below _ _ _ _ _ _ (by decide) (by decide) (by decide), wfld_wput_same _ _ _ _ (by decide) (by decide)]
    rfl
  · rw [flagsCleared, wfld_wput_above _ _ _ _ _ _ (by decide) (by decide) (by decide), lscaleWord,
      wfld_wput_same _ _ _ _ (by decide) (by decide)]
    exact hn
  · rw [flagsCleared, wfld_wput_same _ _ _ _ (by decide) (by decide), hflags]
    exact hf

/-- The flags of NUM_LSCALE are cleared by a 1 (R120). -/
theorem flags_regSet_rNUM_LSCALE {s : State} {c : Nat} (hc : c < nCores) (v : Word) (hs : regsWf s) :
    wfld (rd (regSet s (rNUM_LSCALE c) v) (rNUM_LSCALE c)) 9 8 = wfld (rd s (rNUM_LSCALE c)) 9 8 &&& wfld (~~~v) 9 8 := by
  obtain ⟨hset, hclr⟩ := regMask_rNUM_LSCALE hc
  have hmask : wfld (rd s (rNUM_LSCALE c)) 9 8 &&& 3 = wfld (rd s (rNUM_LSCALE c)) 9 8 :=
    (Nat.and_two_pow_sub_one_eq_mod _ 2).trans (Nat.mod_eq_of_lt (wfld_lt _ 9 8))
  have hkeep : wfld (~~~(BitVec.ofNat 64 0xFFFF0000000000FF)) 9 8 = 3 := by decide
  have htake : wfld (BitVec.ofNat 64 0xFFFF0000000000FF) 9 8 = 0 := by decide
  have hclear : wfld (~~~(v &&& BitVec.ofNat 64 0x300)) 9 8 = wfld (~~~v) 9 8 := by
    rw [BitVec.not_and, wfld_or, show wfld (~~~(BitVec.ofNat 64 0x300)) 9 8 = 0 by decide, Nat.or_zero]
  rw [regSet, rd_rwr_same _ _ _ hs]
  simp only [hset, hclr, wfld_and, wfld_or, hkeep, htake, hclear, Nat.and_zero, Nat.or_zero, hmask]

/-- PART_CORES is not NUM_LSCALE, so a write of that leaves the cores of a partition. -/
theorem coresOfPart_regSet_rNUM_LSCALE {s : State} (c : Nat) (v : Word) (hs : regsWf s) (p : Nat) :
    coresOfPart (regSet s (rNUM_LSCALE c) v) p = coresOfPart s p := by
  refine List.filter_congr (fun d hd => ?_)
  have hd : d < 160 := List.mem_range.1 hd
  have hne : rPART_CORES p (d / 64) ≠ rNUM_LSCALE c := by
    unfold rPART_CORES rNUM_LSCALE
    omega
  rw [coreMaskBit, coreMaskBit, rd_regSet_other v hs hne]

/-- A write of NUM_LSCALE changes registers and its partition alone. -/
theorem numLscaleWrite_frame {s : State} {c p : Nat} (v : Word) (h : ownerOfCore s c = some p) :
    numLscaleWrite s c v = { modPart s p (lscaleSet v) with regs := (numLscaleWrite s c v).regs } := by
  rw [numLscaleWrite_owned v h, regsOnly_foldl (clearStep v) (fun _ _ => rfl),
    regsOnly_foldl (mirrorStep (lscaleSet v (partOf s p))) (fun _ _ => rfl)]
  rfl

/-- NUM_LSCALE of a core of the partition after a write: it mirrors the partition, and the flags written as 1 are
cleared (R109, R120). -/
theorem rd_numLscaleWrite {s : State} {c p q : Nat} (v : Word) (h : ownerOfCore s c = some p) (hq : q ∈ coresOfPart s p)
    (hs : regsWf s) : rd (numLscaleWrite s c v) (rNUM_LSCALE q) =
      flagsCleared v (lscaleWord (lscaleSet v (partOf s p)) (rd (regSet s (rNUM_LSCALE c) v) (rNUM_LSCALE q))) := by
  have hnodup : (coresOfPart s p).Nodup := List.nodup_range.filter _
  obtain ⟨hwf, hmirror⟩ := rd_foldl_lscale _ _ (rd_mirrorStep (lscaleSet v (partOf s p))) (coresOfPart s p) hnodup
    (modPart (regSet s (rNUM_LSCALE c) v) p (lscaleSet v)) (regsWf_regSet _ v hs)
  rw [numLscaleWrite_owned v h, coresOfPart_regSet_rNUM_LSCALE c v hs,
    (rd_foldl_lscale _ _ (rd_clearStep v) (coresOfPart s p) hnodup _ hwf).2 q, if_pos hq, hmirror q, if_pos hq]
  rfl

/-- The write itself leaves the flags that the mirrors' step clears, and every flag of the other cores. -/
theorem flags_regSet {s : State} {c q : Nat} (hc : c < nCores) (v : Word) (hs : regsWf s) :
    wfld (rd (regSet s (rNUM_LSCALE c) v) (rNUM_LSCALE q)) 9 8 &&& wfld (~~~v) 9 8 =
      wfld (rd s (rNUM_LSCALE q)) 9 8 &&& wfld (~~~v) 9 8 := by
  by_cases hq : q = c
  · rw [hq, flags_regSet_rNUM_LSCALE hc v hs, Nat.and_assoc, Nat.and_self]
  · rw [rd_regSet_other v hs (fun h => hq (rNUM_LSCALE_inj h))]

end Sys2Proof.Machine

namespace Sys2Proof.Safety

open Sys2Proof Sys2Proof.Machine

/-! ### The statement -/

/-- Settles O19: CORE_CTRL and ARR_CTRL by the one register each writes, NUM_LSCALE by the fields of a mirror. -/
theorem coreRegisterWrites : Obligations.CoreRegisterWrites := by
  unfold Obligations.CoreRegisterWrites
  intro s c v hc hcanon
  have hunit : decide (c < nCores) = true := decide_eq_true hc
  have hs : regsWf s := hcanon.2
  refine ⟨?seqInv, ?inject, fun p hp => ?owned, fun hnone => ?free⟩
  case seqInv =>
    have hbit : wbit (v ||| 0x10000) 16 = true := by
      rw [wbit_eq_getLsbD, BitVec.getLsbD_or, show (0x10000 : Word).getLsbD 16 = true by decide, Bool.or_true]
    have hwait : wfld (v ||| 0x10000) 15 0 = wfld v 15 0 := by
      rw [wfld_or, show wfld (0x10000 : Word) 15 0 = 0 by decide, Nat.or_zero]
    refine runs_of_onUnit (t := seqInv s c (v ||| 0x10000)) rfl hunit ?_
    rw [seqInv_drops s c hbit]
    refine ⟨⟨rfl, fun d hd => coreOf_modCore_other (regSet s (rCORE_CTRL c) (v ||| 0x10000)) c d linesDropped hd⟩,
      coreOf_modCore_same _ c _, ?_, fun o ho => rd_regSet_other _ hs ho⟩
    exact (rget_regSet_rCORE_CTRL hc _ hs).trans hwait
  case inject =>
    refine runs_of_onUnit (t := arrInject s c (v ||| 1)) rfl hunit ⟨fun o ho => ?_, fun hf => ?_, fun hf => ⟨?_, fun d hd => ?_⟩⟩
    · by_cases hf : fenceOf s c = 0
      · rw [arrInject_unfenced _ hf, rd_regSet_other _ hs ho]
      · rw [arrInject_fenced (wbit_or_one v) hf, rd_modCore, rd_regSet_other _ hs ho]
    · rw [arrInject_unfenced _ hf]; rfl
    · rw [arrInject_fenced (wbit_or_one v) hf, coreOf_modCore_same, wfld_or_one v (by decide), wfld_or_one v (by decide),
        accOf, setAcc, kGet_kSet_same]
    · rw [arrInject_fenced (wbit_or_one v) hf, coreOf_modCore_other _ _ _ _ hd]; rfl
  case owned =>
    have hframe := numLscaleWrite_frame v hp
    have hparts : ∀ q, partOf (numLscaleWrite s c v) q = partOf (modPart s p (lscaleSet v)) q :=
      partOf_congr (by rw [hframe])
    have hpart : partOf (numLscaleWrite s c v) p = lscaleSet v (partOf s p) := (hparts p).trans (partOf_modPart_same s p _)
    refine runs_of_onUnit (t := numLscaleWrite s c v) rfl hunit
      ⟨by rw [hpart]; rfl, by rw [hpart]; rfl, by rw [hpart]; rfl, fun q hq => ?_, by rw [hframe]; rfl, fun q hq hmem => ?_⟩
    · exact (hparts q).trans (partOf_setPart_other s p q _ hq)
    · have hq : q ∈ coresOfPart s p := List.mem_filter.2 ⟨List.mem_range.2 hq, hmem⟩
      rw [rget, rget, rget, rd_numLscaleWrite v hp hq hs, ← flags_regSet hc v hs]
      exact fields_lscale v _ _
  case free =>
    have hwrite : numLscaleWrite s c v = rput (regSet s (rNUM_LSCALE c) v) (rNUM_LSCALE c) fNUM_LSCALE_CLEAN 0 := by
      simp only [numLscaleWrite, hnone]
    refine runs_of_onUnit (t := numLscaleWrite s c v) rfl hunit ?_
    rw [hwrite]
    exact ⟨rfl, fun o ho => (rd_rput_other _ _ _ _ _ (regsWf_regSet _ v hs) ho).trans (rd_regSet_other v hs ho)⟩

end Sys2Proof.Safety
end

section
/-! PROOFS. The scratchpad's events (R58, R168–R178, R195): slot tokens, the power of quads, bank calendars, accesses of a
port, and the end of a scrub. -/

namespace Sys2Proof.Machine

/-! ### Tokens -/

theorem tokOf_setTok {k : Core} (hk : smWf (fun _ => Tok.empty) k.toks = true) (t : Nat) (v : Tok) (j : Nat) :
    tokOf (setTok k t v) j = if j = t then v else tokOf k j := smGet_smSet (fun _ => Tok.empty) k.toks t j v hk

theorem tokenFillComplete_fills {s : State} {c t : Nat} (ht : tokOf (coreOf s c) t = .filling) (hb : fillBusy s c t = false) :
    tokenFillComplete s c t = modCore s c (fun k => setTok k t .full) := by
  simp [tokenFillComplete, ht, hb, setTokS]

theorem tokenDrainComplete_empties {s : State} {c t : Nat} (ht : tokOf (coreOf s c) t = .draining)
    (hf : ∀ f ∈ (coreOf s c).flights, f.held = none) :
    tokenDrainComplete s c t = modCore s c (fun k => setTok k t .empty) := by
  have hheld : (coreOf s c).flights.any (fun f => f.held.any (fun h => h.rel.contains t)) = false := by
    rw [List.any_eq_false]
    intro f hm
    simp [hf f hm]
  exact if_pos (by rw [ht, hheld]; rfl)

/-! ### Quads: the bits of SPM_POWER -/

/-- A bit of the low half-word that ON holds. -/
theorem testBit_low (w : Word) {q : Nat} (hq : q < 16) : (wfld w 15 0).testBit q = wbit w q := by
  rw [wbit_eq_getLsbD, wfld, bitsOf, Nat.testBit_mod_two_pow, Nat.testBit_shiftRight, BitVec.getLsbD, Nat.zero_add]
  simp [hq]

theorem wbit_or (v w : Word) (i : Nat) : wbit (v ||| w) i = (wbit v i || wbit w i) := by
  simp only [wbit_eq_getLsbD, BitVec.getLsbD_or]

theorem wbit_ofNat {n i : Nat} (hi : i < 64) : wbit (BitVec.ofNat 64 n) i = n.testBit i := by
  rw [wbit_eq_getLsbD, BitVec.getLsbD_ofNat, decide_eq_true hi, Bool.true_and]

theorem wbit_and_not_ofNat (v : Word) {n i : Nat} (hi : i < 64) :
    wbit (v &&& ~~~(BitVec.ofNat 64 n)) i = (wbit v i && !n.testBit i) := by
  rw [wbit_eq_getLsbD, BitVec.getLsbD_and, BitVec.getLsbD_not, BitVec.getLsbD_ofNat, decide_eq_true hi, Bool.true_and,
    Bool.true_and, wbit_eq_getLsbD]

/-- A 16-bit mask for ON beside the same mask for READY. -/
theorem testBit_doubled {mask q : Nat} (hm : mask < 2 ^ 16) (hq : q < 16) :
    (mask + mask <<< 16).testBit q = mask.testBit q := by
  rw [Nat.add_comm, Nat.shiftLeft_add_eq_or_of_lt hm, Nat.testBit_or, Nat.testBit_shiftLeft]
  simp [Nat.not_le.2 hq]

/-- The complement of a 16-bit mask. -/
theorem testBit_compl {on q : Nat} (hon : on < 2 ^ 16) (hq : q < 16) : (0xFFFF - on).testBit q = !on.testBit q := by
  rw [show 0xFFFF - on = 2 ^ 16 - (on + 1) by omega, Nat.testBit_two_pow_sub_succ hon]
  simp [hq]

/-! ### Quads: power -/

/-- Nothing differs but SPM_POWER of core `c`, the core and the free-value counter. -/
structure PowerOnly (s t : State) (c : Nat) : Prop where
  same : ∀ o, o ≠ rSPM_POWER c → rd t o = rd s o
  others : ∀ d, d ≠ c → coreOf t d = coreOf s d
  frame : t = { s with cores := t.cores, regs := t.regs, free := t.free }
  wf : regsWf t

theorem PowerOnly.refl {s : State} (c : Nat) (hs : regsWf s) : PowerOnly s s c := ⟨fun _ _ => rfl, fun _ _ => rfl, rfl, hs⟩

theorem PowerOnly.trans {s t u : State} {c : Nat} (h : PowerOnly s t c) (h' : PowerOnly t u c) : PowerOnly s u c :=
  ⟨fun o ho => (h'.same o ho).trans (h.same o ho), fun d hd => (h'.others d hd).trans (h.others d hd),
    h'.frame.trans (by rw [h.frame]), h'.wf⟩

theorem powerOnly_quadsDown {s : State} (c mask : Nat) (hs : regsWf s) : PowerOnly s (quadsDown s c mask) c :=
  ⟨fun o ho => rd_rwr_other s _ o _ hs ho, fun d hd => coreOf_modCore_other _ c d _ hd, rfl, regsWf_rwr s _ _ hs⟩

theorem powerOnly_quadsUp {s : State} (c mask : Nat) (tok : Option Nat) (hs : regsWf s) : PowerOnly s (quadsUp s c mask tok) c :=
  ⟨fun o ho => rd_rwr_other s _ o _ hs ho, fun d hd => coreOf_modCore_other _ c d _ hd, rfl, regsWf_rwr s _ _ hs⟩

theorem on_quadsDown {s : State} (c : Nat) {mask q : Nat} (hm : mask < 2 ^ 16) (hq : q < 16) (hs : regsWf s) :
    wbit (rd (quadsDown s c mask) (rSPM_POWER c)) q = (wbit (rd s (rSPM_POWER c)) q && !mask.testBit q) := by
  have h : rd (quadsDown s c mask) (rSPM_POWER c) = rd s (rSPM_POWER c) &&& ~~~(BitVec.ofNat 64 (mask + mask <<< 16)) :=
    rd_rwr_same s _ _ hs
  rw [h, wbit_and_not_ofNat _ (by omega), testBit_doubled hm hq]

theorem on_quadsUp {s : State} (c mask : Nat) (tok : Option Nat) {q : Nat} (hq : q < 16) (hs : regsWf s) :
    wbit (rd (quadsUp s c mask tok) (rSPM_POWER c)) q = (wbit (rd s (rSPM_POWER c)) q || mask.testBit q) := by
  have h : rd (quadsUp s c mask tok) (rSPM_POWER c) = rd s (rSPM_POWER c) ||| BitVec.ofNat 64 mask := rd_rwr_same s _ _ hs
  rw [h, wbit_or, wbit_ofNat (by omega)]

/-- The quads that a write of SPM_POWER turns off (R178). -/
def powerDown (s : State) (c : Nat) (v : Word) : Nat := wfld (rd s (rSPM_POWER c)) 15 0 &&& (0xFFFF - wfld v 15 0)

/-- The quads that a write of SPM_POWER asks for (R178). -/
def powerUp (s : State) (c : Nat) (v : Word) : Nat := wfld v 15 0 &&& (0xFFFF - wfld (rd s (rSPM_POWER c)) 15 0)

theorem testBit_powerDown (s : State) (c : Nat) (v : Word) {q : Nat} (hq : q < 16) :
    (powerDown s c v).testBit q = (wbit (rd s (rSPM_POWER c)) q && !wbit v q) := by
  rw [powerDown, Nat.testBit_and, testBit_compl (wfld_lt v 15 0) hq, testBit_low _ hq, testBit_low _ hq]

theorem testBit_powerUp (s : State) (c : Nat) (v : Word) {q : Nat} (hq : q < 16) :
    (powerUp s c v).testBit q = (wbit v q && !wbit (rd s (rSPM_POWER c)) q) := by
  rw [powerUp, Nat.testBit_and, testBit_compl (wfld_lt _ 15 0) hq, testBit_low _ hq, testBit_low _ hq]

theorem spmPowerWrite_busy {s : State} {c : Nat} (v : Word) (h : coreQuiet (coreOf s c) = false) : spmPowerWrite s c v = s := by
  simp [spmPowerWrite, h]

/-- A power-down that waits behind the EXT accesses that the core has accepted (R177). -/
def downWaits (s : State) (c mask : Nat) : State := { s with erg := { s.erg with ext := s.erg.ext ++ [⟨[c], .down c mask⟩] } }

/-- Quads asked for by a write of SPM_POWER. -/
def quadsAsked (s : State) (c mask : Nat) : State := if mask = 0 then s else quadsUp s c mask none

/-- A write of SPM_POWER to a quiet core: what turns quads off, then what asks for quads (R178). -/
theorem spmPowerWrite_quiet {s : State} {c : Nat} (v : Word) (h : coreQuiet (coreOf s c) = true) : spmPowerWrite s c v =
    quadsAsked (if powerDown s c v = 0 then s
        else if s.erg.ext.any (fun h => h.cores.contains c) then downWaits s c (powerDown s c v)
        else quadsDown s c (powerDown s c v)) c (powerUp s c v) := by
  simp only [spmPowerWrite, h, if_true]
  rfl

/-- Asking for the quads of a write, from a state `u` of the same core. -/
theorem powerUp_spec {s u : State} {c : Nat} (v : Word) (hu : regsWf u) :
    PowerOnly u (quadsAsked u c (powerUp s c v)) c ∧ ∀ q, q < 16 →
      wbit (rd (quadsAsked u c (powerUp s c v)) (rSPM_POWER c)) q =
        (wbit (rd u (rSPM_POWER c)) q || (wbit v q && !wbit (rd s (rSPM_POWER c)) q)) := by
  unfold quadsAsked
  split
  · next h =>
    refine ⟨.refl c hu, fun q hq => ?_⟩
    rw [← testBit_powerUp s c v hq, h, Nat.zero_testBit, Bool.or_false]
  · exact ⟨powerOnly_quadsUp c _ none hu, fun q hq => by rw [on_quadsUp c _ none hq hu, testBit_powerUp s c v hq]⟩

/-- Turning off the quads of a write, where no EXT access waits. -/
theorem powerDown_spec {s : State} {c : Nat} (v : Word) (hs : regsWf s) :
    let t := if powerDown s c v = 0 then s else quadsDown s c (powerDown s c v)
    PowerOnly s t c ∧ ∀ q, q < 16 → wbit (rd t (rSPM_POWER c)) q = (wbit (rd s (rSPM_POWER c)) q && wbit v q) := by
  have hlt : powerDown s c v < 2 ^ 16 := Nat.lt_of_le_of_lt Nat.and_le_left (wfld_lt _ 15 0)
  have hbits : ∀ q, q < 16 → (wbit (rd s (rSPM_POWER c)) q && !(powerDown s c v).testBit q) =
      (wbit (rd s (rSPM_POWER c)) q && wbit v q) := fun q hq => by
    rw [testBit_powerDown s c v hq]
    cases wbit (rd s (rSPM_POWER c)) q <;> simp
  dsimp only
  split
  · next h =>
    refine ⟨.refl c hs, fun q hq => ?_⟩
    rw [← hbits q hq, h, Nat.zero_testBit, Bool.not_false, Bool.and_true]
  · exact ⟨powerOnly_quadsDown c _ hs, fun q hq => by rw [on_quadsDown c hlt hq hs, hbits q hq]⟩

/-- A write of SPM_POWER to a quiet core with no EXT access waiting sets the quads asked for (R178). -/
theorem spmPowerWrite_sets {s : State} {c : Nat} (v : Word) (h : coreQuiet (coreOf s c) = true)
    (hext : s.erg.ext.any (fun h => h.cores.contains c) = false) (hs : regsWf s) :
    PowerOnly s (spmPowerWrite s c v) c ∧ ∀ q, q < 16 → wbit (rd (spmPowerWrite s c v) (rSPM_POWER c)) q = wbit v q := by
  obtain ⟨hdown, hoff⟩ := powerDown_spec (c := c) v hs
  obtain ⟨hup, hon⟩ := powerUp_spec (s := s) (c := c) v hdown.wf
  rw [spmPowerWrite_quiet v h, hext]
  refine ⟨hdown.trans hup, fun q hq => (hon q hq).trans ?_⟩
  rw [hoff q hq]
  cases wbit (rd s (rSPM_POWER c)) q <;> simp

/-- The power-down of a write waits behind the EXT accesses that the core has accepted (R177, R178). -/
theorem spmPowerWrite_queues {s : State} {c : Nat} (v : Word) (h : coreQuiet (coreOf s c) = true)
    (hext : s.erg.ext.any (fun h => h.cores.contains c) = true) (hdown : powerDown s c v ≠ 0) (hs : regsWf s) :
    (spmPowerWrite s c v).erg.ext = s.erg.ext ++ [⟨[c], .down c (powerDown s c v)⟩] ∧
    ∀ q, q < 16 → wbit (rd (spmPowerWrite s c v) (rSPM_POWER c)) q = (wbit (rd s (rSPM_POWER c)) q || wbit v q) := by
  obtain ⟨hup, hon⟩ := powerUp_spec (s := s) (u := downWaits s c (powerDown s c v)) (c := c) v hs
  rw [spmPowerWrite_quiet v h, if_neg hdown, if_pos hext]
  refine ⟨by rw [hup.frame]; rfl, fun q hq => (hon q hq).trans ?_⟩
  show (wbit (rd s (rSPM_POWER c)) q || _) = _
  cases wbit (rd s (rSPM_POWER c)) q <;> simp

/-- Quads become ready where they have been requested (R177). -/
theorem quadOn_quadReady {s : State} (c mask : Nat) {q : Nat} (hq : q < 16) (hs : regsWf s) :
    quadOn (quadReady s c mask) c q = (quadOn s c q || (wbit (rd s (rSPM_POWER c)) q && mask.testBit q)) := by
  have h : rd (quadReady s c mask) (rSPM_POWER c) = rd s (rSPM_POWER c) |||
      BitVec.ofNat 64 ((wfld (rd s (rSPM_POWER c)) 15 0 &&& mask) <<< 16) := rd_rwr_same s _ _ hs
  set asked := wfld (rd s (rSPM_POWER c)) 15 0 &&& mask with hasked
  have hlow : (asked <<< 16).testBit q = false := by
    rw [Nat.testBit_shiftLeft, decide_eq_false (Nat.not_le.2 hq), Bool.false_and]
  have hhigh : (asked <<< 16).testBit (16 + q) = (wbit (rd s (rSPM_POWER c)) q && mask.testBit q) := by
    rw [Nat.testBit_shiftLeft, Nat.add_sub_cancel_left, hasked, Nat.testBit_and, testBit_low _ hq]
    simp
  rw [quadOn, quadOn, h, wbit_or, wbit_or, wbit_ofNat (by omega), wbit_ofNat (by omega), hlow, hhigh]
  cases wbit (rd s (rSPM_POWER c)) q <;> simp

/-! ### Bank calendars -/

/-- The flags of SPM_CTRL after a calendar of number `n` comes into force, or the default one (R171, R173). -/
theorem rd_calFlags {s : State} {c : Nat} {d n : Nat} (hd : d < 2) (hn : n < 2) (hs : regsWf s) :
    let t := rput (rput s (rSPM_CTRL c) fSPM_CTRL_DEFAULT d) (rSPM_CTRL c) fSPM_CTRL_CAL_ACTIVE n
    rget t (rSPM_CTRL c) fSPM_CTRL_DEFAULT = d ∧ rget t (rSPM_CTRL c) fSPM_CTRL_CAL_ACTIVE = n ∧
    ∀ o, o ≠ rSPM_CTRL c → rd t o = rd s o := by
  have h1 := regsWf_rput s (rSPM_CTRL c) fSPM_CTRL_DEFAULT d hs
  refine ⟨?_, ?_, fun o ho => by rw [rd_rput_other _ _ _ _ _ h1 ho, rd_rput_other _ _ _ _ _ hs ho]⟩
  · rw [rget, rd_rput_same _ _ _ _ h1, wfld_wput_above _ _ _ _ _ _ (by decide) (by decide) (by decide),
      rd_rput_same _ _ _ _ hs, wfld_wput_same _ _ _ _ (by decide) (by decide)]
    exact Nat.mod_eq_of_lt hd
  · rw [rget, rd_rput_same _ _ _ _ h1, wfld_wput_same _ _ _ _ (by decide) (by decide)]
    exact Nat.mod_eq_of_lt hn

theorem calActivate_none {s : State} {c : Nat} (h : (coreOf s c).cal.waiting = none) : calActivate s c = s := by
  rw [calActivate, h]

/-- A core with no calendar waiting. -/
def calTaken (k : Core) : Core := { k with cal := { k.cal with waiting := none } }

theorem calActivate_waiting {s : State} {c n at_ : Nat} (h : (coreOf s c).cal.waiting = some (n, at_)) : calActivate s c =
    rput (rput (modCore s c calTaken) (rSPM_CTRL c) fSPM_CTRL_DEFAULT 0) (rSPM_CTRL c) fSPM_CTRL_CAL_ACTIVE n := by
  rw [calActivate, h]
  rfl

/-- The waiting calendar of store `n` comes into force (R171). -/
theorem calActivate_spec {s : State} {c n at_ : Nat} (h : (coreOf s c).cal.waiting = some (n, at_)) (hn : n < 2)
    (hs : regsWf s) : calInForce (calActivate s c) c = (if n = 0 then (coreOf s c).cal.store0 else (coreOf s c).cal.store1) ∧
      (coreOf (calActivate s c) c).cal.waiting = none ∧ ∀ o, o ≠ rSPM_CTRL c → rd (calActivate s c) o = rd s o := by
  obtain ⟨hdefault, hactive, hother⟩ := rd_calFlags (s := modCore s c calTaken) (c := c) (d := 0) (n := n) (by decide) hn hs
  have hcore : coreOf (calActivate s c) c = calTaken (coreOf s c) := by
    rw [calActivate_waiting h]
    exact coreOf_modCore_same s c calTaken
  refine ⟨?_, by rw [hcore]; rfl, by rw [calActivate_waiting h]; exact hother⟩
  rw [calInForce, hcore, rflag, calActivate_waiting h, hdefault, hactive]
  rfl

/-- A core with no calendar of its own. -/
def calCleared (k : Core) : Core := { k with cal := ⟨[], [], none⟩ }

/-- The default calendar is in force (R173). -/
theorem calDefault_spec {s : State} (c : Nat) (hs : regsWf s) :
    (∀ j, j < 16 → (calInForce (calDefault s c) c)[j]? = some (defaultEntry j)) ∧
    ∀ o, o ≠ rSPM_CTRL c → rd (calDefault s c) o = rd s o := by
  obtain ⟨hdefault, -, hother⟩ := rd_calFlags (s := modCore s c calCleared) (c := c) (d := 1)
    (n := 0) (by decide) (by decide) hs
  have hflag : rflag (calDefault s c) (rSPM_CTRL c) fSPM_CTRL_DEFAULT = true := (rflag_iff _ _ _).2 hdefault
  refine ⟨fun j hj => ?_, hother⟩
  rw [calInForce, if_pos hflag]
  simp [hj]

/-! ### Accesses of a port -/

section

variable {s : State} {c port o : Nat} {b : Option Byte} {upset : BitVec 80}

/-- A port access that no cycle of the calendar serves goes on waiting (R172). -/
theorem portAccess_unserved (h : portServed s c port (quadOf o) = false) : portAccess s c port o b upset = s := by
  simp [portAccess, h]

/-- A port access wakes a quad in doze (R177). -/
theorem portAccess_wakes (h : portServed s c port (quadOf o) = true) (hd : quadDozes s c (quadOf o) = true) :
    portAccess s c port o b upset = wakeUnit s (quadUnit c (quadOf o)) := by
  simp [portAccess, h, hd, wakeQuads]

/-- A port access to a quad that is off is rejected and logged (R178). -/
theorem portAccess_off (h : portServed s c port (quadOf o) = true) (hd : quadDozes s c (quadOf o) = false)
    (hon : quadOn s c (quadOf o) = false) : portAccess s c port o b upset = logOff s c 0xFFFF o port := by
  simp [portAccess, h, hd, hon]

/-- A clean codeword is read or written (R345). -/
theorem portAccess_clean (h : portServed s c port (quadOf o) = true) (hd : quadDozes s c (quadOf o) = false)
    (hon : quadOn s c (quadOf o) = true) (hread : codeRead (coreOf s c) o upset = .clean) :
    portAccess s c port o b upset = putByte s c o b := by
  simp [portAccess, h, hd, hon, hread]

/-- A codeword with one or two bits in error is corrected (R195, R345). -/
theorem portAccess_corrected (h : portServed s c port (quadOf o) = true) (hd : quadDozes s c (quadOf o) = false)
    (hon : quadOn s c (quadOf o) = true) (hread : (∃ i, codeRead (coreOf s c) o upset = .ce1 i) ∨
      ∃ i j, codeRead (coreOf s c) o upset = .ce2 i j) :
    ∃ two, portAccess s c port o b upset = putByte (portCorrected s c port o two) c o b := by
  rcases hread with ⟨i, hread⟩ | ⟨i, j, hread⟩
  · exact ⟨false, by simp [portAccess, h, hd, hon, hread]⟩
  · exact ⟨true, by simp [portAccess, h, hd, hon, hread]⟩

/-- A codeword that cannot be corrected (R195, R345). -/
theorem portAccess_bad (h : portServed s c port (quadOf o) = true) (hd : quadDozes s c (quadOf o) = false)
    (hon : quadOn s c (quadOf o) = true)
    (hread : codeRead (coreOf s c) o upset = .ue ∨ codeRead (coreOf s c) o upset = .poison) :
    portAccess s c port o b upset = portBad s c port o := by
  rcases hread with hread | hread <;> simp [portAccess, h, hd, hon, hread]

end

/-- The record of a rejected access (R178). -/
theorem logOff_spec {s : State} {c o port : Nat} (hp : port < 15) (ho : o < spmSize) (hs : regsWf s) :
    let t := logOff s c 0xFFFF o port
    rget t (rSPM_OFF_LOG c) fSPM_OFF_LOG_PORT = port ∧ rget t (rSPM_OFF_LOG c) fSPM_OFF_LOG_ADDR = o ∧
    rflag t (rSPM_OFF_LOG c) fSPM_OFF_LOG_VALID = true ∧ rd t (rSPM_OFF_TIME c) = nowW s ∧
    ∀ j, j ≠ rSPM_OFF_LOG c → j ≠ rSPM_OFF_TIME c → rd t j = rd s j := by
  unfold spmSize at ho
  set w := BitVec.ofNat 64 (0xFFFF <<< 48 + (o % spmSize) <<< 16 + port <<< 12 + 1) with hw
  have h1 : regsWf (rwr s (rSPM_OFF_LOG c) w) := regsWf_rwr s _ _ hs
  have hne : rSPM_OFF_LOG c ≠ rSPM_OFF_TIME c := by unfold rSPM_OFF_LOG rSPM_OFF_TIME; omega
  have hlog : rd (logOff s c 0xFFFF o port) (rSPM_OFF_LOG c) = w :=
    (rd_rwr_other _ _ _ _ h1 hne).trans (rd_rwr_same s _ _ hs)
  refine ⟨?_, ?_, (rflag_iff _ _ _).2 ?_, rd_rwr_same _ _ _ h1, fun j hj hj' => ?_⟩
  · rw [rget, hlog, hw, wfld_ofNat _ (by decide)]
    simp only [fSPM_OFF_LOG_PORT, Nat.shiftLeft_eq, spmSize]
    omega
  · rw [rget, hlog, hw, wfld_ofNat _ (by decide)]
    simp only [fSPM_OFF_LOG_ADDR, Nat.shiftLeft_eq, spmSize]
    omega
  · rw [rget, hlog, hw, wfld_ofNat _ (by decide)]
    simp only [fSPM_OFF_LOG_VALID, Nat.shiftLeft_eq, spmSize]
    omega
  · exact (rd_rwr_other _ _ _ _ h1 hj').trans (rd_rwr_other _ _ _ _ hs hj)

/-- The byte written, and every other byte as before. -/
theorem spmByte_putByte {s : State} {c : Nat} (o : Nat) (v : Byte)
    (hk : smWf (spmDflt (coreOf s c)) (coreOf s c).spm = true) (j : Nat) :
    spmByte (coreOf (putByte s c o (some v)) c) j = if j = o then v else spmByte (coreOf s c) j := by
  have hcore : coreOf (putByte s c o (some v)) c = spmPut (coreOf s c) o [v] := coreOf_modCore_same s c _
  rw [hcore]
  exact smGet_smSet (spmDflt (coreOf s c)) (coreOf s c).spm o j v hk

/-! ### Errors that a port finds -/

/-- SPM_ERR is none of the registers that counting and recording write. -/
theorem logReg_rSPM_ERR {c : Nat} (hc : c < nCores) : logReg (rSPM_ERR c) = false := by
  unfold nCores at hc
  simp only [logReg, isCounterOff, Bool.or_eq_false_iff, Bool.and_eq_false_iff, decide_eq_false_iff_not]
  unfold rSPM_ERR rCNT_SAT rTRC_STATUS rFLT_CPER_PTR rFLT_CPER_HEAD rCQ_STATUS
  omega

/-- A corrected codeword changes no core and raises SPM_ERR.CE, but at a feeder (R195). -/
theorem portCorrected_spec {s : State} {c port : Nat} (o : Nat) (two : Bool) (hc : c < nCores) (hp : 4 ≤ port)
    (hs : regsWf s) : (portCorrected s c port o two).cores = s.cores ∧
      rflag (portCorrected s c port o two) (rSPM_ERR c) fSPM_ERR_CE = true := by
  have hcount : portCorrected s c port o two =
      countCore (rset (ceFound s (dieOfCore c, c, 0, bitsOf o 11 6) two) (rSPM_ERR c) fSPM_ERR_CE) c 0xAA 1 :=
    if_neg (Nat.not_lt.2 hp)
  have hwf : regsWf (ceFound s (dieOfCore c, c, 0, bitsOf o 11 6) two) := hs
  rw [hcount]
  refine ⟨cores_countCore _ _ _ _, ?_⟩
  rw [(logged_countCore _ hc (by omega) 1).rflag_eq (regsWf_rset _ _ _ hwf) (logReg_rSPM_ERR hc)]
  exact rflag_rset_same _ _ _ hwf rfl (by decide)

/-- Recording an uncorrectable scratchpad word changes no core and raises its flag of SPM_ERR (R195). -/
theorem logSpmErr_spec {s : State} {c : Nat} (x : Option Nat) (o : Nat) {f : Fld} (hc : c < nCores) (h1 : f.lo = f.hi)
    (h2 : f.hi < 64) (hs : regsWf s) :
    (logSpmErr s c x o f).cores = s.cores ∧ rflag (logSpmErr s c x o f) (rSPM_ERR c) f = true := by
  obtain ⟨u, hu, hcores, hlog⟩ : ∃ u, regsWf u ∧ u.cores = s.cores ∧
      logSpmErr s c x o f = logSpmErr.noteSpm (rset u (rSPM_ERR c) f) c x o := by
    unfold logSpmErr
    dsimp only
    split
    · exact ⟨_, regsWf_rput s _ _ _ hs, rfl, rfl⟩
    · exact ⟨s, hs, rfl, rfl⟩
  have hset := rflag_rset_same u (rSPM_ERR c) f hu h1 h2
  rw [hlog, logSpmErr.noteSpm, ← hcores]
  split
  · exact ⟨rfl, hset⟩
  · have hrec := logged_cperWrite (monEvent (rset u (rSPM_ERR c) f) 2 1)
    exact ⟨(hrec _).cores, ((hrec _).rflag_eq (regsWf_rset u _ _ hu) (logReg_rSPM_ERR hc) _).trans hset⟩

/-- A codeword marked uncorrectable reads so, whatever stood before. -/
theorem smGet_smSet_true (m : SMap Bool) (k : Nat) : smGet false (smSet false m k true) k = true := by
  induction m with
  | nil => simp [smSet, smGet]
  | cons hd m ih =>
    obtain ⟨a, x⟩ := hd
    by_cases h1 : k = a
    · simp [smSet, smGet, h1]
    · by_cases h2 : k < a
      · simp [smSet, smGet, h1, h2]
      · simp [smSet, smGet, h1, h2, ih]

/-- The flag of SPM_ERR that an uncorrectable codeword raises at a port (R195). -/
def ueFlag (port : Nat) : Fld := if port = 0xD then fSPM_ERR_EXT_UE else fSPM_ERR_UE

theorem ueFlag_bit (port : Nat) : (ueFlag port).lo = (ueFlag port).hi ∧ (ueFlag port).hi < 64 := by
  unfold ueFlag
  split <;> decide

/-- An uncorrectable codeword stays as it is, is marked, and is recorded, but at a feeder (R195). -/
theorem portBad_spec {s : State} {c port : Nat} (o : Nat) (hc : c < nCores) (hp : 4 ≤ port) (hs : regsWf s) :
    rflag (portBad s c port o) (rSPM_ERR c) (ueFlag port) = true ∧
    smGet false (coreOf (portBad s c port o) c).spmBad (o / 8) = true ∧ (coreOf (portBad s c port o) c).spm = (coreOf s c).spm := by
  obtain ⟨hlo, hhi⟩ := ueFlag_bit port
  obtain ⟨hcores, hflag⟩ := logSpmErr_spec (s := s) (c := c) none o hc hlo hhi hs
  have hbad : portBad s c port o = if smGet false (coreOf s c).spmBad (o / 8) = true then logSpmErr s c none o (ueFlag port)
      else modCore (logSpmErr s c none o (ueFlag port)) c (fun k => spmPoison k (o / 8) false) := if_neg (Nat.not_lt.2 hp)
  rw [hbad]
  split
  · next h => exact ⟨hflag, by rw [coreOf_congr hcores]; exact h, by rw [coreOf_congr hcores]⟩
  · refine ⟨hflag, ?_, ?_⟩
    · rw [coreOf_modCore_same]
      exact smGet_smSet_true _ _
    · rw [coreOf_modCore_same, coreOf_congr hcores]
      rfl

/-! ### The end of a scrub -/

/-- With no EXT access waiting none goes on. -/
theorem extRelease_none {s : State} (h : s.erg.ext = []) : extRelease s = { s with erg := { s.erg with ext := [] } } := by
  rw [extRelease, h]
  rfl

/-- A core that its scrub has left: no byte, no error and no calendar of its own (R173, R176). -/
def scrubbedCore (k : Core) : Core :=
  { k with spm := [], spmBad := [], spmCtl := [], spmOver := [], powering := [], scrubbing := false }

theorem scrubComplete_eq {s : State} {c : Nat} (h : (coreOf s c).scrubbing = true) :
    scrubComplete s c = calDefault (rwr (modCore s c scrubbedCore) (rSPM_POWER c) 0xFFFFFFFF) c := if_pos h

theorem coreOf_scrubComplete {s : State} {c : Nat} (h : (coreOf s c).scrubbing = true) :
    coreOf (scrubComplete s c) c = calCleared (scrubbedCore (coreOf s c)) := by
  have hcore : coreOf (rwr (modCore s c scrubbedCore) (rSPM_POWER c) 0xFFFFFFFF) c = scrubbedCore (coreOf s c) :=
    coreOf_modCore_same s c _
  rw [scrubComplete_eq h, ← hcore]
  exact coreOf_modCore_same _ c calCleared

theorem coreOf_scrubComplete_other {s : State} {c d : Nat} (h : (coreOf s c).scrubbing = true) (hd : d ≠ c) :
    coreOf (scrubComplete s c) d = coreOf s d := by
  rw [scrubComplete_eq h]
  exact (coreOf_modCore_other _ c d calCleared hd).trans (coreOf_modCore_other s c d scrubbedCore hd)

theorem wbit_allOn : ∀ q, q < 16 → (wbit 0xFFFFFFFF q && wbit 0xFFFFFFFF (16 + q)) = true := by decide

/-- The registers after a scrub: every quad is on, and none but SPM_POWER and SPM_CTRL has changed (R173, R176). -/
theorem rd_scrubComplete {s : State} {c : Nat} (h : (coreOf s c).scrubbing = true) (hs : regsWf s) :
    (∀ j, j < 16 → (calInForce (scrubComplete s c) c)[j]? = some (defaultEntry j)) ∧
    rd (scrubComplete s c) (rSPM_POWER c) = 0xFFFFFFFF ∧
    ∀ o, o ≠ rSPM_POWER c → o ≠ rSPM_CTRL c → rd (scrubComplete s c) o = rd s o := by
  have hwf : regsWf (modCore s c scrubbedCore) := hs
  obtain ⟨hcal, hother⟩ := calDefault_spec (s := rwr (modCore s c scrubbedCore) (rSPM_POWER c) 0xFFFFFFFF) c (regsWf_rwr _ _ _ hwf)
  have hne : rSPM_POWER c ≠ rSPM_CTRL c := by unfold rSPM_POWER rSPM_CTRL; omega
  rw [scrubComplete_eq h]
  exact ⟨hcal, (hother _ hne).trans (rd_rwr_same _ _ _ hwf), fun o h1 h2 => (hother o h2).trans (rd_rwr_other _ _ _ _ hwf h1)⟩

end Sys2Proof.Machine

namespace Sys2Proof.Safety

open Sys2Proof Sys2Proof.Machine

/-! ### The statement -/

/-- A write of a port to a codeword that reads corrected: the byte is stored and SPM_ERR.CE raised (R195). -/
theorem corrected_write {s : State} {c port o : Nat} (v : Byte) (two : Bool) (hc : c < nCores) (hp : 4 ≤ port)
    (hk : smWf (spmDflt (coreOf s c)) (coreOf s c).spm = true) (hs : regsWf s) :
    let t := putByte (portCorrected s c port o two) c o (some v)
    rflag t (rSPM_ERR c) fSPM_ERR_CE = true ∧
      ∀ j, spmByte (coreOf t c) j = if j = o then v else spmByte (coreOf s c) j := by
  obtain ⟨hcores, hflag⟩ := portCorrected_spec o two hc hp hs
  have hcore : coreOf (portCorrected s c port o two) c = coreOf s c := coreOf_congr hcores c
  refine ⟨hflag, fun j => ?_⟩
  rw [spmByte_putByte o v (by rw [hcore]; exact hk), hcore]

theorem runs_portAccess {s : State} {c port o : Nat} {b : Option Byte} {upset : BitVec 80} {P : State → Prop} (hc : c < nCores)
    (hport : port < 15) (ho : o < spmSize) (h : P (portAccess s c port o b upset)) :
    Runs (.scratchpadPortAccess c port o ⟨b, upset⟩) s P :=
  runs_of_onUnit rfl (by simp [hc, hport, ho]) h

/-- Settles O17: each event by the lemmas that say what it does. -/
theorem scratchpadEvents : Obligations.ScratchpadEvents := by
  unfold Obligations.ScratchpadEvents
  intro s c hc hcanon htok
  have hs : regsWf s := hcanon.2
  have hunit : decide (c < nCores) = true := decide_eq_true hc
  refine ⟨fun tk htk hfill hbusy => ?fills, fun tk htk hdrain hflights => ?drains, fun mask hmask => ?ready,
    fun v hbusy => ?busy, fun v hquiet hext => ?sets, fun v hquiet hext hdown => ?queues, fun n at_ hwait hn => ?activates,
    fun hwait => ?noCalendar,
    fun port o b upset hport ho => ⟨fun hserved => ?unserved, fun hserved hdoze => ?dozes, fun hserved hdoze hon => ?off,
      fun hserved hdoze hon => ⟨fun hread hb => ?cleanRead, fun v hread hb hk => ?cleanWrite, fun v hread hb hp hk => ?corrected,
        fun hread hp => ?bad⟩⟩,
    fun hscrub hext => ?scrubbed⟩
  case fills =>
    refine runs_of_onUnit (t := tokenFillComplete s c tk) rfl (by simp [hc, htk]) ?_
    rw [tokenFillComplete_fills hfill hbusy]
    refine ⟨⟨rfl, fun d hd => coreOf_modCore_other s c d _ hd⟩, ?_, fun j => ?_⟩ <;> rw [coreOf_modCore_same]
    · rfl
    · exact tokOf_setTok htok tk .full j
  case drains =>
    refine runs_of_onUnit (t := tokenDrainComplete s c tk) rfl (by simp [hc, htk]) ?_
    rw [tokenDrainComplete_empties hdrain hflights]
    refine ⟨⟨rfl, fun d hd => coreOf_modCore_other s c d _ hd⟩, ?_, fun j => ?_⟩ <;> rw [coreOf_modCore_same]
    · rfl
    · exact tokOf_setTok htok tk .empty j
  case ready =>
    exact runs_of_onUnit (t := quadReady s c mask) rfl (by rw [hunit, decide_eq_true hmask]; rfl)
      ⟨fun q hq => quadOn_quadReady c mask hq hs, fun o ho => rd_rwr_other s _ o _ hs ho,
        fun d hd => coreOf_modCore_other _ c d _ hd, rfl⟩
  case busy => exact runs_of_onUnit (t := spmPowerWrite s c v) rfl hunit (spmPowerWrite_busy v hbusy)
  case sets =>
    obtain ⟨hpower, hbits⟩ := spmPowerWrite_sets v hquiet hext hs
    exact runs_of_onUnit (t := spmPowerWrite s c v) rfl hunit ⟨hbits, hpower.same, hpower.others, hpower.frame⟩
  case queues => exact runs_of_onUnit (t := spmPowerWrite s c v) rfl hunit (spmPowerWrite_queues v hquiet hext hdown hs)
  case activates => exact runs_of_onUnit (t := calActivate s c) rfl hunit (calActivate_spec hwait hn hs)
  case noCalendar => exact runs_of_onUnit (t := calActivate s c) rfl hunit (calActivate_none hwait)
  case unserved => exact runs_portAccess hc hport ho (portAccess_unserved hserved)
  case dozes => exact runs_portAccess hc hport ho (portAccess_wakes hserved hdoze)
  case off =>
    obtain ⟨hlogPort, hlogAddr, hlogValid, hlogTime, hother⟩ := logOff_spec (c := c) hport ho hs
    refine runs_portAccess hc hport ho ?_
    rw [portAccess_off hserved hdoze hon]
    refine ⟨⟨rfl, fun j hj => ?_⟩, hlogPort, hlogAddr, hlogValid, hlogTime⟩
    simp only [List.mem_cons, List.not_mem_nil, or_false, not_or] at hj
    exact hother j hj.1 hj.2
  case cleanRead =>
    refine runs_portAccess hc hport ho ?_
    rw [portAccess_clean hserved hdoze hon hread, hb]
    rfl
  case cleanWrite =>
    refine runs_portAccess hc hport ho ?_
    rw [portAccess_clean hserved hdoze hon hread, hb]
    exact ⟨⟨rfl, fun d hd => coreOf_modCore_other s c d _ hd⟩, spmByte_putByte o v hk⟩
  case corrected =>
    obtain ⟨two, haccess⟩ := portAccess_corrected (b := b) hserved hdoze hon hread
    refine runs_portAccess hc hport ho ?_
    rw [haccess, hb]
    exact corrected_write v two hc hp hk hs
  case bad =>
    refine runs_portAccess hc hport ho ?_
    rw [portAccess_bad hserved hdoze hon hread]
    exact portBad_spec o hc hp hs
  case scrubbed =>
    have herg : (scrubComplete s c).erg.ext = [] := by rw [scrubComplete_eq hscrub]; exact hext
    obtain ⟨hcal, hpower, hother⟩ := rd_scrubComplete hscrub hs
    have hcore := coreOf_scrubComplete hscrub
    refine runs_of_onUnit (t := extRelease (scrubComplete s c)) rfl hunit ?_
    rw [extRelease_none herg]
    refine ⟨fun o => ?_, fun q hq => ?_, hcal, ?_, hother, fun d hd => coreOf_scrubComplete_other hscrub hd⟩
    · show spmByte (coreOf (scrubComplete s c) c) o = 0
      rw [hcore]; rfl
    · show (wbit (rd (scrubComplete s c) (rSPM_POWER c)) q && wbit (rd (scrubComplete s c) (rSPM_POWER c)) (16 + q)) = true
      rw [hpower]
      exact wbit_allOn q hq
    · show (coreOf (scrubComplete s c) c).scrubbing = false
      rw [hcore]; rfl

end Sys2Proof.Safety
end

section
/-! PROOFS. What the effect of a tensor instruction meets at the scratchpad (R168–R178): ports that stand open, the bytes
that a store leaves, and the footprint of an effect in its core. -/

namespace Sys2Proof.Machine

/-! ### Lists of records of one length -/

theorem length_flatMap_const {α β : Type} {w : Nat} {f : α → List β} {l : List α} (h : ∀ a ∈ l, (f a).length = w) :
    (l.flatMap f).length = w * l.length := by
  rw [List.length_flatMap, List.map_congr_left (g := fun _ => w) h]
  simp [Nat.mul_comm]

/-- Record `i` of a list of records of `w` entries each. -/
theorem take_drop_flatMap {α β : Type} {w : Nat} {f : α → List β} {l : List α} (h : ∀ a ∈ l, (f a).length = w) {i : Nat}
    (hi : i < l.length) : ((l.flatMap f).drop (w * i)).take w = f l[i] := by
  induction l generalizing i with
  | nil => simp at hi
  | cons a l ih =>
    have ha : (f a).length = w := h a List.mem_cons_self
    rw [List.flatMap_cons]
    cases i with
    | zero => rw [Nat.mul_zero, List.drop_zero, List.take_left' ha]; rfl
    | succ i =>
      rw [show w * (i + 1) = (f a).length + w * i by rw [ha, Nat.mul_succ, Nat.add_comm], ← List.drop_drop, List.drop_left,
        ih (fun b hb => h b (List.mem_cons_of_mem _ hb)) (Nat.lt_of_succ_lt_succ hi)]
      rfl

/-! ### Bytes -/

/-- The bytes of a scratchpad are in canonical form. -/
abbrev spmWf (k : Core) : Prop := smWf (spmDflt k) k.spm = true

theorem spmPut_frame (bs : List Byte) (k : Core) (o : Nat) : spmPut k o bs = { k with spm := (spmPut k o bs).spm } := by
  induction bs generalizing k o with
  | nil => rfl
  | cons b bs ih => rw [spmPut, ih]

/-- The bytes put, and every other byte as before. -/
theorem spmPut_spec (bs : List Byte) (k : Core) (o : Nat) (hk : spmWf k) : spmWf (spmPut k o bs) ∧
    ∀ j, spmByte (spmPut k o bs) j = if o ≤ j ∧ j < o + bs.length then bs.getD (j - o) 0 else spmByte k j := by
  induction bs generalizing k o with
  | nil => exact ⟨hk, fun j => by rw [if_neg (by simp only [List.length_nil]; omega)]; rfl⟩
  | cons b bs ih =>
    have hput : ∀ j, spmByte { k with spm := smSet (spmDflt k o) k.spm o b } j = if j = o then b else spmByte k j :=
      fun j => smGet_smSet (spmDflt k) k.spm o j b hk
    obtain ⟨hwf, hbytes⟩ := ih { k with spm := smSet (spmDflt k o) k.spm o b } (o + 1) (smSet_wf (spmDflt k) k.spm o b hk)
    refine ⟨hwf, fun j => ?_⟩
    rw [spmPut, hbytes j, hput, List.length_cons]
    by_cases hj : j = o
    · subst hj
      rw [if_neg (by omega), if_pos rfl, if_pos (by omega), Nat.sub_self]
      rfl
    · by_cases hin : o + 1 ≤ j ∧ j < o + 1 + bs.length
      · rw [if_pos hin, if_pos (by omega), show j - o = (j - (o + 1)) + 1 by omega, List.getD_cons_succ]
      · rw [if_neg hin, if_neg hj, if_neg (by omega)]

/-- Where no word is marked, none remains to be cleared. -/
theorem smKeep_clean {k : Core} (h : k.spmBad = []) (q : Nat → Bool) : { k with spmBad := smKeep q k.spmBad } = k := by
  cases k
  subst h
  rfl

/-- A store over clean words puts its bytes and marks nothing. -/
theorem spmWrite_clean {k : Core} (h : k.spmBad = []) (o : Nat) (bs : List Byte) : spmWrite k o bs = spmPut k o bs :=
  smKeep_clean (by rw [spmPut_frame]; exact h) _

/-! ### Ports that stand open -/

/-- The accesses of core `c` meet no obstacle (R168–R178): every port is served at every quad, every quad is on and awake,
no word is uncorrectable, and no access waits. -/
structure Ready (s : State) (c : Nat) : Prop where
  core : c < nCores
  regs : regsWf s
  served : ∀ p q, p < 15 → q < 16 → portServed s c p q = true
  awake : ∀ q, q < 16 → quadDozes s c q = false
  on : ∀ q, q < 16 → quadOn s c q = true
  clean : (coreOf s c).spmBad = []
  spm : spmWf (coreOf s c)
  waits : (coreOf s c).unserved = none

theorem lt_of_mem_quadsOf {o n q : Nat} (h : q ∈ quadsOf o n) : q < 16 := by
  obtain ⟨i, -, rfl⟩ := List.mem_map.1 h
  exact Nat.mod_lt _ (by decide)

section

variable {s t : State} {c : Nat}

theorem Ready.rangeServed (h : Ready s c) {p : Nat} (hp : p < 15) (o n : Nat) : rangeServed s c p o n = true :=
  List.all_eq_true.2 (fun q hq => by simp [h.served p q hp (lt_of_mem_quadsOf hq), h.awake q (lt_of_mem_quadsOf hq)])

theorem Ready.rangeOn (h : Ready s c) (o n : Nat) : rangeOn s c o n = true :=
  List.all_eq_true.2 (fun q hq => h.on q (lt_of_mem_quadsOf hq))

theorem Ready.spmBadIn (h : Ready s c) (o n : Nat) : spmBadIn (coreOf s c) o n = false := by
  rw [Machine.spmBadIn, h.clean]
  simp [smGet]

/-- What the ports of a core depend on: its calendars and power, the quads' doze, and what stands in the core. -/
theorem Ready.congr (h : Ready s c) (hregs : regsWf t) (hctl : rd t (rSPM_CTRL c) = rd s (rSPM_CTRL c))
    (hpow : rd t (rSPM_POWER c) = rd s (rSPM_POWER c)) (hdoze : t.doze = s.doze)
    (hcal : (coreOf t c).cal = (coreOf s c).cal) (hscrub : (coreOf t c).scrubbing = (coreOf s c).scrubbing)
    (hbad : (coreOf t c).spmBad = []) (hspm : spmWf (coreOf t c)) (hwaits : (coreOf t c).unserved = none) : Ready t c := by
  refine ⟨h.core, hregs, fun p q hp hq => ?_, fun q hq => ?_, fun q hq => ?_, hbad, hspm, hwaits⟩
  · have hcal' : calInForce t c = calInForce s c := by
      rw [calInForce, calInForce, rflag_congr hctl, rget, rget, hctl, hcal]
    have hs := h.served p q hp hq
    simp only [portServed, hscrub, rflag, rget, hctl, hcal'] at hs ⊢
    exact hs
  · have := h.awake q hq
    rwa [quadDozes, dozeOf, hdoze]
  · have := h.on q hq
    simpa only [quadOn, hpow] using this

/-- Registers other than the calendar's and the power's, and what stands beside cores and doze, do not matter. -/
theorem Ready.of_cores (h : Ready s c) (hcores : t.cores = s.cores) (hdoze : t.doze = s.doze) (hregs : regsWf t)
    (hctl : rd t (rSPM_CTRL c) = rd s (rSPM_CTRL c)) (hpow : rd t (rSPM_POWER c) = rd s (rSPM_POWER c)) : Ready t c := by
  have hc : coreOf t c = coreOf s c := coreOf_congr hcores c
  exact h.congr hregs hctl hpow hdoze (by rw [hc]) (by rw [hc]) (by rw [hc]; exact h.clean) (by rw [hc]; exact h.spm)
    (by rw [hc]; exact h.waits)

/-- An update of the core that leaves its calendars and its scrub. -/
theorem Ready.modCore (h : Ready s c) {f : Core → Core} (hcal : (f (coreOf s c)).cal = (coreOf s c).cal)
    (hscrub : (f (coreOf s c)).scrubbing = (coreOf s c).scrubbing) (hbad : (f (coreOf s c)).spmBad = [])
    (hspm : spmWf (f (coreOf s c))) (hwaits : (f (coreOf s c)).unserved = none) : Ready (modCore s c f) c := by
  have hc := coreOf_modCore_same s c f
  exact h.congr h.regs rfl rfl rfl (by rw [hc]; exact hcal) (by rw [hc]; exact hscrub) (by rw [hc]; exact hbad)
    (by rw [hc]; exact hspm) (by rw [hc]; exact hwaits)

/-! ### Guards -/

variable {x p : Nat} (k : State)

theorem guardSpans_ready (h : Ready s c) (hp : p < 15) (l : List (Nat × Nat)) : guardSpans s c x p l k = k := by
  have hserved : l.find? (fun (o, n) => !rangeServed s c p o n) = none :=
    List.find?_eq_none.2 (fun q _ => by simp [h.rangeServed hp])
  have hon : l.find? (fun (o, n) => !rangeOn s c o n) = none := List.find?_eq_none.2 (fun q _ => by simp [h.rangeOn])
  have hbad : l.find? (fun (o, n) => spmBadIn (coreOf s c) o n) = none :=
    List.find?_eq_none.2 (fun q _ => by simp [h.spmBadIn])
  simp only [guardSpans, hserved, hon, hbad]

theorem guardRows_ready (h : Ready s c) (hp : p < 15) (off pitch rows len : Nat) : guardRows s c x p off pitch rows len k = k :=
  guardSpans_ready k h hp _

theorem guardTile_ready (h : Ready s c) (hp : p < 15) (t : Ctx) (d : TD) (rows cols srows slen : Nat) :
    guardTile s c x p t d rows cols srows slen k = k := by
  rw [guardTile, guardRows_ready _ h hp, guardRows_ready _ h hp, ite_self]

theorem guardA_ready (h : Ready s c) (hp : p < 15) (t : Ctx) (d : TD) (m n : Nat) : guardA s c x p t d m n k = k :=
  guardTile_ready k h hp ..

theorem guardB_ready (h : Ready s c) (hp : p < 15) (t : Ctx) (d : TD) (m n : Nat) : guardB s c x p t d m n k = k :=
  guardTile_ready k h hp ..

theorem guardSrc_ready (h : Ready s c) (hp : p < 15) (d : TD) : guardSrc s c x p d k = k := guardRows_ready k h hp ..

theorem guardConv_ready (h : Ready s c) (hp : p < 15) (t : Ctx) (d : TD) (v : ConvD) (p0 m kT srows slen : Nat) :
    guardConv s c x p t d v p0 m kT srows slen k = k := by
  rw [guardConv, guardRows_ready _ h hp, ite_self, guardSpans_ready _ h hp]

/-- A region of accumulators without a wrong parity bit (R92). -/
theorem checkParity_clean {i : Nat} (h : (accOf (coreOf s c) i).badPar = []) (m n : Nat) : checkParity s c x i m n k = k := by
  have : (tileIdx m n).find? (fun (r, q) => smGet false (accOf (coreOf s c) i).badPar (256 * r + q)) = none :=
    List.find?_eq_none.2 (fun q _ => by simp [h, smGet])
  simp only [checkParity, this]

end

/-! ### The footprint of an effect -/

/-- A set without the mark of a selected tile (R116). -/
def bare (a : AccSet) : AccSet := { a with assay := false }

theorem accVal_bare (a : AccSet) (m n : Nat) : accVal (bare a) m n = accVal a m n := rfl

/-- Core `c` after an effect that may change the scratchpad bytes `B`, the content of the sets `V`, and the marks of the
sets `A`. -/
structure AtCore (s t : State) (c : Nat) (B V A : Set Nat) : Prop where
  waits : (coreOf t c).unserved = (coreOf s c).unserved
  bytes : ∀ o, o ∉ B → spmByte (coreOf t c) o = spmByte (coreOf s c) o
  vals : ∀ j, j ∉ V → bare (accOf (coreOf t c) j) = bare (accOf (coreOf s c) j)
  sets : ∀ j, j ∉ A → accOf (coreOf t c) j = accOf (coreOf s c) j

/-- Such an effect that leaves tier memory and the other cores. -/
structure Effected (s t : State) (c : Nat) (B V A : Set Nat) : Prop extends AtCore s t c B V A where
  mem : t.mem = s.mem
  undef : t.memUndef = s.memUndef
  others : ∀ d, d ≠ c → coreOf t d = coreOf s d

/-- Such an effect that also leaves the ports of the core open. -/
structure Within (s t : State) (c : Nat) (B V A : Set Nat) : Prop extends Effected s t c B V A where
  ready : Ready s c → Ready t c

section

variable {s t u : State} {c : Nat} {B B' V V' A A' : Set Nat}

theorem AtCore.trans (h : AtCore s t c B V A) (h' : AtCore t u c B' V' A') : AtCore s u c (B ∪ B') (V ∪ V') (A ∪ A') := by
  refine ⟨h'.waits.trans h.waits, fun o ho => ?_, fun j hj => ?_, fun j hj => ?_⟩
  · exact (h'.bytes o (fun e => ho (.inr e))).trans (h.bytes o (fun e => ho (.inl e)))
  · exact (h'.vals j (fun e => hj (.inr e))).trans (h.vals j (fun e => hj (.inl e)))
  · exact (h'.sets j (fun e => hj (.inr e))).trans (h.sets j (fun e => hj (.inl e)))

theorem Effected.trans (h : Effected s t c B V A) (h' : Effected t u c B' V' A') :
    Effected s u c (B ∪ B') (V ∪ V') (A ∪ A') :=
  ⟨h.toAtCore.trans h'.toAtCore, h'.mem.trans h.mem, h'.undef.trans h.undef, fun d hd => (h'.others d hd).trans (h.others d hd)⟩

theorem Within.trans (h : Within s t c B V A) (h' : Within t u c B' V' A') : Within s u c (B ∪ B') (V ∪ V') (A ∪ A') :=
  ⟨h.toEffected.trans h'.toEffected, fun hr => h'.ready (h.ready hr)⟩

theorem AtCore.mono (h : AtCore s t c B V A) (hB : B ⊆ B') (hV : V ⊆ V') (hA : A ⊆ A') : AtCore s t c B' V' A' :=
  ⟨h.waits, fun o ho => h.bytes o (fun e => ho (hB e)), fun j hj => h.vals j (fun e => hj (hV e)),
    fun j hj => h.sets j (fun e => hj (hA e))⟩

theorem Effected.mono (h : Effected s t c B V A) (hB : B ⊆ B') (hV : V ⊆ V') (hA : A ⊆ A') : Effected s t c B' V' A' :=
  ⟨h.toAtCore.mono hB hV hA, h.mem, h.undef, h.others⟩

theorem Within.mono (h : Within s t c B V A) (hB : B ⊆ B') (hV : V ⊆ V') (hA : A ⊆ A') : Within s t c B' V' A' :=
  ⟨h.toEffected.mono hB hV hA, h.ready⟩

theorem Within.refl (s : State) (c : Nat) (B V A : Set Nat) : Within s s c B V A :=
  ⟨⟨⟨rfl, fun _ _ => rfl, fun _ _ => rfl, fun _ _ => rfl⟩, rfl, rfl, fun _ _ => rfl⟩, id⟩

/-- Two effects with one footprint. -/
theorem Within.then (h : Within s t c B V A) (h' : Within t u c B V A) : Within s u c B V A :=
  (h.trans h').mono (Set.union_self _).subset (Set.union_self _).subset (Set.union_self _).subset

/-- An operation that leaves cores and tier memory. -/
theorem Within.of_cores (hc : t.cores = s.cores) (hm : t.mem = s.mem) (hu : t.memUndef = s.memUndef)
    (hready : Ready s c → Ready t c) : Within s t c B V A := by
  have hk := coreOf_congr hc
  exact ⟨⟨⟨by rw [hk], fun _ _ => by rw [hk], fun _ _ => by rw [hk], fun _ _ => by rw [hk]⟩, hm, hu, fun d _ => hk d⟩, hready⟩

theorem Effected.sameMem (h : Effected s t c B V A) : Safety.SameMem s t := memByte_congr h.mem h.undef

/-- The values of a set whose content stays. -/
theorem AtCore.accVal (h : AtCore s t c B V A) {j : Nat} (hj : j ∉ V) (a b : Nat) :
    accVal (accOf (coreOf t c) j) a b = accVal (accOf (coreOf s c) j) a b :=
  by rw [← accVal_bare, h.vals j hj, accVal_bare]

theorem AtCore.sameAccs (h : AtCore s t c B ∅ A) : Safety.SameAccs s t c := fun j a b => h.accVal (Set.notMem_empty j) a b

theorem Effected.spmOutside {lo hi : Nat} (h : Effected s t c (Set.Ico lo hi) V A) : Safety.SpmOutside s t c lo hi :=
  ⟨fun o ho => h.bytes o (fun e => by have := Set.mem_Ico.1 e; omega), h.others⟩

theorem Effected.spmKept (h : Effected s t c ∅ V A) : Safety.SpmOutside s t c 0 0 :=
  ⟨fun o _ => h.bytes o (Set.notMem_empty o), h.others⟩

end

/-! ### Registers that an effect's operations write -/

/-- A register of core `c` that neither counting nor the note of the last instruction writes. -/
def Still (c o : Nat) : Prop := ∃ y, y < 0x7000 ∧ y ≠ 0x1030 ∧ y ≠ 0x1038 ∧ o = 0x1000000 + c * 0x10000 + y

theorem Still.logReg {c o : Nat} (h : Still c o) (hc : c < nCores) : logReg o = false := by
  obtain ⟨y, hy, -, -, rfl⟩ := h
  unfold nCores at hc
  simp only [Machine.logReg, isCounterOff, Bool.or_eq_false_iff, Bool.and_eq_false_iff, decide_eq_false_iff_not]
  unfold rCNT_SAT rTRC_STATUS rFLT_CPER_PTR rFLT_CPER_HEAD rCQ_STATUS
  omega

theorem Still.ne_last {c o : Nat} (h : Still c o) {a : Nat} (ha : a < 2) : o ≠ rARR_LAST_INST c a := by
  obtain ⟨y, -, h0, h1, rfl⟩ := h
  unfold rARR_LAST_INST
  omega

theorem still_rSPM_CTRL (c : Nat) : Still c (rSPM_CTRL c) := ⟨0x5008, by decide, by decide, by decide, by unfold rSPM_CTRL; omega⟩

theorem still_rSPM_POWER (c : Nat) : Still c (rSPM_POWER c) :=
  ⟨0x5010, by decide, by decide, by decide, by unfold rSPM_POWER; omega⟩

theorem still_rNUM_SEED (c : Nat) : Still c (rNUM_SEED c) := ⟨0x2000, by decide, by decide, by decide, by unfold rNUM_SEED; omega⟩

theorem still_rNUM_CTX (c : Nat) {x : Nat} (hx : x < 4) : Still c (rNUM_CTX c x) :=
  ⟨0x2010 + x * 8, by omega, by omega, by omega, by unfold rNUM_CTX; omega⟩

theorem still_rASSAY_TOL (c : Nat) {f : Nat} (hf : f < 8) : Still c (rASSAY_TOL c f) :=
  ⟨0x2140 + f * 8, by omega, by omega, by omega, by unfold rASSAY_TOL; omega⟩

section

variable {s : State} {c : Nat} {B V A : Set Nat}

/-- Counting at the core. -/
theorem within_countCore {i : Nat} (hi : i < 512) (n : Nat) : Within s (countCore s c i n) c B V A := by
  have hf := countUp_frame s (rCNT_CORE c i) n
  refine .of_cores (cores_countCore s c i n) (by rw [countCore, hf]) (by rw [countCore, hf]) (fun h => ?_)
  have hl := logged_countCore s h.core hi n
  exact h.of_cores hl.cores (by rw [countCore, hf]) (hl.wf h.regs) (hl.same h.regs _ ((still_rSPM_CTRL c).logReg h.core))
    (hl.same h.regs _ ((still_rSPM_POWER c).logReg h.core))

theorem within_useFree : Within s (useFree s).2 c B V A :=
  .of_cores rfl rfl rfl (fun h => h.of_cores rfl rfl h.regs rfl rfl)

/-- Nothing of a core differs but its arrays and its assay state. -/
def ArraysOnly (k k' : Core) : Prop :=
  k' = { k with accs := k'.accs, zeroSeq := k'.zeroSeq, assayOpen := k'.assayOpen, assayRing := k'.assayRing,
                window := k'.window }

/-- An update of a core's arrays. -/
theorem within_modCore {f : Core → Core} (hf : ArraysOnly (coreOf s c) (f (coreOf s c)))
    (hv : ∀ j, j ∉ V → bare (accOf (f (coreOf s c)) j) = bare (accOf (coreOf s c) j))
    (ha : ∀ j, j ∉ A → accOf (f (coreOf s c)) j = accOf (coreOf s c) j) : Within s (modCore s c f) c B V A := by
  have hc := coreOf_modCore_same s c f
  refine ⟨⟨⟨?_, fun o _ => ?_, fun j hj => by rw [hc, hv j hj], fun j hj => by rw [hc, ha j hj]⟩, rfl, rfl,
    fun d hd => coreOf_modCore_other s c d f hd⟩, fun h => h.modCore ?_ ?_ ?_ ?_ ?_⟩
  · rw [hc, hf]
  · rw [hc, hf]; rfl
  · rw [hf]
  · rw [hf]
  · rw [hf]; exact h.clean
  · rw [hf]; exact h.spm
  · rw [hf]; exact h.waits

theorem accOf_setAcc (k : Core) (i j : Nat) (a : AccSet) : accOf (setAcc k i a) j = if j = i then a else accOf k j :=
  kGet_kSet AccSet.reset k.accs i j a

/-- An update of one set. -/
theorem within_setAcc {i : Nat} {g : Core → AccSet} : Within s (modCore s c (fun k => setAcc k i (g k))) c B {i} {i} := by
  have hother : ∀ j, j ∉ ({i} : Set Nat) → accOf (setAcc (coreOf s c) i (g (coreOf s c))) j = accOf (coreOf s c) j :=
    fun j hj => by rw [accOf_setAcc, if_neg (by simpa using hj)]
  exact within_modCore rfl (fun j hj => congrArg bare (hother j hj)) hother

/-! ### Stores -/

theorem spmStore_ready (h : Ready s c) {x p : Nat} (hp : p < 15) (o : Nat) (bs : List Byte) :
    spmStore s c x p o bs = modCore s c (fun k => spmPut k o bs) := by
  have hbad : (partCodewords o bs.length).find? (fun j => smGet false (coreOf s c).spmBad j) = none :=
    List.find?_eq_none.2 (fun q _ => by simp [h.clean, smGet])
  rw [spmStore, if_neg (by simp [h.rangeServed hp]), if_neg (by simp [h.rangeOn]), hbad]
  simp only [modCore, spmWrite_clean h.clean]

/-- A store of an effect writes its bytes, and no other. -/
theorem within_spmStore (h : Ready s c) {x p : Nat} (hp : p < 15) (o : Nat) (bs : List Byte) :
    Within s (spmStore s c x p o bs) c (Set.Ico o (o + bs.length)) ∅ ∅ := by
  have hf := spmPut_frame bs (coreOf s c) o
  obtain ⟨hwf, hbytes⟩ := spmPut_spec bs (coreOf s c) o h.spm
  rw [spmStore_ready h hp]
  have hc := coreOf_modCore_same s c (fun k => spmPut k o bs)
  refine ⟨⟨⟨?_, fun j hj => ?_, fun j _ => ?_, fun j _ => ?_⟩, rfl, rfl, fun d hd => coreOf_modCore_other s c d _ hd⟩,
    fun _ => h.modCore ?_ ?_ ?_ hwf ?_⟩
  · rw [hc, hf]
  · rw [hc, hbytes j, if_neg (fun e => hj (Set.mem_Ico.2 e))]
  · rw [hc, hf]; rfl
  · rw [hc, hf]; rfl
  · rw [hf]
  · rw [hf]
  · rw [hf]; exact h.clean
  · rw [hf]; exact h.waits

theorem spmByte_spmStore (h : Ready s c) {x p : Nat} (hp : p < 15) (o : Nat) (bs : List Byte) {j : Nat} (h1 : o ≤ j)
    (h2 : j < o + bs.length) : spmByte (coreOf (spmStore s c x p o bs) c) j = bs.getD (j - o) 0 := by
  rw [spmStore_ready h hp, coreOf_modCore_same, (spmPut_spec bs _ o h.spm).2 j, if_pos ⟨h1, h2⟩]

/-- Bytes read within a store. -/
theorem spmBytes_spmStore (h : Ready s c) {x p : Nat} (hp : p < 15) (o : Nat) (bs : List Byte) {i n : Nat}
    (hi : i + n ≤ bs.length) : spmBytes (coreOf (spmStore s c x p o bs) c) (o + i) n = (bs.drop i).take n := by
  refine List.ext_getElem (by simp [spmBytes]; omega) (fun j hj _ => ?_)
  have hj : j < n := by simpa [spmBytes] using hj
  simp only [spmBytes, List.getElem_map, List.getElem_range, List.getElem_take, List.getElem_drop]
  rw [spmByte_spmStore h hp o bs (by omega) (by omega), show o + i + j - o = i + j by omega,
    List.getD_eq_getElem _ _ (by omega)]

/-- Bytes that an effect leaves. -/
theorem AtCore.spmBytes {t : State} (h : AtCore s t c B V A) {o n : Nat} (hout : ∀ j, o ≤ j → j < o + n → j ∉ B) :
    spmBytes (coreOf t c) o n = spmBytes (coreOf s c) o n :=
  List.map_congr_left (fun i hi => h.bytes (o + i) (hout _ (by omega) (by have := List.mem_range.1 hi; omega)))

end

end Sys2Proof.Machine
end

section
/-! PROOFS. What the accumulators of a set hold after a product, a scaling or a load (R72, R76, R84, R86). -/

namespace Sys2Proof.Machine

/-! ### Accumulators of a set -/

/-- What accumulator `i` of a set reads as where it is not listed. -/
def accDflt (a : AccSet) (i : Nat) : W32 :=
  match a.gen with | some g => BitVec.ofNat 32 (Config.freeWord g i).toNat | none => 0

/-- The accumulators of a set are in canonical form. -/
abbrev AccWf (a : AccSet) : Prop := smWf (accDflt a) a.vals = true

theorem smSet_false_nil (k : Nat) : smSet false ([] : SMap Bool) k false = [] := rfl

/-- `b` is `a` with other accumulators and NONFINITE bit, and its parity no worse. -/
structure CellsOnly (a b : AccSet) : Prop where
  frame : b = { a with vals := b.vals, badPar := b.badPar, nonfin := b.nonfin }
  parity : a.badPar = [] → b.badPar = []

theorem CellsOnly.refl (a : AccSet) (z : Bool) : CellsOnly a { a with nonfin := z } := ⟨rfl, id⟩

theorem CellsOnly.trans {a b d : AccSet} (h : CellsOnly a b) (h' : CellsOnly b d) : CellsOnly a d :=
  ⟨by rw [h'.frame, h.frame], fun e => h'.parity (h.parity e)⟩

/-- `b` is `a` with accumulator `p` replaced by a value made of its old one. -/
def PutsCell (p : Nat × Nat) (g : W32 → W32) (a b : AccSet) : Prop :=
  ∃ z, b = { accPut a p.1 p.2 (g (accVal a p.1 p.2)) with nonfin := z }

section

variable {a b : AccSet} {p : Nat × Nat} {g : W32 → W32}

theorem PutsCell.cellsOnly (h : PutsCell p g a b) : CellsOnly a b := by
  obtain ⟨z, rfl⟩ := h
  exact ⟨rfl, fun e => by simp only [accPut, e, smSet_false_nil]⟩

theorem PutsCell.wf (h : PutsCell p g a b) (ha : AccWf a) : AccWf b := by
  obtain ⟨z, rfl⟩ := h
  exact smSet_wf (accDflt a) a.vals _ _ ha

theorem PutsCell.vals (h : PutsCell p g a b) (ha : AccWf a) (hp : p.2 < 256) {i j : Nat} (hj : j < 256) :
    accVal b i j = if (i, j) = p then g (accVal a i j) else accVal a i j := by
  obtain ⟨z, rfl⟩ := h
  have hput := smGet_smSet (accDflt a) a.vals (256 * p.1 + p.2) (256 * i + j) (g (accVal a p.1 p.2)) ha
  have hcell : 256 * i + j = 256 * p.1 + p.2 ↔ (i, j) = p := by
    rw [Prod.ext_iff]
    omega
  refine hput.trans ?_
  simp only [hcell]
  split
  · next e => rw [← e]
  · rfl

end

section

variable {F : AccSet → Nat × Nat → AccSet} {g : Nat × Nat → W32 → W32} (hF : ∀ u p, PutsCell p (g p) u (F u p))

include hF

theorem foldl_cellsOnly (l : List (Nat × Nat)) (a : AccSet) : CellsOnly a (l.foldl F a) := by
  induction l generalizing a with
  | nil => exact .refl a a.nonfin
  | cons p l ih => exact (hF a p).cellsOnly.trans (ih (F a p))

/-- Cells replaced one by one, none twice. -/
theorem foldl_cells {l : List (Nat × Nat)} (hl : l.Nodup) (hcol : ∀ p ∈ l, p.2 < 256) {a : AccSet} (ha : AccWf a) :
    AccWf (l.foldl F a) ∧ ∀ i j, j < 256 →
      accVal (l.foldl F a) i j = if (i, j) ∈ l then g (i, j) (accVal a i j) else accVal a i j := by
  induction l generalizing a with
  | nil => exact ⟨ha, fun i j _ => rfl⟩
  | cons p l ih =>
    obtain ⟨hp, hl⟩ := List.nodup_cons.1 hl
    obtain ⟨hwf, hvals⟩ := ih hl (fun q hq => hcol q (List.mem_cons_of_mem _ hq)) ((hF a p).wf ha)
    refine ⟨hwf, fun i j hj => ?_⟩
    rw [List.foldl_cons, hvals i j hj, (hF a p).vals ha (hcol p List.mem_cons_self) hj]
    by_cases he : (i, j) = p
    · rw [if_neg (he ▸ hp), if_pos he, if_pos (he ▸ List.mem_cons_self), he]
    · simp only [he, if_false, List.mem_cons, false_or]

end

/-! ### The cells of a tile -/

theorem mem_tileIdx {m n : Nat} {p : Nat × Nat} : p ∈ tileIdx m n ↔ p.1 < m ∧ p.2 < n := by
  rw [← List.mem_range, ← List.mem_range]
  exact List.mem_product

theorem nodup_tileIdx (m n : Nat) : (tileIdx m n).Nodup := List.nodup_range.product List.nodup_range

theorem mem_tileRows {m n : Nat} {rowOk : Nat → Bool} {p : Nat × Nat} :
    p ∈ (tileIdx m n).filter (fun (i, _) => rowOk i) ↔ p.1 < m ∧ p.2 < n ∧ rowOk p.1 = true := by
  rw [List.mem_filter, mem_tileIdx, and_assoc]

/-! ### ZERO start and products -/

section

variable {acc : AccSet} {m n : Nat}

theorem accZero_cellsOnly (acc : AccSet) (int : Bool) (rowOk : Nat → Bool) (m n : Nat) :
    CellsOnly { acc with isInt := int } (accZero acc int rowOk m n) := by
  obtain ⟨hframe, hpar⟩ := foldl_cellsOnly (F := fun a (i, j) => accPut a i j 0) (g := fun _ _ => 0)
    (fun u p => ⟨u.nonfin, rfl⟩) ((tileIdx m n).filter (fun (i, _) => rowOk i)) acc
  refine ⟨?_, hpar⟩
  rw [accZero, hframe]

theorem accZero_vals (hacc : AccWf acc) (hn : n ≤ 256) (int : Bool) (rowOk : Nat → Bool) :
    AccWf (accZero acc int rowOk m n) ∧ ∀ i j, j < 256 → accVal (accZero acc int rowOk m n) i j =
      if i < m ∧ j < n ∧ rowOk i = true then 0 else accVal acc i j := by
  obtain ⟨hwf, hvals⟩ := foldl_cells (F := fun a (i, j) => accPut a i j 0) (g := fun _ _ => 0) (fun u p => ⟨u.nonfin, rfl⟩)
    ((nodup_tileIdx m n).filter (fun (i, _) => rowOk i)) (fun p hp => by have := mem_tileRows.1 hp; omega) hacc
  refine ⟨hwf, fun i j hj => (hvals i j hj).trans ?_⟩
  simp only [mem_tileRows]

/-- The set that a product starts from (R72). -/
theorem start_vals (hacc : AccWf acc) (hn : n ≤ 256) (int zero : Bool) (rowOk : Nat → Bool) :
    let acc0 := if zero then accZero acc int rowOk m n else { acc with isInt := int }
    AccWf acc0 ∧ ∀ i j, j < 256 → accVal acc0 i j =
      if i < m ∧ j < n ∧ rowOk i = true then if zero then 0 else accVal acc i j else accVal acc i j := by
  cases zero with
  | true => exact accZero_vals hacc hn int rowOk
  | false => exact ⟨hacc, fun i j _ => (ite_self _).symm⟩

theorem start_cellsOnly (acc : AccSet) (int zero : Bool) (rowOk : Nat → Bool) (m n : Nat) :
    CellsOnly { acc with isInt := int } (if zero then accZero acc int rowOk m n else { acc with isInt := int }) := by
  cases zero with
  | true => exact accZero_cellsOnly acc int rowOk m n
  | false => exact .refl { acc with isInt := int } _

variable (int zero : Bool) (rowOk : Nat → Bool) (a b : Opnd) (kTot k : Nat)

theorem product_cellsOnly (acc : AccSet) (m n : Nat) :
    CellsOnly { acc with isInt := int } (product int zero rowOk a b m n kTot k acc) := by
  rw [product]
  split
  · exact start_cellsOnly acc int zero rowOk m n
  · exact (start_cellsOnly acc int zero rowOk m n).trans
      (foldl_cellsOnly (g := fun p _ => (stepsOut int a b p.1 p.2 k kTot _ 0 (accVal _ p.1 p.2, false)).1)
        (fun u p => ⟨_, rfl⟩) _ _)

/-- The accumulators that a product leaves (R73, R76). -/
theorem product_vals (hacc : AccWf acc) (hn : n ≤ 256) : AccWf (product int zero rowOk a b m n kTot k acc) ∧
    ∀ i j, j < 256 → accVal (product int zero rowOk a b m n kTot k acc) i j = if i < m ∧ j < n ∧ rowOk i = true then
      (stepsOut int a b i j k kTot ((kTot + k - 1) / k) 0 (if zero then 0 else accVal acc i j, false)).1
      else accVal acc i j := by
  obtain ⟨hwf0, hvals0⟩ := start_vals (m := m) hacc hn int zero rowOk
  rw [product]
  split
  · next hst =>
    refine ⟨hwf0, fun i j hj => ?_⟩
    rw [hst, hvals0 i j hj]
    rfl
  · obtain ⟨hwf, hvals⟩ := foldl_cells (g := fun p _ => (stepsOut int a b p.1 p.2 k kTot ((kTot + k - 1) / k) 0
        (accVal (if zero then accZero acc int rowOk m n else { acc with isInt := int }) p.1 p.2, false)).1)
      (fun u p => ⟨_, rfl⟩) ((nodup_tileIdx m n).filter (fun (i, _) => rowOk i))
      (fun p hp => by have := mem_tileRows.1 hp; omega) hwf0
    refine ⟨hwf, fun i j hj => (hvals i j hj).trans ?_⟩
    simp only [mem_tileRows, hvals0 i j hj]
    split <;> rfl

end

/-! ### Operands by row -/

theorem stepsOut_shift (int : Bool) (a b : Opnd) (o m n k kTot fuel q0 : Nat) (acc : W32 × Bool) :
    stepsOut int (a.shift o) b m n k kTot fuel q0 acc = stepsOut int a b (m + o) n k kTot fuel q0 acc := by
  induction fuel generalizing q0 acc with
  | zero => rfl
  | succ fuel ih => exact ih _ _

/-- A product's output depends on its own row and column alone. -/
theorem stepsOut_congr {int : Bool} {a a' b b' : Opnd} {m n k kTot : Nat} (hv : ∀ q, q < kTot → a.val m q = a'.val m q)
    (hs : a.scale m = a'.scale m) (hbv : ∀ q, b.val n q = b'.val n q) (hbs : b.scale n = b'.scale n) (fuel q0 : Nat)
    (acc : W32 × Bool) : stepsOut int a b m n k kTot fuel q0 acc = stepsOut int a' b' m n k kTot fuel q0 acc := by
  have hstep : ∀ q0 acc, stepOut int a b m n k kTot q0 acc = stepOut int a' b' m n k kTot q0 acc := by
    intro q0 acc
    have hps : ((List.range k).filter (fun i => decide (q0 + i < kTot))).map (fun i => (a.val m (q0 + i)).mul (b.val n (q0 + i)))
        = ((List.range k).filter (fun i => decide (q0 + i < kTot))).map
          (fun i => (a'.val m (q0 + i)).mul (b'.val n (q0 + i))) :=
      List.map_congr_left (fun i hi => by rw [hv _ (of_decide_eq_true (List.mem_filter.1 hi).2), hbv])
    simp only [stepOut, hps, hs, hbs]
  induction fuel generalizing q0 acc with
  | zero => rfl
  | succ fuel ih => rw [stepsOut, stepsOut, hstep, ih]

/-! ### Scaling rows (R86) -/

/-- The cells that a scaling of rows replaces, with the factor of their row. -/
def scaleCell (f : List W32) (u : AccSet) (p : Nat × Nat) : AccSet :=
  let v := rne32 ((fv32 (accVal u p.1 p.2)).mul (fv32 (f.getD p.1 0)))
  { accPut u p.1 p.2 v with nonfin := u.nonfin || (fv32 v).special }

theorem rowScale_eq (a : AccSet) (n : Nat) (f : List W32) : rowScale a n f = (tileIdx f.length n).foldl (scaleCell f) a := by
  have hrows : f.zipIdx = (List.range f.length).map (fun m => (f.getD m 0, m)) := by
    refine List.ext_getElem (by simp) (fun i hi _ => ?_)
    have hi : i < f.length := by simpa using hi
    simp [hi]
  rw [rowScale, hrows, List.foldl_map, tileIdx, List.foldl_flatMap]
  simp only [List.foldl_map]
  rfl

theorem rowScale_cellsOnly (a : AccSet) (n : Nat) (f : List W32) : CellsOnly a (rowScale a n f) := by
  rw [rowScale_eq]
  exact foldl_cellsOnly (g := fun p v => rne32 ((fv32 v).mul (fv32 (f.getD p.1 0)))) (fun u p => ⟨_, rfl⟩) _ a

theorem rowScale_vals {a : AccSet} (ha : AccWf a) {n : Nat} (hn : n ≤ 256) (f : List W32) : AccWf (rowScale a n f) ∧
    ∀ i j, j < 256 → accVal (rowScale a n f) i j =
      if i < f.length ∧ j < n then rne32 ((fv32 (accVal a i j)).mul (fv32 (f.getD i 0))) else accVal a i j := by
  obtain ⟨hwf, hvals⟩ := foldl_cells (F := scaleCell f) (g := fun p v => rne32 ((fv32 v).mul (fv32 (f.getD p.1 0))))
    (fun u p => ⟨_, rfl⟩) (nodup_tileIdx f.length n) (fun p hp => by have := mem_tileIdx.1 hp; omega) ha
  rw [rowScale_eq]
  refine ⟨hwf, fun i j hj => (hvals i j hj).trans ?_⟩
  simp only [mem_tileIdx]

/-! ### Products in a core -/

section

variable {s t : State} {c : Nat} {B V A : Set Nat}

/-- A set whose content an effect leaves stays in canonical form. -/
theorem AtCore.accWf (h : AtCore s t c B V A) {j : Nat} (hj : j ∉ V) (hwf : AccWf (accOf (coreOf s c) j)) :
    AccWf (accOf (coreOf t c) j) := by
  have hb : AccWf (bare (accOf (coreOf t c) j)) := by rw [h.vals j hj]; exact hwf
  exact hb

theorem AtCore.badPar (h : AtCore s t c B V A) {j : Nat} (hj : j ∉ V) :
    (accOf (coreOf t c) j).badPar = (accOf (coreOf s c) j).badPar := by
  simpa [bare] using congrArg AccSet.badPar (h.vals j hj)

theorem AtCore.inject (h : AtCore s t c B V A) {j : Nat} (hj : j ∉ V) :
    (accOf (coreOf t c) j).inject = (accOf (coreOf s c) j).inject := by
  simpa [bare] using congrArg AccSet.inject (h.vals j hj)

theorem AtCore.isInt (h : AtCore s t c B V A) {j : Nat} (hj : j ∉ V) :
    (accOf (coreOf t c) j).isInt = (accOf (coreOf s c) j).isInt := by
  simpa [bare] using congrArg AccSet.isInt (h.vals j hj)

theorem accOf_modCore_setAcc (s : State) (c i : Nat) (g : Core → AccSet) :
    accOf (coreOf (modCore s c (fun k => setAcc k i (g k))) c) i = g (coreOf s c) := by
  rw [coreOf_modCore_same, accOf_setAcc, if_pos rfl]

theorem within_injectPar (i m n : Nat) : Within s (injectPar s c i m n) c B {i} {i} := by
  rw [injectPar]
  split
  · exact within_useFree.then within_setAcc
  · exact .refl ..

theorem accOf_injectPar (s : State) (c i m n : Nat) : ∃ z b, accOf (coreOf (injectPar s c i m n) c) i =
    { accOf (coreOf s c) i with inject := z, badPar := b } := by
  rw [injectPar]
  split
  · exact ⟨_, _, accOf_modCore_setAcc (useFree s).2 c i _⟩
  · exact ⟨_, _, rfl⟩

theorem injectPar_none {i : Nat} (h : (accOf (coreOf s c) i).inject = false) (m n : Nat) : injectPar s c i m n = s := by
  rw [injectPar, h]
  rfl

/-- The steps of a product change one set. -/
theorem within_runSteps {i : Nat} (hi : i < 8) (m n st : Nat) (g : AccSet → AccSet) :
    Within s (runSteps s c i m n st g) c B {i} {i} := by
  rw [runSteps]
  have h1 : Within s (modCore s c (fun u => setAcc u i (g (accOf u i)))) c B {i} {i} := within_setAcc
  split
  · exact h1
  · exact (h1.then (within_injectPar i m n)).then (within_countCore (by omega) st)

theorem accOf_runSteps (s : State) (c i m n st : Nat) (g : AccSet → AccSet) : ∃ z b,
    accOf (coreOf (runSteps s c i m n st g) c) i = { g (accOf (coreOf s c) i) with inject := z, badPar := b } := by
  have h1 := accOf_modCore_setAcc s c i (fun u => g (accOf u i))
  rw [runSteps]
  split
  · exact ⟨_, _, h1⟩
  · obtain ⟨z, b, h2⟩ := accOf_injectPar (modCore s c (fun u => setAcc u i (g (accOf u i)))) c i m n
    exact ⟨z, b, by rw [coreOf_congr (cores_countCore _ _ _ _), h2, h1]⟩

/-- Without an injection waiting the steps leave just what they compute. -/
theorem accOf_runSteps_plain {i : Nat} {g : AccSet → AccSet} (hg : (g (accOf (coreOf s c) i)).inject = false) (m n st : Nat) :
    accOf (coreOf (runSteps s c i m n st g) c) i = g (accOf (coreOf s c) i) := by
  have h1 := accOf_modCore_setAcc s c i (fun u => g (accOf u i))
  rw [runSteps, injectPar_none (by rw [h1]; exact hg)]
  split
  · exact h1
  · rw [coreOf_congr (cores_countCore _ _ _ _), h1]

theorem within_runProduct {i : Nat} (hi : i < 8) (int zero : Bool) (rowOk : Nat → Bool) (a b : Opnd) (m n kTot k : Nat) :
    Within s (runProduct s c i int zero rowOk a b m n kTot k) c B {i} {i} := within_runSteps hi ..

theorem runProduct_vals {i m n : Nat} (hwf : AccWf (accOf (coreOf s c) i)) (hn : n ≤ 256) (int zero : Bool)
    (rowOk : Nat → Bool) (a b : Opnd) (kTot k : Nat) :
    AccWf (accOf (coreOf (runProduct s c i int zero rowOk a b m n kTot k) c) i) ∧
    ∀ p q, q < 256 → accVal (accOf (coreOf (runProduct s c i int zero rowOk a b m n kTot k) c) i) p q =
      if p < m ∧ q < n ∧ rowOk p = true then
        (stepsOut int a b p q k kTot ((kTot + k - 1) / k) 0 (if zero then 0 else accVal (accOf (coreOf s c) i) p q, false)).1
      else accVal (accOf (coreOf s c) i) p q := by
  obtain ⟨z, bp, heq⟩ := accOf_runSteps s c i m n ((kTot + k - 1) / k) (product int zero rowOk a b m n kTot k)
  rw [runProduct, heq]
  exact product_vals int zero rowOk a b kTot k hwf hn

/-! ### Assay selection (R116) -/

theorem bare_setAcc_assay (k : Core) (i j : Nat) (z : Bool) :
    bare (accOf (setAcc k i { accOf k i with assay := z }) j) = bare (accOf k j) := by
  rw [accOf_setAcc]
  split
  · next h => rw [h]; rfl
  · rfl

/-- An update of one set's mark, with the assay state of the core. -/
theorem within_mark {i : Nat} {f : Core → Core} (hf : ArraysOnly (coreOf s c) (f (coreOf s c)))
    (hm : ∃ z, (f (coreOf s c)).accs = (setAcc (coreOf s c) i { accOf (coreOf s c) i with assay := z }).accs) :
    Within s (modCore s c f) c B ∅ {i} := by
  obtain ⟨z, hz⟩ := hm
  have hacc : ∀ j, accOf (f (coreOf s c)) j = accOf (setAcc (coreOf s c) i { accOf (coreOf s c) i with assay := z }) j :=
    fun j => by rw [accOf, accOf, hz]
  refine within_modCore hf (fun j _ => ?_) (fun j hj => ?_)
  · rw [hacc, bare_setAcc_assay]
  · rw [hacc, accOf_setAcc, if_neg (by simpa using hj)]

theorem within_assayCancel (i : Nat) : Within s (assayCancel s c i) c B ∅ {i} := within_mark rfl ⟨false, rfl⟩

/-- An update of the assay state beside the sets. -/
theorem within_assayState {f : Core → Core} (hf : ArraysOnly (coreOf s c) (f (coreOf s c)))
    (ha : (f (coreOf s c)).accs = (coreOf s c).accs) : Within s (modCore s c f) c B V A := by
  have hacc : ∀ j, accOf (f (coreOf s c)) j = accOf (coreOf s c) j := fun j => by rw [accOf, accOf, ha]
  exact within_modCore hf (fun j _ => by rw [hacc]) (fun j _ => hacc j)

theorem within_countZero (zero : Bool) : Within s (countZero s c zero) c B V A := by
  rw [countZero]
  split
  · exact within_assayState rfl rfl
  · exact .refl ..

theorem within_assaySelect (i stamp m n : Nat) (p : AssayProd) : Within s (assaySelect s c i stamp m n p) c B ∅ {i} := by
  have h1 : Within s (modCore s c (fun k => setAcc k i { accOf k i with assay := false })) c B ∅ {i} := within_assayCancel i
  simp only [assaySelect]
  split
  · exact h1
  · split
    · exact h1.then (within_countCore (by omega) 1)
    · refine (h1.then ?_).then (within_countCore (by omega) 1)
      exact within_mark rfl ⟨true, rfl⟩

theorem within_assayTile (i : Nat) (zero : Bool) (stamp m n : Nat) (p : AssayProd) :
    Within s (assayTile s c i zero stamp m n p) c B ∅ {i} := by
  rw [assayTile]
  split
  · exact within_assaySelect ..
  · split
    · exact within_assayState rfl rfl
    · exact .refl ..

end

end Sys2Proof.Machine
end

section
/-! PROOFS. Element codes in the scratchpad (R96, R99–R102): the code of a value fits its format, a packed row gives back
its codes, and the rows that an instruction writes stand in their tile. -/

namespace Sys2Proof.Machine

/-! ### Codes -/

theorem top_lt {f : Nat} (hf : f < 8) : (fmtShape f).2.2 < 2 ^ (fmtBits f - 1) := by
  interval_cases f <;> decide

theorem fmtNan_lt {f : Nat} (hf : f < 8) : fmtNan f < 2 ^ fmtBits f := by
  interval_cases f <;> decide

theorem fmtBits_pos (f : Nat) : 0 < fmtBits f := by
  simp only [fmtBits]
  split_ifs <;> decide

/-- A magnitude with a sign bit. -/
theorem signed_lt {f code : Nat} (h : code < 2 ^ (fmtBits f - 1)) (neg : Bool) :
    code + b2n neg * 2 ^ (fmtBits f - 1) < 2 ^ fmtBits f := by
  have hpow : 2 ^ fmtBits f = 2 * 2 ^ (fmtBits f - 1) := by
    rw [← Nat.pow_succ', Nat.succ_eq_add_one, Nat.sub_add_cancel (fmtBits_pos f)]
  cases neg <;> simp [b2n] <;> omega

/-- The code of a converted value fits its format (R99). -/
theorem convFv_lt {f : Nat} (hf : f < 8) (draw : Option Nat) (st : Bool) (v : FV) :
    (convFv f draw st v).1 < 2 ^ fmtBits f := by
  have htop := top_lt hf
  have hzero : 0 < 2 ^ (fmtBits f - 1) := Nat.two_pow_pos _
  have hsgn : ∀ neg, b2n neg * 2 ^ (fmtBits f - 1) < 2 ^ fmtBits f := fun neg => by
    simpa using signed_lt hzero neg
  unfold convFv
  split
  · cases v with
    | nan => exact Nat.two_pow_pos _
    | inf neg => exact wrapTo_lt _ _
    | fin neg m e =>
      simp only
      split_ifs <;> simp only [wrapTo_lt]
  · cases v with
    | nan => exact fmtNan_lt hf
    | inf neg => exact signed_lt htop neg
    | fin neg m e =>
      simp only
      split_ifs with hm hover
      · exact hsgn neg
      · exact signed_lt htop neg
      · exact signed_lt (lt_of_le_of_lt (Nat.le_of_not_lt hover) htop) neg

/-! ### Records in a list -/

theorem getD_flatMap_const {α β : Type} {w : Nat} {f : α → List β} {l : List α} (h : ∀ a ∈ l, (f a).length = w) {i b : Nat}
    (hi : i < l.length) (hb : b < w) (z : β) : (l.flatMap f).getD (w * i + b) z = (f l[i]).getD b z := by
  rw [← take_drop_flatMap h hi, List.getD_eq_getElem?_getD, List.getD_eq_getElem?_getD, List.getElem?_take_of_lt hb,
    List.getElem?_drop]

/-- The groups of a list. -/
theorem getElem?_chunks {α : Type} {n : Nat} (hn : 0 < n) {fuel : Nat} {l : List α} (hl : l.length < fuel) (i : Nat) :
    (chunks n fuel l)[i]? = if n * i < l.length then some ((l.drop (n * i)).take n) else none := by
  induction fuel generalizing l i with
  | zero => omega
  | succ fuel ih =>
    cases l with
    | nil => simp [chunks]
    | cons x l =>
      have hlen : ((x :: l).drop n).length < fuel := by
        simp only [List.length_drop, List.length_cons] at hl ⊢
        omega
      cases i with
      | zero => simp [chunks]
      | succ i =>
        rw [chunks, List.getElem?_cons_succ, ih hlen, List.length_drop, List.drop_drop, Nat.mul_succ, Nat.add_comm n]
        congr 1
        rw [eq_iff_iff]
        omega

theorem mem_chunks_getElem {α : Type} {n : Nat} (hn : 0 < n) {l : List α} {i : Nat} (hi : n * i < l.length) :
    ∃ h : i < (chunks n (l.length + 1) l).length, (chunks n (l.length + 1) l)[i] = (l.drop (n * i)).take n := by
  have := getElem?_chunks hn (Nat.lt_succ_self l.length) i
  rw [if_pos hi] at this
  exact List.getElem?_eq_some_iff.1 this

theorem length_chunks {α : Type} {n g : Nat} (hn : 0 < n) {l : List α} (hl : l.length = n * g) :
    (chunks n (l.length + 1) l).length = g := by
  refine Nat.le_antisymm ?_ ?_
  · have := getElem?_chunks hn (Nat.lt_succ_self l.length) g
    rw [if_neg (by omega)] at this
    exact List.getElem?_eq_none_iff.1 this
  · cases g with
    | zero => exact Nat.zero_le _
    | succ g =>
      have h : n * g < l.length := by
        rw [hl]
        exact Nat.mul_lt_mul_of_pos_left (Nat.lt_succ_self g) hn
      exact (mem_chunks_getElem hn h).1

/-! ### Packed elements -/

theorem ofBytesLE_lt (l : List Byte) : ofBytesLE l < 256 ^ l.length := by
  induction l with
  | nil => decide
  | cons b l ih =>
    have hb : b.toNat < 256 := b.isLt
    rw [ofBytesLE, List.length_cons, Nat.pow_succ]
    omega

/-- The bytes of the number that bytes make. -/
theorem bytesLE_ofBytesLE (l : List Byte) : bytesLE l.length (ofBytesLE l) = l := by
  induction l with
  | nil => rfl
  | cons b l ih =>
    have hb : b.toNat < 256 := b.isLt
    rw [List.length_cons, bytesLE, ofBytesLE, show (b.toNat + 256 * ofBytesLE l) / 256 = ofBytesLE l by omega, ih]
    congr 1
    refine BitVec.eq_of_toNat_eq ?_
    rw [BitVec.toNat_ofNat]
    omega

theorem elemBits_lt {f : Nat} (hf : f < 8) (gb : Nat → Byte) (base j : Nat) : elemBits gb f base j < 2 ^ fmtBits f := by
  have hb : ∀ o, (gb o).toNat < 2 ^ 8 := fun o => (gb o).isLt
  have h2 : ∀ o o', ofBytesLE [gb o, gb o'] < 2 ^ 16 := fun o o' => by
    simpa using ofBytesLE_lt [gb o, gb o']
  have hbits : ∀ n hi lo : Nat, bitsOf n hi lo < 2 ^ (hi + 1 - lo) := fun n hi lo => Nat.mod_lt _ (Nat.two_pow_pos _)
  have h6 := hbits (ofBytesLE [gb (base + j / 4 * 3), gb (base + j / 4 * 3 + 1), gb (base + j / 4 * 3 + 2)])
    (6 * (j % 4) + 5) (6 * (j % 4))
  have h4 := hbits (gb (base + j / 2)).toNat (4 * (j % 2) + 3) (4 * (j % 2))
  rw [show 6 * (j % 4) + 5 + 1 - 6 * (j % 4) = 6 by omega] at h6
  rw [show 4 * (j % 2) + 3 + 1 - 4 * (j % 2) = 4 by omega] at h4
  interval_cases f
  · exact h2 _ _
  · exact h2 _ _
  · exact hb _
  · exact hb _
  · exact h6
  · exact h4
  · exact hb _
  · exact h4

theorem length_packElems {f : Nat} (hf : f < 8) {l : List Nat} {g : Nat} (hl : l.length = groupOf f * g) :
    (packElems f l).length = rowBytes f l.length := by
  by_cases h4 : f = 4
  · subst h4
    rw [packElems, if_pos rfl, length_flatMap_const (w := 3) (fun _ _ => length_bytesLE _ _),
      length_chunks (by decide) (show l.length = 4 * g from hl), hl]
    simp only [rowBytes, groupOf]
    norm_num
    omega
  · by_cases h2 : f = 5 ∨ f = 7
    · rw [packElems, if_neg h4, if_pos h2, length_flatMap_const (w := 1) (fun _ _ => length_bytesLE _ _),
        length_chunks (g := g) (by decide) (by rw [hl, groupOf, if_neg h4, if_pos h2]), hl, groupOf, if_neg h4, if_pos h2]
      rcases h2 with rfl | rfl <;> simp only [rowBytes] <;> norm_num <;> omega
    · rw [packElems, if_neg h4, if_neg h2, length_flatMap_const (fun _ _ => length_bytesLE _ _)]
      interval_cases f <;> simp_all [fmtBits, rowBytes]

/-- Elements four to three bytes (R96). -/
theorem sextet {g0 g1 g2 g3 : Nat} (h0 : g0 < 64) (h1 : g1 < 64) (h2 : g2 < 64) (h3 : g3 < 64) {r : Nat} (hr : r < 4) :
    bitsOf ((g0 + g1 * 2 ^ 6 + g2 * 2 ^ 12 + g3 * 2 ^ 18) % 256 ^ 3) (6 * r + 5) (6 * r) = [g0, g1, g2, g3].getD r 0 := by
  simp only [bitsOf, Nat.shiftRight_eq_div_pow]
  interval_cases r <;> simp only [List.getD_cons_zero, List.getD_cons_succ] <;> omega

/-- Elements two to a byte (R96). -/
theorem nibble {g0 g1 : Nat} (h0 : g0 < 16) (h1 : g1 < 16) {r : Nat} (hr : r < 2) :
    bitsOf ((g0 + g1 * 16) % 256 ^ 1) (4 * r + 3) (4 * r) = [g0, g1].getD r 0 := by
  simp only [bitsOf, Nat.shiftRight_eq_div_pow]
  interval_cases r <;> simp only [List.getD_cons_zero, List.getD_cons_succ] <;> omega

theorem getD_lt_of_forall {l : List Nat} {b : Nat} (h : ∀ v ∈ l, v < b) (hb : 0 < b) (i : Nat) : l.getD i 0 < b := by
  by_cases hi : i < l.length
  · rw [List.getD_eq_getElem _ _ hi]
    exact h _ (List.getElem_mem hi)
  · rw [List.getD_eq_default _ _ (Nat.le_of_not_lt hi)]
    exact hb

/-- Element `r` of group `q` of a list. -/
theorem getD_group (l : List Nat) {n r : Nat} (q : Nat) (hr : r < n) :
    ((l.drop (n * q)).take n).getD r 0 = l.getD (n * q + r) 0 := by
  rw [List.getD_eq_getElem?_getD, List.getD_eq_getElem?_getD, List.getElem?_take_of_lt hr, List.getElem?_drop]

section

variable {gb : Nat → Byte} {f base : Nat} {l : List Nat} {g j : Nat}

/-- Packed elements, whole groups, read back. -/
theorem elemBits_packElems (hf : f < 8) (hcode : ∀ v ∈ l, v < 2 ^ fmtBits f) (hl : l.length = groupOf f * g)
    (hgb : ∀ i, i < rowBytes f l.length → gb (base + i) = (packElems f l).getD i 0) (hj : j < l.length) :
    elemBits gb f base j = l.getD j 0 := by
  by_cases h4 : f = 4
  · subst h4
    have hg : l.length = 4 * g := hl
    have hrow : rowBytes 4 l.length = 3 * g := by
      rw [hg]
      simp only [rowBytes]
      norm_num
      omega
    obtain ⟨hlen, hchunk⟩ := mem_chunks_getElem (n := 4) (by decide) (l := l) (i := j / 4) (by omega)
    have hlt : ∀ i, l.getD i 0 < 64 := getD_lt_of_forall hcode (by decide)
    have hbyte : ∀ b, b < 3 → gb (base + j / 4 * 3 + b) =
      (bytesLE 3 (l.getD (4 * (j / 4)) 0 + l.getD (4 * (j / 4) + 1) 0 * 2 ^ 6 +
        l.getD (4 * (j / 4) + 2) 0 * 2 ^ 12 + l.getD (4 * (j / 4) + 3) 0 * 2 ^ 18)).getD b 0 := by
      intro b hb
      rw [show base + j / 4 * 3 + b = base + (3 * (j / 4) + b) by omega, hgb _ (by omega), packElems, if_pos rfl,
        getD_flatMap_const (fun _ _ => length_bytesLE _ _) hlen hb, hchunk, getD_group l _ (by decide),
        getD_group l _ (by decide), getD_group l _ (by decide), getD_group l _ (by decide)]
      rfl
    rw [elemBits, if_pos rfl, show gb (base + j / 4 * 3) = gb (base + j / 4 * 3 + 0) from rfl, hbyte 0 (by decide),
      hbyte 1 (by decide), hbyte 2 (by decide)]
    refine (congrArg (fun v => bitsOf v _ _) (ofBytesLE_bytesLE 3 _)).trans ?_
    rw [sextet (hlt _) (hlt _) (hlt _) (hlt _) (Nat.mod_lt j (by decide))]
    conv_rhs => rw [← Nat.div_add_mod j 4]
    have hr : j % 4 < 4 := Nat.mod_lt j (by decide)
    interval_cases j % 4 <;> rfl
  · by_cases h2 : f = 5 ∨ f = 7
    · have hgrp : groupOf f = 2 := by rw [groupOf, if_neg h4, if_pos h2]
      have hbits : fmtBits f = 4 := by rcases h2 with rfl | rfl <;> rfl
      rw [hgrp] at hl
      have hrow : rowBytes f l.length = g := by
        rw [hl]
        rcases h2 with rfl | rfl <;> simp only [rowBytes] <;> norm_num <;> omega
      obtain ⟨hlen, hchunk⟩ := mem_chunks_getElem (n := 2) (by decide) (l := l) (i := j / 2) (by omega)
      have hlt : ∀ i, l.getD i 0 < 16 := getD_lt_of_forall (by rwa [hbits] at hcode) (by decide)
      have hbyte : [gb (base + j / 2)] = bytesLE 1 (l.getD (2 * (j / 2)) 0 + l.getD (2 * (j / 2) + 1) 0 * 16) := by
        rw [show j / 2 = 1 * (j / 2) + 0 by omega, hgb _ (by omega), packElems, if_neg h4, if_pos h2,
          getD_flatMap_const (fun _ _ => length_bytesLE _ _) hlen (by decide), hchunk, getD_group l _ (by decide),
          getD_group l _ (by decide), Nat.one_mul]
        rfl
      have hval := (congrArg ofBytesLE hbyte).trans (ofBytesLE_bytesLE 1 _)
      have hbyte' : (gb (base + j / 2)).toNat = ofBytesLE [gb (base + j / 2)] := by simp [ofBytesLE]
      rw [elemBits, if_neg h4, if_pos h2, hbyte', hval, nibble (hlt _) (hlt _) (Nat.mod_lt j (by decide))]
      conv_rhs => rw [← Nat.div_add_mod j 2]
      have hr : j % 2 < 2 := Nat.mod_lt j (by decide)
      interval_cases j % 2 <;> rfl
    · have hbyte : ∀ b, b < fmtBits f / 8 → gb (base + (fmtBits f / 8 * j + b)) = (bytesLE (fmtBits f / 8) l[j]).getD b 0 := by
        intro b hb
        have hin : fmtBits f / 8 * j + b < fmtBits f / 8 * l.length := by
          have := Nat.mul_le_mul_left (fmtBits f / 8) (Nat.succ_le_of_lt hj)
          rw [Nat.mul_succ] at this
          omega
        have hlenp := length_packElems hf hl
        rw [packElems, if_neg h4, if_neg h2, length_flatMap_const (fun _ _ => length_bytesLE _ _)] at hlenp
        rw [hgb _ (by omega), packElems, if_neg h4, if_neg h2, getD_flatMap_const (fun _ _ => length_bytesLE _ _) hj hb]
      have hv := hcode _ (List.getElem_mem hj)
      rw [List.getD_eq_getElem _ _ hj]
      have one : fmtBits f = 8 → (gb (base + j)).toNat = l[j] := by
        intro h8
        have := hbyte 0 (by omega)
        rw [h8] at this hv
        rw [show base + j = base + (8 / 8 * j + 0) by omega, this]
        exact (Nat.mod_eq_of_lt hv)
      have two : fmtBits f = 16 → ofBytesLE [gb (base + 2 * j), gb (base + 2 * j + 1)] = l[j] := by
        intro h16
        have h0 := hbyte 0 (by omega)
        have h1 := hbyte 1 (by omega)
        rw [h16] at h0 h1 hv
        refine (congrArg ofBytesLE (show [gb (base + 2 * j), gb (base + 2 * j + 1)] = bytesLE 2 l[j] from ?_)).trans
          ((ofBytesLE_bytesLE 2 _).trans (Nat.mod_eq_of_lt hv))
        exact congrArg₂ (fun p q => [p, q]) h0 h1
      interval_cases f
      · exact two rfl
      · exact two rfl
      · exact one rfl
      · exact one rfl
      · exact absurd rfl h4
      · exact absurd (.inl rfl) h2
      · exact one rfl
      · exact absurd (.inr rfl) h2

end

/-! ### Packed rows -/

/-- The elements of a row with those that share its last group. -/
theorem packRow_eq (gb : Nat → Byte) (f base : Nat) (l : List Nat) : ∃ l' g, packRow gb f base l = packElems f (l ++ l') ∧
    (l ++ l').length = groupOf f * g ∧ rowBytes f (l ++ l').length = rowBytes f l.length ∧
    ∀ v ∈ l', ∃ j, v = elemBits gb f base j := by
  refine ⟨_, (l.length + groupOf f - 1) / groupOf f, rfl, ?_, ?_, fun v hv => ?_⟩
  · have : l.length ≤ (l.length + groupOf f - 1) / groupOf f * groupOf f := by
      simp only [groupOf]
      split_ifs <;> omega
    rw [List.length_append, List.length_map, List.length_range, Nat.add_sub_cancel' this, Nat.mul_comm]
  · rw [List.length_append, List.length_map, List.length_range]
    simp only [groupOf, rowBytes]
    split_ifs <;> omega
  · obtain ⟨i, -, rfl⟩ := List.mem_map.1 hv
    exact ⟨_, rfl⟩

theorem length_packRow {f : Nat} (hf : f < 8) (gb : Nat → Byte) (base : Nat) (l : List Nat) :
    (packRow gb f base l).length = rowBytes f l.length := by
  obtain ⟨l', g, heq, hlen, hrow, -⟩ := packRow_eq gb f base l
  rw [heq, length_packElems hf hlen, hrow]

/-- A packed row read back. -/
theorem elemBits_packRow {f : Nat} (hf : f < 8) {gb gb' : Nat → Byte} {base : Nat} {l : List Nat}
    (hcode : ∀ v ∈ l, v < 2 ^ fmtBits f)
    (hgb : ∀ i, i < rowBytes f l.length → gb (base + i) = (packRow gb' f base l).getD i 0) {j : Nat} (hj : j < l.length) :
    elemBits gb f base j = l[j] := by
  obtain ⟨l', g, heq, hlen, hrow, hpad⟩ := packRow_eq gb' f base l
  have hcodes : ∀ v ∈ l ++ l', v < 2 ^ fmtBits f := fun v hv => by
    rcases List.mem_append.1 hv with h | h
    · exact hcode v h
    · obtain ⟨i, rfl⟩ := hpad v h
      exact elemBits_lt hf gb' base i
  rw [elemBits_packElems hf hcodes hlen (by rwa [hrow, ← heq]) (by rw [List.length_append]; omega),
    List.getD_append _ _ _ _ hj, List.getD_eq_getElem _ _ hj]

theorem rowBytes_mono (f : Nat) {m n : Nat} (h : m ≤ n) : rowBytes f m ≤ rowBytes f n := by
  simp only [rowBytes]
  split_ifs <;> omega

end Sys2Proof.Machine
end

section
/-! PROOFS. Tiles that an instruction writes: stores row by row, the codes of converted rows, and what the flag of a tile
and the record of an assay leave (R78, R98–R104, R117, R289). -/

namespace Sys2Proof.Machine

/-! ### Stores row by row -/

/-- The bytes of rows `k` to `k + n − 1` of a tile. -/
def rowSpan (off pitch len k n : Nat) : Set Nat :=
  {o | ∃ r, k ≤ r ∧ r < k + n ∧ off + r * pitch ≤ o ∧ o < off + r * pitch + len}

/-- The store of a row's bytes, which may depend on the state. -/
def rowStore {β : Type} (c x p off pitch : Nat) (bytes : State → β → Nat → List Byte) (u : State) (q : β × Nat) : State :=
  spmStore u c x p (off + q.2 * pitch) (bytes u q.1 q.2)

theorem rowSpan_subset {off pitch len k n hi : Nat} (hhi : n = 0 ∨ off + (k + n - 1) * pitch + len ≤ hi) :
    rowSpan off pitch len k n ⊆ Set.Ico off hi := by
  rintro o ⟨r, hk, hr, hlo, hlt⟩
  have hmul := Nat.mul_le_mul_right pitch (show r ≤ k + n - 1 by omega)
  rcases hhi with hn | hhi
  · omega
  · exact Set.mem_Ico.2 ⟨by omega, by omega⟩

section

variable {s t u : State} {c x p off pitch len : Nat}

/-- Rows stored one after another, each of `len` bytes, stand in their tile. -/
theorem foldl_rowStore {β : Type} {bytes : State → β → Nat → List Byte} (hp : p < 15) (hpitch : len ≤ pitch) {l : List β}
    (hlen : ∀ u b r, b ∈ l → (bytes u b r).length = len) {k : Nat} (hs : Ready s c) :
    Within s ((l.zipIdx k).foldl (rowStore c x p off pitch bytes) s) c (rowSpan off pitch len k l.length) ∅ ∅ ∧
    ∀ r (hr : r < l.length), ∃ u, ∀ i, i < len →
      spmByte (coreOf ((l.zipIdx k).foldl (rowStore c x p off pitch bytes) s) c) (off + (k + r) * pitch + i) =
        (bytes u l[r] (k + r)).getD i 0 := by
  induction l generalizing s k with
  | nil => exact ⟨.refl .., fun r hr => absurd hr (Nat.not_lt_zero r)⟩
  | cons b l ih =>
    have hblen : (bytes s b k).length = len := hlen s b k List.mem_cons_self
    have hw : Within s (rowStore c x p off pitch bytes s (b, k)) c _ ∅ ∅ :=
      within_spmStore hs hp (off + k * pitch) (bytes s b k)
    rw [hblen] at hw
    obtain ⟨hrest, hbytes⟩ := ih (k := k + 1) (fun u b' r hb => hlen u b' r (List.mem_cons_of_mem _ hb)) (hw.ready hs)
    rw [List.zipIdx_cons, List.foldl_cons]
    refine ⟨(hw.trans hrest).mono ?_ (by simp) (by simp), fun r hr => ?_⟩
    · rintro o (ho | ⟨r, h1, h2, ho⟩)
      · exact ⟨k, Nat.le_refl k, by simp, Set.mem_Ico.1 ho⟩
      · exact ⟨r, by omega, by rw [List.length_cons]; omega, ho⟩
    · cases r with
      | zero =>
        refine ⟨s, fun i hi => ?_⟩
        have hin := spmByte_spmStore hs (x := x) hp (off + k * pitch) (bytes s b k) (j := off + k * pitch + i) (by omega)
          (by omega)
        rw [Nat.add_sub_cancel_left] at hin
        refine (hrest.bytes _ ?_).trans hin
        rintro ⟨r, h1, -, h2, -⟩
        rw [Nat.add_zero] at h2
        have := Nat.mul_le_mul_right pitch h1
        rw [Nat.add_mul, Nat.one_mul] at this
        omega
      | succ r =>
        rw [show k + (r + 1) = k + 1 + r by omega]
        exact hbytes r (Nat.lt_of_succ_lt_succ hr)

/-- One binary32 value at the start of each row (R292). -/
theorem rowVals_spec {d : TD} {vs : List W32} (hpitch : 4 ≤ d.pitch) (hs : Ready s c) :
    Within s (rowVals c x d vs s) c (rowSpan d.off d.pitch 4 0 vs.length) ∅ ∅ ∧ ∀ r (hr : r < vs.length),
      spmBytes (coreOf (rowVals c x d vs s) c) (d.off + r * d.pitch) 4 = bytesLE 4 vs[r].toNat := by
  obtain ⟨hw, hbytes⟩ := foldl_rowStore (x := x) (p := 9) (off := d.off) (bytes := fun _ (v : W32) _ => bytesLE 4 v.toNat)
    (by decide) hpitch (l := vs) (fun _ _ _ _ => length_bytesLE 4 _) (k := 0) hs
  refine ⟨hw, fun r hr => ?_⟩
  obtain ⟨u, hrow⟩ := hbytes r hr
  rw [Nat.zero_add] at hrow
  refine List.ext_getElem (by simp [spmBytes, length_bytesLE]) (fun i hi _ => ?_)
  have hi : i < 4 := by simpa [spmBytes] using hi
  simp only [spmBytes, List.getElem_map, List.getElem_range]
  exact (hrow i hi).trans (List.getD_eq_getElem _ _ _)

/-! ### Rows of codes -/

/-- An M × N list of rows. -/
def grid {α : Type} (m n : Nat) (v : Nat → Nat → α) : List (List α) := (List.range m).map (fun r => (List.range n).map (v r))

theorem length_grid {α : Type} (m n : Nat) (v : Nat → Nat → α) : (grid m n v).length = m := by simp [grid]

theorem getElem_grid {α : Type} {m n r : Nat} {v : Nat → Nat → α} (hr : r < (grid m n v).length) :
    (grid m n v)[r] = (List.range n).map (v r) := by simp [grid]

theorem zipIdx_map_range {α : Type} (n : Nat) (g : Nat → α) :
    ((List.range n).map g).zipIdx = (List.range n).map (fun i => (g i, i)) := by
  refine List.ext_getElem (by simp) (fun i hi _ => ?_)
  simp

theorem map_grid {α β : Type} (m n : Nat) (v : Nat → Nat → α) (g : α → β) :
    (grid m n v).map (fun l => l.map g) = grid m n (fun r q => g (v r q)) := by
  simp [grid, Function.comp_def]

/-- The codes of converted rows. -/
theorem convRows_grid (s : State) (c : Nat) (b : ConvBlk) (f stamp ebase m n : Nat) (v : Nat → Nat → FV) :
    (convRows s c b f stamp ebase (grid m n v)).1 =
      grid m n (fun r q => outCode s c b f stamp (ebase + r * b.stride + q) (v r q)) := by
  simp only [convRows, grid, zipIdx_map_range, List.map_map, Function.comp_def]
  rfl

theorem outCode_lt {f : Nat} (hf : f < 8) (s : State) (c : Nat) (b : ConvBlk) (stamp e : Nat) (v : FV) :
    outCode s c b f stamp e v < 2 ^ fmtBits f := convFv_lt hf _ _ _

/-- A tile of codes written row by row reads back (R78). -/
theorem writeRows_grid {d : TD} {m n : Nat} {v : Nat → Nat → Nat} (hp : p < 15) (hf : d.fmt < 8)
    (hv : ∀ r q, v r q < 2 ^ fmtBits d.fmt) (hpitch : rowBytes d.fmt n ≤ d.pitch) (hs : Ready s c) :
    Within s (writeRows s c x p d d.fmt (grid m n v)) c (rowSpan d.off d.pitch (rowBytes d.fmt n) 0 m) ∅ ∅ ∧
    ∀ r q, r < m → q < n → tileBits (coreOf (writeRows s c x p d d.fmt (grid m n v)) c) d r q = v r q := by
  have hrowLen : ∀ b ∈ grid m n v, b.length = n := fun b hb => by
    obtain ⟨r, -, rfl⟩ := List.mem_map.1 hb
    simp
  obtain ⟨hw, hbytes⟩ := foldl_rowStore (x := x) (off := d.off)
    (bytes := fun u l r => packRow (spmByte (coreOf u c)) d.fmt (d.off + r * d.pitch) l) hp hpitch
    (l := grid m n v) (fun u b r hb => by rw [length_packRow hf, hrowLen b hb]) (k := 0) hs
  rw [length_grid] at hw
  refine ⟨hw, fun r q hr hq => ?_⟩
  have hr' : r < (grid m n v).length := by rwa [length_grid]
  obtain ⟨u, hrow⟩ := hbytes r hr'
  rw [Nat.zero_add, getElem_grid] at hrow
  have hlen : ((List.range n).map (v r)).length = n := by simp
  refine (elemBits_packRow (gb' := spmByte (coreOf u c)) hf (l := (List.range n).map (v r)) (fun w hw => ?_)
    (fun i hi => hrow i (by rwa [hlen] at hi)) (by rwa [hlen])).trans (by simp)
  obtain ⟨j, -, rfl⟩ := List.mem_map.1 hw
  exact hv r j

/-- Rows of N codes written row by row. -/
theorem within_writeRows {d : TD} {rows : List (List Nat)} {n : Nat} (hp : p < 15) (hf : d.fmt < 8)
    (hlen : ∀ l ∈ rows, l.length = n) (hpitch : rowBytes d.fmt n ≤ d.pitch) (hs : Ready s c) :
    Within s (writeRows s c x p d d.fmt rows) c (rowSpan d.off d.pitch (rowBytes d.fmt n) 0 rows.length) ∅ ∅ :=
  (foldl_rowStore (x := x) (off := d.off)
    (bytes := fun u l r => packRow (spmByte (coreOf u c)) d.fmt (d.off + r * d.pitch) l) hp hpitch
    (fun u b r hb => by rw [length_packRow hf, hlen b hb]) (k := 0) hs).1

theorem lengths_convRows (s : State) (c : Nat) (b : ConvBlk) (f stamp ebase : Nat) (rows : List (List FV)) :
    (convRows s c b f stamp ebase rows).1.map List.length = rows.map List.length := by
  have h := congrArg (List.map List.length) (List.zipIdx_map_fst 0 rows)
  rw [List.map_map] at h
  simp only [convRows, List.map_map, Function.comp_def, List.length_map, List.length_zipIdx]
  exact h

/-- The bytes of an element of a format of whole bytes (R96). -/
theorem spmBytes_of_tileBits {k : Core} {d : TD} {r q code z : Nat} (hf : d.fmt = 0 ∨ d.fmt = 2) (hz : z = fmtBits d.fmt / 8)
    (h : tileBits k d r q = code) : spmBytes k (d.off + r * d.pitch + z * q) z = bytesLE z code := by
  subst h hz
  rw [tileBits]
  rcases hf with hf | hf <;> rw [hf]
  · exact (bytesLE_ofBytesLE [spmByte k (d.off + r * d.pitch + 2 * q), spmByte k (d.off + r * d.pitch + 2 * q + 1)]).symm
  · have := (bytesLE_ofBytesLE [spmByte k (d.off + r * d.pitch + q)]).symm
    rw [show fmtBits 2 / 8 = 1 from rfl, Nat.one_mul]
    simpa [ofBytesLE, elemBits, fmtBits, spmBytes] using this

/-! ### Reading a tile after an effect -/

theorem tileBits_congr {k k' : Core} {d : TD} {r q n : Nat} (hf : d.fmt < 8) (hq : q < n)
    (h : ∀ i, i < rowBytes d.fmt n → spmByte k' (d.off + r * d.pitch + i) = spmByte k (d.off + r * d.pitch + i)) :
    tileBits k' d r q = tileBits k d r q := by
  obtain ⟨tok, nt, addr, off, fmt, trans, scv, scd, rows, cols, pitch, phys⟩ := d
  simp only [tileBits] at *
  generalize off + r * pitch = base at *
  have hb : ∀ i, i < rowBytes fmt (q + 1) → spmByte k' (base + i) = spmByte k (base + i) := fun i hi =>
    h i (lt_of_lt_of_le hi (rowBytes_mono fmt hq))
  simp only [elemBits]
  interval_cases fmt <;> simp [rowBytes, fmtBits, Nat.add_assoc] at hb ⊢
  · rw [hb _ (by omega), hb _ (by omega)]
  · rw [hb _ (by omega), hb _ (by omega)]
  · rw [hb _ (by omega)]
  · rw [hb _ (by omega)]
  · rw [hb _ (by omega), hb _ (by omega), hb _ (by omega)]
  · rw [hb _ (by omega)]
  · rw [hb _ (by omega)]
  · rw [hb _ (by omega)]

/-! ### The flag of a tile and the record of an assay -/

theorem coreOf_beginAbort_other (s : State) (c x code trap : Nat) {d : Nat} (hd : d ≠ c) :
    coreOf (beginAbort s c x code trap) d = coreOf s d := by
  unfold beginAbort
  dsimp only
  split
  · exact coreOf_setCtx_other s c x d _ hd
  · rfl

/-- An operation that changes, of the cores, the contexts of one alone. -/
theorem effected_of_ctxs {B V A : Set Nat} (hc : coreOf t c = { coreOf s c with ctxs := (coreOf t c).ctxs })
    (hd : ∀ d, d ≠ c → coreOf t d = coreOf s d) (hm : t.mem = s.mem) (hu : t.memUndef = s.memUndef) :
    Effected s t c B V A :=
  ⟨⟨by rw [hc], fun o _ => by rw [hc]; rfl, fun j _ => by rw [hc]; rfl, fun j _ => by rw [hc]; rfl⟩, hm, hu, hd⟩

theorem effected_beginAbort (s : State) (c x code trap : Nat) {B V A : Set Nat} :
    Effected s (beginAbort s c x code trap) c B V A := by
  refine effected_of_ctxs ?_ (fun d hd => coreOf_beginAbort_other s c x code trap hd) ?_ ?_
  · unfold beginAbort
    dsimp only
    split
    · exact (coreOf_setCtx_same s c x _).trans (by rw [coreOf_setCtx_same])
    · rfl
  · rw [beginAbort_frame]
  · rw [beginAbort_frame]

theorem Effected.of_cores {B V A : Set Nat} (hc : t.cores = s.cores) (hm : t.mem = s.mem) (hu : t.memUndef = s.memUndef) :
    Effected s t c B V A :=
  effected_of_ctxs (by rw [coreOf_congr hc]) (fun d _ => coreOf_congr hc d) hm hu

theorem Effected.then {B V A : Set Nat} (h : Effected s t c B V A) (h' : Effected t u c B V A) : Effected s u c B V A :=
  (h.trans h').mono (Set.union_self _).subset (Set.union_self _).subset (Set.union_self _).subset

/-- The flag of an output tile changes no byte and no set (R103, R106). -/
theorem effected_tileFlag (s : State) (c x : Nat) (pr : Pour) (b : ConvBlk) (f : Nat) (ovf : Bool) {B V A : Set Nat} :
    Effected s (tileFlag s c x pr b f ovf) c B V A := by
  rw [tileFlag]
  split
  · exact (Within.refl ..).toEffected
  · simp only
    split
    · refine .then (.of_cores ?_ ?_ ?_) (effected_beginAbort ..)
      all_goals rw [raisePart, postRec_frame]; rfl
    · exact .of_cores rfl rfl rfl

/-- The record of a drained tile that is not selected. -/
theorem assayFinish_none {i : Nat} (h : (accOf (coreOf s c) i).assay = false) (bf : Nat) (bias : List Nat) (shift : Int)
    (fmt : Nat) (b : ConvBlk) (ebase : Nat) (out : List (List Nat)) : assayFinish s c i bf bias shift fmt b ebase out = s := by
  rw [assayFinish, h]
  rfl

theorem cores_foldl_memWrite {β : Type} (l : List β) (a : β → Nat) (bs : β → List Byte) (s : State) :
    (l.foldl (fun u q => memWrite u (a q) (bs q)) s).cores = s.cores :=
  List.foldlRecOn (motive := fun u : State => u.cores = s.cores) _ _ rfl (fun u hu q _ => by
    rw [(logged_memWrite u (a q) (bs q)).cores, hu])

theorem AtCore.of_cores {B V A : Set Nat} (hc : t.cores = s.cores) : AtCore s t c B V A := by
  have hk := coreOf_congr hc c
  exact ⟨by rw [hk], fun _ _ => by rw [hk], fun _ _ => by rw [hk], fun _ _ => by rw [hk]⟩

theorem AtCore.then {B V A : Set Nat} (h : AtCore s t c B V A) (h' : AtCore t u c B V A) : AtCore s u c B V A :=
  (h.trans h').mono (Set.union_self _).subset (Set.union_self _).subset (Set.union_self _).subset

/-- A record that joins a ring leaves the core's bytes and sets. -/
theorem atCore_ring {B V A : Set Nat} (s : State) (c q : Nat) (r : AssayRec) :
    AtCore s (modCore s q (fun k => { k with assayRing := k.assayRing ++ [r] })) c B V A := by
  have hk : coreOf (modCore s q (fun k => { k with assayRing := k.assayRing ++ [r] })) c =
      { coreOf s c with assayRing :=
        (coreOf (modCore s q (fun k => { k with assayRing := k.assayRing ++ [r] })) c).assayRing } := by
    by_cases h : c = q
    · subst h
      rw [coreOf_modCore_same]
    · rw [coreOf_modCore_other s q c _ h]
  refine ⟨?_, fun o _ => ?_, fun j _ => ?_, fun j _ => ?_⟩ <;> rw [hk] <;> rfl

/-- The record of a drained tile changes no byte of the core and no value (R117). -/
theorem atCore_assayFinish (s : State) (c i bf : Nat) (bias : List Nat) (shift : Int) (fmt : Nat) (b : ConvBlk) (ebase : Nat)
    (out : List (List Nat)) {B : Set Nat} : AtCore s (assayFinish s c i bf bias shift fmt b ebase out) c B ∅ {i} := by
  have hcancel : AtCore s (assayCancel s c i) c B ∅ {i} := (within_assayCancel i).toAtCore
  rw [assayFinish]
  split
  · simp only
    split
    · exact hcancel.then (.of_cores (cores_countCore ..))
    · refine (hcancel.then (.of_cores ?_)).then (atCore_ring ..)
      exact (rput_cores ..).trans (cores_foldl_memWrite _ _ _ _)
  · exact .of_cores rfl

end

end Sys2Proof.Machine
end

section
/-! PROOFS. The issue of a word that nothing holds back (R58, R59): what stands in the core as its effect begins, and what
the checks of its plan say. -/

namespace Sys2Proof.Machine

open Sys2Proof Sys2Proof.Safety

/-! ### The state in which an effect begins -/

/-- Core `c` as the effect of a word begins: what the effect reads is as it was before the word, and its ports stand
open. -/
structure AtIssue (s u : State) (c : Nat) : Prop where
  within : Within s u c ∅ ∅ ∅
  ready : Ready u c
  free : u.free = s.free
  ring : (coreOf u c).assayRing = (coreOf s c).assayRing
  same : ∀ o, Still c o → rd u o = rd s o

section

variable {s u t : State} {c : Nat}

theorem AtIssue.byte (h : AtIssue s u c) : spmByte (coreOf u c) = spmByte (coreOf s c) :=
  funext (fun o => h.within.bytes o (Set.notMem_empty o))

theorem AtIssue.bytes (h : AtIssue s u c) (o n : Nat) : spmBytes (coreOf u c) o n = spmBytes (coreOf s c) o n := by
  simp only [spmBytes, h.byte]

theorem AtIssue.acc (h : AtIssue s u c) (i : Nat) : accOf (coreOf u c) i = accOf (coreOf s c) i :=
  h.within.sets i (Set.notMem_empty i)

/-- What an effect leaves of the state in which it begins, it leaves of the state before the word. -/
theorem AtIssue.effected (h : AtIssue s u c) {B V A : Set Nat} (h' : Effected u t c B V A) : Effected s t c B V A :=
  (h.within.toEffected.trans h').mono (Set.empty_union B).subset (Set.empty_union V).subset (Set.empty_union A).subset

theorem AtIssue.atCore (h : AtIssue s u c) {B V A : Set Nat} (h' : AtCore u t c B V A) : AtCore s t c B V A :=
  (h.within.toAtCore.trans h').mono (Set.empty_union B).subset (Set.empty_union V).subset (Set.empty_union A).subset

theorem drawOf_congr (h : rd u (rNUM_SEED c) = rd s (rNUM_SEED c)) (b : ConvBlk) (stamp e : Nat) :
    drawOf u c b stamp e = drawOf s c b stamp e := by rw [drawOf, drawOf, h]

theorem outCode_congr (h : rd u (rNUM_SEED c) = rd s (rNUM_SEED c)) (b : ConvBlk) (f stamp e : Nat) (v : FV) :
    outCode u c b f stamp e v = outCode s c b f stamp e v := by rw [outCode, outCode, drawOf_congr h]

theorem AtIssue.outCode_eq (h : AtIssue s u c) (b : ConvBlk) (f stamp e : Nat) (v : FV) :
    outCode u c b f stamp e v = outCode s c b f stamp e v := outCode_congr (h.same _ (still_rNUM_SEED c)) b f stamp e v

theorem shiftOf_congr {x : Nat} (h : rd u (rNUM_CTX c x) = rd s (rNUM_CTX c x)) (b : ConvBlk) :
    shiftOf u c x b = shiftOf s c x b := by rw [shiftOf, shiftOf, rget, rget, h]

theorem AtIssue.shiftOf_eq (h : AtIssue s u c) {x : Nat} (hx : x < 4) (b : ConvBlk) :
    shiftOf u c x b = shiftOf s c x b := shiftOf_congr (h.same _ (still_rNUM_CTX c hx)) b

end

/-! ### Operands read the scratchpad alone -/

section

variable {k k' : Core} (h : spmByte k' = spmByte k) (t : Ctx) (d : TD)

include h

theorem tileBits_of_spm (r q : Nat) : tileBits k' d r q = tileBits k d r q := by rw [tileBits, tileBits, h]

theorem tileVal_of_spm (r q : Nat) : tileVal k' d r q = tileVal k d r q := by rw [tileVal, tileVal, tileBits_of_spm h]

theorem tile32_of_spm (r q : Nat) : tile32 k' d r q = tile32 k d r q := by rw [tile32, tile32, tileBits_of_spm h]

theorem codeA_of_spm (m q : Nat) : codeA k' d m q = codeA k d m q := by
  simp only [codeA, tileBits_of_spm h]

theorem scaleA_of_spm : scaleA k' t d = scaleA k t d := by
  funext m b
  rw [scaleA, scaleA, h]

theorem opndA_of_spm : opndA k' t d = opndA k t d := by
  simp only [opndA, codeA_of_spm h, scaleA_of_spm h]

theorem opndB_of_spm : opndB k' t d = opndB k t d := by
  simp only [opndB, tileVal_of_spm h, h]

theorem opndConv_of_spm (v : ConvD) (p0 : Nat) : opndConv k' t d v p0 = opndConv k t d v p0 := by
  have hcode : ∀ m q, convCode k' d v p0 m q = convCode k d v p0 m q := fun m q => by rw [convCode, convCode, h]
  simp only [opndConv, hcode, scaleA_of_spm h]

theorem dualB_opnd_of_spm (kRows : Nat) : (dualB k' t d kRows).opnd = (dualB k t d kRows).opnd := by
  simp only [dualB, codeA_of_spm h]

theorem spmBytes_of_spm (o n : Nat) : spmBytes k' o n = spmBytes k o n := by simp only [spmBytes, h]

theorem rowState_of_spm (o m : Nat) : rowState k' o m = rowState k o m := by
  simp only [rowState, spmBytes_of_spm h]

theorem vewB_of_spm (w : Word) (r q : Nat) : vewB k' w d r q = vewB k w d r q := tile32_of_spm h d _ _

theorem vredRow_of_spm (fn : Nat) (e : TD) (r : Nat) : vredRow k' fn d e r = vredRow k fn d e r := by
  have h32 : tile32 k' d r = tile32 k d r := funext (tile32_of_spm h d r)
  simp only [vredRow, h32, tileVal_of_spm h]

theorem vrotVal_of_spm (e : TD) (r q : Nat) : vrotVal k' d e r q = vrotVal k d e r q := by
  simp only [vrotVal, tileVal_of_spm h]

theorem mergeRows_of_spm (off pitch members m n : Nat) :
    mergeRows k' off pitch members m n = mergeRows k off pitch members m n := by
  have hpart : ∀ o r, readPartial k' o n r = readPartial k o n r := fun o r => by
    simp only [readPartial, rowState_of_spm h, spmBytes_of_spm h]
  simp only [mergeRows, hpart]

end

/-! ### Checks of a plan -/

theorem lowCode_none {a b : Option Nat} : lowCode a b = none ↔ a = none ∧ b = none := by
  cases a <;> cases b <;> simp [lowCode]

theorem firstBad_cons {a : Option Nat} {l : List (Option Nat)} : firstBad (a :: l) = none ↔ a = none ∧ firstBad l = none :=
  lowCode_none

theorem lowBad_none {a b : Bool} : lowBad a b = none ↔ a = false ∧ b = false := by
  cases a <;> cases b <;> simp [lowBad]

theorem illegalIf_none {b : Bool} : illegalIf b = none ↔ b = false := by
  cases b <;> simp [illegalIf, lowBad]

theorem under_go {st : Option Stop} {q : Issue} {p : Plan} : Issue.under st q = .go p ↔ st = none ∧ q = .go p := by
  cases st with
  | none => simp [Issue.under]
  | some st => cases q <;> simp [Issue.under]; split <;> simp

theorem checked_go {bad : Option Nat} {q : Issue} {p : Plan} : Issue.checked bad q = .go p ↔ bad = none ∧ q = .go p := by
  rw [Issue.checked, under_go, Option.map_eq_none_iff]

/-- A tile holds M rows of N elements, one after another. -/
structure Fits (d : TD) (m n : Nat) : Prop where
  pitch : tdRowLen d ≤ d.pitch
  rows : m ≤ d.rows
  cols : n ≤ d.cols

/-- What the checks of an element tile establish (R281). -/
theorem tdCheck_none {pr : Pour} {d : TD} {ok nt : Bool} {rows cols : Nat} (h : tdCheck pr d ok rows cols nt = none) :
    ok = true ∧ Fits d rows cols := by
  obtain ⟨h, -⟩ := lowBad_none.1 h
  simp only [Bool.or_eq_false_iff, decide_eq_false_iff_not, Nat.not_lt] at h
  obtain ⟨⟨⟨⟨⟨⟨⟨⟨-, hok⟩, -⟩, -⟩, hpitch⟩, -⟩, -⟩, hrows⟩, hcols⟩ := h
  exact ⟨by simpa using hok, hpitch, hrows, hcols⟩

/-- The rows of a tile end within it. -/
theorem Fits.end_le {d : TD} {m n : Nat} (h : Fits d m n) : d.off + (m - 1) * d.pitch + rowBytes d.fmt n ≤ tdEnd d := by
  have hlen : rowBytes d.fmt n ≤ tdRowLen d := rowBytes_mono d.fmt h.cols
  have hmul : (m - 1) * d.pitch ≤ (d.rows - 1) * d.pitch := Nat.mul_le_mul_right _ (Nat.sub_le_sub_right h.rows 1)
  rw [tdEnd]
  omega

theorem Fits.span {d : TD} {m n : Nat} (h : Fits d m n) :
    rowSpan d.off d.pitch (rowBytes d.fmt n) 0 m ⊆ Set.Ico d.off (tdEnd d) :=
  rowSpan_subset (.inr (by rw [Nat.zero_add]; exact h.end_le))

theorem Fits.rowBytes_le {d : TD} {m n : Nat} (h : Fits d m n) : rowBytes d.fmt n ≤ d.pitch :=
  (rowBytes_mono d.fmt h.cols).trans h.pitch

section

variable {s : State} {pr : Pour} {c x a : Nat} {p : Plan}

theorem withBlock_go {K : List Word → Issue} (h : withBlock s pr a 64 64 K = .go p) : K (blockAt s a) = .go p := by
  unfold withBlock readBlock at h
  split_ifs at h
  · simp [Issue.bad] at h
  · simp [Issue.bad] at h
  · exact h

theorem withConv_go {K : ConvBlk → Issue} (h : withConv s pr a K = .go p) :
    ∃ b, convBlkOf (blockAt s a) = some b ∧ K b = .go p := by
  have h := withBlock_go h
  split at h
  · next b hb => exact ⟨b, hb, h⟩
  · simp [Issue.bad] at h

theorem withAtt_go {kv : Option (Nat × Nat)} {K : AttD → Issue} (h : withAtt s c x pr a kv K = .go p) :
    attOk (blockAt s a) = true ∧ K (attDOf (blockAt s a)) = .go p := by
  have h := withBlock_go h
  split at h
  · simp [Issue.bad] at h
  · next hok => exact ⟨by simpa using hok, (under_go.1 h).2⟩

end

/-! ### The word placed and taken -/

/-- Context `k` with the word `w` in its queue. -/
def placedCtx (k : Ctx) (w : Word) : Ctx := { fetchedCtx k with pc := k.pc + 8, queue := k.queue ++ [entryOf k w] }

section

variable {i : Instr} {s : State} {c x : Nat} {w : Word} {k : Ctx} {pr : Pour} {p : Plan}

/-- What placing a word changes in its core. -/
theorem coreOf_placed : coreOf (placed s c x k w) c = { coreOf s c with
    ctxs := (coreOf (placed s c x k w) c).ctxs, iLines := (coreOf (placed s c x k w) c).iLines, lastSeq := x } := by
  rw [placed, coreOf_setCtx_same, coreOf_fetched]

/-- What placing and issuing a word changes in its core. -/
theorem coreOf_taken (e : QEnt) : ∃ q l y tk ta tr tt f, coreOf (takeHead (placed s c x k w) c x e p) c =
    { coreOf s c with ctxs := q, iLines := l, lastSeq := y, toks := tk, tokAt := ta, tokRead := tr, tokTile := tt,
                      flights := f } := by
  obtain ⟨tk, ta, tr, tt, htok⟩ := tokensOnly_planTokens (dequeued (coreOf (placed s c x k w) c) x) p
  rw [coreOf_takeHead_same, issuedCore, htok, dequeued, coreOf_placed]
  exact ⟨_, _, _, _, _, _, _, _, rfl⟩

theorem coreOf_taken_other (e : QEnt) {d : Nat} (hd : d ≠ c) :
    coreOf (takeHead (placed s c x k w) c x e p) d = coreOf s d := by
  rw [coreOf_takeHead_other _ _ _ _ _ _ hd, placed, coreOf_setCtx_other _ _ _ _ _ hd, coreOf_fetched_other _ _ _ _ hd]

theorem noteLast_regs {s : State} {c : Nat} (hs : regsWf s) (w : Word) (units : List Nat) :
    regsWf (noteLast s c w units) ∧ ∀ o, Still c o → rd (noteLast s c w units) o = rd s o := by
  unfold noteLast
  split
  · refine List.foldlRecOn (motive := fun u => regsWf u ∧ ∀ o, Still c o → rd u o = rd s o) _ _ ⟨hs, fun _ _ => rfl⟩
      (fun u hu a ha => ?_)
    split
    · obtain ⟨hwf, hsame⟩ := hu
      exact ⟨regsWf_rwr u _ w hwf, fun o ho => by
        rw [rd_rwr_other u _ o w hwf (ho.ne_last (List.mem_range.1 ha)), hsame o ho]⟩
    · exact hu
  · exact ⟨hs, fun _ _ => rfl⟩

theorem headTaken_frame (s : State) (c x : Nat) (e : QEnt) (p : Plan) :
    headTaken s c x e p = { s with cores := (headTaken s c x e p).cores } := rfl

theorem placed_frame (s : State) (c x : Nat) (k : Ctx) (w : Word) :
    placed s c x k w = { s with cores := (placed s c x k w).cores } := rfl

/-- Before it is counted, the issue of a word changes the cores alone. -/
theorem headTaken_placed (e : QEnt) : headTaken (placed s c x k w) c x e p =
    { s with cores := (headTaken (placed s c x k w) c x e p).cores } := by
  have h := headTaken_frame (placed s c x k w) c x e p
  generalize (headTaken (placed s c x k w) c x e p).cores = cs at h ⊢
  rw [h, placed_frame]

/-- Registers as a word is placed and issued. -/
theorem taken_regs (hc : c < nCores) (hx : x < 4) (hs : regsWf s) (e : QEnt) :
    regsWf (takeHead (placed s c x k w) c x e p) ∧
    ∀ o, Still c o → rd (takeHead (placed s c x k w) c x e p) o = rd s o := by
  have htaken : (headTaken (placed s c x k w) c x e p).regs = s.regs := by rw [headTaken_placed]
  have hl := logged_countCore (headTaken (placed s c x k w) c x e p) (i := 0xA1 + x) hc (by omega) 1
  have hwf : regsWf (headTaken (placed s c x k w) c x e p) := by rw [regsWf, htaken]; exact hs
  obtain ⟨hnwf, hnsame⟩ := noteLast_regs (c := c) (hl.wf hwf) e.word p.units
  rw [takeHead_eq]
  refine ⟨hnwf, fun o ho => ?_⟩
  rw [hnsame o ho, hl.same hwf o (ho.logReg hc), rd, htaken]
  rfl

/-- The state in which the effect of an issuable word begins. -/
theorem atIssue_taken (h : Issuable s c x w k pr p) : AtIssue s (takeHead (placed s c x k w) c x (entryOf k w) p) c := by
  obtain ⟨q, l, y, tk, ta, tr, tt, f, hcore⟩ := coreOf_taken (s := s) (c := c) (x := x) (k := k) (w := w) (p := p) (entryOf k w)
  obtain ⟨-, hregs⟩ := h.canon
  obtain ⟨hports, hawake, -, hwaits⟩ := h.served
  have hready : Ready s c := ⟨h.at_.core, hregs, hports, hawake, h.quads, h.clean, h.spm, hwaits⟩
  obtain ⟨hwf, hsame⟩ := taken_regs (k := k) (w := w) (p := p) h.at_.core h.at_.ctx hregs (entryOf k w)
  have hframe := takeHead_frame (placed s c x k w) c x (entryOf k w) p
  rw [headTaken_placed] at hframe
  have hready' : Ready (takeHead (placed s c x k w) c x (entryOf k w) p) c := by
    refine hready.congr hwf (hsame _ (still_rSPM_CTRL c)) (hsame _ (still_rSPM_POWER c)) (by rw [hframe]) ?_ ?_ ?_ ?_ ?_ <;>
      rw [hcore]
    · exact h.clean
    · exact h.spm
    · exact hwaits
  refine ⟨⟨⟨⟨by rw [hcore], fun o _ => by rw [hcore]; rfl, fun j _ => by rw [hcore]; rfl, fun j _ => by rw [hcore]; rfl⟩,
    by rw [hframe], by rw [hframe], fun d hd => coreOf_taken_other _ hd⟩, fun _ => hready'⟩, hready',
    by rw [hframe], by rw [hcore], hsame⟩

/-- The word issues as it is placed, and its effect is the plan's. -/
theorem issued_of_effect (h : Issuable s c x w k pr p) (hi : instrWord i = some (c, x, w, true)) (hq : queued w = true)
    {P : State → Prop} (hrun : ∀ u, AtIssue s u c → (coreOf (p.run u) c).unserved = (coreOf u c).unserved ∧ P (p.run u)) :
    Issued i s c x w k p P := by
  have hunit : ctxOk c x = true := by simp [ctxOk, h.at_.core, h.at_.ctx]
  obtain ⟨name, bad, mine, body, srcs, plan, hexec, hm, hs, hplan, hdecode⟩ := tensorRow_of_queued hi hq s
  have hbad : bad = false := hdecode pr (by rw [h.at_.regs]; exact h.at_.pour) (by rw [h.at_.regs]; exact h.decodes)
  have hissue := atIssue_taken h
  obtain ⟨hwaits, hP⟩ := hrun _ hissue
  have hheld : unitHeld (coreOf (takeHead (placed s c x k w) c x (entryOf k w) p) c) p.units = false := by
    rw [unitHeld, List.any_eq_false]
    intro f hf
    have hnone : f.held = none := by
      rw [coreOf_takeHead_same, issuedCore, coreOf_placed] at hf
      rcases List.mem_append.1 hf with hf | hf
      · exact h.served.none_held f hf
      · split at hf
        · rw [List.mem_singleton.1 hf]
        · cases hf
    rw [hnone]
    simp
  refine ⟨p.run (takeHead (placed s c x k w) c x (entryOf k w) p), ?_, ⟨_, issuesFrom_takeHead _ c x _ p, rfl⟩, hP⟩
  rw [hexec, hunit, hbad]
  simp only [onUnit, if_true, Bool.false_eq_true, if_false]
  rw [tensorWord_tries h.at_ h.takes hm hs h.queue h.active h.selecting, hplan _ _ rfl, h.plan, tryIssue, h.ready, h.late]
  simp only [Bool.not_true, Bool.false_eq_true, if_false, applyPlan, runPlan, hheld, hwaits, hissue.ready.waits]

/-- The pour's checks see the word's context. -/
theorem withPour_placed (h : Issuable s c x w k pr p) (K : Ctx → Pour → Issue) :
    withPour (placed s c x k w) c x K = K (placedCtx k w) pr := by
  rw [withPour, ctxOf_placed]
  show (match k.pour with | some pr => K (placedCtx k w) pr | none => .go Plan.nop) = _
  rw [h.at_.pour]

theorem blockAt_placed (a : Nat) : blockAt (placed s c x k w) a = blockAt s a := by
  have hbyte : ∀ b, memByte (placed s c x k w) b = memByte s b := by
    rw [placed_frame]
    exact memByte_congr rfl rfl
  simp only [blockAt, memWord, memBytes, hbyte]

theorem issued_mono {P Q : State → Prop} (h : Issued i s c x w k p P) (hPQ : ∀ t, P t → Q t) : Issued i s c x w k p Q := by
  obtain ⟨t, hexec, hfrom, hP⟩ := h
  exact ⟨t, hexec, hfrom, hPQ t hP⟩

theorem srcOf_entryOf {l : List Nat} (h : tensorSrcs w = l) (j : Nat) : srcOf (entryOf k w) j = (l.map (gRead k)).getD j 0 := by
  rw [srcOf, entryOf, h]

end

end Sys2Proof.Machine
end

section
/-! PROOFS. MMA and MMA_CONV (R72–R77, R82–R91, R286–R288): the products of each mode, one set after another. -/

namespace Sys2Proof.Machine

open Sys2Proof Sys2Proof.Safety

/-! ### A product beside what other sets have become -/

/-- Set `z'` holds the product over what `z` held, within the M × N region, and beyond it what that held. -/
def ProductAt (z z' : AccSet) (int zero : Bool) (rowOk : Nat → Bool) (a b : Opnd) (m n kTot kk : Nat) : Prop :=
  ∀ p q, q < 256 → accVal z' p q = if p < m ∧ q < n ∧ rowOk p = true then
    (stepsOut int a b p q kk kTot ((kTot + kk - 1) / kk) 0 (if zero then 0 else accVal z p q, false)).1
    else accVal z p q

section

variable {z z' : AccSet} {int zero : Bool} {rowOk : Nat → Bool} {a b : Opnd} {m n kTot kk : Nat}

theorem ProductAt.inside (h : ProductAt z z' int zero rowOk a b m n kTot kk) (hn : n ≤ 256) {p q : Nat} (hp : p < m) (hq : q < n)
    (hr : rowOk p = true) : accVal z' p q =
    (stepsOut int a b p q kk kTot ((kTot + kk - 1) / kk) 0 (if zero then 0 else accVal z p q, false)).1 := by
  rw [h p q (by omega), if_pos ⟨hp, hq, hr⟩]

theorem ProductAt.outside (h : ProductAt z z' int zero rowOk a b m n kTot kk) {p q : Nat} (hq : q < 256)
    (ho : ¬ (p < m ∧ q < n ∧ rowOk p = true)) : accVal z' p q = accVal z p q := by
  rw [h p q hq, if_neg ho]

end

section

variable {s t u : State} {c x i : Nat} {V A : Set Nat}

/-- A product into a set whose content still stands. -/
theorem product_after (hw : Within u s c ∅ V A) (hV : i ∉ V) (hi : i < 8) (hwf : AccWf (accOf (coreOf u c) i)) {m n : Nat}
    (hn : n ≤ 256) (int zero : Bool) (rowOk : Nat → Bool) (a b : Opnd) (kTot k : Nat) :
    Within u (runProduct s c i int zero rowOk a b m n kTot k) c ∅ (V ∪ {i}) (A ∪ {i}) ∧
    ProductAt (accOf (coreOf u c) i) (accOf (coreOf (runProduct s c i int zero rowOk a b m n kTot k) c) i)
      int zero rowOk a b m n kTot k := by
  obtain ⟨-, hvals⟩ := runProduct_vals (hw.accWf hV hwf) hn int zero rowOk a b kTot k
  refine ⟨(hw.trans (within_runProduct (B := ∅) hi ..)).mono (by simp) subset_rfl subset_rfl, fun p q hq => ?_⟩
  rw [hvals p q hq, hw.accVal hV]

/-- A product into another set leaves it. -/
theorem ProductAt.after {z : AccSet} {j : Nat} {int zero : Bool} {rowOk : Nat → Bool} {a b : Opnd} {m n kTot kk : Nat}
    (h : ProductAt z (accOf (coreOf s c) i) int zero rowOk a b m n kTot kk) (hw : Within s t c ∅ {j} {j}) (hij : i ≠ j) :
    ProductAt z (accOf (coreOf t c) i) int zero rowOk a b m n kTot kk := fun p q hq => by
  rw [hw.accVal (by simpa using hij), h p q hq]

/-! ### The tiles of DUAL_BACKWARD (R84) -/

/-- Tile `j` of array 1. -/
def dualStep (c : Nat) (f : MmaF) (int : Bool) (a : Opnd) (aCodes : Nat → List Nat) (b : DualB) (rows n1 k1 k : Nat)
    (u : State) (j : Nat) : State :=
  let m := min 64 (rows - 64 * j)
  if b.scaled then
    runSteps u c (4 + j) m n1 ((k1 + k - 1) / k) (productOpen f.zero (fun i => aCodes (i + 64 * j)) b.codes b.scales m n1)
  else runProduct u c (4 + j) int f.zero (fun _ => true) (a.shift (64 * j)) b.opnd m n1 k1 k

theorem dualTiles_eq (s : State) (c : Nat) (f : MmaF) (int : Bool) (a : Opnd) (aCodes : Nat → List Nat) (b : DualB)
    (rows n1 k1 k : Nat) : dualTiles s c f int a aCodes b rows n1 k1 k =
      (List.range ((rows + 63) / 64)).foldl (dualStep c f int a aCodes b rows n1 k1 k) s := rfl

section

variable {f : MmaF} {int : Bool} {a : Opnd} {aCodes : Nat → List Nat} {b : DualB} {rows n1 k1 k : Nat}

/-- The first tiles of array 1: each takes the product of its rows. -/
theorem foldl_dualStep {J : Nat} (hJ : J ≤ 4) (hn : n1 ≤ 256) (hwf : ∀ j, j < 4 → AccWf (accOf (coreOf s c) (4 + j))) :
    Within s ((List.range J).foldl (dualStep c f int a aCodes b rows n1 k1 k) s) c ∅ (Set.Ico 4 (4 + J)) (Set.Ico 4 (4 + J)) ∧
    (b.scaled = false → ∀ m n, m < rows → m / 64 < J → n < n1 →
      accVal (accOf (coreOf ((List.range J).foldl (dualStep c f int a aCodes b rows n1 k1 k) s) c) (4 + m / 64)) (m % 64) n =
        (stepsOut int a b.opnd m n k k1 ((k1 + k - 1) / k) 0
          (if f.zero then 0 else accVal (accOf (coreOf s c) (4 + m / 64)) (m % 64) n, false)).1) := by
  induction J with
  | zero => exact ⟨.refl .., fun _ m n _ h => absurd h (Nat.not_lt_zero _)⟩
  | succ J ih =>
    obtain ⟨hw, hvals⟩ := ih (by omega)
    rw [List.range_succ, List.foldl_append, List.foldl_cons, List.foldl_nil]
    have hset : Set.Ico 4 (4 + J) ∪ {4 + J} ⊆ Set.Ico 4 (4 + (J + 1)) := by
      rintro j (hj | hj)
      · have := Set.mem_Ico.1 hj
        exact Set.mem_Ico.2 ⟨by omega, by omega⟩
      · rw [Set.mem_singleton_iff.1 hj]
        exact Set.mem_Ico.2 ⟨by omega, by omega⟩
    rw [dualStep]
    split
    · next hsc =>
      exact ⟨(hw.trans (within_runSteps (B := ∅) (by omega) ..)).mono (by simp) hset hset, fun h => by rw [hsc] at h; cases h⟩
    · have hin : 4 + J ∉ Set.Ico 4 (4 + J) := fun h => by have := Set.mem_Ico.1 h; omega
      obtain ⟨hw', hprod⟩ := product_after hw hin (by omega) (hwf J (by omega)) (m := min 64 (rows - 64 * J)) hn int f.zero
        (fun _ => true) (a.shift (64 * J)) b.opnd k1 k
      refine ⟨hw'.mono subset_rfl hset hset, fun hsc m n hm hmJ hn' => ?_⟩
      by_cases hlast : m / 64 = J
      · rw [hlast, hprod.inside hn (by omega) hn' rfl, stepsOut_shift, show m % 64 + 64 * J = m by omega]
      · have hother : 4 + m / 64 ∉ ({4 + J} : Set Nat) := by
          rw [Set.mem_singleton_iff]
          omega
        rw [(within_runProduct (B := ∅) (by omega) ..).accVal hother, hvals hsc m n hm (by omega) hn']

end

/-- DUAL_BACKWARD cancels the selection of the sets it names (R116). -/
theorem within_dualCancel {f : MmaF} (hmode : f.mode = 3) (hn : f.n ≤ 256) :
    Within s (dualCancel s c f) c ∅ ∅ ({f.acc} ∪ Set.Ico 4 8) := by
  refine List.foldlRecOn (motive := fun u => Within s u c ∅ ∅ ({f.acc} ∪ Set.Ico 4 8)) _ _ (.refl ..) (fun u hu j hj => ?_)
  refine hu.then ((within_assayCancel j).mono subset_rfl subset_rfl ?_)
  rintro _ rfl
  rw [mmaNamed, if_pos hmode] at hj
  rcases List.mem_cons.1 hj with h | h
  · exact .inl h
  · obtain ⟨q, hq, rfl⟩ := List.mem_map.1 h
    have := List.mem_range.1 hq
    exact .inr (Set.mem_Ico.2 ⟨by omega, by omega⟩)

/-! ### MMA -/

section

variable (hu : Ready u c) {f : MmaF} (harr : f.arr < 2) (hacc : f.acc < 4) (hn : f.n ≤ 256) (t : Ctx) (pr : Pour) (kT : Nat)

include hu harr hacc hn

/-- MMA in the mode of one array. -/
theorem mma_single (hmode : f.mode = 0) (hwf : AccWf (accOf (coreOf u c) (4 * f.arr + f.acc))) :
    Within u (mmaRun c x t pr f kT u) c ∅ {4 * f.arr + f.acc} {4 * f.arr + f.acc} ∧
    ProductAt (accOf (coreOf u c) (4 * f.arr + f.acc)) (accOf (coreOf (mmaRun c x t pr f kT u) c) (4 * f.arr + f.acc))
      (fmtInt (tdAt t f.da).fmt) f.zero
      (fun _ => true)
      (opndA (coreOf u c) t (tdAt t f.da)) (opndB (coreOf u c) t (tdAt t f.db)) f.m f.n kT (fmtK (tdAt t f.da).fmt) := by
  unfold mmaRun
  dsimp only
  rw [guardA_ready _ hu (by omega), guardB_ready _ hu (by omega), if_neg (by omega), if_pos hmode]
  obtain ⟨hw, hprod⟩ := product_after ((within_assayTile (s := u) (B := ∅) (4 * f.arr + f.acc) f.zero pr.stamp f.m f.n _).then
    (within_countZero f.zero)) (Set.notMem_empty _) (by omega) hwf hn (fmtInt (tdAt t f.da).fmt) f.zero (fun _ => true)
    (opndA (coreOf u c) t (tdAt t f.da)) (opndB (coreOf u c) t (tdAt t f.db)) kT (fmtK (tdAt t f.da).fmt)
  exact ⟨hw.mono subset_rfl (by simp) (by simp), hprod⟩

/-- MMA in SPLIT_N and SPLIT_M: each array takes the product of its half. -/
theorem mma_split (hmode : f.mode = 1 ∨ f.mode = 2) (hwf0 : AccWf (accOf (coreOf u c) f.acc))
    (hwf1 : AccWf (accOf (coreOf u c) (4 + f.acc))) :
    Within u (mmaRun c x t pr f kT u) c ∅ {f.acc, 4 + f.acc} {f.acc, 4 + f.acc} ∧
    ProductAt (accOf (coreOf u c) f.acc) (accOf (coreOf (mmaRun c x t pr f kT u) c) f.acc) (fmtInt (tdAt t f.da).fmt) f.zero
      (fun _ => true)
      (opndA (coreOf u c) t (tdAt t f.da)) (opndB (coreOf u c) t (tdAt t f.db)) f.m f.n kT (fmtK (tdAt t f.da).fmt) ∧
    ProductAt (accOf (coreOf u c) (4 + f.acc)) (accOf (coreOf (mmaRun c x t pr f kT u) c) (4 + f.acc))
      (fmtInt (tdAt t f.da).fmt) f.zero
      (fun _ => true)
      ((opndA (coreOf u c) t (tdAt t f.da)).shift (if f.mode = 2 then f.m else 0))
      ((opndB (coreOf u c) t (tdAt t f.db)).shift (if f.mode = 1 then f.n else 0)) f.m f.n kT (fmtK (tdAt t f.da).fmt) := by
  unfold mmaRun
  dsimp only
  rw [guardA_ready _ hu (by omega), guardB_ready _ hu (by omega), if_neg (by omega), if_neg (by omega),
    if_neg (by omega)]
  have hmarks : ∀ i, i = f.acc ∨ i = 4 + f.acc → ({i} : Set Nat) ⊆ {f.acc, 4 + f.acc} := by
    rintro i (rfl | rfl) <;> simp
  have htile : ∀ (s : State) (i : Nat) (p : AssayProd), i = f.acc ∨ i = 4 + f.acc →
      Within s (assayTile s c i f.zero pr.stamp f.m f.n p) c ∅ ∅ {f.acc, 4 + f.acc} :=
    fun s i p hi => (within_assayTile i f.zero pr.stamp f.m f.n p).mono subset_rfl subset_rfl (hmarks i hi)
  obtain ⟨hw0, hprod0⟩ := product_after (((htile u _ _ (.inl rfl)).then (htile _ _ _ (.inr rfl))).then (within_countZero f.zero))
    (Set.notMem_empty _) (by omega) hwf0 hn (fmtInt (tdAt t f.da).fmt) f.zero (fun _ => true)
    (opndA (coreOf u c) t (tdAt t f.da)) (opndB (coreOf u c) t (tdAt t f.db)) kT (fmtK (tdAt t f.da).fmt)
  obtain ⟨hw1, hprod1⟩ := product_after (i := 4 + f.acc) hw0 (by simp) (by omega) hwf1 hn (fmtInt (tdAt t f.da).fmt) f.zero
    (fun _ => true) ((opndA (coreOf u c) t (tdAt t f.da)).shift (if f.mode = 2 then f.m else 0))
    ((opndB (coreOf u c) t (tdAt t f.db)).shift (if f.mode = 1 then f.n else 0)) kT (fmtK (tdAt t f.da).fmt)
  refine ⟨hw1.mono subset_rfl ?_ ?_, hprod0.after (within_runProduct (by omega) ..) (by omega), hprod1⟩
  · rw [Set.empty_union]
    rfl
  · simp

/-- MMA in DUAL_BACKWARD: array 0 takes its product, and array 1 the product of the third operand with dY. -/
theorem mma_dual (hmode : f.mode = 3) (hk : kT ≤ 256)
    (hwf : ∀ i ∈ ({f.acc} ∪ Set.Ico 4 8 : Set Nat), AccWf (accOf (coreOf u c) i)) :
    Within u (mmaRun c x t pr f kT u) c ∅ ({f.acc} ∪ Set.Ico 4 8) ({f.acc} ∪ Set.Ico 4 8) ∧
    ProductAt (accOf (coreOf u c) f.acc) (accOf (coreOf (mmaRun c x t pr f kT u) c) f.acc) (fmtInt (tdAt t f.da).fmt) f.zero
      (fun _ => true)
      (opndA (coreOf u c) t (tdAt t f.da)) (opndB (coreOf u c) t (tdAt t f.db)) f.m f.n kT (fmtK (tdAt t f.da).fmt) ∧
    ((tdAt t f.da).scv = false → ∀ m n, m < f.n → n < kT →
      accVal (accOf (coreOf (mmaRun c x t pr f kT u) c) (4 + m / 64)) (m % 64) n =
        (stepsOut (fmtInt (tdAt t f.da).fmt) (opndA (coreOf u c) t (tdAt t f.dc)) (dualB (coreOf u c) t (tdAt t f.da) f.m).opnd
          m n (fmtK (tdAt t f.da).fmt) f.m ((f.m + fmtK (tdAt t f.da).fmt - 1) / fmtK (tdAt t f.da).fmt) 0
          (if f.zero then 0 else accVal (accOf (coreOf u c) (4 + m / 64)) (m % 64) n, false)).1) := by
  unfold mmaRun
  dsimp only
  rw [guardA_ready _ hu (by omega), guardB_ready _ hu (by omega), if_pos hmode, guardA_ready _ hu (by omega),
    if_neg (by omega), if_pos hmode]
  obtain ⟨hw0, hprod0⟩ := product_after ((within_dualCancel (s := u) (c := c) hmode hn).then (within_countZero f.zero))
    (Set.notMem_empty _) (by omega) (hwf f.acc (.inl rfl)) hn (fmtInt (tdAt t f.da).fmt) f.zero (fun _ => true)
    (opndA (coreOf u c) t (tdAt t f.da)) (opndB (coreOf u c) t (tdAt t f.db)) kT (fmtK (tdAt t f.da).fmt)
  have hother : ∀ j, 4 + j ∉ (∅ ∪ {f.acc} : Set Nat) := fun j hj => by
    simp only [Set.empty_union, Set.mem_singleton_iff] at hj
    omega
  obtain ⟨hw1, hvals⟩ := foldl_dualStep (f := f) (int := fmtInt (tdAt t f.da).fmt) (a := opndA (coreOf u c) t (tdAt t f.dc))
    (aCodes := rowCodes (coreOf u c) t (tdAt t f.dc) f.m) (b := dualB (coreOf u c) t (tdAt t f.da) f.m) (rows := f.n) (n1 := kT)
    (k1 := f.m) (k := fmtK (tdAt t f.da).fmt) (J := (f.n + 63) / 64) (by omega) hk
    (fun j hj => hw0.accWf (hother j) (hwf (4 + j) (.inr (Set.mem_Ico.2 ⟨by omega, by omega⟩))))
  rw [dualTiles_eq]
  have htiles : Set.Ico 4 (4 + (f.n + 63) / 64) ⊆ Set.Ico 4 8 := Set.Ico_subset_Ico_right (by omega)
  refine ⟨(hw0.trans hw1).mono (by simp) ?_ ?_, fun p q hq => ?_, fun hsc m n hm hn' => ?_⟩
  · rw [Set.empty_union]
    exact Set.union_subset_union_right _ htiles
  · rw [Set.union_subset_iff]
    exact ⟨by simp, htiles.trans Set.subset_union_right⟩
  · rw [hw1.accVal (fun h => by have := Set.mem_Ico.1 h; omega), hprod0 p q hq]
  · rw [hvals hsc m n hm (by omega) hn', hw0.accVal (hother _)]

end

/-! ### MMA_CONV -/

/-- MMA_CONV in the mode of one array: the rows in the output map take the product (R88). -/
theorem conv_single (hu : Ready u c) {f : MmaF} (harr : f.arr < 2) (hacc : f.acc < 4) (hn : f.n ≤ 256) (hmode : f.mode = 0)
    (t : Ctx) (pr : Pour) (v : ConvD) (p0 : Nat) (hwf : AccWf (accOf (coreOf u c) (4 * f.arr + f.acc))) :
    Within u (convRun c x t pr f v p0 u) c ∅ {4 * f.arr + f.acc} {4 * f.arr + f.acc} ∧
    ProductAt (accOf (coreOf u c) (4 * f.arr + f.acc)) (accOf (coreOf (convRun c x t pr f v p0 u) c) (4 * f.arr + f.acc))
      (fmtInt (tdAt t f.da).fmt) f.zero
      (fun m => decide (m < mapRows v p0 f.m)) (opndConv (coreOf u c) t (tdAt t f.da) v p0)
      (opndB (coreOf u c) t (tdAt t f.db)) f.m f.n (convK v) (fmtK (tdAt t f.da).fmt) := by
  unfold convRun
  dsimp only
  rw [if_neg (by omega), guardConv_ready _ hu (by omega), guardB_ready _ hu (by omega), if_pos hmode,
    if_neg (by simpa using hmode), if_neg (by simpa using hmode)]
  obtain ⟨hw, hprod⟩ := product_after ((within_assayTile (s := u) (B := ∅) (4 * f.arr + f.acc) f.zero pr.stamp f.m f.n _).then
    (within_countZero f.zero)) (Set.notMem_empty _) (by omega) hwf hn (fmtInt (tdAt t f.da).fmt) f.zero
    (fun m => decide (m < mapRows v (p0 + 0) f.m)) (opndConv (coreOf u c) t (tdAt t f.da) v p0)
    (opndB (coreOf u c) t (tdAt t f.db)) (convK v) (fmtK (tdAt t f.da).fmt)
  exact ⟨hw.mono subset_rfl (by simp) (by simp), hprod⟩

end

end Sys2Proof.Machine
end

section
/-! PROOFS. MMA and MMA_CONV at issue: the plan that their checks leave, and the sets after its effect. -/

namespace Sys2Proof.Machine

open Sys2Proof Sys2Proof.Safety

section

variable {s u t : State} {c x i : Nat} {w : Word} {k : Ctx} {pr : Pour} {p : Plan}

theorem mmaFields_bounds (w : Word) : (mmaFields w).arr < 2 ∧ (mmaFields w).acc < 4 ∧ (mmaFields w).n ≤ 256 := by
  have h1 := wfld_lt w 50 50
  have h2 := wfld_lt w 49 48
  have h3 := wfld_lt w 19 12
  exact ⟨h1, h2, h3⟩

theorem convFields_bounds (w : Word) : (convFields w).arr < 2 ∧ (convFields w).acc < 4 ∧ (convFields w).n ≤ 256 := by
  have h1 := wfld_lt w 50 50
  have h2 := wfld_lt w 49 48
  have h3 := wfld_lt w 9 2
  exact ⟨h1, h2, h3⟩

/-- The effect of an MMA that passed its checks; K of DUAL_BACKWARD is at most 256 (log entry 105). -/
theorem plan_mma (h : Issuable s c x w k pr p) (hop : wOp w = 0x20) :
    p.run = mmaRun c x (placedCtx k w) pr (mmaFields w) (gRead k (wfld w 11 7)).toNat ∧
    ((mmaFields w).mode = 3 → (gRead k (wfld w 11 7)).toNat ≤ 256) := by
  have hplan := h.plan
  have hsrc : srcOf (entryOf k w) 0 = gRead k (wfld w 11 7) :=
    srcOf_entryOf (show tensorSrcs w = [wfld w 11 7] by simp [tensorSrcs, hop]) 0
  rw [show planOf (placed s c x k w) c x (entryOf k w) = planMma (placed s c x k w) c x (entryOf k w) by
    simp [planOf, entryOf, hop], planMma, withPour_placed h] at hplan
  obtain ⟨hchecks, hgo⟩ := checked_go.1 hplan
  obtain ⟨hfirst, -⟩ := firstBad_cons.1 hchecks
  rw [hsrc] at hfirst hgo
  refine ⟨by rw [← Issue.go.inj hgo]; rfl, fun hmode => ?_⟩
  by_contra hk
  rw [if_pos] at hfirst
  · cases hfirst
  · simp only [entryOf, hmode, decide_true, Bool.true_and, Bool.or_eq_true, decide_eq_true_eq]
    exact .inr (.inr (by omega))

/-- The effect of an MMA_CONV that passed its checks. -/
theorem plan_conv (h : Issuable s c x w k pr p) (hop : wOp w = 0x21) :
    p.run = convRun c x (placedCtx k w) pr (convFields w) (convDOf (blockAt s (gRead k (wfld w 28 24)).toNat))
      (wfld (gRead k (wfld w 23 19)) 31 0) := by
  have hplan := h.plan
  have hsrc := srcOf_entryOf (k := k) (show tensorSrcs w = [wfld w 28 24, wfld w 23 19] by simp [tensorSrcs, hop])
  have hsrc0 : srcOf (entryOf k w) 0 = gRead k (wfld w 28 24) := hsrc 0
  have hsrc1 : srcOf (entryOf k w) 1 = gRead k (wfld w 23 19) := hsrc 1
  rw [show planOf (placed s c x k w) c x (entryOf k w) = planConv (placed s c x k w) c x (entryOf k w) by
    simp [planOf, entryOf, hop], planConv, withPour_placed h] at hplan
  obtain ⟨-, hblock⟩ := checked_go.1 hplan
  obtain ⟨-, hgo⟩ := checked_go.1 (withBlock_go hblock)
  rw [blockAt_placed, hsrc0, hsrc1] at hgo
  rw [← Issue.go.inj hgo]
  rfl

/-! ### What issues -/

theorem AtIssue.accWf (hu : AtIssue s u c) (h : AccWf (accOf (coreOf s c) i)) : AccWf (accOf (coreOf u c) i) := by
  rwa [hu.acc]

/-- MMA in the mode of one array (R73, R76). -/
theorem mma_single_issued (h : Issuable s c x w k pr p) (hop : wOp w = 0x20) {f : MmaF} (hf : mmaFields w = f)
    (hmode : f.mode = 0)
    (hwf : AccWf (accOf (coreOf s c) (4 * f.arr + f.acc))) : Issued (.mma c x w) s c x w k p (fun t =>
      Effected s t c ∅ {4 * f.arr + f.acc} {4 * f.arr + f.acc} ∧
      ProductAt (accOf (coreOf s c) (4 * f.arr + f.acc)) (accOf (coreOf t c) (4 * f.arr + f.acc))
        (fmtInt (tdAt k f.da).fmt) f.zero
        (fun _ => true) (opndA (coreOf s c) k (tdAt k f.da)) (opndB (coreOf s c) k (tdAt k f.db)) f.m f.n
        (gRead k (wfld w 11 7)).toNat (fmtK (tdAt k f.da).fmt)) := by
  obtain ⟨hrun, -⟩ := plan_mma h hop
  obtain ⟨harr, hacc, hn⟩ := mmaFields_bounds w
  rw [hf] at hrun harr hacc hn
  refine issued_of_effect h (by simp [instrWord, hop]) (by simp [queued, hop]) (fun u hu => ?_)
  obtain ⟨hw, hprod⟩ := mma_single (x := x) hu.ready harr hacc hn (placedCtx k w) pr (gRead k (wfld w 11 7)).toNat hmode
    (hu.accWf hwf)
  rw [hu.acc, opndA_of_spm hu.byte, opndB_of_spm hu.byte] at hprod
  rw [hrun]
  exact ⟨hw.waits, hu.effected hw.toEffected, hprod⟩

/-- MMA in SPLIT_N and SPLIT_M (R82, R83). -/
theorem mma_split_issued (h : Issuable s c x w k pr p) (hop : wOp w = 0x20) {f : MmaF} (hf : mmaFields w = f)
    (hmode : f.mode = 1 ∨ f.mode = 2) (hwf0 : AccWf (accOf (coreOf s c) f.acc)) (hwf1 : AccWf (accOf (coreOf s c) (4 + f.acc))) :
    Issued (.mma c x w) s c x w k p (fun t => Effected s t c ∅ {f.acc, 4 + f.acc} {f.acc, 4 + f.acc} ∧
      ProductAt (accOf (coreOf s c) f.acc) (accOf (coreOf t c) f.acc) (fmtInt (tdAt k f.da).fmt) f.zero (fun _ => true)
        (opndA (coreOf s c) k (tdAt k f.da)) (opndB (coreOf s c) k (tdAt k f.db)) f.m f.n (gRead k (wfld w 11 7)).toNat
        (fmtK (tdAt k f.da).fmt) ∧
      ProductAt (accOf (coreOf s c) (4 + f.acc)) (accOf (coreOf t c) (4 + f.acc))
        (fmtInt (tdAt k f.da).fmt) f.zero (fun _ => true)
        ((opndA (coreOf s c) k (tdAt k f.da)).shift (if f.mode = 2 then f.m else 0))
        ((opndB (coreOf s c) k (tdAt k f.db)).shift (if f.mode = 1 then f.n else 0)) f.m f.n (gRead k (wfld w 11 7)).toNat
        (fmtK (tdAt k f.da).fmt)) := by
  obtain ⟨hrun, -⟩ := plan_mma h hop
  obtain ⟨harr, hacc, hn⟩ := mmaFields_bounds w
  rw [hf] at hrun harr hacc hn
  refine issued_of_effect h (by simp [instrWord, hop]) (by simp [queued, hop]) (fun u hu => ?_)
  obtain ⟨hw, hprod0, hprod1⟩ := mma_split (x := x) hu.ready harr hacc hn (placedCtx k w) pr (gRead k (wfld w 11 7)).toNat hmode
    (hu.accWf hwf0) (hu.accWf hwf1)
  rw [hu.acc, opndA_of_spm hu.byte, opndB_of_spm hu.byte] at hprod0 hprod1
  rw [hrun]
  exact ⟨hw.waits, hu.effected hw.toEffected, hprod0, hprod1⟩

/-- MMA in DUAL_BACKWARD (R84). -/
theorem mma_dual_issued (h : Issuable s c x w k pr p) (hop : wOp w = 0x20) {f : MmaF} (hf : mmaFields w = f) (hmode : f.mode = 3)
    (hwf : ∀ i ∈ ({f.acc} ∪ Set.Ico 4 8 : Set Nat), AccWf (accOf (coreOf s c) i)) :
    Issued (.mma c x w) s c x w k p (fun t => Effected s t c ∅ ({f.acc} ∪ Set.Ico 4 8) ({f.acc} ∪ Set.Ico 4 8) ∧
      ProductAt (accOf (coreOf s c) f.acc) (accOf (coreOf t c) f.acc) (fmtInt (tdAt k f.da).fmt) f.zero (fun _ => true)
        (opndA (coreOf s c) k (tdAt k f.da)) (opndB (coreOf s c) k (tdAt k f.db)) f.m f.n (gRead k (wfld w 11 7)).toNat
        (fmtK (tdAt k f.da).fmt) ∧
      ((tdAt k f.da).scv = false → ∀ m n, m < f.n → n < (gRead k (wfld w 11 7)).toNat →
        accVal (accOf (coreOf t c) (4 + m / 64)) (m % 64) n =
          (stepsOut (fmtInt (tdAt k f.da).fmt) (opndA (coreOf s c) k (tdAt k f.dc)) (dualB (coreOf s c) k (tdAt k f.da) f.m).opnd
            m n (fmtK (tdAt k f.da).fmt) f.m ((f.m + fmtK (tdAt k f.da).fmt - 1) / fmtK (tdAt k f.da).fmt) 0
            (if f.zero then 0 else accVal (accOf (coreOf s c) (4 + m / 64)) (m % 64) n, false)).1)) := by
  obtain ⟨hrun, hk⟩ := plan_mma h hop
  obtain ⟨harr, hacc, hn⟩ := mmaFields_bounds w
  rw [hf] at hrun harr hacc hn hk
  refine issued_of_effect h (by simp [instrWord, hop]) (by simp [queued, hop]) (fun u hu => ?_)
  obtain ⟨hw, hprod, htiles⟩ := mma_dual (x := x) hu.ready harr hacc hn (placedCtx k w) pr (gRead k (wfld w 11 7)).toNat hmode
    (hk hmode) (fun i hi => hu.accWf (hwf i hi))
  rw [hu.acc, opndA_of_spm hu.byte, opndB_of_spm hu.byte] at hprod
  simp only [hu.acc, opndA_of_spm hu.byte, dualB_opnd_of_spm hu.byte] at htiles
  rw [hrun]
  exact ⟨hw.waits, hu.effected hw.toEffected, hprod, htiles⟩

/-- MMA_CONV in the mode of one array (R87, R88). -/
theorem conv_single_issued (h : Issuable s c x w k pr p) (hop : wOp w = 0x21) {f : MmaF} (hf : convFields w = f)
    (hmode : f.mode = 0)
    (hwf : AccWf (accOf (coreOf s c) (4 * f.arr + f.acc))) {v : ConvD} {p0 : Nat}
    (hv : convDOf (blockAt s (gRead k (wfld w 28 24)).toNat) = v) (hp0 : wfld (gRead k (wfld w 23 19)) 31 0 = p0) :
    Issued (.mmaConv c x w) s c x w k p (fun t => Effected s t c ∅ {4 * f.arr + f.acc} {4 * f.arr + f.acc} ∧
      ProductAt (accOf (coreOf s c) (4 * f.arr + f.acc)) (accOf (coreOf t c) (4 * f.arr + f.acc))
        (fmtInt (tdAt k f.da).fmt) f.zero
        (fun m => decide (m < mapRows v p0 f.m)) (opndConv (coreOf s c) k (tdAt k f.da) v p0)
        (opndB (coreOf s c) k (tdAt k f.db)) f.m f.n (convK v) (fmtK (tdAt k f.da).fmt)) := by
  have hrun := plan_conv h hop
  obtain ⟨harr, hacc, hn⟩ := convFields_bounds w
  rw [hf] at harr hacc hn
  rw [hf, hv, hp0] at hrun
  refine issued_of_effect h (by simp [instrWord, hop]) (by simp [queued, hop]) (fun u hu => ?_)
  obtain ⟨hw, hprod⟩ := conv_single (x := x) hu.ready harr hacc hn hmode (placedCtx k w) pr v p0 (hu.accWf hwf)
  rw [hu.acc, opndConv_of_spm hu.byte, opndB_of_spm hu.byte] at hprod
  rw [hrun]
  exact ⟨hw.waits, hu.effected hw.toEffected, hprod⟩

end

end Sys2Proof.Machine
end

section
/-! PROOFS. SPILL and ACCLD (R79, R289): the image of a set in the scratchpad, and the set that an image gives. -/

namespace Sys2Proof.Machine

open Sys2Proof Sys2Proof.Safety

/-! ### Images -/

theorem length_tileIdx (m n : Nat) : (tileIdx m n).length = n * m := by
  rw [tileIdx, length_flatMap_const (w := n) (fun _ _ => by simp), List.length_range]

theorem getD_tileIdx {m n a b : Nat} (ha : a < m) (hb : b < n) : (tileIdx m n).getD (n * a + b) (0, 0) = (a, b) := by
  have ha' : a < (List.range m).length := by rwa [List.length_range]
  rw [tileIdx, getD_flatMap_const (w := n) (fun _ _ => by simp) ha' hb, List.getD_eq_getElem _ _ (by simpa using hb)]
  simp

theorem cell_lt {m n a b : Nat} (ha : a < m) (hb : b < n) : n * a + b < n * m := by
  have := Nat.mul_le_mul_left n (Nat.succ_le_of_lt ha)
  rw [Nat.mul_succ] at this
  omega

theorem length_imageBytes (a : AccSet) (m n : Nat) : (imageBytes a m n).length = 4 * (n * m) := by
  rw [imageBytes, length_flatMap_const (fun _ _ => length_bytesLE _ _), length_tileIdx]

/-- The word of accumulator (p, q) in the image. -/
theorem take_drop_imageBytes (z : AccSet) {m n p q : Nat} (hp : p < m) (hq : q < n) :
    ((imageBytes z m n).drop (4 * (n * p + q))).take 4 = bytesLE 4 (accVal z p q).toNat := by
  have hlen : n * p + q < (tileIdx m n).length := by
    rw [length_tileIdx]
    exact cell_lt hp hq
  have hcell := getD_tileIdx hp hq
  rw [List.getD_eq_getElem _ _ hlen] at hcell
  rw [imageBytes, take_drop_flatMap (fun _ _ => length_bytesLE _ _) hlen, hcell]

theorem image_le_tail (m n : Nat) : 4 * (n * m) ≤ imageTail m n := by
  rw [imageTail, Nat.mul_assoc, Nat.mul_comm m n]
  omega

section

variable {s u t : State} {c x i : Nat} {w : Word} {k : Ctx} {pr : Pour} {p : Plan}

/-! ### SPILL -/

theorem plan_spill (h : Issuable s c x w k pr p) (hop : wOp w = 0x23) :
    p.run = spillRun c x (4 * wfld w 53 53 + wfld w 52 51) (tdAt k (wfld w 50 45)) (wfld w 44 39 + 1) (wfld w 38 31 + 1) := by
  have hplan := h.plan
  rw [show planOf (placed s c x k w) c x (entryOf k w) = planSpill (placed s c x k w) c x (entryOf k w) by
    simp [planOf, entryOf, hop], planSpill, withPour_placed h] at hplan
  rw [← Issue.go.inj (checked_go.1 hplan).2]
  rfl

theorem spill_run (hu : Ready u c) (hi : i < 8) (hpar : (accOf (coreOf u c) i).badPar = []) (d : TD) (m n : Nat) :
    Within u (spillRun c x i d m n u) c (Set.Ico d.off (d.off + imageTail m n + 64)) ∅ {i} ∧
    spmBytes (coreOf (spillRun c x i d m n u) c) (d.off + imageTail m n) 64 = bytesLE 64 (b2n (accOf (coreOf u c) i).nonfin) ∧
    ∀ a b, a < m → b < n → spmBytes (coreOf (spillRun c x i d m n u) c) (d.off + 4 * (n * a + b)) 4 =
      bytesLE 4 (accVal (accOf (coreOf u c) i) a b).toNat := by
  have hport : 4 + i / 4 < 15 := by omega
  have hw0 : Within u (assayCancel u c i) c ∅ ∅ {i} := within_assayCancel i
  have hr0 := hw0.ready hu
  have hw1 := within_spmStore hr0 (x := x) hport d.off (imageBytes (accOf (coreOf u c) i) m n)
  have hr1 := hw1.ready hr0
  have hw2 := within_spmStore hr1 (x := x) hport (d.off + imageTail m n) (bytesLE 64 (b2n (accOf (coreOf u c) i).nonfin))
  have himage := image_le_tail m n
  rw [length_imageBytes] at hw1
  rw [length_bytesLE] at hw2
  unfold spillRun
  dsimp only
  rw [checkParity_clean _ hpar]
  refine ⟨((hw0.trans hw1).trans hw2).mono ?_ (by simp) (by simp), ?_, fun a b ha hb => ?_⟩
  · rw [Set.empty_union]
    exact Set.union_subset (Set.Ico_subset_Ico_right (by omega)) (Set.Ico_subset_Ico_left (by omega))
  · have hbytes := spmBytes_spmStore hr1 (x := x) hport (d.off + imageTail m n)
      (bytesLE 64 (b2n (accOf (coreOf u c) i).nonfin)) (i := 0) (n := 64) (by rw [length_bytesLE])
    rwa [List.drop_zero, List.take_of_length_le (by rw [length_bytesLE]), Nat.add_zero] at hbytes
  · have hcell := cell_lt ha hb
    have hkept := hw2.toAtCore.spmBytes (o := d.off + 4 * (n * a + b)) (n := 4)
      (fun j h1 h2 h3 => by have := Set.mem_Ico.1 h3; omega)
    rw [hkept, spmBytes_spmStore hr0 hport d.off _ (by rw [length_imageBytes]; omega), take_drop_imageBytes _ ha hb]

/-- SPILL (R79): the image stands at the descriptor's offset, and NONFINITE after it. -/
theorem spill_issued (h : Issuable s c x w k pr p) (hop : wOp w = 0x23) {d : TD} {m n : Nat}
    (hi : 4 * wfld w 53 53 + wfld w 52 51 = i) (hd : tdAt k (wfld w 50 45) = d) (hm : wfld w 44 39 + 1 = m)
    (hn : wfld w 38 31 + 1 = n) (hpar : (accOf (coreOf s c) i).badPar = []) :
    Issued (.spill c x w) s c x w k p (fun t => Effected s t c (Set.Ico d.off (d.off + imageTail m n + 64)) ∅ {i} ∧
      spmBytes (coreOf t c) (d.off + imageTail m n) 64 = bytesLE 64 (b2n (accOf (coreOf s c) i).nonfin) ∧
      ∀ a b, a < m → b < n →
        spmBytes (coreOf t c) (d.off + 4 * (n * a + b)) 4 = bytesLE 4 (accVal (accOf (coreOf s c) i) a b).toNat) := by
  have hrun := plan_spill h hop
  have hi8 : i < 8 := by
    have h1 := wfld_lt w 53 53
    have h2 := wfld_lt w 52 51
    omega
  rw [hi, hd, hm, hn] at hrun
  refine issued_of_effect h (by simp [instrWord, hop]) (by simp [queued, hop]) (fun u hu => ?_)
  obtain ⟨hw, hflag, himage⟩ := spill_run (x := x) hu.ready hi8 (by rw [hu.acc]; exact hpar) d m n
  simp only [hu.acc] at hflag himage
  rw [hrun]
  exact ⟨hw.waits, hu.effected hw.toEffected, hflag, himage⟩

/-! ### ACCLD -/

theorem plan_accld (h : Issuable s c x w k pr p) (hop : wOp w = 0x24) :
    p.run = accldRun c x (4 * wfld w 53 53 + wfld w 52 51) (tdAt k (wfld w 50 45)) (wfld w 43 38 + 1) (wfld w 37 30 + 1) := by
  have hplan := h.plan
  rw [show planOf (placed s c x k w) c x (entryOf k w) = planAccld (placed s c x k w) c x (entryOf k w) by
    simp [planOf, entryOf, hop], planAccld, withPour_placed h] at hplan
  rw [← Issue.go.inj (checked_go.1 hplan).2]
  rfl

/-- The set as a load begins: every accumulator undefined, the class and the NONFINITE bit of the image. -/
def loadStart (g i : Nat) (d : TD) (m n : Nat) (k : Core) : AccSet :=
  { AccSet.reset with isInt := d.fmt = 9, gen := some (8 * g + i), inject := (accOf k i).inject,
                      nonfin := (spmByte k (d.off + imageTail m n)).toNat % 2 = 1 }

/-- The load of accumulator `q` of an M × N image. -/
def loadCell (d : TD) (n : Nat) (k : Core) (a : AccSet) (q : Nat × Nat) : AccSet :=
  accPut a q.1 q.2 (BitVec.ofNat 32 (ofBytesLE (spmBytes k (d.off + 4 * (n * q.1 + q.2)) 4)))

/-- The set that an image gives. -/
def loaded (g i : Nat) (d : TD) (m n : Nat) (k : Core) : AccSet := (tileIdx m n).foldl (loadCell d n k) (loadStart g i d m n k)

theorem accldRun_ready (hu : Ready u c) (hi : i < 8) (d : TD) (m n : Nat) : accldRun c x i d m n u =
    modCore (useFree (assayCancel u c i)).2 c (fun k => setAcc k i (loaded u.free i d m n k)) := by
  rw [accldRun, guardRows_ready _ hu (by omega)]
  rfl

/-- The accumulators, the class and the NONFINITE bit of a loaded set. -/
theorem loaded_spec (g i : Nat) (d : TD) (m : Nat) {n : Nat} (hn : n ≤ 256) (k : Core) :
    (loaded g i d m n k).isInt = decide (d.fmt = 9) ∧
    (loaded g i d m n k).nonfin = decide ((spmByte k (d.off + imageTail m n)).toNat % 2 = 1) ∧
    ∀ a b, a < m → b < n → accVal (loaded g i d m n k) a b =
      BitVec.ofNat 32 (ofBytesLE (spmBytes k (d.off + 4 * (n * a + b)) 4)) := by
  have hF : ∀ u q, PutsCell q (fun _ => BitVec.ofNat 32 (ofBytesLE (spmBytes k (d.off + 4 * (n * q.1 + q.2)) 4))) u
      (loadCell d n k u q) := fun u q => ⟨u.nonfin, rfl⟩
  have hnonfin : (loaded g i d m n k).nonfin = (loadStart g i d m n k).nonfin :=
    List.foldlRecOn (motive := fun u : AccSet => u.nonfin = (loadStart g i d m n k).nonfin) _ _ rfl (fun u hu q _ => hu)
  obtain ⟨-, hvals⟩ := foldl_cells hF (nodup_tileIdx m n) (fun q hq => by have := mem_tileIdx.1 hq; omega)
    (a := loadStart g i d m n k) rfl
  refine ⟨?_, hnonfin, fun a b ha hb => ?_⟩
  · rw [loaded, (foldl_cellsOnly hF _ _).frame]
    rfl
  · rw [loaded, hvals a b (by omega), if_pos (mem_tileIdx.2 ⟨ha, hb⟩)]

/-- ACCLD (R79): the set takes the image at the descriptor's offset. -/
theorem accld_issued (h : Issuable s c x w k pr p) (hop : wOp w = 0x24) {d : TD} {m n : Nat}
    (hi : 4 * wfld w 53 53 + wfld w 52 51 = i) (hd : tdAt k (wfld w 50 45) = d) (hm : wfld w 43 38 + 1 = m)
    (hn : wfld w 37 30 + 1 = n) :
    Issued (.accld c x w) s c x w k p (fun t => Effected s t c ∅ {i} {i} ∧
      (accOf (coreOf t c) i).isInt = decide (d.fmt = 9) ∧
      (accOf (coreOf t c) i).nonfin = decide ((spmByte (coreOf s c) (d.off + imageTail m n)).toNat % 2 = 1) ∧
      ∀ a b, a < m → b < n → accVal (accOf (coreOf t c) i) a b =
        BitVec.ofNat 32 (ofBytesLE (spmBytes (coreOf s c) (d.off + 4 * (n * a + b)) 4))) := by
  have hrun := plan_accld h hop
  have hi8 : i < 8 := by
    have h1 := wfld_lt w 53 53
    have h2 := wfld_lt w 52 51
    omega
  have hn256 : n ≤ 256 := by
    have := wfld_lt w 37 30
    omega
  rw [hi, hd, hm, hn] at hrun
  refine issued_of_effect h (by simp [instrWord, hop]) (by simp [queued, hop]) (fun u hu => ?_)
  have hw0 : Within u (useFree (assayCancel u c i)).2 c ∅ ∅ {i} := (within_assayCancel i).then within_useFree
  have hbyte : spmByte (coreOf (useFree (assayCancel u c i)).2 c) = spmByte (coreOf s c) :=
    (funext fun o => hw0.bytes o (Set.notMem_empty o)).trans hu.byte
  obtain ⟨hint, hnonfin, hvals⟩ := loaded_spec u.free i d m hn256 (coreOf (useFree (assayCancel u c i)).2 c)
  have hw : Within u (accldRun c x i d m n u) c ∅ {i} {i} := by
    rw [accldRun_ready hu.ready hi8]
    exact (hw0.trans within_setAcc).mono (Set.union_self _).subset (by simp) (by simp)
  have hacc : accOf (coreOf (accldRun c x i d m n u) c) i = loaded u.free i d m n (coreOf (useFree (assayCancel u c i)).2 c) := by
    rw [accldRun_ready hu.ready hi8, accOf_modCore_setAcc]
  simp only [hbyte, spmBytes_of_spm hbyte] at hnonfin hvals
  rw [hrun]
  refine ⟨hw.waits, hu.effected hw.toEffected, ?_⟩
  rw [hacc]
  exact ⟨hint, hnonfin, hvals⟩

end

end Sys2Proof.Machine
end

section
/-! PROOFS. ASSAY (R118, R119, R290): the window it opens and the records it takes. -/

namespace Sys2Proof.Machine

open Sys2Proof Sys2Proof.Safety

section

variable {s u t : State} {c x i : Nat} {w : Word} {k : Ctx} {pr : Pour} {p : Plan} {r : AssayRec}

/-! ### One record -/

/-- The set and the ring after a record. -/
def recordTaken (s : State) (c i : Nat) (r : AssayRec) : State :=
  modCore s c (fun k => { setAcc k i (recAccs r) with assayRing := k.assayRing.drop 1 })

/-- A record counted, before its mismatches are reported. -/
def recordCounted (s : State) (c i : Nat) (r : AssayRec) : State :=
  let os := recOutcomes s c r (recVals r (recAccs r))
  let size := rget s (rASSAY_RING_SIZE c) fASSAY_RING_SIZE_SIZE * 256
  let hd := rget s (rASSAY_RING_PTR c) fASSAY_RING_PTR_HEAD
  countCore (countCore (rput (recordTaken s c i r) (rASSAY_RING_PTR c) fASSAY_RING_PTR_HEAD
    (if size = 0 then 0 else (hd + r.units) % size)) c 0xB6 (os.filter (· = .saturated)).length) c 0xB7
    (os.filter (· = .underflow)).length

/-- MISMATCH with the source of the record. -/
def mismatchNoted (s : State) (c : Nat) (r : AssayRec) : State :=
  rput (rset (countCore s c 0xB5 1) (rASSAY_STATUS c) fASSAY_STATUS_MISMATCH) (rASSAY_STATUS c) fASSAY_STATUS_LAST_SRC r.src

/-- The report of `bad` mismatches (R119, R347, R361). -/
def mismatchReported (s : State) (c i bad : Nat) (r : AssayRec) : State :=
  raiseDev (cperWrite (monEvent (mismatchNoted s c r) 4 1)
    { cperInfo 0 4 (dieOfCore c) 9 (i / 4) with core := c, stamp := r.stamp }) 0x03 c
    [BitVec.ofNat 64 (r.src <<< 56 + c <<< 48 + r.stamp), BitVec.ofNat 64 bad]

theorem assayRecord_eq (s : State) (c i : Nat) (r : AssayRec) :
    let bad := ((recOutcomes s c r (recVals r (recAccs r))).filter (· = .mismatch)).length
    assayRecord s c i r = if bad = 0 then countCore (recordCounted s c i r) c 0xB4 1
      else mismatchReported (recordCounted s c i r) c i bad r := rfl

theorem cores_recordCounted (s : State) (c i : Nat) (r : AssayRec) :
    (recordCounted s c i r).cores = (recordTaken s c i r).cores :=
  (cores_countCore ..).trans ((cores_countCore ..).trans (rput_cores ..))

theorem cores_mismatchNoted (s : State) (c : Nat) (r : AssayRec) : (mismatchNoted s c r).cores = s.cores :=
  (rput_cores ..).trans ((rset_cores ..).trans (cores_countCore ..))

theorem cores_mismatchReported (s : State) (c i bad : Nat) (r : AssayRec) : (mismatchReported s c i bad r).cores = s.cores :=
  (logged_raiseDev ..).cores.trans ((logged_cperWrite ..).cores.trans ((monEvent_cores ..).trans (cores_mismatchNoted s c r)))

/-- Of the cores, a record changes its set and the ring. -/
theorem cores_assayRecord (s : State) (c i : Nat) (r : AssayRec) : (assayRecord s c i r).cores = (recordTaken s c i r).cores := by
  rw [assayRecord_eq]
  split
  · exact (cores_countCore ..).trans (cores_recordCounted ..)
  · exact (cores_mismatchReported ..).trans (cores_recordCounted ..)

theorem sameMem_countCore (s : State) (c j n : Nat) : SameMem s (countCore s c j n) :=
  memByte_congr (by rw [countCore, countUp_frame]) (by rw [countCore, countUp_frame])

theorem sameMem_recordCounted (s : State) (c i : Nat) (r : AssayRec) : SameMem s (recordCounted s c i r) := fun a =>
  (sameMem_countCore _ c _ _ a).trans (sameMem_countCore _ c _ _ a)

theorem mem_filter_length {os : List AssayOut} {o : AssayOut} : (os.filter (· = o)).length = 0 ↔ o ∉ os := by
  rw [List.length_eq_zero_iff, List.filter_eq_nil_iff]
  constructor
  · intro h hin
    exact h o hin (by simp)
  · intro h q hq hqo
    exact h (by rwa [← of_decide_eq_true hqo])

/-- A record without a mismatch leaves tier memory. -/
theorem sameMem_assayRecord (h : AssayOut.mismatch ∉ recOutcomes s c r (recVals r (recAccs r))) (i : Nat) :
    SameMem s (assayRecord s c i r) := by
  rw [assayRecord_eq, if_pos (mem_filter_length.2 h)]
  exact fun a => (sameMem_countCore _ c _ _ a).trans (sameMem_recordCounted s c i r a)

theorem still_rASSAY_STATUS (c : Nat) : Still c (rASSAY_STATUS c) :=
  ⟨0x2180, by decide, by decide, by decide, by unfold rASSAY_STATUS; omega⟩

/-- MISMATCH stands once it is noted. -/
theorem mismatch_mismatchNoted (hc : c < nCores) (hs : regsWf s) (r : AssayRec) :
    regsWf (mismatchNoted s c r) ∧ rflag (mismatchNoted s c r) (rASSAY_STATUS c) fASSAY_STATUS_MISMATCH = true := by
  have hcount := (logged_countCore s hc (i := 0xB5) (by omega) 1).wf hs
  have hset := regsWf_rset _ (rASSAY_STATUS c) fASSAY_STATUS_MISMATCH hcount
  refine ⟨regsWf_rput _ _ _ _ hset, ?_⟩
  rw [mismatchNoted, rflag_rput_below _ _ _ _ _ hset (by decide) (by decide) (by decide)]
  exact rflag_rset_same _ _ _ hcount rfl (by decide)

/-- A report leaves MISMATCH set. -/
theorem mismatch_mismatchReported (hc : c < nCores) (hs : regsWf s) (i bad : Nat) (r : AssayRec) :
    rflag (mismatchReported s c i bad r) (rASSAY_STATUS c) fASSAY_STATUS_MISMATCH = true := by
  have hreg := (still_rASSAY_STATUS c).logReg hc
  obtain ⟨hwf, hflag⟩ := mismatch_mismatchNoted hc hs r
  have hmon : regsWf (monEvent (mismatchNoted s c r) 4 1) := by rwa [regsWf, monEvent_regs]
  have hcper := logged_cperWrite (monEvent (mismatchNoted s c r) 4 1)
    { cperInfo 0 4 (dieOfCore c) 9 (i / 4) with core := c, stamp := r.stamp }
  rw [mismatchReported, (logged_raiseDev _ _ _ _).rflag_eq (hcper.wf hmon) hreg, hcper.rflag_eq hmon hreg, ← hflag]
  exact rflag_congr (by rw [rd, rd, monEvent_regs]) _

theorem regsWf_recordCounted (hc : c < nCores) (hs : regsWf s) (i : Nat) (r : AssayRec) : regsWf (recordCounted s c i r) := by
  have htaken : regsWf (recordTaken s c i r) := hs
  rw [recordCounted]
  exact (logged_countCore _ hc (by omega) _).wf ((logged_countCore _ hc (by omega) _).wf (regsWf_rput _ _ _ _ htaken))

/-- A record with a mismatch sets MISMATCH (R119). -/
theorem mismatch_assayRecord (hc : c < nCores) (hs : regsWf s)
    (h : AssayOut.mismatch ∈ recOutcomes s c r (recVals r (recAccs r))) (i : Nat) :
    rflag (assayRecord s c i r) (rASSAY_STATUS c) fASSAY_STATUS_MISMATCH = true := by
  rw [assayRecord_eq, if_neg (fun e => mem_filter_length.1 e h)]
  exact mismatch_mismatchReported hc (regsWf_recordCounted hc hs i r) i _ r

theorem recOutcomes_congr (h : rd u (rASSAY_TOL c (r.outFmt % 8)) = rd s (rASSAY_TOL c (r.outFmt % 8))) (vals : List (List FV)) :
    recOutcomes u c r vals = recOutcomes s c r vals := by
  rw [recOutcomes, recOutcomes, rget, rget, h]

/-! ### The records of a run -/

/-- Core `c` after an assay run: one set and the ring differ, of which records have left in order. -/
structure AssayKept (s t : State) (c i : Nat) : Prop where
  frame : coreOf t c = { coreOf s c with accs := (coreOf t c).accs, assayRing := (coreOf t c).assayRing }
  sets : ∀ j, j ≠ i → accOf (coreOf t c) j = accOf (coreOf s c) j
  ring : ∃ n, (coreOf t c).assayRing = (coreOf s c).assayRing.drop n
  others : ∀ d, d ≠ c → coreOf t d = coreOf s d

theorem AssayKept.of_cores (h : t.cores = s.cores) : AssayKept s t c i := by
  have hk := coreOf_congr h
  exact ⟨by rw [hk], fun _ _ => by rw [hk], ⟨0, by rw [hk]; rfl⟩, fun d _ => hk d⟩

theorem AssayKept.trans (h : AssayKept s t c i) (h' : AssayKept t u c i) : AssayKept s u c i := by
  obtain ⟨n, hn⟩ := h.ring
  obtain ⟨m, hm⟩ := h'.ring
  exact ⟨by rw [h'.frame, h.frame], fun j hj => (h'.sets j hj).trans (h.sets j hj),
    ⟨n + m, by rw [hm, hn, List.drop_drop]⟩, fun d hd => (h'.others d hd).trans (h.others d hd)⟩

theorem coreOf_recordTaken (s : State) (c i : Nat) (r : AssayRec) : coreOf (recordTaken s c i r) c =
    { setAcc (coreOf s c) i (recAccs r) with assayRing := (coreOf s c).assayRing.drop 1 } := coreOf_modCore_same ..

theorem coreOf_assayRecord (s : State) (c i : Nat) (r : AssayRec) : coreOf (assayRecord s c i r) c =
    { setAcc (coreOf s c) i (recAccs r) with assayRing := (coreOf s c).assayRing.drop 1 } :=
  (coreOf_congr (cores_assayRecord s c i r) c).trans (coreOf_recordTaken s c i r)

theorem accOf_assayRecord (s : State) (c i : Nat) (r : AssayRec) (j : Nat) : accOf (coreOf (assayRecord s c i r) c) j =
    if j = i then recAccs r else accOf (coreOf s c) j := by
  rw [coreOf_assayRecord]
  exact accOf_setAcc (coreOf s c) i j (recAccs r)

theorem assayKept_record (s : State) (c i : Nat) (r : AssayRec) : AssayKept s (assayRecord s c i r) c i := by
  have hcore := coreOf_assayRecord s c i r
  refine ⟨by rw [hcore]; rfl, fun j hj => by rw [accOf_assayRecord, if_neg hj], ⟨1, by rw [hcore]⟩, fun d hd => ?_⟩
  rw [coreOf_congr (cores_assayRecord s c i r), recordTaken, coreOf_modCore_other _ _ _ _ hd]

theorem assayKept_run (fuel budget : Nat) (s : State) : AssayKept s (assayRun c i fuel budget s) c i := by
  induction fuel generalizing budget s with
  | zero => exact .of_cores rfl
  | succ fuel ih =>
    rw [assayRun]
    split
    · exact .of_cores rfl
    · dsimp only
      split
      · exact .of_cores rfl
      · exact (AssayKept.of_cores (s := s) (t := (useFree s).2) rfl).trans ((assayKept_record _ c i _).trans (ih _ _))

/-- The run over a ring of one record. -/
theorem assayRun_single (h : (coreOf s c).assayRing = [r]) (budget : Nat) : assayRun c i 1 budget s =
    if budget < recCycles s.free r then (useFree s).2 else assayRecord (useFree s).2 c i r := by
  rw [assayRun, h]
  rfl

/-- What a run leaves of a ring of at most one record. -/
theorem assayRun_short (hc : c < nCores) (hs : regsWf s) (budget : Nat) {t : State}
    (ht : assayRun c i (coreOf s c).assayRing.length budget s = t) :
    ((coreOf s c).assayRing = [] → SameMem s t ∧ accOf (coreOf t c) i = accOf (coreOf s c) i) ∧
    ∀ r, (coreOf s c).assayRing = [r] →
      (budget < recCycles s.free r →
        SameMem s t ∧ (coreOf t c).assayRing = [r] ∧ accOf (coreOf t c) i = accOf (coreOf s c) i) ∧
      (recCycles s.free r ≤ budget → (coreOf t c).assayRing = [] ∧ accOf (coreOf t c) i = recAccs r ∧
        (if AssayOut.mismatch ∈ recOutcomes s c r (recVals r (recAccs r)) then
          rflag t (rASSAY_STATUS c) fASSAY_STATUS_MISMATCH = true else SameMem s t)) := by
  refine ⟨fun hnil => ?_, fun r hr => ?_⟩
  · rw [hnil] at ht
    subst ht
    exact ⟨fun _ => rfl, rfl⟩
  · rw [hr, List.length_singleton, assayRun_single hr] at ht
    refine ⟨fun hlt => ?_, fun hle => ?_⟩
    · rw [if_pos hlt] at ht
      subst ht
      exact ⟨fun _ => rfl, hr, rfl⟩
    · rw [if_neg (Nat.not_lt.2 hle)] at ht
      subst ht
      have hring : (coreOf (useFree s).2 c).assayRing = [r] := hr
      have houts := recOutcomes_congr (s := s) (u := (useFree s).2) (c := c) (r := r) rfl (recVals r (recAccs r))
      have hregs : regsWf (useFree s).2 := hs
      have hmem : SameMem s (useFree s).2 := fun _ => rfl
      rw [← houts]
      generalize (useFree s).2 = v at *
      refine ⟨by rw [coreOf_assayRecord, hring]; rfl, by rw [accOf_assayRecord, if_pos rfl], ?_⟩
      split
      · next hbad => exact mismatch_assayRecord hc hregs hbad i
      · next hgood => exact fun a => (sameMem_assayRecord hgood i a).trans (hmem a)

/-! ### ASSAY -/

/-- The window of an ASSAY word. -/
def windowOf (x : Nat) (k : Ctx) (w : Word) : Window :=
  ⟨x, wfld w 53 53, wfld w 52 51, wfld w 50 48, wfld w 47 38, wfld w 37 32 + 1, wfld (gRead k (wfld w 31 27)) 31 0⟩

/-- The window opens. -/
def windowOpened (c : Nat) (v : Window) (s : State) : State := modCore s c (fun k => { k with window := some v })

theorem within_windowOpened (v : Window) : Within u (windowOpened c v u) c ∅ ∅ ∅ := within_assayState rfl rfl

theorem plan_assay (h : Issuable s c x w k pr p) (hop : wOp w = 0x25) : p.run = fun u =>
    assayRun c (4 * wfld w 53 53 + wfld w 52 51) (coreOf (windowOpened c (windowOf x k w) u) c).assayRing.length
      (wfld (gRead k (wfld w 31 27)) 31 0) (windowOpened c (windowOf x k w) u) := by
  have hplan := h.plan
  have hsrc : srcOf (entryOf k w) 0 = gRead k (wfld w 31 27) :=
    srcOf_entryOf (show tensorSrcs w = [wfld w 31 27] by simp [tensorSrcs, hop]) 0
  rw [show planOf (placed s c x k w) c x (entryOf k w) = planAssay (placed s c x k w) c x (entryOf k w) by
    simp [planOf, entryOf, hop], planAssay, withPour_placed h] at hplan
  dsimp only at hplan
  rw [hsrc] at hplan
  split at hplan
  · cases hplan
  · rw [← Issue.go.inj hplan]
    rfl

/-- ASSAY (R118): the window opens and whole records are taken within the budget. -/
theorem assay_issued (h : Issuable s c x w k pr p) (hop : wOp w = 0x25) (hi : 4 * wfld w 53 53 + wfld w 52 51 = i) {budget : Nat}
    (hb : wfld (gRead k (wfld w 31 27)) 31 0 = budget) : Issued (.assay c x w) s c x w k p (fun t =>
      SpmOutside s t c 0 0 ∧ (∀ j, j ≠ i → accOf (coreOf t c) j = accOf (coreOf s c) j) ∧
      (coreOf t c).window = some (windowOf x k w) ∧ (∃ n, (coreOf t c).assayRing = (coreOf s c).assayRing.drop n) ∧
      ((coreOf s c).assayRing = [] → SameMem s t ∧ accOf (coreOf t c) i = accOf (coreOf s c) i) ∧
      ∀ r, (coreOf s c).assayRing = [r] →
        (budget < recCycles s.free r →
          SameMem s t ∧ (coreOf t c).assayRing = [r] ∧ accOf (coreOf t c) i = accOf (coreOf s c) i) ∧
        (recCycles s.free r ≤ budget → (coreOf t c).assayRing = [] ∧ accOf (coreOf t c) i = recAccs r ∧
          (if AssayOut.mismatch ∈ recOutcomes s c r (recVals r (recAccs r)) then
            rflag t (rASSAY_STATUS c) fASSAY_STATUS_MISMATCH = true else SameMem s t))) := by
  have hrun := plan_assay h hop
  rw [hi, hb] at hrun
  refine issued_of_effect h (by simp [instrWord, hop]) (by simp [queued, hop]) (fun u hu => ?_)
  rw [hrun]
  have hopen : Within u (windowOpened c (windowOf x k w) u) c ∅ ∅ ∅ := within_windowOpened _
  have hwindow : (coreOf (windowOpened c (windowOf x k w) u) c).window = some (windowOf x k w) := by
    rw [windowOpened, coreOf_modCore_same]
  have hring : (coreOf (windowOpened c (windowOf x k w) u) c).assayRing = (coreOf s c).assayRing := by
    rw [windowOpened, coreOf_modCore_same]
    exact hu.ring
  have hfree : (windowOpened c (windowOf x k w) u).free = s.free := hu.free
  have htol : ∀ r, recOutcomes (windowOpened c (windowOf x k w) u) c r (recVals r (recAccs r)) =
      recOutcomes s c r (recVals r (recAccs r)) :=
    fun r => recOutcomes_congr (hu.same _ (still_rASSAY_TOL c (Nat.mod_lt _ (by decide)))) _
  have hopened := hu.effected hopen.toEffected
  have hwaits := hopen.waits
  have hready := hopen.ready hu.ready
  dsimp only
  generalize windowOpened c (windowOf x k w) u = v at *
  have hkept := assayKept_run (c := c) (i := i) (coreOf v c).assayRing.length budget v
  obtain ⟨hnone, hone⟩ := assayRun_short (i := i) hready.core hready.regs budget rfl
  rw [hring] at hnone hone hkept ⊢
  generalize assayRun c i (coreOf s c).assayRing.length budget v = t at *
  have hacc := hopened.sets i (Set.notMem_empty i)
  have hsame : SameMem v t → SameMem s t := fun hm a => (hm a).trans (hopened.sameMem a)
  have hspm : ∀ o, spmByte (coreOf t c) o = spmByte (coreOf s c) o := by
    intro o
    rw [hkept.frame]
    exact hopened.bytes o (Set.notMem_empty o)
  refine ⟨by rw [hkept.frame]; exact hwaits, ⟨fun o _ => hspm o, fun d hd => (hkept.others d hd).trans (hopened.others d hd)⟩,
    fun j hj => (hkept.sets j hj).trans (hopened.sets j (Set.notMem_empty j)), by rw [hkept.frame]; exact hwindow,
    by rw [← hring]; exact hkept.ring, fun hnil => ?_, fun r hr => ?_⟩
  · obtain ⟨hm, ha⟩ := hnone hnil
    exact ⟨hsame hm, ha.trans hacc⟩
  · obtain ⟨hlong, hfits⟩ := hone r hr
    rw [hfree] at hlong hfits
    rw [htol] at hfits
    refine ⟨fun hlt => ?_, fun hle => ?_⟩
    · obtain ⟨hm, hri, ha⟩ := hlong hlt
      exact ⟨hsame hm, hri, ha.trans hacc⟩
    · obtain ⟨hri, ha, hbad⟩ := hfits hle
      refine ⟨hri, ha, ?_⟩
      split
      · next h => rwa [if_pos h] at hbad
      · next h =>
        rw [if_neg h] at hbad
        exact hsame hbad

end

end Sys2Proof.Machine
end

section
/-! PROOFS. The vector instructions and DRAIN (R78, R289, R291–R293): each element of the destination is the conversion of its
value. -/

namespace Sys2Proof.Machine

open Sys2Proof Sys2Proof.Safety

section

variable {s u t : State} {c x i m n : Nat} {w : Word} {k : Ctx} {pr : Pour} {p : Plan} {b : ConvBlk}

/-! ### A tile of codes and its flag -/

/-- Bytes of a row that an effect leaves hold the same elements. -/
theorem AtCore.tileBits {V A : Set Nat} (h : AtCore s t c ∅ V A) (d : TD) (r q : Nat) :
    tileBits (coreOf t c) d r q = tileBits (coreOf s c) d r q :=
  tileBits_of_spm (funext fun o => h.bytes o (Set.notMem_empty o)) d r q

/-- A tile of codes, with the flag that its conversion raised. -/
theorem flagged_tile (hu : Ready u c) {port : Nat} (hp : port < 15) {d : TD} (hf : d.fmt < 8) (hd : Fits d m n)
    {v : Nat → Nat → Nat} (hv : ∀ r q, v r q < 2 ^ fmtBits d.fmt) (f : Nat) (ovf : Bool) :
    Effected u (tileFlag (writeRows u c x port d d.fmt (grid m n v)) c x pr b f ovf) c (Set.Ico d.off (tdEnd d)) ∅ ∅ ∧
    ∀ r q, r < m → q < n →
      tileBits (coreOf (tileFlag (writeRows u c x port d d.fmt (grid m n v)) c x pr b f ovf) c) d r q = v r q := by
  obtain ⟨hw, hbits⟩ := writeRows_grid (x := x) hp hf hv hd.rowBytes_le hu
  refine ⟨(hw.mono hd.span subset_rfl subset_rfl).toEffected.then (effected_tileFlag ..), fun r q hr hq => ?_⟩
  rw [← hbits r q hr hq]
  exact (effected_tileFlag (V := ∅) (A := ∅) ..).toAtCore.tileBits d r q

/-- A tile of converted values, written from a state `u'` whose bytes are those of `u`, in which they were converted. -/
theorem converted_tile (hu : AtIssue s u c) {u' : State} {A : Set Nat} (hw : Within u u' c ∅ ∅ A)
    {port : Nat} (hp : port < 15) {d : TD}
    (hf : d.fmt < 8) (hd : Fits d m n) (v : Nat → Nat → FV) (stamp ebase f : Nat) (ovf : Bool)
    (ht : t = tileFlag (writeRows u' c x port d d.fmt (convRows u c b d.fmt stamp ebase (grid m n v)).1) c x pr b f ovf) :
    (coreOf t c).unserved = (coreOf u c).unserved ∧ Effected s t c (Set.Ico d.off (tdEnd d)) ∅ A ∧
    ∀ r q, r < m → q < n → tileBits (coreOf t c) d r q = outCode s c b d.fmt stamp (ebase + r * b.stride + q) (v r q) := by
  obtain ⟨he, hbits⟩ := flagged_tile (x := x) (pr := pr) (b := b) (hw.ready hu.ready) hp hf hd
    (v := fun r q => outCode u c b d.fmt stamp (ebase + r * b.stride + q) (v r q)) (fun _ _ => outCode_lt hf ..) f ovf
  rw [convRows_grid] at ht
  subst ht
  refine ⟨he.waits.trans hw.waits, hu.effected ((hw.toEffected.trans he).mono (by simp) (by simp) (by simp)),
    fun r q hr hq => ?_⟩
  rw [hbits r q hr hq, hu.outCode_eq]

/-! ### VRED -/

theorem plan_vred (h : Issuable s c x w k pr p) (hop : wOp w = 0x29) :
    p.run = vredRun c x (placedCtx k w) w ∧ 4 ≤ (tdAt k (wfld w 41 36)).pitch := by
  have hplan := h.plan
  rw [show planOf (placed s c x k w) c x (entryOf k w) = planVred (placed s c x k w) c x (entryOf k w) by
    simp [planOf, entryOf, hop], planVred, withPour_placed h] at hplan
  obtain ⟨hchecks, hgo⟩ := checked_go.1 hplan
  simp only [firstBad_cons] at hchecks
  obtain ⟨-, -, -, -, hdd, -⟩ := hchecks
  obtain ⟨-, hfits⟩ := tdCheck_none hdd
  exact ⟨by rw [← Issue.go.inj hgo]; rfl, hfits.pitch⟩

/-- VRED (R292). -/
theorem vred_issued (h : Issuable s c x w k pr p) (hop : wOp w = 0x29) {da dd : TD} (hda : tdAt k (wfld w 53 48) = da)
    (hdd : tdAt k (wfld w 41 36) = dd) : Issued (.vred c x w) s c x w k p (fun t =>
      Effected s t c (rowSpan dd.off dd.pitch 4 0 da.rows) ∅ ∅ ∧ ∀ r, r < da.rows →
        spmBytes (coreOf t c) (dd.off + r * dd.pitch) 4 =
          bytesLE 4 (vredRow (coreOf s c) (wfld w 33 32) da (tdAt k (wfld w 47 42)) r).toNat) := by
  obtain ⟨hrun, hpitch⟩ := plan_vred h hop
  rw [hdd] at hpitch
  refine issued_of_effect h (by simp [instrWord, hop]) (by simp [queued, hop]) (fun u hu => ?_)
  have hready : vredRun c x (placedCtx k w) w u = rowVals c x dd
      ((List.range da.rows).map (vredRow (coreOf u c) (wfld w 33 32) da (tdAt k (wfld w 47 42)))) u := by
    rw [vredRun, guardSrc_ready _ hu.ready (by decide), guardSrc_ready _ hu.ready (by decide), ite_self, ← hda, ← hdd]
    rfl
  obtain ⟨hw, hbytes⟩ := rowVals_spec (x := x) (vs := (List.range da.rows).map
    (vredRow (coreOf u c) (wfld w 33 32) da (tdAt k (wfld w 47 42)))) hpitch hu.ready
  rw [List.length_map, List.length_range] at hw
  rw [hrun, hready]
  refine ⟨hw.waits, hu.effected hw.toEffected, fun r hr => ?_⟩
  rw [hbytes r (by simpa using hr)]
  simp only [List.getElem_map, List.getElem_range, vredRow_of_spm hu.byte]

/-! ### VEW -/

theorem plan_vew (h : Issuable s c x w k pr p) (hop : wOp w = 0x28) {da dd : TD} (hda : tdAt k (wfld w 53 48) = da)
    (hdd : tdAt k (wfld w 41 36) = dd) (hb : convBlkOf (blockAt s (gRead k (wfld w 28 24)).toNat) = some b) :
    p.run = vewRun c x (placedCtx k w) pr w b (wfld (gRead k (wfld w 33 29)) 47 0) ∧ dd.fmt < 8 ∧ Fits dd da.rows da.cols := by
  have hplan := h.plan
  have hsrc := srcOf_entryOf (k := k) (show tensorSrcs w = [wfld w 33 29, wfld w 28 24] by simp [tensorSrcs, hop])
  have hsrc0 : srcOf (entryOf k w) 0 = gRead k (wfld w 33 29) := hsrc 0
  have hsrc1 : srcOf (entryOf k w) 1 = gRead k (wfld w 28 24) := hsrc 1
  rw [show planOf (placed s c x k w) c x (entryOf k w) = planVew (placed s c x k w) c x (entryOf k w) by
    simp [planOf, entryOf, hop], planVew, withPour_placed h] at hplan
  obtain ⟨hchecks, hconv⟩ := checked_go.1 hplan
  simp only [firstBad_cons] at hchecks
  obtain ⟨-, -, -, htile, hshape, -⟩ := hchecks
  obtain ⟨hf, hfits⟩ := tdCheck_none htile
  obtain ⟨b', hb', hgo⟩ := withConv_go hconv
  rw [blockAt_placed, hsrc1, hb] at hb'
  cases hb'
  rw [hsrc0] at hgo
  subst hda hdd
  have hsame : ¬((tdAt k (wfld w 41 36)).rows ≠ (tdAt k (wfld w 53 48)).rows ∨
      (tdAt k (wfld w 41 36)).cols ≠ (tdAt k (wfld w 53 48)).cols) := of_decide_eq_false (illegalIf_none.1 hshape)
  obtain ⟨hrows, hcols⟩ := not_or.1 hsame
  exact ⟨by rw [← Issue.go.inj hgo]; rfl, of_decide_eq_true hf, hfits.pitch, (not_not.1 hrows).ge, (not_not.1 hcols).ge⟩

/-- VEW (R291). -/
theorem vew_issued (h : Issuable s c x w k pr p) (hop : wOp w = 0x28) {da dd : TD} {fn : Nat} (hda : tdAt k (wfld w 53 48) = da)
    (hdd : tdAt k (wfld w 41 36) = dd) (hfn : wfld w 23 18 = fn)
    (hb : convBlkOf (blockAt s (gRead k (wfld w 28 24)).toNat) = some b) : Issued (.vew c x w) s c x w k p (fun t =>
      Effected s t c (Set.Ico dd.off (tdEnd dd)) ∅ ∅ ∧ ∀ r q, r < da.rows → q < da.cols → tileBits (coreOf t c) dd r q =
        outCode s c b dd.fmt pr.stamp (wfld (gRead k (wfld w 33 29)) 47 0 + r * b.stride + q)
          (shifted (shiftOf s c x b) (vewFn fn (tile32 (coreOf s c) da r q)
            (if vewUnary fn then 0 else vewB (coreOf s c) w (tdAt k (wfld w 47 42)) r q)))) := by
  obtain ⟨hrun, hf, hfits⟩ := plan_vew h hop hda hdd hb
  refine issued_of_effect h (by simp [instrWord, hop]) (by simp [queued, hop]) (fun u hu => ?_)
  have hready : ∃ ovf, vewRun c x (placedCtx k w) pr w b (wfld (gRead k (wfld w 33 29)) 47 0) u =
      tileFlag (writeRows u c x 9 dd dd.fmt (convRows u c b dd.fmt pr.stamp (wfld (gRead k (wfld w 33 29)) 47 0)
        (grid da.rows da.cols (fun r q => shifted (shiftOf u c x b) (vewFn fn (tile32 (coreOf u c) da r q)
          (if vewUnary fn then 0 else vewB (coreOf u c) w (tdAt k (wfld w 47 42)) r q))))).1) c x pr b dd.fmt ovf := by
    rw [vewRun, guardSrc_ready _ hu.ready (by decide), guardSrc_ready _ hu.ready (by decide), ite_self, ← hda, ← hdd, ← hfn]
    exact ⟨_, rfl⟩
  obtain ⟨ovf, hready⟩ := hready
  obtain ⟨hwaits, he, hbits⟩ := converted_tile hu (.refl ..) (by decide) hf hfits _ _ _ _ ovf hready
  rw [hrun]
  refine ⟨hwaits, he, fun r q hr hq => ?_⟩
  rw [hbits r q hr hq, hu.shiftOf_eq h.at_.ctx, tile32_of_spm hu.byte, vewB_of_spm hu.byte]

/-! ### VROT -/

theorem plan_vrot (h : Issuable s c x w k pr p) (hop : wOp w = 0x2A) {da dd : TD} (hda : tdAt k (wfld w 53 48) = da)
    (hdd : tdAt k (wfld w 41 36) = dd) (hb : convBlkOf (blockAt s (gRead k (wfld w 28 24)).toNat) = some b)
    (happ : b.append = false) :
    p.run = vrotRun c x (placedCtx k w) pr w b (wfld (gRead k (wfld w 33 29)) 47 0) ∧ dd.fmt < 8 ∧ Fits dd da.rows da.cols := by
  have hplan := h.plan
  have hsrc := srcOf_entryOf (k := k) (show tensorSrcs w = [wfld w 33 29, wfld w 28 24] by simp [tensorSrcs, hop])
  have hsrc0 : srcOf (entryOf k w) 0 = gRead k (wfld w 33 29) := hsrc 0
  have hsrc1 : srcOf (entryOf k w) 1 = gRead k (wfld w 28 24) := hsrc 1
  rw [show planOf (placed s c x k w) c x (entryOf k w) = planVrot (placed s c x k w) c x (entryOf k w) by
    simp [planOf, entryOf, hop], planVrot, withPour_placed h] at hplan
  obtain ⟨-, hconv⟩ := checked_go.1 hplan
  obtain ⟨b', hb', hgo⟩ := withConv_go hconv
  rw [blockAt_placed, hsrc1, hb] at hb'
  cases hb'
  rw [hsrc0] at hgo
  obtain ⟨hchecks, hgo⟩ := checked_go.1 hgo
  obtain ⟨htile, -⟩ := firstBad_cons.1 hchecks
  rw [happ] at htile
  obtain ⟨hshape, htile⟩ := firstBad_cons.1 htile
  obtain ⟨hf, hfits⟩ := tdCheck_none (firstBad_cons.1 htile).1
  subst hda hdd
  have hsame : ¬((tdAt k (wfld w 41 36)).rows ≠ (tdAt k (wfld w 53 48)).rows ∨
      (tdAt k (wfld w 41 36)).cols ≠ (tdAt k (wfld w 53 48)).cols) := of_decide_eq_false (illegalIf_none.1 hshape)
  obtain ⟨hrows, hcols⟩ := not_or.1 hsame
  exact ⟨by rw [← Issue.go.inj hgo]; rfl, of_decide_eq_true hf, hfits.pitch, (not_not.1 hrows).ge, (not_not.1 hcols).ge⟩

/-- VROT that does not append (R293). -/
theorem vrot_issued (h : Issuable s c x w k pr p) (hop : wOp w = 0x2A) {da dd : TD} (hda : tdAt k (wfld w 53 48) = da)
    (hdd : tdAt k (wfld w 41 36) = dd) (hb : convBlkOf (blockAt s (gRead k (wfld w 28 24)).toNat) = some b)
    (happ : b.append = false) : Issued (.vrot c x w) s c x w k p (fun t =>
      Effected s t c (Set.Ico dd.off (tdEnd dd)) ∅ ∅ ∧ ∀ r q, r < da.rows → q < da.cols → tileBits (coreOf t c) dd r q =
        outCode s c b dd.fmt pr.stamp (wfld (gRead k (wfld w 33 29)) 47 0 + r * b.stride + q)
          (shifted (shiftOf s c x b) (vrotVal (coreOf s c) da (tdAt k (wfld w 47 42)) r q))) := by
  obtain ⟨hrun, hf, hfits⟩ := plan_vrot h hop hda hdd hb happ
  refine issued_of_effect h (by simp [instrWord, hop]) (by simp [queued, hop]) (fun u hu => ?_)
  have hready : ∃ ovf, vrotRun c x (placedCtx k w) pr w b (wfld (gRead k (wfld w 33 29)) 47 0) u =
      tileFlag (writeRows u c x 9 dd dd.fmt (convRows u c b dd.fmt pr.stamp (wfld (gRead k (wfld w 33 29)) 47 0)
        (grid da.rows da.cols (fun r q => shifted (shiftOf u c x b)
          (vrotVal (coreOf u c) da (tdAt k (wfld w 47 42)) r q)))).1) c x pr b dd.fmt ovf := by
    rw [vrotRun, withAppend, happ, Bool.not_false, if_pos rfl, guardSrc_ready _ hu.ready (by decide),
      guardSrc_ready _ hu.ready (by decide), ← hda, ← hdd]
    exact ⟨_, rfl⟩
  obtain ⟨ovf, hready⟩ := hready
  obtain ⟨hwaits, he, hbits⟩ := converted_tile hu (.refl ..) (by decide) hf hfits _ _ _ _ ovf hready
  rw [hrun]
  refine ⟨hwaits, he, fun r q hr hq => ?_⟩
  rw [hbits r q hr hq, hu.shiftOf_eq h.at_.ctx, vrotVal_of_spm hu.byte]

/-! ### DRAIN -/

theorem plan_drain (h : Issuable s c x w k pr p) (hop : wOp w = 0x22)
    (hb : convBlkOf (blockAt s (gRead k (wfld w 18 14)).toNat) = some b) (happ : b.append = false) :
    p.run = drainRun c x (placedCtx k w) pr w b (wfld (gRead k (wfld w 23 19)) 47 0) ∧ (tdAt k (wfld w 50 45)).fmt < 8 ∧
    Fits (tdAt k (wfld w 50 45)) (wfld w 37 32 + 1) (wfld w 31 24 + 1) := by
  have hplan := h.plan
  have hsrc := srcOf_entryOf (k := k) (show tensorSrcs w = [wfld w 23 19, wfld w 18 14] by simp [tensorSrcs, hop])
  have hsrc0 : srcOf (entryOf k w) 0 = gRead k (wfld w 23 19) := hsrc 0
  have hsrc1 : srcOf (entryOf k w) 1 = gRead k (wfld w 18 14) := hsrc 1
  rw [show planOf (placed s c x k w) c x (entryOf k w) = planDrain (placed s c x k w) c x (entryOf k w) by
    simp [planOf, entryOf, hop], planDrain, withPour_placed h] at hplan
  obtain ⟨-, hconv⟩ := checked_go.1 hplan
  obtain ⟨b', hb', hgo⟩ := withConv_go hconv
  rw [blockAt_placed, hsrc1, hb] at hb'
  cases hb'
  rw [hsrc0] at hgo
  obtain ⟨hchecks, hgo⟩ := checked_go.1 hgo
  obtain ⟨htile, -⟩ := firstBad_cons.1 hchecks
  rw [happ] at htile
  obtain ⟨hf, hfits⟩ := tdCheck_none htile
  exact ⟨by rw [← Issue.go.inj hgo]; rfl, of_decide_eq_true hf, hfits⟩

/-- The record of a drained tile and the tile's flag leave its bytes and every value. -/
theorem drained_tile (hu : Ready u c) {port : Nat} (hp : port < 15) {d : TD} (hf : d.fmt < 8) (hd : Fits d m n)
    {v : Nat → Nat → Nat} (hv : ∀ r q, v r q < 2 ^ fmtBits d.fmt) {u1 u2 : State}
    (h1 : u1 = writeRows u c x port d d.fmt (grid m n v)) (hfinish : AtCore u1 u2 c ∅ ∅ {i})
    (hnone : (accOf (coreOf u1 c) i).assay = false → u2 = u1) (f : Nat) (ovf : Bool) (ht : t = tileFlag u2 c x pr b f ovf) :
    AtCore u t c (rowSpan d.off d.pitch (rowBytes d.fmt n) 0 m) ∅ {i} ∧
    ((accOf (coreOf u c) i).assay = false → Effected u t c (rowSpan d.off d.pitch (rowBytes d.fmt n) 0 m) ∅ {i}) ∧
    ∀ r q, r < m → q < n → tileBits (coreOf t c) d r q = v r q := by
  obtain ⟨hw, hbits⟩ := writeRows_grid (x := x) hp hf hv hd.rowBytes_le hu
  rw [← h1] at hw hbits
  have hflag : Effected u2 t c ∅ ∅ {i} := ht ▸ effected_tileFlag ..
  have hlast := hfinish.then hflag.toAtCore
  refine ⟨(hw.toAtCore.trans hlast).mono (by simp) (by simp) (by simp), fun hsel => ?_, fun r q hr hq => ?_⟩
  · have hu2 := hnone (by rw [hw.sets i (Set.notMem_empty i)]; exact hsel)
    rw [hu2] at hflag
    exact (hw.toEffected.trans hflag).mono (by simp) (by simp) (by simp)
  · rw [hlast.tileBits, hbits r q hr hq]

/-- DRAIN that does not append (R78, R289). -/
theorem drain_issued (h : Issuable s c x w k pr p) (hop : wOp w = 0x22) {d : TD} {bf : Nat} {bias : Nat → Option FV}
    (hi : 4 * wfld w 53 53 + wfld w 52 51 = i) (hd : tdAt k (wfld w 50 45) = d) (hm : wfld w 37 32 + 1 = m)
    (hn : wfld w 31 24 + 1 = n) (hbf : (if (accOf (coreOf s c) i).isInt then 9 else (tdAt k (wfld w 44 39)).fmt) = bf)
    (hbias : (fun j => if wbit w 38 then
      some (fvOf bf (elemBits (spmByte (coreOf s c)) bf (tdAt k (wfld w 44 39)).off j)) else none) = bias)
    (hb : convBlkOf (blockAt s (gRead k (wfld w 18 14)).toNat) = some b) (happ : b.append = false)
    (hpar : (accOf (coreOf s c) i).badPar = []) : Issued (.drain c x w) s c x w k p (fun t =>
      AtCore s t c (rowSpan d.off d.pitch (rowBytes d.fmt n) 0 m) ∅ {i} ∧
      ((accOf (coreOf s c) i).assay = false → Effected s t c (rowSpan d.off d.pitch (rowBytes d.fmt n) 0 m) ∅ {i}) ∧
      ∀ r q, r < m → q < n → tileBits (coreOf t c) d r q =
        outCode s c b d.fmt pr.stamp (wfld (gRead k (wfld w 23 19)) 47 0 + r * b.stride + q)
          (drainVal (accOf (coreOf s c) i).isInt (accVal (accOf (coreOf s c) i) r q) (bias q) (shiftOf s c x b))) := by
  obtain ⟨hrun, hf, hfits⟩ := plan_drain h hop hb happ
  have hport : 4 + wfld w 53 53 < 15 := by
    have := wfld_lt w 53 53
    omega
  rw [hd] at hf hfits
  rw [hm, hn] at hfits
  refine issued_of_effect h (by simp [instrWord, hop]) (by simp [queued, hop]) (fun u hu => ?_)
  rw [← hu.acc] at hpar hbf
  rw [← hu.byte] at hbias
  have hready : ∃ codes bl ovf, codes = (convRows u c b d.fmt pr.stamp (wfld (gRead k (wfld w 23 19)) 47 0) (grid m n (fun r q =>
      drainVal (accOf (coreOf u c) i).isInt (accVal (accOf (coreOf u c) i) r q) (bias q) (shiftOf u c x b)))).1 ∧
      drainRun c x (placedCtx k w) pr w b (wfld (gRead k (wfld w 23 19)) 47 0) u = tileFlag (assayFinish
        (writeRows u c x (4 + wfld w 53 53) d d.fmt codes) c i bf bl (shiftOf u c x b) d.fmt b
        (wfld (gRead k (wfld w 23 19)) 47 0) codes) c x pr b d.fmt ovf := by
    subst hi hd hm hn hbf hbias
    rw [drainRun, withAppend, happ, Bool.not_false, if_pos rfl, checkParity_clean _ hpar, guardRows_ready _ hu.ready hport,
      ite_self]
    exact ⟨_, _, _, rfl, rfl⟩
  obtain ⟨codes, bl, ovf, hcodes, hready⟩ := hready
  rw [convRows_grid] at hcodes
  obtain ⟨hat, heff, hbits⟩ := drained_tile hu.ready hport hf hfits (v := fun r q => outCode u c b d.fmt pr.stamp
      (wfld (gRead k (wfld w 23 19)) 47 0 + r * b.stride + q)
      (drainVal (accOf (coreOf u c) i).isInt (accVal (accOf (coreOf u c) i) r q) (bias q) (shiftOf u c x b)))
    (fun _ _ => outCode_lt hf ..) (congrArg (writeRows u c x (4 + wfld w 53 53) d d.fmt) hcodes) (atCore_assayFinish ..)
    (fun hsel => assayFinish_none hsel ..) d.fmt ovf hready
  rw [hrun]
  refine ⟨hat.waits, hu.atCore hat, fun hsel => hu.effected (heff (by rw [hu.acc]; exact hsel)), fun r q hr hq => ?_⟩
  rw [hbits r q hr hq, hu.outCode_eq, hu.shiftOf_eq h.at_.ctx, hu.acc]

end

end Sys2Proof.Machine
end

section
/-! PROOFS. The statement about products, spills, loads, reductions and vector results. -/

namespace Sys2Proof.Safety

open Sys2Proof Sys2Proof.Machine

section

variable {s : State} {c x : Nat} {w : Word} {k : Ctx} {pr : Pour} {p : Plan}

theorem mem_mmaAccs_dual {f : MmaF} (hmode : f.mode = 3) (j : Nat) : j ∈ mmaAccs f ↔ j ∈ ({f.acc} ∪ Set.Ico 4 8 : Set Nat) := by
  rw [mmaAccs, if_neg (by omega), if_pos hmode]
  simp only [List.mem_cons, List.not_mem_nil, or_false, Set.mem_union, Set.mem_singleton_iff, Set.mem_Ico]
  exact or_congr_right (by omega)

theorem mem_mmaAccs_split {f : MmaF} (hmode : f.mode = 1 ∨ f.mode = 2) (j : Nat) :
    j ∈ mmaAccs f ↔ j ∈ ({f.acc, 4 + f.acc} : Set Nat) := by
  rw [mmaAccs, if_neg (by omega), if_neg (by omega)]
  simp

theorem mem_mmaAccs_single {f : MmaF} (hmode : f.mode = 0) (j : Nat) : j ∈ mmaAccs f ↔ j ∈ ({4 * f.arr + f.acc} : Set Nat) := by
  rw [mmaAccs, if_pos hmode]
  simp

end

/-- Settles O58: the effect of each instruction at issue is a product, a store of rows or a load of cells, each with its footprint
in the core (`mma_single_issued` to `drain_issued`). -/
theorem tensorData : Obligations.TensorData := by
  unfold Obligations.TensorData
  intro s c x w k pr p h old wf did conv steps beyond
  refine ⟨?mma, ?spill, ?accld, ?assay, ?vred, ?vew, ?vrot, ?drain⟩
  case mma =>
    intro hop f kT a b frame hwf
    have hn : f.n ≤ 256 := (mmaFields_bounds w).2.2
    have hframe : ∀ (V A : Set Nat) t, (∀ j, j ∈ mmaAccs f ↔ j ∈ A) → Effected s t c ∅ V A → frame t :=
      fun V A t hA he => ⟨he.sameMem, he.spmKept, fun j hj => he.sets j (fun e => hj ((hA j).2 e))⟩
    have hsteps : ∀ i a b (t : State), ProductAt (old i) (accOf (coreOf t c) i)
        (fmtInt (tdAt k f.da).fmt) f.zero (fun _ => true) a b
        f.m f.n kT (fmtK (tdAt k f.da).fmt) → steps f i a b kT t ∧ beyond f i t :=
      fun i a b t hprod => ⟨fun m n hm hn' => hprod.inside hn hm hn' rfl, fun m n hn' ho => hprod.outside hn' (by omega)⟩
    refine ⟨fun hmode => ?_, fun hmode => ?_, fun hmode => ?_⟩
    · have hA := mem_mmaAccs_single (f := f) hmode
      refine issued_mono (mma_single_issued h hop rfl hmode (hwf _ ((hA _).2 rfl))) (fun t ⟨he, hprod⟩ => ?_)
      exact ⟨hframe _ _ t hA he, hsteps _ _ _ t hprod⟩
    · have hA := mem_mmaAccs_split (f := f) hmode
      refine issued_mono (mma_split_issued h hop rfl hmode (hwf _ ((hA _).2 (.inl rfl))) (hwf _ ((hA _).2 (.inr rfl))))
        (fun t ⟨he, hprod0, hprod1⟩ => ?_)
      obtain ⟨hin0, hout0⟩ := hsteps _ _ _ t hprod0
      obtain ⟨hin1, hout1⟩ := hsteps _ _ _ t hprod1
      exact ⟨hframe _ _ t hA he, hin0, hout0, hin1, hout1⟩
    · have hA := mem_mmaAccs_dual (f := f) hmode
      refine issued_mono (mma_dual_issued h hop rfl hmode (fun i hi => hwf i ((hA i).2 hi))) (fun t ⟨he, hprod, htiles⟩ => ?_)
      obtain ⟨hin, hout⟩ := hsteps _ _ _ t hprod
      exact ⟨hframe _ _ t hA he, hin, hout, htiles⟩
  case spill =>
    intro hop i d m n hpar
    refine issued_mono (spill_issued h hop rfl rfl rfl rfl hpar) (fun t ⟨he, hflag, himage⟩ => ?_)
    exact ⟨he.sameMem, he.spmOutside, he.sameAccs, hflag, himage⟩
  case accld =>
    intro hop i d m n
    refine issued_mono (accld_issued h hop rfl rfl rfl rfl) (fun t ⟨he, hint, hnonfin, hvals⟩ => ?_)
    exact ⟨he.sameMem, he.spmKept, fun j hj => he.sets j hj, by rw [hint, decide_eq_true_eq], by rw [hnonfin, decide_eq_true_eq],
      hvals⟩
  case assay =>
    intro hop i budget
    exact assay_issued h hop rfl rfl
  case vred =>
    intro hop da db dd
    refine issued_mono (vred_issued h hop rfl rfl) (fun t ⟨he, hrows⟩ => ?_)
    refine ⟨he.sameMem, he.sameAccs, he.others, fun o ho => he.bytes o ?_, hrows⟩
    rintro ⟨r, -, hr, hlo, hhi⟩
    rw [Nat.zero_add] at hr
    rcases ho r hr with h | h
    · exact Nat.not_le.2 h hlo
    · exact Nat.not_lt.2 h hhi
  case vew =>
    intro hop b hb da db dd fn
    exact issued_mono (vew_issued h hop rfl rfl rfl hb) (fun t ⟨he, hbits⟩ => ⟨he.sameMem, he.sameAccs, he.spmOutside, hbits⟩)
  case vrot =>
    intro hop b hb happ da db dd
    exact issued_mono (vrot_issued h hop rfl rfl hb happ) (fun t ⟨he, hbits⟩ => ⟨he.sameMem, he.sameAccs, he.spmOutside, hbits⟩)
  case drain =>
    intro hop b hb happ i d db m n bf bias hpar
    refine issued_mono (drain_issued h hop rfl rfl rfl rfl rfl rfl hb happ hpar) (fun t ⟨hat, heff, hbits⟩ => ?_)
    refine ⟨hat.sameAccs, fun o ho => hat.bytes o (fun hin => ?_), fun hsel => ?_, hbits⟩
    · have hspan := rowSpan_subset (hi := d.off + (m - 1) * d.pitch + rowBytes d.fmt n) (.inr (by rw [Nat.zero_add])) hin
      obtain ⟨hlo, hhi⟩ := Set.mem_Ico.1 hspan
      rcases ho with h | h
      · exact Nat.not_le.2 h hlo
      · exact Nat.not_lt.2 h hhi
    · have he := heff hsel
      exact ⟨he.sameMem, he.others⟩

end Sys2Proof.Safety
end

section
/-! PROOFS. ATTN_FWD (R124–R126): the scores of a block, the row state, and the outputs scaled and added to. -/

namespace Sys2Proof.Machine

open Sys2Proof Sys2Proof.Safety

section

variable {s u t : State} {c x i : Nat} {w : Word} {k : Ctx} {pr : Pour} {p : Plan}

/-! ### Row states in the scratchpad -/

theorem length_rowStateBytes (l : List (W32 × W32)) : (rowStateBytes l).length = 8 * l.length :=
  length_flatMap_const (fun q _ => by rw [List.length_append, length_bytesLE, length_bytesLE])

theorem take_drop_rowStateBytes (l : List (W32 × W32)) {m : Nat} (hm : m < l.length) :
    ((rowStateBytes l).drop (8 * m)).take 4 = bytesLE 4 l[m].1.toNat ∧
    ((rowStateBytes l).drop (8 * m + 4)).take 4 = bytesLE 4 l[m].2.toNat := by
  have hrow : ((rowStateBytes l).drop (8 * m)).take 8 = bytesLE 4 l[m].1.toNat ++ bytesLE 4 l[m].2.toNat :=
    take_drop_flatMap (fun q _ => by rw [List.length_append, length_bytesLE, length_bytesLE]) hm
  have hlen := length_bytesLE 4 l[m].1.toNat
  constructor
  · have h := congrArg (List.take 4) hrow
    rwa [List.take_take, List.take_left' hlen] at h
  · have h := congrArg (List.drop 4) hrow
    rwa [List.drop_take, List.drop_drop, List.drop_left' hlen] at h

theorem ofNat_bytesLE (v : W32) : BitVec.ofNat 32 (ofBytesLE (bytesLE 4 v.toNat)) = v := by
  rw [ofBytesLE_bytesLE, show 256 ^ 4 = 2 ^ 32 by decide, Nat.mod_eq_of_lt v.isLt]
  simp

/-- Row states stored read back. -/
theorem rowState_spmStore (h : Ready s c) {port : Nat} (hp : port < 15) (o : Nat) (l : List (W32 × W32)) {m : Nat}
    (hm : m < l.length) : rowState (coreOf (spmStore s c x port o (rowStateBytes l)) c) o m = l[m] := by
  have hlen := length_rowStateBytes l
  obtain ⟨h1, h2⟩ := take_drop_rowStateBytes l hm
  rw [rowState, spmBytes_spmStore h hp o _ (by omega), Nat.add_assoc, spmBytes_spmStore h hp o _ (by omega), h1, h2,
    ofNat_bytesLE, ofNat_bytesLE]

/-- Row states that an effect leaves. -/
theorem AtCore.rowState {B V A : Set Nat} (h : AtCore s t c B V A) {o m : Nat} (hout : ∀ j, o ≤ j → j < o + 8 * m + 8 → j ∉ B) :
    rowState (coreOf t c) o m = rowState (coreOf s c) o m := by
  rw [Machine.rowState, Machine.rowState, h.spmBytes (fun j h1 h2 => hout j (by omega) (by omega)),
    h.spmBytes (fun j h1 h2 => hout j (by omega) (by omega))]

/-! ### The stages of ATTN_FWD -/

/-- The scores of a block. -/
def fwdScored (c a0 i1 n : Nat) (a : AttD) (q kk : Opnd) (s : State) : State :=
  runProduct (countZero (assayCancel (assayCancel s c a0) c i1) c true) c a0 false true (fun _ => true) q kk a.m n a.d (fmtK a.qf)

/-- The rows that the softmax stage makes of the scores in set `sc`, from row states `st`. -/
def fwdRows (a : AttD) (kpos n : Nat) (st : Nat → W32 × W32) (sc : AccSet) : List SmRow :=
  (List.range a.m).map (fun m => smRow a kpos m (st m) ((List.range n).map (fun j => accVal sc m j)))

/-- The outputs of earlier blocks scaled by their rows' factors. -/
def fwdScaled (c i1 : Nat) (a : AttD) (first : Bool) (rows : List SmRow) (s : State) : State :=
  modCore s c (fun u => setAcc u i1 (rowScale
    (if first then accZero (accOf u i1) false (fun _ => true) a.m a.d else { accOf u i1 with isInt := false }) a.d
    (rows.map (·.f))))

/-- The probabilities of the rows, as an operand. -/
def fwdProbs (a : AttD) (rows : List SmRow) : Opnd :=
  ⟨fun m q => fvOf a.pf ((rows.getD m ⟨0, 0, 0, []⟩).p.getD q 0), fun _ _ => .fin false 1 0⟩

/-- The outputs with the block added. -/
def fwdSummed (c i1 n : Nat) (a : AttD) (rows : List SmRow) (v : Opnd) (s : State) : State :=
  runProduct s c i1 false false (fun _ => true) (fwdProbs a rows) v a.m a.d n (fmtK a.pf)

/-- The row states that a block leaves. -/
def fwdStates (a : AttD) (first : Bool) (rows : List SmRow) : List (W32 × W32) :=
  rows.map (fun r => (r.m, r.l)) ++ if first then List.replicate (64 - a.m) (inf32 true, (0 : W32)) else []

theorem length_fwdRows (a : AttD) (kpos n : Nat) (st : Nat → W32 × W32) (sc : AccSet) :
    (fwdRows a kpos n st sc).length = a.m := by
  simp [fwdRows]

theorem getD_fwdRows {a : AttD} {m : Nat} (hm : m < a.m) (kpos n : Nat) (st : Nat → W32 × W32) (sc : AccSet) (z : SmRow) :
    (fwdRows a kpos n st sc).getD m z = smRow a kpos m (st m) ((List.range n).map (fun j => accVal sc m j)) := by
  rw [List.getD_eq_getElem _ _ (by rwa [length_fwdRows])]
  simp [fwdRows]

theorem attDOf_bounds (ws : List Word) : (attDOf ws).m ≤ 64 ∧ (attDOf ws).d ≤ 256 := by
  have h1 := wfld_lt (ws.getD 2 0) 31 26
  have h2 := wfld_lt (ws.getD 2 0) 20 18
  simp only [attDOf]
  omega

/-- Scores: set `a0` takes the product from zero, with clean parity. -/
theorem fwdScored_spec {a0 i1 n : Nat} (ha0 : a0 < 8) (hn : n ≤ 256) (hwf : AccWf (accOf (coreOf s c) a0))
    (hpar : (accOf (coreOf s c) a0).badPar = []) (hinj : (accOf (coreOf s c) a0).inject = false) (a : AttD) (q kk : Opnd) :
    Within s (fwdScored c a0 i1 n a q kk s) c ∅ {a0} {a0, i1} ∧ (accOf (coreOf (fwdScored c a0 i1 n a q kk s) c) a0).badPar = [] ∧
    ∀ m j, m < a.m → j < n → accVal (accOf (coreOf (fwdScored c a0 i1 n a q kk s) c) a0) m j =
      (stepsOut false q kk m j (fmtK a.qf) a.d ((a.d + fmtK a.qf - 1) / fmtK a.qf) 0 (0, false)).1 := by
  have h0 : Within s (countZero (assayCancel (assayCancel s c a0) c i1) c true) c ∅ ∅ {a0, i1} :=
    (((within_assayCancel a0).mono subset_rfl subset_rfl (by simp)).then
      ((within_assayCancel i1).mono subset_rfl subset_rfl (by simp))).then (within_countZero true)
  have hcells := product_cellsOnly false true (fun _ => true) q kk a.d (fmtK a.qf)
    (accOf (coreOf (countZero (assayCancel (assayCancel s c a0) c i1) c true) c) a0) a.m n
  have hinj' : (product false true (fun _ => true) q kk a.m n a.d (fmtK a.qf)
      (accOf (coreOf (countZero (assayCancel (assayCancel s c a0) c i1) c true) c) a0)).inject = false := by
    rw [hcells.frame]
    exact (h0.inject (Set.notMem_empty a0)).trans hinj
  obtain ⟨hw, hprod⟩ := product_after h0 (Set.notMem_empty a0) ha0 hwf (m := a.m) hn false true (fun _ => true) q kk a.d
    (fmtK a.qf)
  refine ⟨hw.mono subset_rfl (by simp) (by simp), ?_, fun m j hm hj => hprod.inside hn hm hj rfl⟩
  rw [fwdScored, runProduct, accOf_runSteps_plain hinj']
  exact hcells.parity ((h0.badPar (Set.notMem_empty a0)).trans hpar)

/-- Outputs: each row takes its old value times the row's factor, and the products of its probabilities and V. -/
theorem fwdSummed_spec {i1 n : Nat} (hi1 : i1 < 8) {a : AttD} (hd : a.d ≤ 256) (hwf : AccWf (accOf (coreOf s c) i1))
    (first : Bool)
    {rows : List SmRow} (hrows : rows.length = a.m) (v : Opnd) :
    Within s (fwdSummed c i1 n a rows v (fwdScaled c i1 a first rows s)) c ∅ {i1} {i1} ∧
    ∀ m j, m < a.m → j < a.d →
      accVal (accOf (coreOf (fwdSummed c i1 n a rows v (fwdScaled c i1 a first rows s)) c) i1) m j =
        (stepsOut false (fwdProbs a rows) v m j (fmtK a.pf) n ((n + fmtK a.pf - 1) / fmtK a.pf) 0
          (rne32 ((fv32 (if first then 0 else accVal (accOf (coreOf s c) i1) m j)).mul
            (fv32 ((rows.map (·.f)).getD m 0))), false)).1 := by
  have hw0 : Within s (fwdScaled c i1 a first rows s) c ∅ {i1} {i1} := within_setAcc
  obtain ⟨hwf0, hstart⟩ := start_vals (m := a.m) hwf hd false first (fun _ => true)
  obtain ⟨hwf1, hscaled⟩ := rowScale_vals hwf0 hd (rows.map (·.f))
  have hset : accOf (coreOf (fwdScaled c i1 a first rows s) c) i1 = rowScale (if first then
      accZero (accOf (coreOf s c) i1) false (fun _ => true) a.m a.d else { accOf (coreOf s c) i1 with isInt := false }) a.d
      (rows.map (·.f)) := accOf_modCore_setAcc ..
  rw [← hset] at hwf1 hscaled
  obtain ⟨-, hvals⟩ := runProduct_vals (m := a.m) hwf1 hd false false (fun _ => true) (fwdProbs a rows) v n (fmtK a.pf)
  refine ⟨hw0.then (within_runProduct hi1 ..), fun m j hm hj => ?_⟩
  rw [fwdSummed, hvals m j (by omega), if_pos ⟨hm, hj, rfl⟩, if_neg Bool.false_ne_true, hscaled m j (by omega),
    if_pos ⟨by rwa [List.length_map, hrows], hj⟩, hstart m j (by omega), if_pos ⟨hm, hj, rfl⟩]

/-! ### ATTN_FWD -/

theorem fwdRun_ready (hu : Ready u c) (hpar : ∀ j, (accOf (coreOf u c) j).badPar = []) {a0 i1 n : Nat}
    (h0 : wfld w 29 28 = a0) (h1 : 4 + wfld w 27 26 = i1) (hn : wfld w 11 4 + 1 = n) {q kk v : Opnd} {dr : TD} {first : Bool}
    (hq : opndA (coreOf u c) k { tdAt k (wfld w 53 48) with trans := false } = q)
    (hk : opndB (coreOf u c) k { tdAt k (wfld w 47 42) with trans := true } = kk)
    (hv : opndB (coreOf u c) k { tdAt k (wfld w 41 36) with trans := false } = v) (hdr : tdAt k (wfld w 35 30) = dr)
    (hf : wbit w 25 = first) {a : AttD} {kpos : Nat}
    (hscores : (accOf (coreOf (fwdScored c a0 i1 n a q kk u) c) a0).badPar = []) {rows : List SmRow}
    (hrows : fwdRows a kpos n (fun m => if first then (inf32 true, 0) else rowState (coreOf u c) dr.off m)
      (accOf (coreOf (fwdScored c a0 i1 n a q kk u) c) a0) = rows) :
    ∃ bad, fwdRun c x k w a kpos u = countCore (countCore (spmStore (fwdSummed c i1 n a rows v (fwdScaled c i1 a first rows
      (fwdScored c a0 i1 n a q kk u))) c x 6 dr.off (rowStateBytes (fwdStates a first rows))) c 0xB8 1) c 0xBA bad := by
  subst h0 h1 hn hq hk hv hdr hf hrows
  rw [fwdRun]
  dsimp only [attF]
  rw [guardA_ready _ hu (by decide), guardB_ready _ hu (by decide), guardB_ready _ hu (by decide),
    guardRows_ready _ hu (by decide),
    checkParity_clean _ (hpar _)]
  exact ⟨_, checkParity_clean _ hscores _ _⟩

theorem plan_fwd (h : Issuable s c x w k pr p) (hop : wOp w = 0x30) :
    p.run = fwdRun c x (placedCtx k w) w (attDOf (blockAt s (gRead k (wfld w 21 17)).toNat))
      (wfld (gRead k (wfld w 16 12)) 31 0) := by
  have hplan := h.plan
  have hsrc := srcOf_entryOf (k := k) (show tensorSrcs w = [wfld w 21 17, wfld w 16 12] by simp [tensorSrcs, hop])
  have hsrc0 : srcOf (entryOf k w) 0 = gRead k (wfld w 21 17) := hsrc 0
  have hsrc1 : srcOf (entryOf k w) 1 = gRead k (wfld w 16 12) := hsrc 1
  rw [show planOf (placed s c x k w) c x (entryOf k w) = planFwd (placed s c x k w) c x (entryOf k w) by
    simp [planOf, entryOf, hop], planFwd, withPour_placed h, hsrc0, hsrc1] at hplan
  obtain ⟨-, hatt⟩ := checked_go.1 hplan
  obtain ⟨-, hgo⟩ := withAtt_go hatt
  rw [blockAt_placed] at hgo
  rw [← Issue.go.inj (checked_go.1 hgo).2]
  rfl

/-- ATTN_FWD (R124): the scores of the block, the row states and the outputs. -/
theorem fwd_issued (h : Issuable s c x w k pr p) (hop : wOp w = 0x30) {a0 i1 n kpos : Nat} {a : AttD} {q kk v : Opnd} {dr : TD}
    {first : Bool} (ha : attDOf (blockAt s (gRead k (wfld w 21 17)).toNat) = a)
    (hkpos : wfld (gRead k (wfld w 16 12)) 31 0 = kpos)
    (h0 : wfld w 29 28 = a0) (h1 : 4 + wfld w 27 26 = i1) (hn : wfld w 11 4 + 1 = n)
    (hq : opndA (coreOf s c) k { tdAt k (wfld w 53 48) with trans := false } = q)
    (hk : opndB (coreOf s c) k { tdAt k (wfld w 47 42) with trans := true } = kk)
    (hv : opndB (coreOf s c) k { tdAt k (wfld w 41 36) with trans := false } = v) (hdr : tdAt k (wfld w 35 30) = dr)
    (hf : wbit w 25 = first) (hwf0 : AccWf (accOf (coreOf s c) a0)) (hwf1 : AccWf (accOf (coreOf s c) i1))
    (hpar : ∀ j, (accOf (coreOf s c) j).badPar = []) (hinj : ∀ j, (accOf (coreOf s c) j).inject = false) :
    Issued (.attnFwd c x w) s c x w k p (fun t => Effected s t c (Set.Ico dr.off (dr.off + 512)) {a0, i1} {a0, i1} ∧
      (∀ m j, m < a.m → j < n → accVal (accOf (coreOf t c) a0) m j =
        (stepsOut false q kk m j (fmtK a.qf) a.d ((a.d + fmtK a.qf - 1) / fmtK a.qf) 0 (0, false)).1) ∧
      ∃ rows, fwdRows a kpos n (fun m => if first then (inf32 true, 0) else rowState (coreOf s c) dr.off m)
          (accOf (coreOf t c) a0) = rows ∧
        (∀ m, (hm : m < (fwdStates a first rows).length) → rowState (coreOf t c) dr.off m = (fwdStates a first rows)[m]) ∧
        ∀ m j, m < a.m → j < a.d → accVal (accOf (coreOf t c) i1) m j =
          (stepsOut false (fwdProbs a rows) v m j (fmtK a.pf) n ((n + fmtK a.pf - 1) / fmtK a.pf) 0
            (rne32 ((fv32 (if first then 0 else accVal (accOf (coreOf s c) i1) m j)).mul
              (fv32 ((rows.map (·.f)).getD m 0))), false)).1) := by
  have hrun := plan_fwd h hop
  rw [ha, hkpos] at hrun
  have hm64 : a.m ≤ 64 := ha ▸ (attDOf_bounds _).1
  have hd256 : a.d ≤ 256 := ha ▸ (attDOf_bounds _).2
  have hn256 : n ≤ 256 := by
    have := wfld_lt w 11 4
    omega
  have ha0 : a0 < 4 := by
    have := wfld_lt w 29 28
    omega
  have hi1 : 4 ≤ i1 ∧ i1 < 8 := by
    have := wfld_lt w 27 26
    omega
  refine issued_of_effect h (by simp [instrWord, hop]) (by simp [queued, hop]) (fun u hu => ?_)
  simp only [← hu.acc] at hpar hinj hwf0 hwf1
  rw [← opndA_of_spm hu.byte] at hq
  rw [← opndB_of_spm hu.byte] at hk hv
  obtain ⟨hw1, hparity, hscores⟩ := fwdScored_spec (i1 := i1) (by omega) hn256 hwf0 (hpar a0) (hinj a0) a q kk
  obtain ⟨bad, hready⟩ := fwdRun_ready (x := x) (k := placedCtx k w) (kpos := kpos)
    hu.ready hpar h0 h1 hn hq hk hv hdr hf hparity rfl
  generalize hrows : fwdRows a kpos n _ (accOf (coreOf (fwdScored c a0 i1 n a q kk u) c) a0) = rows at hready
  have hlen : rows.length = a.m := by rw [← hrows, length_fwdRows]
  have hlenS : (fwdStates a first rows).length ≤ 64 := by
    rw [fwdStates, List.length_append, List.length_map, hlen]
    split <;> simp <;> omega
  have hr1 := hw1.ready hu.ready
  obtain ⟨hw2, hsummed⟩ := fwdSummed_spec (n := n) hi1.2 hd256 (hw1.accWf (by simp; omega) hwf1) first hlen v
  have hw3 := within_spmStore (hw2.ready hr1) (x := x) (p := 6) (by decide) dr.off (rowStateBytes (fwdStates a first rows))
  have hw4 : Within _ (countCore (countCore (spmStore (fwdSummed c i1 n a rows v (fwdScaled c i1 a first rows
      (fwdScored c a0 i1 n a q kk u))) c x 6 dr.off (rowStateBytes (fwdStates a first rows))) c 0xB8 1) c 0xBA bad) c ∅ ∅ ∅ :=
    (within_countCore (by omega) 1).then (within_countCore (by omega) bad)
  have hstate := fun m hm => rowState_spmStore (hw2.ready hr1) (x := x) (port := 6) (by decide) dr.off (fwdStates a first rows)
    (m := m) hm
  rw [length_rowStateBytes] at hw3
  rw [hrun, hready]
  have hlast := hw3.trans hw4
  have hall := (hw1.trans hw2).trans hlast
  have hkeep0 := (hw2.trans hlast).sets a0 (by simp; omega)
  have hkeep1 := hlast.sets i1 (by simp)
  have hstates : ∀ o, (fun m => if first then (inf32 true, 0) else rowState (coreOf u c) o m) =
      fun m => if first then (inf32 true, 0) else rowState (coreOf s c) o m := fun o => by
    simp only [rowState_of_spm hu.byte]
  refine ⟨hall.waits, hu.effected (hall.toEffected.mono ?_ (fun j hj => ?_) (fun j hj => ?_)), fun m j hm hj => ?_, rows, ?_,
    fun m hm => ?_,
    fun m j hm hj => ?_⟩
  · simp only [Set.empty_union, Set.union_empty]
    exact Set.Ico_subset_Ico_right (by omega)
  · simpa [or_comm] using hj
  · simp only [Set.mem_union, Set.mem_insert_iff, Set.mem_singleton_iff, Set.mem_empty_iff_false] at hj ⊢
    tauto
  · rw [hkeep0]
    exact hscores m j hm hj
  · rw [hkeep0, ← hstates]
    exact hrows
  · rw [hw4.rowState (fun _ _ _ => Set.notMem_empty _)]
    exact hstate m hm
  · rw [hkeep1, hsummed m j hm hj, hw1.accVal (by simp; omega), hu.acc]

end

end Sys2Proof.Machine
end

section
/-! PROOFS. ATTN_NORM (R127): the scaled set, its converted rows and the saved statistics. -/

namespace Sys2Proof.Machine

open Sys2Proof Sys2Proof.Safety

section

variable {s u t : State} {c x i m n : Nat} {w : Word} {k : Ctx} {pr : Pour} {p : Plan} {b : ConvBlk}

/-! ### ATTN_NORM -/

theorem length_statBytes (l : List (Nat × Nat × Bool)) : (statBytes l).length = 4 * l.length :=
  length_flatMap_const (fun q _ => by rw [List.length_append, length_bytesLE, length_bytesLE])

theorem take_drop_statBytes {l : List (Nat × Nat × Bool)} (hm : m < l.length) :
    ((statBytes l).drop (4 * m)).take 4 = bytesLE 2 l[m].1 ++ bytesLE 2 l[m].2.1 :=
  take_drop_flatMap (fun q _ => by rw [List.length_append, length_bytesLE, length_bytesLE]) hm

/-- Statistics stored after a tile, with the tile's flag. -/
theorem stats_after_tile {v v' : State} {B : Set Nat} (hv : Ready v c) (hw : Within v v' c B ∅ ∅)
    (stats : List (Nat × Nat × Bool)) (o f : Nat) (ovf : Bool)
    (ht : t = tileFlag (spmStore v' c x 6 o (statBytes stats)) c x pr b f ovf) :
    Effected v t c (B ∪ Set.Ico o (o + 4 * stats.length)) ∅ ∅ ∧
    (∀ j, j ∉ Set.Ico o (o + 4 * stats.length) → spmByte (coreOf t c) j = spmByte (coreOf v' c) j) ∧
    ∀ m, (hm : m < stats.length) → spmBytes (coreOf t c) (o + 4 * m) 4 = bytesLE 2 stats[m].1 ++ bytesLE 2 stats[m].2.1 := by
  have hr' := hw.ready hv
  have hstore := within_spmStore hr' (x := x) (p := 6) (by decide) o (statBytes stats)
  have hflag : Effected _ t c ∅ ∅ ∅ := ht ▸ effected_tileFlag ..
  rw [length_statBytes] at hstore
  have hlast : Effected v' t c (Set.Ico o (o + 4 * stats.length)) ∅ ∅ :=
    (hstore.toEffected.trans hflag).mono (by simp) (by simp) (by simp)
  refine ⟨(hw.toEffected.trans hlast).mono subset_rfl (by simp) (by simp), hlast.bytes, fun m hm => ?_⟩
  rw [hflag.toAtCore.spmBytes (fun _ _ _ => Set.notMem_empty _), spmBytes_spmStore hr' (by decide) o _
    (by rw [length_statBytes]; omega), take_drop_statBytes hm]

/-- The saved statistics of a row with a finite sum above zero and a BF16 maximum (R127). -/
theorem rowStats_plain {st : W32 × W32} (hsum : posFinite st.2 = true) (hnan : (fv32 st.1).isNan = false)
    (hinf : st.1 ≠ inf32 true)
    (hlow : st.1.toNat % 2 ^ 16 = 0) (f j : Nat) : rowStats f j st = (st.1.toNat / 2 ^ 16, log2fp16 st.2, false) := by
  have hsum' : (fv32 st.2).isNan = false := by
    rw [posFinite] at hsum
    split at hsum
    · next h => rw [h]; rfl
    · cases hsum
  rw [rowStats, hsum', hnan, if_neg (by simp), if_neg hinf, if_pos hlow, if_pos hsum]

/-- Set `i` with its rows scaled by the inverse of their sums. -/
def normScaled (c i : Nat) (a : AttD) (sts : List (W32 × W32)) (s : State) : State :=
  modCore (useFree (assayCancel s c i)).2 c (fun u => setAcc u i (rowScale (accOf u i) a.d (sts.map (fun r => recip32 r.2))))

theorem rd_normScaled (c i : Nat) (a : AttD) (sts : List (W32 × W32)) (s : State) (o : Nat) :
    rd (normScaled c i a sts s) o = rd s o :=
  rfl

theorem normScaled_spec {a : AttD} (hd : a.d ≤ 256) (hwf : AccWf (accOf (coreOf s c) i)) {st : Nat → W32 × W32} :
    Within s (normScaled c i a ((List.range a.m).map st) s) c ∅ {i} {i} ∧
    (accOf (coreOf (normScaled c i a ((List.range a.m).map st) s) c) i).isInt = (accOf (coreOf s c) i).isInt ∧
    ∀ m j, m < a.m → j < a.d → accVal (accOf (coreOf (normScaled c i a ((List.range a.m).map st) s) c) i) m j =
      rne32 ((fv32 (accVal (accOf (coreOf s c) i) m j)).mul (fv32 (recip32 (st m).2))) := by
  have hw0 : Within s (useFree (assayCancel s c i)).2 c ∅ ∅ {i} := (within_assayCancel i).then within_useFree
  have hset : accOf (coreOf (normScaled c i a ((List.range a.m).map st) s) c) i = rowScale
      (accOf (coreOf (useFree (assayCancel s c i)).2 c) i) a.d (((List.range a.m).map st).map (fun r => recip32 r.2)) :=
    accOf_modCore_setAcc ..
  have hcells := rowScale_cellsOnly (accOf (coreOf (useFree (assayCancel s c i)).2 c) i) a.d
    (((List.range a.m).map st).map (fun r => recip32 r.2))
  obtain ⟨-, hvals⟩ := rowScale_vals (hw0.accWf (Set.notMem_empty i) hwf) hd
    (((List.range a.m).map st).map (fun r => recip32 r.2))
  rw [hset]
  refine ⟨(hw0.trans within_setAcc).mono (Set.union_self _).subset (by simp) (by simp), ?_, fun m j hm hj => ?_⟩
  · rw [hcells.frame]
    exact hw0.isInt (Set.notMem_empty i)
  · rw [hvals m j (by omega), if_pos ⟨by simpa using hm, hj⟩, hw0.accVal (Set.notMem_empty i)]
    simp [hm]

theorem plan_norm (h : Issuable s c x w k pr p) (hop : wOp w = 0x31) {a : AttD} {dO : TD}
    (ha : attDOf (blockAt s (gRead k (wfld w 32 28)).toNat) = a) (hdO : tdAt k (wfld w 51 46) = dO) :
    ∃ b, convBlkOf (blockAt s (gRead k (wfld w 27 23)).toNat) = some b ∧
      p.run = normRun c x (placedCtx k w) pr w a b (wfld (gRead k (wfld w 22 18)) 47 0) ∧ dO.fmt < 8 ∧ Fits dO a.m a.d := by
  have hplan := h.plan
  have hsrc := srcOf_entryOf (k := k) (show tensorSrcs w = [wfld w 32 28, wfld w 27 23, wfld w 22 18] by simp [tensorSrcs, hop])
  have hsrc0 : srcOf (entryOf k w) 0 = gRead k (wfld w 32 28) := hsrc 0
  have hsrc1 : srcOf (entryOf k w) 1 = gRead k (wfld w 27 23) := hsrc 1
  have hsrc2 : srcOf (entryOf k w) 2 = gRead k (wfld w 22 18) := hsrc 2
  rw [show planOf (placed s c x k w) c x (entryOf k w) = planNorm (placed s c x k w) c x (entryOf k w) by
    simp [planOf, entryOf, hop], planNorm, withPour_placed h, hsrc0, hsrc1, hsrc2] at hplan
  obtain ⟨-, hatt⟩ := checked_go.1 hplan
  obtain ⟨-, hrest⟩ := withAtt_go hatt
  rw [blockAt_placed, ha] at hrest
  obtain ⟨hchecks, hconv⟩ := checked_go.1 hrest
  obtain ⟨htile, -⟩ := firstBad_cons.1 hchecks
  obtain ⟨hf, hfits⟩ := tdCheck_none htile
  obtain ⟨b, hb, hgo⟩ := withConv_go hconv
  rw [blockAt_placed] at hb
  subst hdO
  exact ⟨b, hb, by rw [← Issue.go.inj hgo]; rfl, of_decide_eq_true hf, hfits⟩

/-- ATTN_NORM (R127): the scaled set, its converted rows and the saved statistics. -/
theorem norm_issued (h : Issuable s c x w k pr p) (hop : wOp w = 0x31) {a : AttD} {dO dst : TD} {rs : Nat → W32 × W32}
    (ha : attDOf (blockAt s (gRead k (wfld w 32 28)).toNat) = a) (hi : 4 + wfld w 53 52 = i) (hdO : tdAt k (wfld w 51 46) = dO)
    (hdst : tdAt k (wfld w 45 40) = dst) (hrs : rowState (coreOf s c) (tdAt k (wfld w 39 34)).off = rs)
    (hwf : AccWf (accOf (coreOf s c) i)) (hpar : (accOf (coreOf s c) i).badPar = []) :
    Issued (.attnNorm c x w) s c x w k p (fun t =>
      Effected s t c (Set.Ico dO.off (tdEnd dO) ∪ Set.Ico dst.off (dst.off + 4 * a.m)) {i} {i} ∧
      (∀ m j, m < a.m → j < a.d → accVal (accOf (coreOf t c) i) m j =
        rne32 ((fv32 (accVal (accOf (coreOf s c) i) m j)).mul (fv32 (recip32 (rs m).2)))) ∧
      (∀ b, convBlkOf (blockAt s (gRead k (wfld w 27 23)).toNat) = some b →
        (dst.off + 4 * a.m ≤ dO.off ∨ tdEnd dO ≤ dst.off) → ∀ m j, m < a.m → j < a.d → tileBits (coreOf t c) dO m j =
          outCode s c b dO.fmt pr.stamp (wfld (gRead k (wfld w 22 18)) 47 0 + m * b.stride + j)
            (drainVal (accOf (coreOf s c) i).isInt (accVal (accOf (coreOf t c) i) m j) none (shiftOf s c x b))) ∧
      ∃ f, ∀ m, m < a.m → spmBytes (coreOf t c) (dst.off + 4 * m) 4 =
        bytesLE 2 (rowStats f m (rs m)).1 ++ bytesLE 2 (rowStats f m (rs m)).2.1) := by
  obtain ⟨b, hb, hrun, hf, hfits⟩ := plan_norm h hop ha hdO
  have hd256 : a.d ≤ 256 := ha ▸ (attDOf_bounds _).2
  refine issued_of_effect h (by simp [instrWord, hop]) (by simp [queued, hop]) (fun u hu => ?_)
  rw [← hu.acc] at hwf hpar ⊢
  have hrs' : rowState (coreOf u c) (tdAt k (wfld w 39 34)).off = rs := by
    rw [← hrs]
    exact funext (rowState_of_spm hu.byte _)
  obtain ⟨hw1, hint, hscaled⟩ := normScaled_spec (a := a) hd256 hwf (st := rs)
  have hready : ∃ v ovf, v = normScaled c i a ((List.range a.m).map rs) u ∧
      normRun c x (placedCtx k w) pr w a b (wfld (gRead k (wfld w 22 18)) 47 0) u = tileFlag (spmStore
        (writeRows v c x 5 dO dO.fmt (convRows v c b dO.fmt pr.stamp (wfld (gRead k (wfld w 22 18)) 47 0)
          (grid a.m a.d (fun r q => drainVal (accOf (coreOf v c) i).isInt (accVal (accOf (coreOf v c) i) r q) none
            (shiftOf v c x b)))).1) c x 6 dst.off
        (statBytes (((List.range a.m).map (fun r => (rs r, r))).map (fun q => rowStats u.free q.2 q.1))))
        c x pr b dO.fmt ovf := by
    subst hi hdO hdst hrs'
    rw [normRun]
    dsimp only
    rw [guardRows_ready _ hu.ready (by decide), checkParity_clean _ hpar, zipIdx_map_range]
    exact ⟨_, _, rfl, rfl⟩
  obtain ⟨v, ovf, hv, hready⟩ := hready
  have hrd : ∀ o, rd v o = rd u o := fun o => by rw [hv, rd_normScaled]
  have hdraw := outCode_congr ((hrd _).trans (hu.same _ (still_rNUM_SEED c)))
  have hshift := shiftOf_congr ((hrd _).trans (hu.same _ (still_rNUM_CTX c h.at_.ctx))) b
  rw [← hv] at hw1 hint hscaled
  have hr1 := hw1.ready hu.ready
  rw [convRows_grid] at hready
  obtain ⟨hw2, hbits⟩ := writeRows_grid (x := x) (p := 5) (by decide) hf (m := a.m) (v := fun r q => outCode v c b dO.fmt pr.stamp
    (wfld (gRead k (wfld w 22 18)) 47 0 + r * b.stride + q) (drainVal (accOf (coreOf v c) i).isInt
      (accVal (accOf (coreOf v c) i) r q) none (shiftOf v c x b))) (fun _ _ => outCode_lt hf ..) hfits.rowBytes_le hr1
  obtain ⟨he, hkept, hstats⟩ := stats_after_tile hr1 (hw2.mono hfits.span subset_rfl subset_rfl) _ _ _ _ hready
  simp only [List.length_map, List.length_range] at he hkept hstats
  have hacc := he.sets i (Set.notMem_empty i)
  rw [hrun]
  refine ⟨he.waits.trans hw1.waits, hu.effected ((hw1.toEffected.trans he).mono (by simp) (by simp) (by simp)),
    fun m j hm hj => by rw [hacc, hscaled m j hm hj], fun b' hb' hdisj m j hm hj => ?_, u.free, fun m hm => ?_⟩
  · rw [hb] at hb'
    cases hb'
    rw [hacc, ← hint, ← hshift, ← hdraw, ← hbits m j hm hj]
    refine tileBits_congr hf hj (fun o ho => hkept _ (fun hin => ?_))
    have hspan := Set.mem_Ico.1 (hfits.span ⟨m, Nat.zero_le m, by omega, Nat.le_add_right _ o, Nat.add_lt_add_left ho _⟩)
    have := Set.mem_Ico.1 hin
    omega
  · rw [hstats m hm]
    simp only [List.getElem_map, List.getElem_range]

end

end Sys2Proof.Machine
end

section
/-! PROOFS. ATTN_BWD_P, ATTN_BWD_DS and ATTN_MERGE (R130, R131, R139). -/

namespace Sys2Proof.Machine

open Sys2Proof Sys2Proof.Safety

section

variable {s u t : State} {c x i m n : Nat} {w : Word} {k : Ctx} {pr : Pour} {p : Plan} {b : ConvBlk}

/-! ### ATTN_BWD_P -/

theorem bwdP_lt {a : AttD} (hf : a.pf < 8) (kpos m n mstat lam : Nat) (sv : W32) :
    (bwdP a kpos m n mstat lam sv).1 < 2 ^ fmtBits a.pf := by
  rw [bwdP]
  split
  · exact fmtNan_lt hf
  · split
    · exact Nat.two_pow_pos _
    · exact convFv_lt hf _ _ _

/-- The probabilities of attention are BF16 or FP8 (R122). -/
theorem attOk_pf {ws : List Word} (h : attOk ws = true) : (attDOf ws).pf = 0 ∨ (attDOf ws).pf = 2 := by
  simp only [attOk, Bool.and_eq_true, Bool.or_eq_true, decide_eq_true_eq] at h
  obtain ⟨⟨⟨⟨-, hpf⟩, -⟩, -⟩, -⟩ := h
  exact hpf

theorem plan_bwdP (h : Issuable s c x w k pr p) (hop : wOp w = 0x32) (hds : wbit w 53 = false) {a : AttD} {dd : TD} {kpos : Nat}
    (ha : attDOf (blockAt s (gRead k (wfld w 29 25)).toNat) = a) (hkpos : wfld (gRead k (wfld w 24 20)) 31 0 = kpos)
    (hdd : tdAt k (wfld w 49 44) = dd) (hn : wfld w 19 12 + 1 = n) :
    (∃ b, p.run = bwdPRun c x (placedCtx k w) pr w a b kpos n) ∧ (a.pf = 0 ∨ a.pf = 2) ∧ dd.fmt = a.pf ∧ Fits dd a.m n := by
  have hplan := h.plan
  have hsrc := srcOf_entryOf (k := k) (show tensorSrcs w = [wfld w 29 25, wfld w 24 20, wfld w 11 7] by simp [tensorSrcs, hop])
  have hsrc0 : srcOf (entryOf k w) 0 = gRead k (wfld w 29 25) := hsrc 0
  have hsrc1 : srcOf (entryOf k w) 1 = gRead k (wfld w 24 20) := hsrc 1
  rw [show planOf (placed s c x k w) c x (entryOf k w) = planBwdP (placed s c x k w) c x (entryOf k w) by
    simp [planOf, entryOf, hop, hds], planBwdP, withPour_placed h, hsrc0, hsrc1] at hplan
  obtain ⟨-, hatt⟩ := checked_go.1 hplan
  obtain ⟨hok, hrest⟩ := withAtt_go hatt
  rw [blockAt_placed] at hok hrest
  have hpf := attOk_pf hok
  rw [ha] at hrest hpf
  obtain ⟨hchecks, hconv⟩ := checked_go.1 hrest
  obtain ⟨hfmt, hchecks⟩ := firstBad_cons.1 hchecks
  obtain ⟨htile, -⟩ := firstBad_cons.1 hchecks
  obtain ⟨-, hfits⟩ := tdCheck_none htile
  obtain ⟨b, -, hgo⟩ := withConv_go hconv
  subst hdd hn hkpos
  exact ⟨⟨b, by rw [← Issue.go.inj (checked_go.1 hgo).2]; rfl⟩, hpf, not_not.1 (of_decide_eq_false (illegalIf_none.1 hfmt)),
    hfits⟩

/-- ATTN_BWD_P (R130): the rebuilt probabilities. -/
theorem bwdP_issued (h : Issuable s c x w k pr p) (hop : wOp w = 0x32) (hds : wbit w 53 = false) {a : AttD} {dd dx : TD}
    {kpos : Nat}
    (ha : attDOf (blockAt s (gRead k (wfld w 29 25)).toNat) = a) (hkpos : wfld (gRead k (wfld w 24 20)) 31 0 = kpos)
    (hi : 4 * wfld w 52 52 + wfld w 51 50 = i) (hdd : tdAt k (wfld w 49 44) = dd) (hdx : tdAt k (wfld w 43 38) = dx)
    (hn : wfld w 19 12 + 1 = n) (hpar : (accOf (coreOf s c) i).badPar = []) :
    Issued (.attnBwdP c x w) s c x w k p (fun t => Effected s t c (Set.Ico dd.off (tdEnd dd)) ∅ {i} ∧
      ∀ m j, m < a.m → j < n → spmBytes (coreOf t c) (dd.off + m * dd.pitch + fmtBits a.pf / 8 * j) (fmtBits a.pf / 8) =
        bytesLE (fmtBits a.pf / 8) (bwdP a kpos m j (ofBytesLE (spmBytes (coreOf s c) (dx.off + 4 * m) 2))
          (ofBytesLE (spmBytes (coreOf s c) (dx.off + 4 * m + 2) 2)) (accVal (accOf (coreOf s c) i) m j)).1) := by
  obtain ⟨⟨b, hrun⟩, hpf, hfmt, hfits⟩ := plan_bwdP h hop hds ha hkpos hdd hn
  have hf : dd.fmt < 8 := by omega
  refine issued_of_effect h (by simp [instrWord, hop, hds]) (by simp [queued, hop]) (fun u hu => ?_)
  rw [← hu.acc] at hpar
  have hready : ∃ ovf, bwdPRun c x (placedCtx k w) pr w a b kpos n u = tileFlag (writeRows (assayCancel u c i) c x 6 dd dd.fmt
      ((grid a.m n (fun m j => bwdP a kpos m j (ofBytesLE (spmBytes (coreOf u c) (dx.off + 4 * m) 2))
        (ofBytesLE (spmBytes (coreOf u c) (dx.off + 4 * m + 2) 2)) (accVal (accOf (coreOf u c) i) m j))).map
        (fun l => l.map (·.1)))) c x pr b a.pf ovf := by
    rw [hfmt]
    subst hi hdd hdx
    rw [bwdPRun, guardRows_ready _ hu.ready (by decide), checkParity_clean _ hpar]
    exact ⟨_, rfl⟩
  obtain ⟨ovf, hready⟩ := hready
  rw [map_grid] at hready
  have hw0 : Within u (assayCancel u c i) c ∅ ∅ {i} := within_assayCancel i
  obtain ⟨he, hbits⟩ := flagged_tile (x := x) (pr := pr) (b := b) (hw0.ready hu.ready) (port := 6) (by decide) hf hfits
    (v := fun m j => (bwdP a kpos m j (ofBytesLE (spmBytes (coreOf u c) (dx.off + 4 * m) 2))
      (ofBytesLE (spmBytes (coreOf u c) (dx.off + 4 * m + 2) 2)) (accVal (accOf (coreOf u c) i) m j)).1)
    (fun _ _ => by rw [hfmt]; exact bwdP_lt (by omega) ..) a.pf ovf
  rw [hrun, hready]
  refine ⟨he.waits.trans hw0.waits, hu.effected ((hw0.toEffected.trans he).mono (by simp) (by simp) (by simp)),
    fun m j hm hj => ?_⟩
  rw [spmBytes_of_tileBits (by omega) (by rw [hfmt]) (hbits m j hm hj)]
  simp only [spmBytes_of_spm hu.byte, hu.acc]

/-! ### ATTN_BWD_DS -/

theorem plan_bwdDs (h : Issuable s c x w k pr p) (hop : wOp w = 0x32) (hds : wbit w 53 = true) {a : AttD} {dd : TD}
    (ha : attDOf (blockAt s (gRead k (wfld w 29 25)).toNat) = a) (hdd : tdAt k (wfld w 49 44) = dd) (hn : wfld w 19 12 + 1 = n) :
    ∃ b, convBlkOf (blockAt s (gRead k (wfld w 11 7)).toNat) = some b ∧ p.run = bwdDsRun c x (placedCtx k w) pr w a b n ∧
      dd.fmt < 8 ∧ Fits dd a.m n := by
  have hplan := h.plan
  have hsrc := srcOf_entryOf (k := k) (show tensorSrcs w = [wfld w 29 25, wfld w 24 20, wfld w 11 7] by simp [tensorSrcs, hop])
  have hsrc0 : srcOf (entryOf k w) 0 = gRead k (wfld w 29 25) := hsrc 0
  have hsrc2 : srcOf (entryOf k w) 2 = gRead k (wfld w 11 7) := hsrc 2
  rw [show planOf (placed s c x k w) c x (entryOf k w) = planBwdDs (placed s c x k w) c x (entryOf k w) by
    simp [planOf, entryOf, hop, hds], planBwdDs, withPour_placed h, hsrc0, hsrc2] at hplan
  obtain ⟨-, hatt⟩ := checked_go.1 hplan
  obtain ⟨-, hrest⟩ := withAtt_go hatt
  rw [blockAt_placed, ha] at hrest
  obtain ⟨hchecks, hconv⟩ := checked_go.1 hrest
  obtain ⟨-, hchecks⟩ := firstBad_cons.1 hchecks
  obtain ⟨htile, -⟩ := firstBad_cons.1 hchecks
  obtain ⟨hf, hfits⟩ := tdCheck_none htile
  obtain ⟨b, hb, hgo⟩ := withConv_go hconv
  rw [blockAt_placed] at hb
  subst hdd hn
  exact ⟨b, hb, by rw [← Issue.go.inj hgo]; rfl, of_decide_eq_true hf, hfits⟩

/-- ATTN_BWD_DS (R131): the converted dS. -/
theorem bwdDs_issued (h : Issuable s c x w k pr p) (hop : wOp w = 0x32) (hds : wbit w 53 = true) {a : AttD} {dd dx dy : TD}
    (ha : attDOf (blockAt s (gRead k (wfld w 29 25)).toNat) = a) (hi : 4 * wfld w 52 52 + wfld w 51 50 = i)
    (hdd : tdAt k (wfld w 49 44) = dd) (hdx : tdAt k (wfld w 43 38) = dx) (hdy : tdAt k (wfld w 37 32) = dy)
    (hn : wfld w 19 12 + 1 = n) (hpar : (accOf (coreOf s c) i).badPar = []) :
    Issued (.attnBwdDs c x w) s c x w k p (fun t => Effected s t c (Set.Ico dd.off (tdEnd dd)) ∅ {i} ∧
      ∀ b, convBlkOf (blockAt s (gRead k (wfld w 11 7)).toNat) = some b → ∀ m j, m < a.m → j < n →
        tileBits (coreOf t c) dd m j = outCode s c b dd.fmt pr.stamp (m * b.stride + j)
          (fv32 (rne32 (((tileVal (coreOf s c) dx m j).mul ((fv32 (accVal (accOf (coreOf s c) i) m j)).sub
            (fv32 (BitVec.ofNat 32 (ofBytesLE (spmBytes (coreOf s c) (dy.off + 4 * m) 4)))))).mul (fv32 a.scale))))) := by
  obtain ⟨b, hb, hrun, hf, hfits⟩ := plan_bwdDs h hop hds ha hdd hn
  refine issued_of_effect h (by simp [instrWord, hop, hds]) (by simp [queued, hop]) (fun u hu => ?_)
  rw [← hu.acc] at hpar
  have hready : ∃ ovf, bwdDsRun c x (placedCtx k w) pr w a b n u = tileFlag (writeRows (assayCancel u c i) c x 6 dd dd.fmt
      (convRows u c b dd.fmt pr.stamp 0 (grid a.m n (fun m j =>
        fv32 (rne32 (((tileVal (coreOf u c) dx m j).mul ((fv32 (accVal (accOf (coreOf u c) i) m j)).sub
          (fv32 (BitVec.ofNat 32 (ofBytesLE (spmBytes (coreOf u c) (dy.off + 4 * m) 4)))))).mul (fv32 a.scale)))))).1)
      c x pr b dd.fmt ovf := by
    subst hi hdd hdx hdy
    rw [bwdDsRun, guardRows_ready _ hu.ready (by decide), guardRows_ready _ hu.ready (by decide), checkParity_clean _ hpar]
    exact ⟨_, rfl⟩
  obtain ⟨ovf, hready⟩ := hready
  obtain ⟨hwaits, he, hbits⟩ := converted_tile hu (within_assayCancel i) (by decide) hf hfits _ _ _ _ ovf hready
  rw [hrun]
  refine ⟨hwaits, he, fun b' hb' m j hm hj => ?_⟩
  rw [hb] at hb'
  cases hb'
  rw [hbits m j hm hj, Nat.zero_add]
  simp only [tileVal_of_spm hu.byte, spmBytes_of_spm hu.byte, hu.acc]

/-! ### ATTN_MERGE -/

theorem length_mergeRow {q q' : Partial} {d : Nat} (h : q.a.length = d) (h' : q'.a.length = d) :
    (mergeRow q q').a.length = d := by
  rw [mergeRow]
  split
  · simpa using h
  · dsimp only
    split
    · exact h
    · simp [h, h']

theorem length_settleRow (q : Partial) : (settleRow q).a.length = q.a.length := by
  rw [settleRow]
  split
  · simp
  · rfl

/-- A merged block has M rows of D values. -/
theorem mergeRows_shape (k : Core) (off pitch members m d : Nat) : (mergeRows k off pitch members m d).length = m ∧
    ∀ q ∈ mergeRows k off pitch members m d, q.a.length = d := by
  refine ⟨by simp [mergeRows], fun q hq => ?_⟩
  obtain ⟨r, -, rfl⟩ := List.mem_map.1 hq
  have hread : ∀ o, (readPartial k o d r).a.length = d := fun o => by simp [readPartial]
  rw [length_settleRow]
  exact List.foldlRecOn (motive := fun q : Partial => q.a.length = d) _ _ (hread off)
    (fun q hq j _ => length_mergeRow hq (hread _))

theorem plan_merge (h : Issuable s c x w k pr p) (hop : wOp w = 0x33) {a : AttD} {dO : TD}
    (ha : attDOf (blockAt s (gRead k (wfld w 27 23)).toNat) = a) (hdO : tdAt k (wfld w 41 36) = dO) :
    (wbit w 29 = false → p.run = mergeRun c x (placedCtx k w) pr w a none (wfld (gRead k (wfld w 17 13)) 47 0)) ∧
    (wbit w 29 = true → (∃ b, p.run = mergeRun c x (placedCtx k w) pr w a (some b) (wfld (gRead k (wfld w 17 13)) 47 0)) ∧
      dO.fmt < 8 ∧ Fits dO a.m a.d) := by
  have hplan := h.plan
  have hsrc := srcOf_entryOf (k := k) (show tensorSrcs w = [wfld w 27 23, wfld w 22 18, wfld w 17 13] by simp [tensorSrcs, hop])
  have hsrc0 : srcOf (entryOf k w) 0 = gRead k (wfld w 27 23) := hsrc 0
  have hsrc2 : srcOf (entryOf k w) 2 = gRead k (wfld w 17 13) := hsrc 2
  rw [show planOf (placed s c x k w) c x (entryOf k w) = planMerge (placed s c x k w) c x (entryOf k w) by
    simp [planOf, entryOf, hop], planMerge, withPour_placed h, hsrc0, hsrc2] at hplan
  obtain ⟨-, hrest⟩ := withAtt_go hplan
  rw [blockAt_placed, ha] at hrest
  subst hdO
  refine ⟨fun hlast => ?_, fun hlast => ?_⟩
  · rw [show (entryOf k w).word = w from rfl] at hrest
    rw [hlast] at hrest
    obtain ⟨-, hgo⟩ := checked_go.1 hrest
    rw [← Issue.go.inj hgo]
  · rw [show (entryOf k w).word = w from rfl] at hrest
    rw [hlast] at hrest
    obtain ⟨hchecks, hconv⟩ := checked_go.1 hrest
    obtain ⟨-, hchecks⟩ := firstBad_cons.1 hchecks
    obtain ⟨-, hchecks⟩ := firstBad_cons.1 hchecks
    obtain ⟨htile, -⟩ := firstBad_cons.1 hchecks
    obtain ⟨hf, hfits⟩ := tdCheck_none htile
    obtain ⟨b, -, hgo⟩ := withConv_go hconv
    exact ⟨⟨b, by rw [← Issue.go.inj (checked_go.1 hgo).2]⟩, of_decide_eq_true hf, hfits⟩

/-- What a merge that is not the last stores: the row states, and the rows' values 512 bytes further on. -/
def mergeStored (c x off : Nat) (rows : List Partial) (s : State) : State :=
  spmStore (spmStore s c x 6 off (rowStateBytes (rows.map (fun p => (p.m, p.l))))) c x 6 (off + 512)
    (rows.flatMap (fun p => p.a.flatMap (fun v => bytesLE 4 v.toNat)))

theorem mergeStored_spec (h : Ready s c) {off m d : Nat} {rows : List Partial} (hm : m ≤ 64) (hrows : rows.length = m)
    (hd : ∀ q ∈ rows, q.a.length = d) :
    Within s (mergeStored c x off rows s) c (Set.Ico off (off + 512 + 4 * m * d)) ∅ ∅ ∧
    ∀ r, (hr : r < rows.length) → rowState (coreOf (mergeStored c x off rows s) c) off r = (rows[r].m, rows[r].l) := by
  have hvals : (rows.flatMap (fun p => p.a.flatMap (fun v => bytesLE 4 v.toNat))).length = 4 * m * d := by
    rw [length_flatMap_const (w := 4 * d) (fun q hq => by rw [length_flatMap_const (fun _ _ => length_bytesLE 4 _), hd q hq]),
      hrows]
    ring
  have hw1 := within_spmStore h (x := x) (p := 6) (by decide) off (rowStateBytes (rows.map (fun p => (p.m, p.l))))
  have hw2 := within_spmStore (hw1.ready h) (x := x) (p := 6) (by decide) (off + 512)
    (rows.flatMap (fun p => p.a.flatMap (fun v => bytesLE 4 v.toNat)))
  rw [length_rowStateBytes, List.length_map] at hw1
  rw [hvals] at hw2
  refine ⟨(hw1.trans hw2).mono (Set.union_subset (Set.Ico_subset_Ico_right (by omega)) (Set.Ico_subset_Ico_left (by omega)))
    (by simp) (by simp), fun r hr => ?_⟩
  have hstate := rowState_spmStore h (x := x) (port := 6) (by decide) off (rows.map (fun p => (p.m, p.l))) (m := r)
    (by simpa using hr)
  rw [List.getElem_map] at hstate
  rw [mergeStored, hw2.rowState (fun j _ hj hin => absurd (Set.mem_Ico.1 hin).1 (by omega))]
  exact hstate

/-- ATTN_MERGE before the last (R139): the merged row states. -/
theorem merge_issued (h : Issuable s c x w k pr p) (hop : wOp w = 0x33) (hlast : wbit w 29 = false) {a : AttD} {dp : TD}
    {rows : List Partial} (ha : attDOf (blockAt s (gRead k (wfld w 27 23)).toNat) = a) (hdp : tdAt k (wfld w 53 48) = dp)
    (hrows : mergeRows (coreOf s c) dp.off dp.pitch (wfld w 47 42 + 1) a.m a.d = rows) :
    Issued (.attnMerge c x w) s c x w k p (fun t => Effected s t c (Set.Ico dp.off (dp.off + 512 + 4 * a.m * a.d)) ∅ ∅ ∧
      ∀ r, (hr : r < rows.length) → rowState (coreOf t c) dp.off r = (rows[r].m, rows[r].l)) := by
  have hrun := (plan_merge h hop ha rfl).1 hlast
  obtain ⟨hlen, hd⟩ := mergeRows_shape (coreOf s c) dp.off dp.pitch (wfld w 47 42 + 1) a.m a.d
  rw [hrows] at hlen hd
  refine issued_of_effect h (by simp [instrWord, hop]) (by simp [queued, hop]) (fun u hu => ?_)
  rw [← mergeRows_of_spm hu.byte] at hrows
  have hready : ∃ bad, mergeRun c x (placedCtx k w) pr w a none (wfld (gRead k (wfld w 17 13)) 47 0) u =
      mergeStored c x dp.off rows (countCore (countCore (useFree u).2 c 0xB9 1) c 0xBA bad) := by
    subst hdp hrows
    rw [mergeRun, guardRows_ready _ hu.ready (by decide)]
    exact ⟨_, rfl⟩
  obtain ⟨bad, hready⟩ := hready
  have hw0 : Within u (countCore (countCore (useFree u).2 c 0xB9 1) c 0xBA bad) c ∅ ∅ ∅ :=
    (within_useFree.then (within_countCore (by omega) 1)).then (within_countCore (by omega) bad)
  obtain ⟨hw1, hstates⟩ := mergeStored_spec (x := x) (hw0.ready hu.ready) (off := dp.off) (ha ▸ (attDOf_bounds _).1) hlen hd
  have hw := hw0.trans hw1
  rw [hrun, hready]
  exact ⟨hw.waits, hu.effected (hw.toEffected.mono (by simp) (by simp) (by simp)), hstates⟩

/-- ATTN_MERGE at LAST (R139): nothing but the output and the statistics. -/
theorem mergeLast_issued (h : Issuable s c x w k pr p) (hop : wOp w = 0x33) (hlast : wbit w 29 = true) {a : AttD} {dO dst : TD}
    (ha : attDOf (blockAt s (gRead k (wfld w 27 23)).toNat) = a) (hdO : tdAt k (wfld w 41 36) = dO)
    (hdst : tdAt k (wfld w 35 30) = dst) :
    Issued (.attnMerge c x w) s c x w k p (fun t =>
      Effected s t c (Set.Ico dO.off (tdEnd dO) ∪ Set.Ico dst.off (dst.off + 4 * a.m)) ∅ ∅) := by
  obtain ⟨⟨b, hrun⟩, hf, hfits⟩ := (plan_merge h hop ha hdO).2 hlast
  refine issued_of_effect h (by simp [instrWord, hop]) (by simp [queued, hop]) (fun u hu => ?_)
  obtain ⟨hlen, hd⟩ := mergeRows_shape (coreOf u c) (tdAt k (wfld w 53 48)).off (tdAt k (wfld w 53 48)).pitch (wfld w 47 42 + 1)
    a.m a.d
  have hready : ∃ bad codes stats ovf, codes.map List.length = List.replicate a.m a.d ∧ stats.length = a.m ∧
      mergeRun c x (placedCtx k w) pr w a (some b) (wfld (gRead k (wfld w 17 13)) 47 0) u = tileFlag (spmStore (writeRows
        (countCore (countCore (useFree u).2 c 0xB9 1) c 0xBA bad) c x 6 dO dO.fmt codes) c x 6 dst.off (statBytes stats))
        c x pr b dO.fmt ovf := by
    subst hdO hdst
    rw [mergeRun, guardRows_ready _ hu.ready (by decide)]
    refine ⟨_, _, _, _, ?_, ?_, rfl⟩
    · refine (lengths_convRows ..).trans ?_
      rw [List.map_map]
      exact (List.map_eq_replicate_iff.2 (fun q hq => (List.length_map _).trans (hd q hq))).trans
        (congrArg (List.replicate · a.d) hlen)
    · rw [List.length_map, List.length_zipIdx]
      exact hlen
  obtain ⟨bad, codes, stats, ovf, hcodes, hstats, hready⟩ := hready
  have hw0 : Within u (countCore (countCore (useFree u).2 c 0xB9 1) c 0xBA bad) c ∅ ∅ ∅ :=
    (within_useFree.then (within_countCore (by omega) 1)).then (within_countCore (by omega) bad)
  have hrowlen : codes.length = a.m := by simpa using congrArg List.length hcodes
  have hcols : ∀ l ∈ codes, l.length = a.d := fun l hl =>
    List.eq_of_mem_replicate (hcodes ▸ List.mem_map_of_mem hl)
  have hw1 := within_writeRows (x := x) (p := 6) (by decide) hf hcols hfits.rowBytes_le (hw0.ready hu.ready)
  rw [hrowlen] at hw1
  obtain ⟨he, -, -⟩ := stats_after_tile (hw0.ready hu.ready) (hw1.mono hfits.span subset_rfl subset_rfl) stats dst.off dO.fmt ovf
    hready
  rw [hstats] at he
  rw [hrun]
  exact ⟨he.waits.trans hw0.waits, hu.effected ((hw0.toEffected.trans he).mono (by simp) (by simp) (by simp))⟩

end

end Sys2Proof.Machine
end

section
/-! PROOFS. The statement about attention and convolution products. -/

namespace Sys2Proof.Safety

open Sys2Proof Sys2Proof.Machine

section

variable {s t : State} {c m : Nat} {a : AttD} {first : Bool} {rows : List SmRow}

/-- A row of the output map (R88). -/
theorem lt_mapRows {v : ConvD} {p0 n r : Nat} (hr : r < n) : r < mapRows v p0 n ↔ p0 + r < convOH v * convOW v := by
  rw [mapRows]
  omega

theorem getElem_fwdStates_row (hrows : rows.length = a.m) (hm : m < a.m) (z : SmRow) (h : m < (fwdStates a first rows).length) :
    (fwdStates a first rows)[m] = ((rows.getD m z).m, (rows.getD m z).l) := by
  simp only [fwdStates, List.getElem_append, List.length_map, hrows, hm, dif_pos, List.getElem_map]
  rw [List.getD_eq_getElem _ _ (by omega)]

theorem getElem_fwdStates_past (hrows : rows.length = a.m) (hm : a.m ≤ m) (hfirst : first = true)
    (h : m < (fwdStates a first rows).length) : (fwdStates a first rows)[m] = (inf32 true, 0) := by
  subst hfirst
  simp only [fwdStates, List.getElem_append, List.length_map, hrows, Nat.not_lt.2 hm, dif_neg, not_false_iff, if_true,
    List.getElem_replicate]

theorem length_fwdStates (hrows : rows.length = a.m) (ha : a.m ≤ 64) :
    a.m ≤ (fwdStates a first rows).length ∧ (first = true → (fwdStates a first rows).length = 64) := by
  rw [fwdStates, List.length_append, List.length_map, hrows]
  refine ⟨Nat.le_add_right _ _, fun h => ?_⟩
  subst h
  simp
  omega

theorem getD_map_factor (hm : m < rows.length) (z : SmRow) : (rows.map (·.f)).getD m 0 = (rows.getD m z).f := by
  rw [List.getD_eq_getElem _ _ (by rwa [List.length_map]), List.getD_eq_getElem _ _ hm, List.getElem_map]

/-- The probabilities of one row, as the operand of that row's steps. -/
theorem stepsOut_fwdProbs (int : Bool) (a : AttD) (rows : List SmRow) (v : Opnd) (m j kk n fuel q : Nat) (acc : W32 × Bool) :
    stepsOut int (fwdProbs a rows) v m j kk n fuel q acc =
      stepsOut int ⟨fun _ q => fvOf a.pf ((rows.getD m ⟨0, 0, 0, []⟩).p.getD q 0), fun _ _ => .fin false 1 0⟩
        v m j kk n fuel q acc := by
  refine stepsOut_congr (fun _ _ => ?_) ?_ (fun _ => ?_) ?_ _ _ _ <;> rfl

/-- A footprint of two spans of bytes. -/
theorem outside_of_effected {V A : Set Nat} {lo hi lo' hi' : Nat} (h : Effected s t c (Set.Ico lo hi ∪ Set.Ico lo' hi') V A) :
    (∀ d, d ≠ c → coreOf t d = coreOf s d) ∧
      ∀ o, (o < lo ∨ hi ≤ o) → (o < lo' ∨ hi' ≤ o) → spmByte (coreOf t c) o = spmByte (coreOf s c) o :=
  ⟨h.others, fun o h1 h2 => h.bytes o (by simp only [Set.mem_union, Set.mem_Ico]; omega)⟩

end

/-- Settles O60: the effect at issue of a convolution product and of each attention instruction, with its footprint in the core
(`conv_single_issued`, and `fwd_issued` to `mergeLast_issued`). -/
theorem attentionAndConvolution : Obligations.AttentionAndConvolution := by
  unfold Obligations.AttentionAndConvolution
  intro s c x w k pr p h hpar old wf ad outside2
  refine ⟨?conv, ?fwd, ?norm, ?bwd, ?merge⟩
  case conv =>
    intro hop hmode f i da v p0 st hwf
    have hn : f.n ≤ 256 := (convFields_bounds w).2.2
    refine issued_mono (conv_single_issued h hop rfl hmode hwf rfl rfl) (fun t ⟨he, hprod⟩ => ?_)
    refine ⟨he.sameMem, he.spmKept, fun m n hm hn' => ?_, fun m n hn' ho =>
      hprod.outside hn' (fun hin => ho.elim (Nat.not_le.2 hin.1) (Nat.not_le.2 hin.2.1)), fun j hj => he.sets j hj⟩
    have hmap := lt_mapRows (v := v) (p0 := p0) hm
    split
    · next hin => exact hprod.inside hn hm hn' (decide_eq_true (hmap.2 hin))
    · next hout => exact hprod.outside (hn'.trans_le hn) (fun ho => hout (hmap.1 (of_decide_eq_true ho.2.2)))
  case fwd =>
    intro hop a kpos n a0 a1 dq dk dv dr first steps hwf0 hwf1 hinj
    refine issued_mono (fwd_issued h hop rfl rfl rfl rfl rfl rfl rfl rfl rfl rfl hwf0 hwf1 hpar hinj)
      (fun t ⟨he, hscores, rows, hrows, hstates, hout⟩ => ?_)
    intro row
    have hlen : rows.length = a.m := hrows ▸ length_fwdRows ..
    have hrow : ∀ m, m < a.m → rows.getD m ⟨0, 0, 0, []⟩ = row m := fun m hm => hrows ▸ getD_fwdRows hm ..
    obtain ⟨hall, h64⟩ := length_fwdStates (first := first) hlen (attDOf_bounds _).1
    refine ⟨he.sameMem, he.spmOutside, hscores, fun m hm => ?_, fun hfirst m hm hm64 => ?_, fun m j hm hj => ?_,
      fun j h0 h1 => he.sets j (by simpa using ⟨h0, h1⟩)⟩
    · rw [← hrow m hm]
      exact (hstates m (hm.trans_le hall)).trans (getElem_fwdStates_row hlen hm _ _)
    · have hlt := hm64.trans_eq (h64 hfirst).symm
      exact (hstates m hlt).trans (getElem_fwdStates_past hlen hm hfirst hlt)
    · rw [← hrow m hm]
      refine (hout m j hm hj).trans ?_
      rw [getD_map_factor (hlen.symm ▸ hm) ⟨0, 0, 0, []⟩]
      exact congrArg Prod.fst (stepsOut_fwdProbs ..)
  case norm =>
    intro hop a i dO dst rs hwf
    refine issued_mono (norm_issued h hop rfl rfl rfl rfl rfl hwf (hpar i)) (fun t ⟨he, hvals, htile, f, hstats⟩ => ?_)
    refine ⟨he.sameMem, outside_of_effected he, hvals, fun j hj => he.sets j hj, htile, fun m hm hsum hnan hinf hlow => ?_⟩
    refine (hstats m hm).trans ?_
    rw [rowStats_plain hsum hnan hinf hlow]
  case bwd =>
    intro hop a i dd dx n kpos z
    refine ⟨fun hds => ?_, fun hds => ?_⟩
    · exact issued_mono (bwdP_issued h hop hds rfl rfl rfl rfl rfl rfl (hpar i))
        (fun t ⟨he, hrows⟩ => ⟨he.sameMem, he.sameAccs, he.spmOutside, hrows⟩)
    · exact issued_mono (bwdDs_issued h hop hds rfl rfl rfl rfl rfl rfl (hpar i))
        (fun t ⟨he, hrows⟩ => ⟨he.sameMem, he.sameAccs, he.spmOutside, hrows⟩)
  case merge =>
    intro hop a dp nm dO dst rows
    cases hlast : wbit w 29 with
    | false =>
      refine issued_mono (merge_issued h hop hlast rfl rfl rfl) (fun t ⟨he, hstates⟩ => ?_)
      refine ⟨he.sameMem, he.sameAccs, fun _ => ⟨he.spmOutside, fun m hm => ?_⟩, fun hf => (nomatch hf)⟩
      have hm' : m < rows.length := hm.trans_eq (mergeRows_shape _ _ _ _ _ _).1.symm
      rw [List.getD_eq_getElem _ _ hm']
      exact hstates m hm'
    | true =>
      exact issued_mono (mergeLast_issued h hop hlast rfl rfl rfl)
        (fun t he => ⟨he.sameMem, he.sameAccs, fun hf => (nomatch hf), fun _ => outside_of_effected he⟩)

end Sys2Proof.Safety
end

section
/-! PROOFS. Stores of a core's units in tier memory (R23, R201, R210, R269): the bytes that a pour's write stores, and
what it leaves in the cores and the registers. -/

namespace Sys2Proof.Machine

/-- Where a write answers without an error, no controller of its bytes is down. -/
theorem tierDown_of_writeFails {s : State} {a n : Nat} (h : writeFails s a n = false) (i : Nat) (h1 : a ≤ i) (h2 : i < a + n) :
    tierDown s i = false := by
  simp only [writeFails, Bool.or_eq_false_iff] at h
  obtain ⟨⟨hdown, -⟩, -⟩ := h
  have hclean : memBadIn { s with memBad := [] } a n = false := by
    rw [memBadIn, Bool.or_eq_false_iff]
    exact ⟨hdown, List.any_eq_false.2 (fun _ _ => by simp [smGet])⟩
  exact tierDown_of_memBadIn hclean i h1 h2

/-- Nothing of the cores differs but data-cache lines of core `c`, and no register but those that records write. -/
structure UnitStored (s t : State) (c : Nat) : Prop where
  same : regsWf s → ∀ o, logReg o = false → rd t o = rd s o
  others : ∀ d, d ≠ c → coreOf t d = coreOf s d
  core : coreOf t c = { coreOf s c with dLines := (coreOf t c).dLines }

namespace UnitStored

variable {s t : State} {c : Nat}

theorem refl (s : State) (c : Nat) : UnitStored s s c := ⟨fun _ _ _ => rfl, fun _ _ => rfl, rfl⟩

theorem ctxOf (h : UnitStored s t c) (y : Nat) : ctxOf t c y = Machine.ctxOf s c y := by
  rw [Machine.ctxOf, h.core]
  rfl

theorem spm (h : UnitStored s t c) : (coreOf t c).spm = (coreOf s c).spm := by
  rw [h.core]

theorem flights (h : UnitStored s t c) : (coreOf t c).flights = (coreOf s c).flights := by
  rw [h.core]

theorem rget (h : UnitStored s t c) (hs : regsWf s) {o : Nat} (ho : logReg o = false) (f : Fld) :
    rget t o f = Machine.rget s o f := by
  rw [Machine.rget, Machine.rget, h.same hs o ho]

end UnitStored

section

variable {s : State} {c x a : Nat} {bs : List Byte}

/-- Dropping data-cache lines stores nothing. -/
theorem memByte_dropData (s : State) (c a n j : Nat) : memByte (dropData s c a n) j = memByte s j := memByte_congr rfl rfl j

theorem pourWrite_stores (h : writeFails s a bs.length = false) :
    pourWrite s c x a bs = dropData (memWrite s a bs) c a bs.length := by
  rw [pourWrite, if_neg (by simp [h])]

theorem unitStored_pourWrite (h : writeFails s a bs.length = false) : UnitStored s (pourWrite s c x a bs) c := by
  have hlog := logged_memWrite s a bs
  rw [pourWrite_stores h, dropData]
  refine ⟨fun hs o ho => (rd_modCore _ c _ o).trans (hlog.same hs o ho), fun d hd => ?_, ?_⟩
  · rw [coreOf_modCore_other _ c d _ hd, coreOf_congr hlog.cores]
  · rw [coreOf_modCore_same, coreOf_congr hlog.cores]

/-- A pour's write that answers without an error puts its bytes and no other. -/
theorem memByte_pourWrite (h : writeFails s a bs.length = false) (hs : memWf s = true) :
    (∀ j, (j < a ∨ a + bs.length ≤ j) → memByte (pourWrite s c x a bs) j = memByte s j) ∧
    ∀ j, j < bs.length → memByte (pourWrite s c x a bs) (a + j) = bs.getD j 0 := by
  rw [pourWrite_stores h]
  refine ⟨fun j hj => ?_, fun j hj => ?_⟩
  · rw [memByte_dropData]
    exact (memByte_memWrite s a bs hs j).2 (fun hin => by have := hin.1; omega)
  · have hup := tierDown_of_writeFails h (a + j) (by omega) (by omega)
    rw [memByte_dropData, (memByte_memWrite s a bs hs _).1 ⟨by omega, hup⟩, Nat.add_sub_cancel_left]

end

end Sys2Proof.Machine
end

section
/-! PROOFS. The end of an update sweep (R154, R161, R164, R267): what UPDATE_SWEEP_COMPLETE does by the operation that the
sweep reached, and what the release of the engine leaves before the new record is stored. -/

namespace Sys2Proof.Machine

section

variable {s : State} {c x : Nat} {pr : Pour} {u : UpdRun}

/-! ### What the sweep reached -/

/-- The index of the CALL or END that a sweep reaches. -/
def sweepEndAt (u : UpdRun) : Nat := u.opAt + (sweepOps u.prog u.opAt).length

/-- The run of a program whose sweep reached a CALL: its kernel runs, and the next sweep starts after the CALL. -/
def calledRun (u : UpdRun) : UpdRun :=
  { u with opAt := sweepEndAt u + 1, sweep := u.sweep + 1, inKernel := true, busy := false }

/-- The context whose sweep reached CALL k: it continues at entry k of the kernel table (R154). -/
def calledCtx (u : UpdRun) (k : Ctx) : Ctx :=
  { k with pc := BitVec.ofNat 48 (u.ktab.getD (uImm (u.prog.getD (sweepEndAt u) 0)) 0).toNat, updRun := some (calledRun u) }

/-- Without a pour, a program and a sweep under way nothing ends. -/
theorem sweepComplete_idle (h : (ctxOf s c x).pour = none ∨ (ctxOf s c x).updRun = none ∨
    ∃ u, (ctxOf s c x).updRun = some u ∧ u.busy = false) : sweepComplete s c x = s := by
  unfold sweepComplete
  dsimp only
  split
  · next pr u hp hu =>
    obtain h | h | ⟨v, hv, hbusy⟩ := h
    · simp [hp] at h
    · simp [hu] at h
    · rw [if_pos]
      rw [hu, Option.some.injEq] at hv
      simp [hv, hbusy]
  · rfl

section Busy

variable (hp : (ctxOf s c x).pour = some pr) (hu : (ctxOf s c x).updRun = some u) (hbusy : u.busy = true)
  (hbefore : beforeCommit (ctxOf s c x) = true)

include hp hu hbusy hbefore

theorem sweepComplete_call (hop : uOp (u.prog.getD (sweepEndAt u) 0) = 0x20) :
    sweepComplete s c x = modCtx s c x (calledCtx u) := by
  unfold sweepComplete
  simp only [hp, hu, hbusy, hbefore, Bool.not_true, Bool.or_self, Bool.false_eq_true, if_false]
  exact if_pos hop

theorem sweepComplete_end (hop : uOp (u.prog.getD (sweepEndAt u) 0) ≠ 0x20) :
    sweepComplete s c x = updEnd s c x pr (ublkOf u.blk) u (hasOp u.prog 0x18) := by
  unfold sweepComplete
  simp only [hp, hu, hbusy, hbefore, Bool.not_true, Bool.or_self, Bool.false_eq_true, if_false]
  exact if_neg hop

end Busy

/-! ### The results of a program -/

variable {b : UBlk}

/-- The fields of the word that UPD_LAST takes. -/
theorem wfld_results {m a n f : Nat} (hm : m < 2 ^ 16) (ha : a < 2 ^ 8) (hn : n < 2 ^ 8) (hf : f < 2) :
    let w : Word := BitVec.ofNat 64 (m <<< 32 + a <<< 16 + n <<< 8 + f)
    wfld w 0 0 = f ∧ wfld w 23 16 = a ∧ wfld w 15 8 = n ∧ wfld w 47 32 = m := by
  intro w
  refine ⟨?_, ?_, ?_, ?_⟩ <;> rw [wfld_ofNat _ (by decide)] <;> simp only [Nat.shiftLeft_eq] <;> omega

/-- The two halves of a word. -/
theorem wfld_halves (hi lo : W32) :
    let w : Word := BitVec.ofNat 64 (hi.toNat <<< 32 + lo.toNat)
    wfld w 31 0 = lo.toNat ∧ wfld w 63 32 = hi.toNat := by
  intro w
  have := hi.isLt
  have := lo.isLt
  refine ⟨?_, ?_⟩ <;> rw [wfld_ofNat _ (by decide)] <;> simp only [Nat.shiftLeft_eq] <;> omega

/-- M of a program's results, 0x8000 where it had no non-zero update value (R164). -/
def maxCode (u : UpdRun) : Nat := match u.mMax with | some m => wrapTo 16 m | none => 0x8000

theorem maxCode_lt (u : UpdRun) : maxCode u < 2 ^ 16 := by
  unfold maxCode
  split
  · exact wrapTo_lt 16 _
  · decide

theorem rUPD_LAST_ne_rUPD_NORM (c : Nat) : rUPD_LAST c ≠ rUPD_NORM c := by
  unfold rUPD_LAST rUPD_NORM
  omega

theorem length_recordBytes : (recordBytes s c pr b u).length = 256 := by
  simp only [recordBytes, List.length_append, length_bytesLE]

/-! ### The release of the engine -/

/-- The state in which a program that reached END has released the engine, before its record is stored. -/
def released (s : State) (c x : Nat) (pr : Pour) (b : UBlk) (u : UpdRun) : State :=
  modCtx (modCore (updDone s c pr b u) c
    (fun k => { k with flights := k.flights.filter (fun f => !(f.ctx = x && f.op = 0x2F)) })) c x
    (fun t => { t with updRun := none, pc := u.retPc })

theorem updEnd_stores {a buf : Nat} (h : writeBase pr b.record = some (a, buf)) :
    updEnd s c x pr b u false = pourWrite (released s c x pr b u) c x a (recordBytes s c pr b u) := by
  simp only [updEnd, h, Bool.false_eq_true, if_false]
  rfl

theorem updEnd_no_record (h : writeBase pr b.record = none) : updEnd s c x pr b u false = released s c x pr b u := by
  simp only [updEnd, h, Bool.false_eq_true, if_false]
  rfl

theorem ctxOf_released : ctxOf (released s c x pr b u) c x = { ctxOf s c x with updRun := none, pc := u.retPc } := by
  rw [released, ctxOf_modCtx_same, (ctxsKept_modCore _ c rfl).ctxOf]
  rfl

theorem ctxOf_released_other {y : Nat} (hy : y ≠ x) : ctxOf (released s c x pr b u) c y = ctxOf s c y := by
  rw [released, ctxOf_modCtx_other _ _ _ hy, (ctxsKept_modCore _ c rfl).ctxOf]
  rfl

theorem coreOf_released_other {d : Nat} (hd : d ≠ c) : coreOf (released s c x pr b u) d = coreOf s d := by
  rw [released, modCtx, coreOf_setCtx_other _ _ _ _ _ hd, coreOf_modCore_other _ _ _ _ hd]
  rfl

theorem spm_released : (coreOf (released s c x pr b u) c).spm = (coreOf s c).spm := by
  rw [released, modCtx, coreOf_setCtx_same, coreOf_modCore_same]
  rfl

/-- The context's UPDATE is no longer at work in the core, and every other instruction still is. -/
theorem mem_flights_released (f : Flight) : f ∈ (coreOf (released s c x pr b u) c).flights ↔
    f ∈ (coreOf s c).flights ∧ ¬(f.ctx = x ∧ f.op = 0x2F) := by
  have hflights : (coreOf (released s c x pr b u) c).flights =
      (coreOf s c).flights.filter (fun f => !(f.ctx = x && f.op = 0x2F)) := by
    rw [released, modCtx, coreOf_setCtx_same, coreOf_modCore_same]
    rfl
  simp [hflights, imp_iff_not_or]

theorem regsWf_released (hs : regsWf s) : regsWf (released s c x pr b u) := regsWf_rwr _ _ _ (regsWf_rwr _ _ _ hs)

theorem rd_released_last (hs : regsWf s) : rd (released s c x pr b u) (rUPD_LAST c) =
    BitVec.ofNat 64 (maxCode u <<< 32 + wrapTo 8 (recU s pr b) <<< 16 + wrapTo 8 (uNext s c pr b u.mMax) <<< 8 + b2n u.sat) := by
  rw [released, rd_modCtx, rd_modCore, updDone, rd_rwr_other _ _ _ _ (regsWf_rwr _ _ _ hs) (rUPD_LAST_ne_rUPD_NORM c),
    rd_rwr_same _ _ _ hs]
  rfl

theorem rd_released_norm (hs : regsWf s) : rd (released s c x pr b u) (rUPD_NORM c) =
    BitVec.ofNat 64 ((uConst u 17).toNat <<< 32 + (uConst u 16).toNat) := by
  rw [released, rd_modCtx, rd_modCore, updDone, rd_rwr_same _ _ _ (regsWf_rwr _ _ _ hs)]

/-- The registers of the results are none that records write. -/
theorem logReg_results (hc : c < nCores) : logReg (rUPD_LAST c) = false ∧ logReg (rUPD_NORM c) = false := by
  unfold nCores at hc
  simp only [logReg, isCounterOff, Bool.or_eq_false_iff, Bool.and_eq_false_iff, decide_eq_false_iff_not]
  unfold rUPD_LAST rUPD_NORM rCNT_SAT rTRC_STATUS rFLT_CPER_PTR rFLT_CPER_HEAD rCQ_STATUS
  omega

/-! ### END of a program without SSQ -/

theorem writeFails_released (a n : Nat) : writeFails (released s c x pr b u) a n = writeFails s a n := rfl

/-- The record's store leaves what the release of the engine left. -/
theorem unitStored_updEnd (hok : ∀ a buf, writeBase pr b.record = some (a, buf) → writeFails s a 256 = false) :
    UnitStored (released s c x pr b u) (updEnd s c x pr b u false) c := by
  cases h : writeBase pr b.record with
  | none =>
    rw [updEnd_no_record h]
    exact .refl _ c
  | some slot =>
    obtain ⟨a, buf⟩ := slot
    rw [updEnd_stores h]
    refine unitStored_pourWrite ?_
    rw [length_recordBytes, writeFails_released]
    exact hok a buf h

theorem sameMem_updEnd (h : writeBase pr b.record = none) : Safety.SameMem s (updEnd s c x pr b u false) := by
  rw [updEnd_no_record h]
  exact fun a => memByte_congr rfl rfl a

/-- The new record takes its slot, and no other byte of memory changes (R164). -/
theorem memByte_updEnd {a buf : Nat} (h : writeBase pr b.record = some (a, buf)) (hok : writeFails s a 256 = false)
    (hs : memWf s = true) :
    (∀ j, (j < a ∨ a + 256 ≤ j) → memByte (updEnd s c x pr b u false) j = memByte s j) ∧
    ∀ j, j < 256 → memByte (updEnd s c x pr b u false) (a + j) = (recordBytes s c pr b u).getD j 0 := by
  have hstore := memByte_pourWrite (s := released s c x pr b u) (c := c) (x := x) (a := a) (bs := recordBytes s c pr b u)
    (by rw [length_recordBytes, writeFails_released]; exact hok) hs
  rw [length_recordBytes, ← updEnd_stores h] at hstore
  exact ⟨fun j hj => (hstore.1 j hj).trans (memByte_congr rfl rfl j), hstore.2⟩

end

end Sys2Proof.Machine

namespace Sys2Proof.Safety

open Sys2Proof Sys2Proof.Machine

/-! ### The statement -/

/-- Settles O57: a sweep that reached CALL changes its context alone; one that reached END releases the engine, and the record's
store leaves all of that. -/
theorem updateSweepEnds : Obligations.UpdateSweepEnds := by
  unfold Obligations.UpdateSweepEnds
  intro s c x hc hx hcanon k
  obtain ⟨⟨hmem, -⟩, hregs⟩ := hcanon
  have hunit : ctxOk c x = true := by simp [ctxOk, hc, hx]
  refine ⟨fun hidle => runs_of_onUnit rfl hunit (sweepComplete_idle hidle), fun pr u hp hu hbusy hbefore => ?_⟩
  intro b i w
  refine ⟨fun hcall => runs_of_onUnit rfl hunit ?call, fun hend hssq hok => runs_of_onUnit rfl hunit ?ends⟩
  case call =>
    rw [sweepComplete_call hp hu hbusy hbefore hcall]
    exact ⟨onlyCtx_of_setCtx s c x _, ctxOf_modCtx_same s c x _⟩
  case ends =>
    rw [sweepComplete_end hp hu hbusy hbefore hend, hssq]
    have hstored : UnitStored (released s c x pr b u) (updEnd s c x pr b u false) c := unitStored_updEnd hok
    obtain ⟨hlast, hnorm⟩ := logReg_results hc
    have last := fun f => hstored.rget (regsWf_released hregs) hlast f
    have norm := fun f => hstored.rget (regsWf_released hregs) hnorm f
    obtain ⟨hsat, happlied, hnext, hmax⟩ := wfld_results (maxCode_lt u) (wrapTo_lt 8 (recU s pr b))
      (wrapTo_lt 8 (uNext s c pr b u.mMax)) (show b2n u.sat < 2 by cases u.sat <;> decide)
    rw [← rd_released_last (x := x) hregs] at hsat happlied hnext hmax
    obtain ⟨hS, hF⟩ := wfld_halves (uConst u 17) (uConst u 16)
    rw [← rd_released_norm (x := x) (pr := pr) (b := b) hregs] at hS hF
    exact ⟨(hstored.ctxOf x).trans ctxOf_released, fun y hy => (hstored.ctxOf y).trans (ctxOf_released_other hy),
      fun d hd => (hstored.others d hd).trans (coreOf_released_other hd), hstored.spm.trans spm_released,
      fun f => by rw [hstored.flights]; exact mem_flights_released f,
      (last _).trans hsat, (last _).trans happlied, (last _).trans hnext, (last _).trans hmax,
      (norm _).trans hS, (norm _).trans hF, sameMem_updEnd, fun a buf ha => memByte_updEnd ha (hok a buf ha) hmem⟩

end Sys2Proof.Safety
end

section
/-! PROOFS. The Sprue cache of a die (R191–R195, R200): what a lookup, a fill and INV_ALL do to its lines and fills. -/

namespace Sys2Proof.Machine

/-! ### Lines are only dropped -/

/-- No cache holds a line it did not hold before. -/
def LinesWithin (s t : State) : Prop := ∀ d, (sprueOf t d).lines ⊆ (sprueOf s d).lines

namespace LinesWithin

variable {s t u : State}

theorem of_sprue (h : t.sprue = s.sprue) : LinesWithin s t := fun d => by
  simp only [sprueOf, h]
  exact List.Subset.refl _

theorem trans (h : LinesWithin s t) (h' : LinesWithin t u) : LinesWithin s u := fun d => List.Subset.trans (h' d) (h d)

end LinesWithin

@[simp] theorem sprueOf_setSprue_same (s : State) (d : Nat) (k : Sprue) : sprueOf (setSprue s d k) d = k :=
  kGet_kSet_same _ _ _ _

theorem sprueOf_setSprue_other (s : State) {d e : Nat} (k : Sprue) (h : e ≠ d) :
    sprueOf (setSprue s d k) e = sprueOf s e := kGet_kSet_other _ _ _ _ _ h

/-- A cache whose lines are cut holds no new line. -/
theorem linesWithin_setSprue {s : State} {d : Nat} {k : Sprue} (h : k.lines ⊆ (sprueOf s d).lines) :
    LinesWithin s (setSprue s d k) := fun e => by
  by_cases he : e = d
  · rw [he, sprueOf_setSprue_same]
    exact h
  · rw [sprueOf_setSprue_other _ _ he]
    exact List.Subset.refl _

theorem sprue_countUp (s : State) (off n : Nat) : (countUp s off n).sprue = s.sprue := by rw [countUp_frame]

@[simp] theorem sprueOf_countDev (s : State) (j n e : Nat) : sprueOf (countDev s j n) e = sprueOf s e := by
  rw [sprueOf, countDev, sprue_countUp, sprueOf]

@[simp] theorem sprueOf_countCore (s : State) (c i n e : Nat) : sprueOf (countCore s c i n) e = sprueOf s e := by
  rw [sprueOf, countCore, sprue_countUp, sprueOf]

theorem linesWithin_countUp (s : State) (off n : Nat) : LinesWithin s (countUp s off n) := .of_sprue (sprue_countUp s off n)

theorem linesWithin_rput (s : State) (o : Nat) (f : Fld) (v : Nat) : LinesWithin s (rput s o f v) := .of_sprue rfl

theorem linesWithin_dropSprue (s : State) (d : Nat) (hit : Nat → Bool) : LinesWithin s (dropSprue s d hit) := by
  unfold dropSprue
  dsimp only
  split
  · exact .of_sprue rfl
  · exact (linesWithin_setSprue (List.filter_subset_self _)).trans (linesWithin_countUp _ _ _)

theorem linesWithin_dropLines (s : State) (a n : Nat) : LinesWithin s (dropLines s a n) :=
  List.foldlRecOn (motive := LinesWithin s) _ _ (.of_sprue rfl) (fun t ht d _ => ht.trans (linesWithin_dropSprue t d _))

theorem linesWithin_memWrite (s : State) (a : Nat) (bs : List Byte) : LinesWithin s (memWrite s a bs) := by
  unfold memWrite
  dsimp only
  refine .trans ?_ (linesWithin_dropLines _ a bs.length)
  rw [foldl_setBad_frame (fun i => (a / 8 + i) * 8) false]
  exact .of_sprue rfl

theorem linesWithin_raiseDev (s : State) (code core : Nat) (body : List Word) :
    LinesWithin s (raiseDev s code core body) := .of_sprue (by rw [raiseDev, postRec_frame])

theorem linesWithin_cperWrite (s : State) (i : CperInfo) : LinesWithin s (cperWrite s i) := by
  unfold cperWrite
  dsimp only
  have copied : ∀ m v, LinesWithin s (rput { s with mram := m } rFLT_CPER_PTR fFLT_CPER_PTR_NEXT v) := fun _ _ => .of_sprue rfl
  split
  · exact .of_sprue rfl
  · split
    · refine .trans ?_ (linesWithin_raiseDev _ _ _ _)
      have stored := fun m v a bs => (copied m v).trans (linesWithin_memWrite _ a bs)
      split
      · exact (stored _ _ _ _).trans ((linesWithin_rput _ _ _ _).trans (linesWithin_rput _ _ _ _))
      · exact stored _ _ _ _
    · exact ((copied _ _).trans (linesWithin_rput _ _ _ _)).trans (linesWithin_raiseDev _ _ _ _)

theorem linesWithin_enterDrain (s : State) : LinesWithin s (enterDrain s) := by
  unfold enterDrain
  dsimp only
  split
  · exact .of_sprue rfl
  · refine List.foldlRecOn (motive := LinesWithin s) _ _ ?_ (fun t ht _ _ => ht.trans (.of_sprue rfl))
    have fatal : ∀ t i code core body, t.sprue = s.sprue → LinesWithin s (raiseDev (cperWrite t i) code core body) :=
      fun t i _ _ _ ht => (LinesWithin.of_sprue ht).trans ((linesWithin_cperWrite t i).trans (linesWithin_raiseDev _ _ _ _))
    have marked : ∀ t m, LinesWithin s t → LinesWithin s { t with mram := m } := fun t m ht => ht.trans (.of_sprue rfl)
    exact marked _ _ (fatal _ _ _ _ _ rfl)

/-! ### What a lookup drops -/

theorem linesWithin_sharedFault (s : State) (die unit inst : Nat) (detail : Word) :
    LinesWithin s (sharedFault s die unit inst detail) :=
  (linesWithin_cperWrite s _).trans (linesWithin_enterDrain _)

theorem linesWithin_bankFault (s : State) (d bank : Nat) : LinesWithin s (bankFault s d bank) :=
  (linesWithin_rput s _ _ _).trans (linesWithin_sharedFault _ _ _ _ _)

theorem sprue_cacheErr (s : State) (d line w : Nat) (f : Fld) : (cacheErr s d line w f).sprue = s.sprue := by
  unfold cacheErr
  dsimp only
  split <;> rfl

/-- Nothing is held under a key. -/
def WayEmpty (s : State) (d key : Nat) : Prop := ∀ e ∈ (sprueOf s d).lines, e.1 ≠ key

theorem WayEmpty.mono {s t : State} {d key : Nat} (h : WayEmpty s d key) (hw : LinesWithin s t) : WayEmpty t d key :=
  fun e he => h e (hw d he)

theorem wayEmpty_dropWay (s : State) (d line w : Nat) : WayEmpty (dropWay s d line w) d (wayKey line w) := by
  intro e he
  rw [dropWay, sprueOf_setSprue_same] at he
  exact of_decide_eq_true (List.mem_filter.1 he).2

theorem linesWithin_cacheMiss (s : State) (d c line : Nat) (na : Bool) : LinesWithin s (cacheMiss s d c line na) := by
  have counted : LinesWithin s (countCore (countDev s (0x4600 + 16 * d + 1) 1) c 0xB1 1) :=
    (linesWithin_countUp _ _ _).trans (linesWithin_countUp _ _ _)
  unfold cacheMiss
  dsimp only
  split
  · exact counted.trans (linesWithin_countUp _ _ _)
  · split
    · exact counted
    · exact counted.trans (linesWithin_setSprue (List.Subset.refl _))

/-- A line found uncorrectable is dropped, and nothing that follows holds it again (R194). -/
theorem wayEmpty_cacheUncorrected (s : State) (d c line w : Nat) (na : Bool) :
    WayEmpty (cacheUncorrected s d c line w na) d (wayKey line w) := by
  unfold cacheUncorrected
  dsimp only
  refine WayEmpty.mono ?_ (linesWithin_cacheMiss _ _ _ _ _)
  split
  · exact (wayEmpty_dropWay _ _ _ _).mono (linesWithin_bankFault _ _ _)
  · exact wayEmpty_dropWay _ _ _ _

theorem linesWithin_dropWay (s : State) (d line w : Nat) : LinesWithin s (dropWay s d line w) :=
  linesWithin_setSprue (List.filter_subset_self _)

/-- A way is emptied once its error is marked. -/
theorem linesWithin_dropMarked {s t : State} {d line w : Nat} {m : KMap Nat} (ht : LinesWithin s t) :
    LinesWithin s (dropWay (setSprue t d { sprueOf t d with ueAt := m }) d line w) :=
  have marked : LinesWithin t (setSprue t d { sprueOf t d with ueAt := m }) :=
    linesWithin_setSprue (List.Subset.refl (sprueOf t d).lines)
  (ht.trans marked).trans (linesWithin_dropWay _ d line w)

theorem linesWithin_cacheUncorrected (s : State) (d c line w : Nat) (na : Bool) :
    LinesWithin s (cacheUncorrected s d c line w na) := by
  have recorded : LinesWithin s (cacheErr (countDev (monEvent s 2 1) (0x4600 + 16 * d + 4) 1) d line w fCACHE_ERR_DATA_UE) :=
    .of_sprue (by simp only [sprue_cacheErr, countDev, sprue_countUp]; rfl)
  unfold cacheUncorrected
  refine LinesWithin.trans ?_ (linesWithin_cacheMiss _ _ _ _ _)
  split
  · exact (linesWithin_dropMarked (recorded.trans (linesWithin_cperWrite _ _))).trans (linesWithin_bankFault _ _ _)
  · exact linesWithin_dropMarked (recorded.trans (linesWithin_cperWrite _ _))

theorem linesWithin_cacheHit (s : State) (d c a : Nat) (na : Bool) (upset : BitVec 80) :
    LinesWithin s (cacheHit s d c a na upset) := by
  have found : ∀ two, LinesWithin s (countCore (countDev (cacheErr (countDev (ceFound s (d, 0xFF, 4, a / 256 % 96) two)
      (0x4600 + 16 * d + 3) 1) d (a / 256) (sprueWay (sprueOf s d) (a / 256)) fCACHE_ERR_DATA_CE) (0x4600 + 16 * d) 1) c 0xB0 1) :=
    fun two => .of_sprue (by simp only [sprue_cacheErr, countDev, countCore, sprue_countUp]; rfl)
  unfold cacheHit
  extract_lets line w hit corrected
  split
  · exact (linesWithin_countUp _ _ _).trans (linesWithin_countUp _ _ _)
  · exact found false
  · exact found true
  · exact linesWithin_cacheUncorrected _ _ _ _ _ _
  · exact linesWithin_cacheUncorrected _ _ _ _ _ _

/-! ### A lookup -/

section

variable {s : State} {d c a : Nat} {na : Bool} {upset : BitVec 80}

theorem cacheLookup_bypass {tag : Option Nat} (hb : rflag s (rCACHE_CTRL d) fCACHE_CTRL_BYPASS = true) :
    cacheLookup s d c a na upset tag = s := by simp [cacheLookup, hb]

/-- A way whose tag parity fails is dropped before the lookup (R194). -/
theorem wayEmpty_cacheLookup {v : Nat} (hb : rflag s (rCACHE_CTRL d) fCACHE_CTRL_BYPASS = false) (ha : isTier a = true) :
    WayEmpty (cacheLookup s d c a na upset (some v)) d (wayKey (a / 256) v) := by
  have dropped := wayEmpty_dropWay (cacheErr (countDev s (0x4600 + 16 * d + 5) 1) d (a / 256) v fCACHE_ERR_TAG_ERR) d (a / 256) v
  rw [cacheLookup, hb, ha]
  simp only [Bool.not_true, Bool.or_self, Bool.false_eq_true, if_false]
  split
  · exact dropped.mono (linesWithin_cacheHit _ _ _ _ _ _)
  · exact dropped.mono (linesWithin_cacheMiss _ _ _ _ _)

theorem cacheLookup_hit (hb : rflag s (rCACHE_CTRL d) fCACHE_CTRL_BYPASS = false) (ha : isTier a = true)
    (h : sprueHas (sprueOf s d) (a / 256) = true) :
    cacheLookup s d c a na upset none = cacheHit s d c a na upset := by simp [cacheLookup, hb, ha, h]

theorem cacheLookup_miss (hb : rflag s (rCACHE_CTRL d) fCACHE_CTRL_BYPASS = false) (ha : isTier a = true)
    (h : sprueHas (sprueOf s d) (a / 256) = false) :
    cacheLookup s d c a na upset none = cacheMiss s d c (a / 256) na := by simp [cacheLookup, hb, ha, h]

end

/-! ### What the commands leave as it was -/

/-- Only one die's cache, registers, trace and the free-value counter may differ. -/
structure CacheOnly (s t : State) (d : Nat) : Prop where
  frame : t = { s with sprue := t.sprue, regs := t.regs, trc := t.trc, free := t.free }
  others : ∀ e, e ≠ d → sprueOf t e = sprueOf s e

namespace CacheOnly

variable {s t u : State} {d : Nat}

theorem trans (h : CacheOnly s t d) (h' : CacheOnly t u d) : CacheOnly s u d :=
  ⟨h'.frame.trans (by rw [h.frame]), fun e he => (h'.others e he).trans (h.others e he)⟩

theorem countUp (s : State) (off n d : Nat) : CacheOnly s (countUp s off n) d :=
  ⟨by rw [countUp_frame], fun _ _ => by rw [sprueOf, sprue_countUp]; rfl⟩

theorem setSprue (s : State) (d : Nat) (k : Sprue) : CacheOnly s (setSprue s d k) d :=
  ⟨rfl, fun _ he => sprueOf_setSprue_other s k he⟩

end CacheOnly

/-- A hit without error is counted (R194). -/
theorem cacheHit_clean {s : State} {d c a : Nat} {na : Bool} {upset : BitVec 80}
    (h : decode80 (encode80 (memWord s (alignDown a 8)) false ^^^ upset) = .clean) :
    cacheHit s d c a na upset = countCore (countDev s (0x4600 + 16 * d) 1) c 0xB0 1 := by
  rw [cacheHit, h]

theorem cacheHit_bad {s : State} {d c a : Nat} {na : Bool} {upset : BitVec 80}
    (h : decode80 (encode80 (memWord s (alignDown a 8)) false ^^^ upset) = .ue ∨
      decode80 (encode80 (memWord s (alignDown a 8)) false ^^^ upset) = .poison) :
    cacheHit s d c a na upset = cacheUncorrected s d c (a / 256) (sprueWay (sprueOf s d) (a / 256)) na := by
  rcases h with h | h <;> rw [cacheHit, h]

section

variable (s : State) (d c line : Nat) (na : Bool)

theorem cacheOnly_cacheMiss : CacheOnly s (cacheMiss s d c line na) d := by
  have counted : CacheOnly s (countCore (countDev s (0x4600 + 16 * d + 1) 1) c 0xB1 1) d :=
    (CacheOnly.countUp _ _ _ _).trans (.countUp _ _ _ _)
  unfold cacheMiss
  extract_lets s1 k
  split
  · exact counted.trans (.countUp _ _ _ _)
  · split
    · exact counted
    · exact counted.trans (.setSprue _ _ _)

variable {s d c line na}

theorem any_fill_iff : ((sprueOf s d).fills.any fun f => decide (f.1 = line)) = true ↔ ∃ f ∈ (sprueOf s d).fills, f.1 = line := by
  simp

/-- A miss that meets a fill under way, or that allocates nothing, starts no fill (R191). -/
theorem sprueOf_cacheMiss_joins (h : (∃ f ∈ (sprueOf s d).fills, f.1 = line) ∨ na = true) :
    sprueOf (cacheMiss s d c line na) d = sprueOf s d := by
  unfold cacheMiss
  dsimp only
  rw [sprueOf_countCore, sprueOf_countDev]
  split
  · simp
  · next hfill =>
    rcases h with h | h
    · exact absurd (any_fill_iff.2 h) hfill
    · simp [h]

/-- Any other miss starts the fill of its line for the core's partition (R191). -/
theorem sprueOf_cacheMiss_starts (h : ∀ f ∈ (sprueOf s d).fills, f.1 ≠ line) :
    sprueOf (cacheMiss s d c line false) d =
      { sprueOf s d with fills := (sprueOf s d).fills ++ [(line, true, (ownerOfCore s c).getD 0)] } := by
  unfold cacheMiss
  dsimp only
  rw [sprueOf_countCore, sprueOf_countDev, if_neg, if_neg Bool.false_ne_true, sprueOf_setSprue_same]
  exact fun hfill => by
    obtain ⟨f, hf, hline⟩ := any_fill_iff.1 hfill
    exact h f hf hline

end

/-! ### A fill and INV_ALL -/

theorem mem_kSet {α : Type} (m : KMap α) (i : Nat) (v : α) : (i, v) ∈ kSet m i v := by
  induction m with
  | nil => simp [kSet]
  | cons e m ih =>
    obtain ⟨j, x⟩ := e
    unfold kSet
    split
    · simp
    · split
      · simp
      · simp [ih]

theorem sprueHas_of_mem {k : Sprue} {line w : Nat} (hw : w < 16) (h : (wayKey line w, line) ∈ k.lines) :
    sprueHas k line = true := by
  simp only [sprueHas, List.any_eq_true, List.mem_range, Bool.and_eq_true, decide_eq_true_eq]
  exact ⟨w, hw, _, h, rfl, rfl⟩

/-- One of the ways allowed is taken. -/
theorem getD_mod_mem {l : List Nat} (h : l ≠ []) (n : Nat) : l.getD (n % l.length) 0 ∈ l := by
  have hn : n % l.length < l.length := Nat.mod_lt _ (List.length_pos_iff.2 h)
  rw [List.getD_eq_getElem _ _ hn]
  exact List.getElem_mem hn

section

variable {s : State} {d a p : Nat}

theorem find_only_fill (keep : Bool) :
    [(a / 256, keep, p)].find? (fun (l, _, q) => l = a / 256 && q = p) = some (a / 256, keep, p) := by simp

/-- The fill delivered, when it is kept (R191–R193). -/
theorem cacheFill_kept (hf : (sprueOf s d).fills = [(a / 256, true, p)]) (hbad : memBadIn s (a / 256 * 256) 256 = false)
    (hways : bitList 16 (rget s (rCACHE_WAYS d p) fCACHE_WAYS_WAYS) ≠ []) :
    CacheOnly s (cacheFill s d a p) d ∧ sprueHas (sprueOf (cacheFill s d a p) d) (a / 256) = true ∧
      (sprueOf (cacheFill s d a p) d).fills = [] := by
  unfold cacheFill
  extract_lets line k ways
  rw [show k.fills = _ from hf, find_only_fill]
  dsimp only
  rw [if_neg (by simp [hways, hbad, line, ways])]
  have way := getD_mod_mem hways (Config.freeWord s.free 0).toNat
  refine ⟨⟨rfl, fun e he => sprueOf_setSprue_other _ _ he⟩, ?_, ?_⟩
  · rw [sprueOf_setSprue_same]
    exact sprueHas_of_mem (List.mem_range.1 (List.mem_filter.1 way).1) (mem_kSet _ _ _)
  · rw [sprueOf_setSprue_same]
    simp

/-- A fill whose line was dropped while in flight is not kept (R192). -/
theorem cacheFill_dropped (hf : (sprueOf s d).fills = [(a / 256, false, p)]) :
    cacheFill s d a p = setSprue s d { sprueOf s d with fills := [] } := by
  unfold cacheFill
  extract_lets line k ways
  rw [show k.fills = _ from hf, find_only_fill]
  simp [k]

/-- INV_ALL drops every line and keeps no fill under way (R195). -/
theorem cacheInvAll_drops (v : Word) : cacheInvAll s d (v ||| 1) =
    setSprue (rput s (rCACHE_CTRL d) fCACHE_CTRL_BYPASS (wfld (v ||| 1) 1 1)) d { sprueOf s d with
      lines := []
      fills := (sprueOf s d).fills.map (fun (l, _, p) => (l, false, p)) } := by
  simp only [cacheInvAll, Safety.wbit_or_one, if_true]
  rfl

end

end Sys2Proof.Machine

namespace Sys2Proof.Safety

open Sys2Proof Sys2Proof.Machine

/-! ### The statement -/

/-- Settles O18: of the cases of a lookup the hit and the miss without error are counted and change at most the list of
fills; on an error the way is dropped, and no later step of the lookup adds a line. -/
theorem sprueCache : Obligations.SprueCache := by
  unfold Obligations.SprueCache
  intro s d c a na upset hd hc hdie htier k n rest
  have lookup : ∀ {tag : Option Nat} {P : State → Prop}, (∀ v, tag = some v → v < 16) →
      P (cacheLookup s d c a na upset tag) → Runs (.cacheLookup d c ⟨a, na, upset, tag⟩) s P := by
    intro tag P htag hP
    refine runs_of_onUnit rfl ?_ hP
    cases tag <;> simp_all
  have untagged : ∀ v : Nat, none = some v → v < 16 := by simp
  have only : ∀ {t : State}, CacheOnly s t d → rest t := fun h => ⟨h.frame, h.others⟩
  refine ⟨fun hb tag htag => lookup htag (cacheLookup_bypass hb), fun hb => ?lookups, fun p hp hf hbad hways => ?kept,
    fun p hp hf => ?dropped, fun v => ?invAll⟩
  case lookups =>
    intro found
    refine ⟨fun hit clean => lookup untagged ?_, fun hit bad => lookup untagged ?_, fun miss joins => lookup untagged ?_,
      fun miss alone hna => lookup untagged ?_, fun v hv => lookup (by simp [hv]) (wayEmpty_cacheLookup hb htier)⟩
    · rw [cacheLookup_hit hb htier hit, cacheHit_clean clean]
      exact ⟨only ((CacheOnly.countUp _ _ _ _).trans (.countUp _ _ _ _)), by simp [k]⟩
    · rw [cacheLookup_hit hb htier hit, cacheHit_bad bad]
      exact wayEmpty_cacheUncorrected _ _ _ _ _ _
    · rw [cacheLookup_miss hb htier miss]
      exact ⟨only (cacheOnly_cacheMiss _ _ _ _ _), sprueOf_cacheMiss_joins joins⟩
    · rw [cacheLookup_miss hb htier miss, hna]
      exact ⟨only (cacheOnly_cacheMiss _ _ _ _ _), sprueOf_cacheMiss_starts alone⟩
  case kept =>
    obtain ⟨honly, hheld, hfills⟩ := cacheFill_kept hf hbad hways
    exact runs_of_onUnit rfl (by simp [hd, hp]) ⟨only honly, hheld, hfills⟩
  case dropped =>
    refine runs_of_onUnit rfl (by simp [hd, hp]) ?_
    rw [cacheFill_dropped hf]
    exact ⟨only (.setSprue _ _ _), sprueOf_setSprue_same _ _ _⟩
  case invAll =>
    refine runs_of_onUnit rfl (by simp [hd]) ?_
    rw [cacheInvAll_drops, sprueOf_setSprue_same]
    exact ⟨⟨rfl, fun e he => sprueOf_setSprue_other _ _ he⟩, rfl, by simp⟩

end Sys2Proof.Safety
end

section
/-! PROOFS. A word that nothing holds back (R58, R59): the state from which its effect runs, with the scratchpad as it finds
it, quads that are off and words that are uncorrectable included. -/

namespace Sys2Proof.Machine

open Sys2Proof Sys2Proof.Safety

/-- The state once the word `w` of context `k` is placed and taken from its queue, its effect to come. -/
def taken (s : State) (c x : Nat) (k : Ctx) (w : Word) (p : Plan) : State :=
  takeHead (placed s c x k w) c x (entryOf k w) p

section

variable {i : Instr} {s : State} {c x : Nat} {w : Word} {k : Ctx} {pr : Pour} {p : Plan}

theorem issuesFrom_taken : IssuesFrom (placed s c x k w) (taken s c x k w p) c x (entryOf k w) p :=
  issuesFrom_takeHead _ _ _ _ _

/-- No instruction of the core waits at its ports. -/
theorem unitHeld_taken (hserved : AllServed s c) (units : List Nat) : unitHeld (coreOf (taken s c x k w p) c) units = false := by
  rw [unitHeld, List.any_eq_false]
  intro f hf
  have hnone : f.held = none := by
    rw [taken, coreOf_takeHead_same, issuedCore, coreOf_placed] at hf
    rcases List.mem_append.1 hf with hf | hf
    · exact hserved.none_held f hf
    · split at hf
      · rw [List.mem_singleton.1 hf]
      · cases hf
  simp [hnone]

/-- The word issues as it is placed, and its effect takes place at once where no access of its own waits. -/
theorem exec_issues (h : AtWord s c x w k pr) (ht : Takes k w) (hdecode : decodeOk k pr w = true) (hq : k.queue = [])
    (ha : (coreOf s c).active = x) (hsel : (coreOf s c).selecting = false) (hserved : AllServed s c)
    (hplan : planOf (placed s c x k w) c x (entryOf k w) = .go p) (hready : planReady (coreOf (placed s c x k w) c) p = true)
    (hlate : p.late (placed s c x k w) = none) (hi : instrWord i = some (c, x, w, true)) (hqueued : queued w = true)
    (hwaits : (coreOf (p.run (taken s c x k w p)) c).unserved = none) :
    Machine.exec i s = .next (p.run (taken s c x k w p)) := by
  have hunit : ctxOk c x = true := by simp [ctxOk, h.core, h.ctx]
  obtain ⟨name, bad, mine, body, srcs, plan, hexec, hm, hs, hsame, hbad⟩ := tensorRow_of_queued hi hqueued s
  have hgood : bad = false := hbad pr (by rw [h.regs]; exact h.pour) (by rw [h.regs]; exact hdecode)
  rw [hexec, hunit, hgood]
  simp only [onUnit, if_true, Bool.false_eq_true, if_false]
  rw [tensorWord_tries h ht hm hs hq ha hsel, hsame _ _ rfl, hplan, tryIssue, hready, hlate]
  have hrun : runPlan (taken s c x k w p) c x (entryOf k w) p = p.run (taken s c x k w p) := by
    rw [runPlan, unitHeld_taken hserved, hwaits]
    rfl
  exact congrArg _ hrun

/-! ### The state in which the effect begins -/

/-- The context's pour is there for the checks of its word. -/
theorem withPour_atWord (h : AtWord s c x w k pr) (K : Ctx → Pour → Issue) :
    withPour (placed s c x k w) c x K = K (placedCtx k w) pr := by
  rw [withPour, ctxOf_placed]
  show (match k.pour with | some pr => K (placedCtx k w) pr | none => .go Plan.nop) = _
  rw [h.pour]

theorem coreOf_taken_eq : ∃ q l y tk ta tr tt f, coreOf (taken s c x k w p) c =
    { coreOf s c with ctxs := q, iLines := l, lastSeq := y, toks := tk, tokAt := ta, tokRead := tr, tokTile := tt,
                      flights := f } := coreOf_taken _

theorem spm_taken : (coreOf (taken s c x k w p) c).spm = (coreOf s c).spm ∧
    (coreOf (taken s c x k w p) c).spmBad = (coreOf s c).spmBad ∧
    (coreOf (taken s c x k w p) c).spmOver = (coreOf s c).spmOver := by
  obtain ⟨q, l, y, tk, ta, tr, tt, f, hcore⟩ := coreOf_taken_eq (s := s) (c := c) (x := x) (k := k) (w := w) (p := p)
  rw [hcore]
  exact ⟨rfl, rfl, rfl⟩

theorem spmByte_taken : spmByte (coreOf (taken s c x k w p) c) = spmByte (coreOf s c) := by
  obtain ⟨q, l, y, tk, ta, tr, tt, f, hcore⟩ := coreOf_taken_eq (s := s) (c := c) (x := x) (k := k) (w := w) (p := p)
  rw [hcore]
  rfl

theorem spmWf_taken (h : spmWf (coreOf s c)) : spmWf (coreOf (taken s c x k w p) c) := by
  obtain ⟨q, l, y, tk, ta, tr, tt, f, hcore⟩ := coreOf_taken_eq (s := s) (c := c) (x := x) (k := k) (w := w) (p := p)
  rw [hcore]
  exact h

theorem unserved_taken : (coreOf (taken s c x k w p) c).unserved = (coreOf s c).unserved := by
  obtain ⟨q, l, y, tk, ta, tr, tt, f, hcore⟩ := coreOf_taken_eq (s := s) (c := c) (x := x) (k := k) (w := w) (p := p)
  rw [hcore]

/-- Placing and issuing a word changes cores, registers and trace alone. -/
theorem taken_frame : taken s c x k w p =
    { s with cores := (taken s c x k w p).cores, regs := (taken s c x k w p).regs, trc := (taken s c x k w p).trc } := by
  have hframe := takeHead_frame (placed s c x k w) c x (entryOf k w) p
  rw [headTaken_placed] at hframe
  rw [taken, hframe]

theorem rd_taken (hc : c < nCores) (hx : x < 4) (hs : regsWf s) {o : Nat} (ho : Still c o) :
    rd (taken s c x k w p) o = rd s o := (taken_regs hc hx hs _).2 o ho

theorem regsWf_taken (hc : c < nCores) (hx : x < 4) (hs : regsWf s) : regsWf (taken s c x k w p) := (taken_regs hc hx hs _).1

theorem quadOn_taken (hc : c < nCores) (hx : x < 4) (hs : regsWf s) (q : Nat) :
    quadOn (taken s c x k w p) c q = quadOn s c q := by
  rw [quadOn, quadOn, rd_taken hc hx hs (still_rSPM_POWER c)]

theorem rangeOn_taken (hc : c < nCores) (hx : x < 4) (hs : regsWf s) (o n : Nat) :
    rangeOn (taken s c x k w p) c o n = rangeOn s c o n := by
  have hquads : quadOn (taken s c x k w p) c = quadOn s c := funext (quadOn_taken hc hx hs)
  rw [rangeOn, rangeOn, hquads]

/-- Every port still stands open. -/
theorem rangeServed_taken (hc : c < nCores) (hx : x < 4) (hs : regsWf s) (h : AllServed s c) {port : Nat} (hport : port < 15)
    (o n : Nat) : rangeServed (taken s c x k w p) c port o n = true := by
  have hctl := rd_taken (x := x) (k := k) (w := w) (p := p) hc hx hs (still_rSPM_CTRL c)
  obtain ⟨q, l, y, tk, ta, tr, tt, f, hcore⟩ := coreOf_taken_eq (s := s) (c := c) (x := x) (k := k) (w := w) (p := p)
  have hcal : calInForce (taken s c x k w p) c = calInForce s c := by
    rw [calInForce, calInForce, rflag_congr hctl, rget, rget, hctl, hcore]
  refine List.all_eq_true.2 (fun q hq => ?_)
  have hserved := h.ports port q hport (lt_of_mem_quadsOf hq)
  have hawake := h.awake q (lt_of_mem_quadsOf hq)
  have hport' : portServed (taken s c x k w p) c port q = portServed s c port q := by
    rw [portServed, portServed, hcal, rflag_congr hctl, hcore]
  have hdoze : quadDozes (taken s c x k w p) c q = quadDozes s c q := by
    rw [taken_frame]
    rfl
  rw [hport', hdoze, hserved, hawake]
  rfl

end

/-! ### Accesses that meet no obstacle -/

section

variable {s : State} {c x port : Nat}

theorem spmStore_open {o : Nat} {bs : List Byte} (hserved : rangeServed s c port o bs.length = true)
    (hon : rangeOn s c o bs.length = true)
    (hclean : ∀ j ∈ partCodewords o bs.length, smGet false (coreOf s c).spmBad j = false) :
    spmStore s c x port o bs = modCore s c (fun k => spmWrite k o bs) := by
  have hfind : (partCodewords o bs.length).find? (fun j => smGet false (coreOf s c).spmBad j) = none :=
    List.find?_eq_none.2 (fun j hj => by simp [hclean j hj])
  rw [spmStore, hserved, hon, hfind]
  rfl

theorem spmRead_open {o n : Nat} (hserved : rangeServed s c port o n = true) (hon : rangeOn s c o n = true)
    (hclean : spmBadIn (coreOf s c) o n = false) (K : List Byte → State) :
    spmRead s c x port o n K = K (spmBytes (coreOf s c) o n) := by
  rw [spmRead, hserved, hon, hclean]
  rfl

/-- A write puts its bytes, and leaves every other. -/
theorem spmByte_spmWrite {k : Core} (hk : spmWf k) (o : Nat) (bs : List Byte) (j : Nat) :
    spmByte (spmWrite k o bs) j = if o ≤ j ∧ j < o + bs.length then bs.getD (j - o) 0 else spmByte k j :=
  (spmPut_spec bs k o hk).2 j

theorem unserved_spmWrite (k : Core) (o : Nat) (bs : List Byte) : (spmWrite k o bs).unserved = k.unserved := by
  rw [spmWrite, spmPut_frame]

theorem onlyCore_modCore (s : State) (c : Nat) (f : Core → Core) : OnlyCore s (modCore s c f) c :=
  ⟨rfl, fun _ hd => coreOf_modCore_other s c _ f hd⟩

/-- Whole codewords leave no codeword partly covered. -/
theorem partCodewords_aligned {o n : Nat} (ho : o % 8 = 0) (hn : n % 8 = 0) : partCodewords o n = [] := by
  rw [partCodewords, if_neg (by omega), if_neg (by omega)]
  rfl

end

/-! ### The bytes of a pattern -/

theorem getD_bytesLE {n j : Nat} (hj : j < n) (v : Nat) : (bytesLE n v).getD j 0 = BitVec.ofNat 8 (v / 256 ^ j) := by
  induction n generalizing v j with
  | zero => omega
  | succ n ih =>
    cases j with
    | zero => simp [bytesLE]
    | succ j =>
      rw [bytesLE, List.getD_cons_succ, ih (by omega), Nat.div_div_eq_div_mul, Nat.pow_succ, Nat.mul_comm 256]

/-- A pattern of 8 bytes, repeated. -/
def pattern (n v : Nat) : List Byte := (List.replicate (n / 8) (bytesLE 8 v)).flatten

theorem length_pattern {n : Nat} (hn : n % 8 = 0) (v : Nat) : (pattern n v).length = n := by
  rw [pattern, List.length_flatten, List.map_replicate, List.sum_replicate, length_bytesLE, smul_eq_mul]
  omega

theorem getD_pattern {n j : Nat} (hj : j < n) (hn : n % 8 = 0) (v : Nat) :
    (pattern n v).getD j 0 = BitVec.ofNat 8 (v / 256 ^ (j % 8)) := by
  have hmap : pattern n v = (List.range (n / 8)).flatMap (fun _ => bytesLE 8 v) := by
    simp [pattern, List.flatMap_def]
  have hi : j / 8 < (List.range (n / 8)).length := by rw [List.length_range]; omega
  rw [hmap, ← getD_bytesLE (n := 8) (by omega : j % 8 < 8)]
  conv_lhs => rw [← Nat.div_add_mod j 8]
  exact getD_flatMap_const (fun _ _ => length_bytesLE 8 v) hi (by omega) 0

theorem getD_spmBytes {k : Core} {o n j : Nat} (hj : j < n) : (spmBytes k o n).getD j 0 = spmByte k (o + j) := by
  rw [spmBytes, List.getD_eq_getElem?_getD]
  simp [hj]

end Sys2Proof.Machine
end

section
/-! PROOFS. The scratchpad operations (R171, R175, R177, R298): what the checks of each row establish, and its effect. -/

namespace Sys2Proof.Machine

open Sys2Proof Sys2Proof.Safety

/-! ### What the checks establish -/

theorem tdRegion_none {pr : Pour} {d : TD} {n : Nat} {nt : Bool} (h : tdRegion pr d n nt = none) : d.off % 64 = 0 := by
  obtain ⟨h, -⟩ := lowBad_none.1 h
  simp only [Bool.or_eq_false_iff, decide_eq_false_iff_not, not_not] at h
  exact h.2

/-- A check that finds nothing. -/
theorem of_check_none {q : Prop} [Decidable q] {code : Nat} (h : (if q then some code else none) = none) : ¬ q := by
  simpa using h

/-- A block that reads goes on with its words. -/
theorem withBlock_reads {s : State} {pr : Pour} {a n align : Nat} {K : List Word → Issue} {p : Plan}
    (h : withBlock s pr a n align K = .go p) : K ((List.range (n / 8)).map (fun i => memWord s (a + 8 * i))) = .go p := by
  unfold withBlock readBlock at h
  split_ifs at h
  · simp [Issue.bad] at h
  · simp [Issue.bad] at h
  · exact h

section

variable {s : State} {c x : Nat} {w : Word} {k : Ctx} {pr : Pour} {p : Plan}

theorem memWord_placed (a : Nat) : memWord (placed s c x k w) a = memWord s a := by
  have hbyte : ∀ b, memByte (placed s c x k w) b = memByte s b := by
    rw [placed_frame]
    exact memByte_congr rfl rfl
  simp only [memWord, memBytes, hbyte]

theorem planFill_go (h : AtWord s c x w k pr) (hgo : planFill (placed s c x k w) c x (entryOf k w) = .go p) :
    opBytes (tdAt k (wfld w 49 44)) % 8 = 0 ∧ (tdAt k (wfld w 49 44)).off % 64 = 0 ∧ (∀ u, p.late u = none) ∧
    ∀ u, p.run u = spmStore u c x 0xE (tdAt k (wfld w 49 44)).off
      (pattern (opBytes (tdAt k (wfld w 49 44))) (srcOf (entryOf k w) 0).toNat) := by
  rw [planFill, withPour_atWord h] at hgo
  obtain ⟨hchecks, hp⟩ := checked_go.1 hgo
  obtain ⟨hlen, hregion⟩ := firstBad_cons.1 hchecks
  obtain ⟨hregion, -⟩ := firstBad_cons.1 hregion
  cases hp
  exact ⟨not_not.1 (of_check_none hlen), tdRegion_none hregion, fun _ => rfl, fun _ => rfl⟩

theorem planCopy_go (h : AtWord s c x w k pr) (hgo : planCopy (placed s c x k w) c x (entryOf k w) = .go p) :
    opBytes (tdAt k (wfld w 43 38)) = opBytes (tdAt k (wfld w 49 44)) ∧ (∀ u, p.late u = none) ∧
    ∀ u, p.run u = copyRun c x (tdAt k (wfld w 43 38)) (tdAt k (wfld w 49 44)) u := by
  rw [planCopy, withPour_atWord h] at hgo
  obtain ⟨hchecks, hp⟩ := checked_go.1 hgo
  obtain ⟨hlen, -⟩ := firstBad_cons.1 hchecks
  cases hp
  exact ⟨not_not.1 (of_check_none hlen), fun _ => rfl, fun _ => rfl⟩

theorem planScrub_go (h : AtWord s c x w k pr) (hgo : planScrub (placed s c x k w) c x (entryOf k w) = .go p) :
    (∀ u, p.late u = none) ∧ ∀ u, p.run u = scrubRun c x (tdAt k (wfld w 49 44)) u := by
  rw [planScrub, withPour_atWord h] at hgo
  obtain ⟨-, hp⟩ := checked_go.1 hgo
  cases hp
  exact ⟨fun _ => rfl, fun _ => rfl⟩

theorem planPowerDown_go (hgo : planPowerDown (placed s c x k w) c x (entryOf k w) = .go p) :
    (∀ u, p.late u = none) ∧ ∀ u, p.run u = if wfld w 31 16 = 0 then u
      else if u.erg.ext.any (fun h => h.cores.contains c) then modCore u c (fun k => { k with unserved := some [] })
      else quadsDown u c (wfld w 31 16) := by
  cases hgo
  exact ⟨fun _ => rfl, fun _ => rfl⟩

theorem planPowerUp_go (h : AtWord s c x w k pr) (hgo : planPowerUp (placed s c x k w) c x (entryOf k w) = .go p) :
    (∀ u, p.late u = none) ∧ ∀ u, p.run u =
      if wfld w 31 16 = 0 then u else quadsUp u c (wfld w 31 16) (some (tdAt k (wfld w 49 44)).tok) := by
  rw [planPowerUp, withPour_atWord h] at hgo
  change (if wfld w 31 16 = 0 then _ else _) = _ at hgo
  split at hgo
  · next hm =>
    cases hgo
    exact ⟨fun _ => rfl, fun _ => (if_pos hm).symm⟩
  · next hm =>
    obtain ⟨-, hp⟩ := checked_go.1 hgo
    cases hp
    exact ⟨fun _ => rfl, fun _ => (if_neg hm).symm⟩

/-- The entries that a calendar block at `a` holds. -/
def calendarAt (s : State) (a : Nat) : List Word :=
  (List.range (wfld (memWord s a) 5 0 + 1)).map (fun i => memWord s (a + 8 + 8 * i))

theorem planCalLoad_go (h : AtWord s c x w k pr) (hgo : planCalLoad (placed s c x k w) c x (entryOf k w) = .go p) :
    calOk (calendarAt s (srcOf (entryOf k w) 0).toNat) = true ∧ (∀ u, p.late u = none) ∧
    ∀ u, p.run u = calLoad u c (calendarAt s (srcOf (entryOf k w) 0).toNat) (wfld (srcOf (entryOf k w) 1) 31 0) := by
  rw [planCalLoad, withPour_atWord h] at hgo
  have hentries := withBlock_reads hgo
  simp only [memWord_placed] at hentries
  change (if wfld (memWord s (srcOf (entryOf k w) 0).toNat) 63 6 ≠ 0 then _ else _) = _ at hentries
  split at hentries
  · simp [Issue.bad] at hentries
  · have hload := withBlock_reads hentries
    simp only [memWord_placed, Nat.mul_div_right _ (by decide : 0 < 8)] at hload
    split at hload
    · simp [Issue.bad] at hload
    · next hok =>
      cases hload
      rw [Bool.not_eq_true, Bool.not_eq_false'] at hok
      exact ⟨hok, fun _ => rfl, fun _ => rfl⟩

end

/-! ### Effects -/

section

variable {s : State} {c x : Nat}

/-- FILL stores its pattern (R175). -/
theorem onlyCore_fill {o n v : Nat} (hn : n % 8 = 0) (ho : o % 8 = 0) (hserved : rangeServed s c 0xE o n = true)
    (hon : rangeOn s c o n = true) (hspm : spmWf (coreOf s c)) :
    let t := spmStore s c x 0xE o (pattern n v)
    OnlyCore s t c ∧ (coreOf t c).unserved = (coreOf s c).unserved ∧ ∀ j, spmByte (coreOf t c) j =
      if o ≤ j ∧ j < o + n then BitVec.ofNat 8 (v / 256 ^ ((j - o) % 8)) else spmByte (coreOf s c) j := by
  have hlen := length_pattern hn v
  intro t
  have ht : t = modCore s c (fun k => spmWrite k o (pattern n v)) :=
    spmStore_open (by rw [hlen]; exact hserved) (by rw [hlen]; exact hon)
      (by rw [hlen, partCodewords_aligned ho hn]; simp)
  rw [ht, coreOf_modCore_same]
  refine ⟨onlyCore_modCore _ _ _, unserved_spmWrite _ _ _, fun j => ?_⟩
  rw [spmByte_spmWrite hspm, hlen]
  exact ite_congr rfl (fun hj => getD_pattern (by omega) hn v) (fun _ => rfl)

/-- COPY stores what the source held (R175). -/
theorem onlyCore_copy {src dst : TD} (hlen : opBytes src = opBytes dst)
    (hserved : ∀ o n, rangeServed s c 0xE o n = true) (hon : rangeOn s c dst.off (opBytes dst) = true)
    (hsrc : rangeOn s c src.off (opBytes dst) = true) (hclean : spmBadIn (coreOf s c) src.off (opBytes dst) = false)
    (hpart : ∀ j ∈ partCodewords dst.off (opBytes dst), smGet false (coreOf s c).spmBad j = false)
    (hspm : spmWf (coreOf s c)) :
    let t := copyRun c x src dst s
    OnlyCore s t c ∧ (coreOf t c).unserved = (coreOf s c).unserved ∧ ∀ j, spmByte (coreOf t c) j =
      if dst.off ≤ j ∧ j < dst.off + opBytes dst then spmByte (coreOf s c) (src.off + (j - dst.off))
      else spmByte (coreOf s c) j := by
  intro t
  have hbytes : (spmBytes (coreOf s c) src.off (opBytes dst)).length = opBytes dst := by simp [spmBytes]
  have ht : t = modCore s c (fun k => spmWrite k dst.off (spmBytes (coreOf s c) src.off (opBytes dst))) := by
    show copyRun c x src dst s = _
    rw [copyRun, hlen, spmRead_open (hserved _ _) hsrc hclean,
      spmStore_open (hserved _ _) (by rw [hbytes]; exact hon) (by rw [hbytes]; exact hpart)]
  rw [ht, coreOf_modCore_same]
  refine ⟨onlyCore_modCore _ _ _, unserved_spmWrite _ _ _, fun j => ?_⟩
  rw [spmByte_spmWrite hspm, hbytes]
  exact ite_congr rfl (fun hj => getD_spmBytes (by omega)) (fun _ => rfl)

/-- SCRUB of words that read changes nothing (R175). -/
theorem scrubRun_clean {d : TD} (hserved : rangeServed s c 0xE d.off (opBytes d) = true)
    (hon : rangeOn s c d.off (opBytes d) = true) (hclean : ∀ j, smGet false (coreOf s c).spmBad j = false) :
    scrubRun c x d s = s := by
  rw [scrubRun, hserved, hon]
  simp [hclean]

/-- A quad turned off is neither on nor ready (R177). -/
theorem quadOn_quadsDown {mask q : Nat} (hm : mask < 2 ^ 16) (hq : q < 16) (hs : regsWf s) :
    quadOn (quadsDown s c mask) c q = (quadOn s c q && !mask.testBit q) := by
  have hready : (mask + mask <<< 16).testBit (16 + q) = mask.testBit q := by
    have hlow : mask.testBit (16 + q) = false :=
      Nat.testBit_lt_two_pow (lt_of_lt_of_le hm (Nat.pow_le_pow_right (by decide) (by omega)))
    rw [Nat.add_comm mask, Nat.shiftLeft_add_eq_or_of_lt hm, Nat.testBit_or, Nat.testBit_shiftLeft, hlow]
    simp
  have hreg : rd (quadsDown s c mask) (rSPM_POWER c) = rd s (rSPM_POWER c) &&& ~~~(BitVec.ofNat 64 (mask + mask <<< 16)) :=
    rd_rwr_same s _ _ hs
  rw [quadOn, on_quadsDown c hm hq hs, hreg, wbit_and_not_ofNat _ (by omega), hready, quadOn]
  cases mask.testBit q <;> simp

/-- A calendar goes to the store that is not in force (R171). -/
theorem calInForce_calLoad (es : List Word) (at_ : Nat) : calInForce (calLoad s c es at_) c = calInForce s c := by
  have hcore : coreOf (calLoad s c es at_) c = { coreOf s c with cal :=
      { store0 := if calTarget s c = 0 then es else (coreOf s c).cal.store0
        store1 := if calTarget s c = 1 then es else (coreOf s c).cal.store1
        waiting := some (calTarget s c, at_) } } := coreOf_modCore_same s c _
  have hregs : ∀ o, rd (calLoad s c es at_) o = rd s o := fun o => rd_modCore s c _ o
  rw [calInForce, calInForce, rflag_congr (hregs _), rget, rget, hregs, hcore]
  by_cases hdefault : rflag s (rSPM_CTRL c) fSPM_CTRL_DEFAULT = true
  · rw [if_pos hdefault, if_pos hdefault]
  · by_cases hactive : rget s (rSPM_CTRL c) fSPM_CTRL_CAL_ACTIVE = 0
    · have htarget : calTarget s c = 1 := by simp [calTarget, hdefault, hactive]
      rw [rget] at hactive
      simp [hdefault, hactive, htarget]
    · have htarget : calTarget s c = 0 := by simp [calTarget, hdefault, hactive]
      rw [rget] at hactive
      simp [hdefault, hactive, htarget]

theorem store_calLoad (es : List Word) (at_ : Nat) : (if calTarget s c = 0 then (coreOf (calLoad s c es at_) c).cal.store0
    else (coreOf (calLoad s c es at_) c).cal.store1) = es := by
  have htarget : calTarget s c = 0 ∨ calTarget s c = 1 := by
    unfold calTarget
    split_ifs <;> simp
  rw [calLoad, coreOf_modCore_same]
  rcases htarget with h | h <;> simp [h]

end

end Sys2Proof.Machine

namespace Sys2Proof.Safety

open Sys2Proof Sys2Proof.Machine

/-! ### The statement -/

/-- Settles O16: the word issues at once, and its effect runs from the state after the issue, in which the scratchpad, the
power of the quads and the calendars are as before. -/
theorem scratchpadOperations : Obligations.ScratchpadOperations := by
  unfold Obligations.ScratchpadOperations
  intro s c x w k pr p hat htakes hq hactive hsel hserved hop hcanon s1 d ended hplan hready
  obtain ⟨-, hregs⟩ := hcanon
  have issues : ∀ {i : Instr} {P : State → State → Prop}, instrWord i = some (c, x, w, true) → (∀ u, p.late u = none) →
      (coreOf (p.run (taken s c x k w p)) c).unserved = none → P (taken s c x k w p) (p.run (taken s c x k w p)) →
      ended i P := fun hi hlate hwaits hP =>
    ⟨_, exec_issues hat htakes (by simp [decodeOk, hop]) hq hactive hsel hserved hplan hready (hlate _) hi
      (by simp [queued, hop]) hwaits, _, issuesFrom_taken, rfl, hP⟩
  have hwaits : (coreOf (taken s c x k w p) c).unserved = none := unserved_taken.trans hserved.none_waits
  have served : ∀ o n, rangeServed (taken s c x k w p) c 0xE o n = true :=
    fun o n => rangeServed_taken hat.core hat.ctx hregs hserved (by decide) o n
  have on : ∀ {o n}, rangeOn s c o n = true → rangeOn (taken s c x k w p) c o n = true :=
    fun h => (rangeOn_taken hat.core hat.ctx hregs _ _).trans h
  have hwf : regsWf (taken s c x k w p) := regsWf_taken hat.core hat.ctx hregs
  obtain ⟨-, hbad, -⟩ := spm_taken (s := s) (c := c) (x := x) (k := k) (w := w) (p := p)
  refine ⟨fun hfn hon hspm => ?fill, fun hfn hspm => ?copy, fun hfn hon hclean => ?scrub,
    fun hfn hext => ?powerDown, fun hfn => ?powerUp, fun hfn => ?calendar⟩
  case fill =>
    obtain ⟨hlen, hoff, hlate, hrun⟩ := planFill_go hat (by simpa [planOf, entryOf, hop, hfn] using hplan)
    have hoff8 : d.off % 8 = 0 := by
      show (tdAt k (wfld w 49 44)).off % 8 = 0
      omega
    obtain ⟨honly, hun, hbytes⟩ := onlyCore_fill (x := x) (v := (srcOf (entryOf k w) 0).toNat) hlen hoff8
      (served _ _) (on hon) (spmWf_taken hspm)
    refine issues (by simp [instrWord, hop, hfn]) hlate ?_ ?_ <;> rw [hrun]
    · exact hun.trans hwaits
    · refine ⟨honly, fun o => ?_⟩
      rw [hbytes, spmByte_taken, srcOf_entryOf (l := [wfld w 36 32]) (by simp [tensorSrcs, hop, hfn])]
      rfl
  case copy =>
    intro r hon hsrc hclean hpart
    obtain ⟨hlen, hlate, hrun⟩ := planCopy_go hat (by simpa [planOf, entryOf, hop, hfn] using hplan)
    obtain ⟨honly, hun, hbytes⟩ := onlyCore_copy (x := x) hlen served (on hon) (on hsrc)
      (by simpa only [spmBadIn, hbad] using hclean) (by rw [hbad]; exact hpart) (spmWf_taken hspm)
    refine issues (by simp [instrWord, hop, hfn]) hlate ?_ ?_ <;> rw [hrun]
    · exact hun.trans hwaits
    · refine ⟨honly, fun o => ?_⟩
      rw [hbytes, spmByte_taken]
  case scrub =>
    obtain ⟨hlate, hrun⟩ := planScrub_go hat (by simpa [planOf, entryOf, hop, hfn] using hplan)
    have hsame := scrubRun_clean (x := x) (served _ _) (on hon) (by rw [hbad]; exact hclean)
    refine issues (by simp [instrWord, hop, hfn]) hlate ?_ ?_ <;> rw [hrun, hsame]
    exact hwaits
  case powerDown =>
    obtain ⟨hlate, hrun⟩ := planPowerDown_go (by simpa [planOf, entryOf, hop, hfn] using hplan)
    have hnone : (taken s c x k w p).erg.ext.any (fun h => h.cores.contains c) = false := by rw [taken_frame]; exact hext
    have hmask : wfld w 31 16 < 2 ^ 16 := wfld_lt w 31 16
    refine issues (by simp [instrWord, hop, hfn]) hlate ?_ ?_ <;> rw [hrun, hnone, if_neg Bool.false_ne_true] <;> split
    · exact hwaits
    · rw [quadsDown, coreOf_modCore_same]
      exact hwaits
    · next hm => exact ⟨fun _ => rfl, fun q _ => by simp [hm], fun _ _ => rfl, fun _ _ => rfl, rfl⟩
    · next hm =>
      obtain ⟨hsame, hothers, hframe, -⟩ := powerOnly_quadsDown c (wfld w 31 16) hwf
      exact ⟨fun h => absurd h hm, fun q hq => quadOn_quadsDown hmask hq hwf, hsame, hothers, hframe⟩
  case powerUp =>
    obtain ⟨hlate, hrun⟩ := planPowerUp_go hat (by simpa [planOf, entryOf, hop, hfn] using hplan)
    refine issues (by simp [instrWord, hop, hfn]) hlate ?_ ?_ <;> rw [hrun] <;> split
    · exact hwaits
    · rw [quadsUp, coreOf_modCore_same]
      exact hwaits
    · next hm => exact ⟨fun _ => rfl, fun h => absurd hm h⟩
    · next hm =>
      obtain ⟨hsame, -, -, -⟩ := powerOnly_quadsUp c (wfld w 31 16) (some d.tok) hwf
      refine ⟨fun h => absurd h hm, fun _ => ⟨fun q hq => on_quadsUp c _ _ hq hwf, hsame, ?_, ?_⟩⟩ <;>
        rw [quadsUp, coreOf_modCore_same] <;> rfl
  case calendar =>
    obtain ⟨hok, hlate, hrun⟩ := planCalLoad_go hat (by simpa [planOf, entryOf, hop, hfn] using hplan)
    have hsrc := srcOf_entryOf (k := k) (w := w) (l := [wfld w 36 32, wfld w 15 11]) (by simp [tensorSrcs, hop, hfn])
    have hsrc0 : srcOf (entryOf k w) 0 = gRead k (wfld w 36 32) := hsrc 0
    have hsrc1 : srcOf (entryOf k w) 1 = gRead k (wfld w 15 11) := hsrc 1
    rw [hsrc0] at hok hrun
    rw [hsrc1] at hrun
    refine issues (by simp [instrWord, hop, hfn]) hlate ?_ ?_ <;> rw [hrun]
    · rw [calLoad, coreOf_modCore_same]
      exact hwaits
    · refine ⟨?_, calInForce_calLoad _ _, by rw [calLoad, coreOf_modCore_same], hok, store_calLoad _ _⟩
      rw [calLoad]
      exact onlyCore_modCore _ _ _

end Sys2Proof.Safety
end

section
/-! PROOFS. Several stores of a unit, one after another (R23, R201, R210): none makes a later one fail, and rows that do not
overlap all keep their bytes. -/

namespace Sys2Proof.Machine

open Sys2Proof Sys2Proof.Safety

/-! ### What a store leaves of memory's state -/

/-- Tier memory stays in canonical form, its controllers are as before, and no codeword is poisoned that was not. -/
structure TierKept (s t : State) : Prop where
  tier : t.tier = s.tier
  wf : Memory.wf s → Memory.wf t
  poison : Memory.wf s → ∀ j, smGet false t.memBad j = true → smGet false s.memBad j = true

namespace TierKept

variable {s t u : State}

theorem of_eq (ht : t.tier = s.tier) (hm : t.mem = s.mem) (hb : t.memBad = s.memBad) : TierKept s t :=
  ⟨ht, fun h => by rw [Memory.wf, hm, hb]; exact h, fun _ j hj => by rwa [hb] at hj⟩

theorem refl (s : State) : TierKept s s := of_eq rfl rfl rfl

theorem trans (h : TierKept s t) (h' : TierKept t u) : TierKept s u :=
  ⟨h'.tier.trans h.tier, fun hs => h'.wf (h.wf hs), fun hs j hj => h.poison hs j (h'.poison (h.wf hs) j hj)⟩

theorem tierDownIn (h : TierKept s t) (a n : Nat) : tierDownIn t a n = tierDownIn s a n := by
  simp only [Machine.tierDownIn, tierDown, h.tier]

theorem poisonIn (h : TierKept s t) (hs : Memory.wf s) {a n : Nat} (hok : poisonIn s a n = false) : poisonIn t a n = false := by
  refine List.any_eq_false.2 (fun i hi hbad => ?_)
  exact List.any_eq_false.1 hok i hi (h.poison hs _ hbad)

/-- A write that succeeds still does. -/
theorem writeFails (h : TierKept s t) (hs : Memory.wf s) {a n : Nat} (hok : writeFails s a n = false) :
    writeFails t a n = false := by
  simp only [Machine.writeFails, Bool.or_eq_false_iff, Bool.and_eq_false_iff] at hok ⊢
  obtain ⟨⟨hdown, hfirst⟩, hlast⟩ := hok
  exact ⟨⟨by rw [h.tierDownIn]; exact hdown, hfirst.imp_right (h.poisonIn hs)⟩, hlast.imp_right (h.poisonIn hs)⟩

end TierKept

theorem memPutUp_wf (s : State) (m : List Host.Cell) (a : Nat) (bs : List Byte) (hm : smWf (fun _ => (0 : Byte)) m = true) :
    smWf (fun _ => (0 : Byte)) (memPutUp s m a bs) = true := by
  induction bs generalizing m a with
  | nil => exact hm
  | cons b bs ih =>
    refine ih _ _ ?_
    split
    · exact hm
    · exact smSet_wf _ _ _ _ hm

/-- A codeword cleared of its poison. -/
theorem tierKept_setBad (s : State) (a : Nat) : TierKept s (setBad s a false) := by
  refine ⟨rfl, fun hs => ⟨hs.1, smSet_wf _ _ _ _ hs.2⟩, fun hs j hj => ?_⟩
  rw [setBad, smGet_smSet _ _ _ _ _ hs.2] at hj
  split at hj
  · cases hj
  · exact hj

theorem tierKept_dropSprue (s : State) (d : Nat) (hit : Nat → Bool) : TierKept s (dropSprue s d hit) := by
  rw [dropSprue_frame]
  exact .of_eq rfl rfl rfl

theorem tierKept_dropLines (s : State) (a n : Nat) : TierKept s (dropLines s a n) :=
  List.foldlRecOn (motive := TierKept s) _ _ (.refl s) (fun t ht _ _ => ht.trans (tierKept_dropSprue t _ _))

/-- New cells in canonical form. -/
theorem tierKept_cells {s : State} {m : List Host.Cell} (u : List (Nat × Nat × Nat))
    (hm : Memory.wf s → smWf (fun _ => (0 : Byte)) m = true) : TierKept s { s with mem := m, memUndef := u } :=
  ⟨rfl, fun hs => ⟨hm hs, hs.2⟩, fun _ _ h => h⟩

theorem tierKept_memWrite (s : State) (a : Nat) (bs : List Byte) : TierKept s (memWrite s a bs) := by
  have hcells : Memory.wf s →
      smWf (fun _ => (0 : Byte)) (if s.tier.isEmpty then memPutBytes s.mem a bs else memPutUp s s.mem a bs) = true := fun hs => by
    split
    · next h =>
      rw [memPutBytes_eq_memPutUp s h]
      exact memPutUp_wf s _ _ _ hs.1
    · exact memPutUp_wf s _ _ _ hs.1
  unfold memWrite
  refine .trans ?_ (tierKept_dropLines _ a bs.length)
  exact List.foldlRecOn (motive := TierKept s) _ _ (tierKept_cells _ hcells) (fun t ht _ _ => ht.trans (tierKept_setBad t _))

theorem tierKept_dropData (s : State) (c a n : Nat) : TierKept s (dropData s c a n) := .of_eq rfl rfl rfl

theorem tierKept_pourWrite {s : State} {c x a : Nat} {bs : List Byte} (h : writeFails s a bs.length = false) :
    TierKept s (pourWrite s c x a bs) := by
  rw [pourWrite_stores h]
  exact (tierKept_memWrite s a bs).trans (tierKept_dropData _ c a bs.length)

/-! ### Rows of one tile -/

/-- What stores of a unit of core `c` leave as it was. -/
structure Stores (s t : State) (c : Nat) : Prop extends TierKept s t where
  others : ∀ d, d ≠ c → coreOf t d = coreOf s d
  core : coreOf t c = { coreOf s c with dLines := (coreOf t c).dLines }

namespace Stores

variable {s t u : State} {c : Nat}

theorem refl (s : State) (c : Nat) : Stores s s c := ⟨.refl s, fun _ _ => rfl, rfl⟩

theorem trans (h : Stores s t c) (h' : Stores t u c) : Stores s u c :=
  ⟨h.toTierKept.trans h'.toTierKept, fun d hd => (h'.others d hd).trans (h.others d hd), h'.core.trans (by rw [h.core])⟩

theorem spmBytes (h : Stores s t c) (o n : Nat) : spmBytes (coreOf t c) o n = Machine.spmBytes (coreOf s c) o n := by
  rw [h.core]
  rfl

end Stores

theorem stores_pourWrite {s : State} {c x a : Nat} {bs : List Byte} (h : writeFails s a bs.length = false) :
    Stores s (pourWrite s c x a bs) c :=
  have hunit : UnitStored s (pourWrite s c x a bs) c := unitStored_pourWrite h
  ⟨tierKept_pourWrite h, hunit.others, hunit.core⟩

/-- Rows of `len` bytes of the scratchpad stored one after another, none of them overlapping another. -/
theorem foldl_pourWrite {s : State} {c x len n : Nat} {addr off : Nat → Nat} (hs : Memory.wf s)
    (hok : ∀ j, j < n → writeFails s (addr j) len = false) (hrows : ∀ i j, i < j → j < n → addr i + len ≤ addr j) :
    let t := (List.range n).foldl (fun u j => pourWrite u c x (addr j) (spmBytes (coreOf u c) (off j) len)) s
    Stores s t c ∧
    (∀ j q, j < n → q < len → memByte t (addr j + q) = spmByte (coreOf s c) (off j + q)) ∧
    ∀ a, (∀ j, j < n → a < addr j ∨ addr j + len ≤ a) → memByte t a = memByte s a := by
  induction n with
  | zero => exact ⟨.refl s c, fun j _ hj => absurd hj (Nat.not_lt_zero j), fun _ _ => rfl⟩
  | succ n ih =>
    obtain ⟨hstores, hbytes, hkept⟩ := ih (fun j hj => hok j (by omega)) (fun i j hij hj => hrows i j hij (by omega))
    rw [List.range_succ, List.foldl_append]
    generalize (List.range n).foldl (fun u j => pourWrite u c x (addr j) (spmBytes (coreOf u c) (off j) len)) s = t
      at hstores hbytes hkept ⊢
    have hlen : (spmBytes (coreOf t c) (off n) len).length = len := by simp [spmBytes]
    have hlast : writeFails t (addr n) (spmBytes (coreOf t c) (off n) len).length = false := by
      rw [hlen]
      exact hstores.writeFails hs (hok n (by omega))
    obtain ⟨hout, hin⟩ := memByte_pourWrite (c := c) (x := x) hlast (hstores.wf hs).1
    rw [hlen] at hout hin
    refine ⟨hstores.trans (stores_pourWrite hlast), fun j q hj hq => ?_, fun a ha => ?_⟩
    · rcases Nat.lt_succ_iff_lt_or_eq.1 hj with hj | rfl
      · have := hrows j n hj (by omega)
        exact (hout _ (by omega)).trans (hbytes j q hj hq)
      · exact (hin q hq).trans (by rw [hstores.spmBytes, getD_spmBytes hq])
    · exact (hout a (ha n (by omega))).trans (hkept a (fun j hj => ha j (by omega)))

end Sys2Proof.Machine
end

section
/-! PROOFS. Bytes of tier memory copied into the scratchpad (R13, R184, R190), row by row. -/

namespace Sys2Proof.Machine

open Sys2Proof Sys2Proof.Safety

/-- Only the scratchpad's bytes and marks differ. -/
def SpmOnly (k k' : Core) : Prop := k' = { k with spm := k'.spm, spmBad := k'.spmBad, spmCtl := k'.spmCtl }

theorem SpmOnly.trans {k k' k'' : Core} (h : SpmOnly k k') (h' : SpmOnly k' k'') : SpmOnly k k'' :=
  Eq.trans h' (by rw [h])

/-- The marks of codewords alone differ. -/
theorem foldl_spmPoison (f : Nat → Nat) (l : List Nat) (k : Core) : l.foldl (fun k i => spmPoison k (f i) true) k =
    { k with spmBad := (l.foldl (fun k i => spmPoison k (f i) true) k).spmBad
             spmCtl := (l.foldl (fun k i => spmPoison k (f i) true) k).spmCtl } :=
  List.foldlRecOn (motive := fun k' : Core => k' = { k with spmBad := k'.spmBad, spmCtl := k'.spmCtl }) l _ rfl
    (fun k' hk' i _ => (show spmPoison k' (f i) true = { k' with
      spmBad := (spmPoison k' (f i) true).spmBad, spmCtl := (spmPoison k' (f i) true).spmCtl } from rfl).trans (by rw [hk']))

/-- What a copy of `n` bytes puts into the scratchpad. -/
theorem copyIn_spec (s : State) {k : Core} (hk : spmWf k) (off a n : Nat) : SpmOnly k (copyIn s k off a n) ∧
    spmWf (copyIn s k off a n) ∧ ∀ o, spmByte (copyIn s k off a n) o =
      if off ≤ o ∧ o < off + n then memByte s (a + (o - off)) else spmByte k o := by
  have hlen : (memBytes s a n).length = n := by simp [memBytes]
  have hbytes := spmByte_spmWrite hk off (memBytes s a n)
  have hwf : spmWf (spmWrite k off (memBytes s a n)) := (spmPut_spec (memBytes s a n) k off hk).1
  have hwrite : SpmOnly k (spmWrite k off (memBytes s a n)) := by rw [SpmOnly, spmWrite, spmPut_frame]
  have hmarks := foldl_spmPoison (fun i => off / 8 + i)
    ((List.range (n / 8)).filter (fun i => smGet false s.memBad (a / 8 + i))) (spmWrite k off (memBytes s a n))
  rw [hlen] at hbytes
  rw [copyIn]
  generalize ((List.range (n / 8)).filter (fun i => smGet false s.memBad (a / 8 + i))).foldl
    (fun k i => spmPoison k (off / 8 + i) true) (spmWrite k off (memBytes s a n)) = k' at hmarks ⊢
  generalize spmWrite k off (memBytes s a n) = kw at *
  refine ⟨hwrite.trans ?_, ?_, fun o => ?_⟩ <;> rw [hmarks]
  · rfl
  · exact hwf
  · refine (show _ = spmByte kw o from rfl).trans ((hbytes o).trans (ite_congr rfl (fun ho => ?_) (fun _ => rfl)))
    have hlt : o - off < n := by omega
    simp [memBytes, List.getD_eq_getElem?_getD, hlt]

/-- Rows of `len` bytes copied to places that follow one another. -/
theorem foldl_copyIn (s : State) {k : Core} (hk : spmWf k) (off len : Nat) (addr : Nat → Nat) (n : Nat) :
    let k' := (List.range n).foldl (fun k j => copyIn s k (off + j * len) (addr j) len) k
    SpmOnly k k' ∧ spmWf k' ∧
    (∀ j q, j < n → q < len → spmByte k' (off + j * len + q) = memByte s (addr j + q)) ∧
    ∀ o, (o < off ∨ off + n * len ≤ o) → spmByte k' o = spmByte k o := by
  induction n with
  | zero => exact ⟨rfl, hk, fun j _ hj => absurd hj (Nat.not_lt_zero j), fun _ _ => rfl⟩
  | succ n ih =>
    obtain ⟨honly, hwf, hbytes, hkept⟩ := ih
    rw [List.range_succ, List.foldl_append]
    generalize (List.range n).foldl (fun k j => copyIn s k (off + j * len) (addr j) len) k = k' at honly hwf hbytes hkept ⊢
    obtain ⟨honly', hwf', hrow⟩ := copyIn_spec s hwf (off + n * len) (addr n) len
    refine ⟨honly.trans honly', hwf', fun j q hj hq => (hrow _).trans ?_, fun o ho => (hrow _).trans ?_⟩
    · rcases Nat.lt_succ_iff_lt_or_eq.1 hj with hj | rfl
      · have hle : (j + 1) * len ≤ n * len := Nat.mul_le_mul_right len hj
        rw [Nat.add_mul, Nat.one_mul] at hle
        rw [if_neg (by omega), hbytes j q hj hq]
      · rw [if_pos (by omega), Nat.add_sub_cancel_left]
    · rw [Nat.add_mul, Nat.one_mul] at ho
      rw [if_neg (by omega), hkept o (by omega)]

end Sys2Proof.Machine
end

section
/-! PROOFS. The commands of a stream (R181–R186). -/

namespace Sys2Proof.Machine

open Sys2Proof Sys2Proof.Safety

/-! ### A raw read after counting -/

theorem logReg_part {p : Nat} (hp : p < 8) : logReg (rPART_CTRL p) = false ∧ logReg (rPART_VCOUNT p) = false ∧
    logReg (rPART_VTABLE p) = false := by
  simp only [logReg, isCounterOff, Bool.or_eq_false_iff, Bool.and_eq_false_iff, decide_eq_false_iff_not]
  unfold rPART_CTRL rPART_VCOUNT rPART_VTABLE rCNT_SAT rTRC_STATUS rFLT_CPER_PTR rFLT_CPER_HEAD rCQ_STATUS
  omega

/-- The open slots that a raw read meets depend on memory and on registers that records do not write. -/
theorem openHit_congr {s t : State} (hrd : ∀ o, logReg o = false → rd t o = rd s o) (hmem : t.mem = s.mem)
    (hundef : t.memUndef = s.memUndef) (hbad : t.memBad = s.memBad) (htier : t.tier = s.tier) (own : List Nat) (a n : Nat) :
    openHit t own a n = openHit s own a n := by
  have hword : ∀ b, memWord t b = memWord s b := fun b => by
    simp only [memWord, memBytes, memByte_congr hmem hundef]
  have hbadIn : ∀ b m, memBadIn t b m = memBadIn s b m := fun b m => by
    simp only [memBadIn, tierDownIn, poisonIn, tierDown, hbad, htier]
  have hslots : ∀ p, p ∈ List.range nParts → (if partState t p = 0 then [] else openSlotsOf t p own) =
      (if partState s p = 0 then [] else openSlotsOf s p own) := fun p hp => by
    obtain ⟨hctrl, hcount, htable⟩ := logReg_part (List.mem_range.1 hp)
    have hdesc : ∀ i, descAddr t p i = descAddr s p i := fun i => by rw [descAddr, descAddr, rget, rget, hrd _ htable]
    have hread : ∀ b, readDesc t b = readDesc s b := fun b => by simp only [readDesc, hword]
    have hopen : openSlotsOf t p own = openSlotsOf s p own := by
      simp only [openSlotsOf, rget, hrd _ hcount, hdesc, hread, hbadIn]
    rw [hopen, partState, partState, rget, rget, hrd _ hctrl]
  rw [openHit, openHit, List.flatMap_congr hslots]

theorem memByte_rawView_congr {s t : State} (hrd : ∀ o, logReg o = false → rd t o = rd s o) (hmem : t.mem = s.mem)
    (hundef : t.memUndef = s.memUndef) (hbad : t.memBad = s.memBad) (htier : t.tier = s.tier) (hfree : t.free = s.free)
    (own : List Nat) (a n b : Nat) : memByte (rawView t own a n) b = memByte (rawView s own a n) b := by
  refine memByte_congr (s := rawView s own a n) (t := rawView t own a n) hmem ?_ b
  rw [rawView, rawView, openHit_congr hrd hmem hundef hbad htier, hfree, hundef]

theorem rawDone_frame (s : State) (own : List Nat) (a n : Nat) :
    rawDone s own a n = { s with free := (rawDone s own a n).free } := by
  unfold rawDone
  split <;> rfl

/-! ### Ports beside the work of an engine -/

/-- What the ports of core `c` depend on is the same. -/
structure PortsKept (s t : State) (c : Nat) : Prop where
  regs : t.regs = s.regs
  doze : t.doze = s.doze
  cal : (coreOf t c).cal = (coreOf s c).cal
  scrubbing : (coreOf t c).scrubbing = (coreOf s c).scrubbing
  spmBad : (coreOf t c).spmBad = (coreOf s c).spmBad

namespace PortsKept

variable {s t u : State} {c : Nat}

theorem trans (h : PortsKept s t c) (h' : PortsKept t u c) : PortsKept s u c :=
  ⟨h'.regs.trans h.regs, h'.doze.trans h.doze, h'.cal.trans h.cal, h'.scrubbing.trans h.scrubbing, h'.spmBad.trans h.spmBad⟩

theorem rd_eq (h : PortsKept s t c) (o : Nat) : rd t o = rd s o := by rw [rd, h.regs, rd]

theorem rangeOn (h : PortsKept s t c) (o n : Nat) : rangeOn t c o n = rangeOn s c o n := by
  have hquads : quadOn t c = quadOn s c := funext (fun q => by rw [quadOn, quadOn, h.rd_eq])
  rw [Machine.rangeOn, Machine.rangeOn, hquads]

theorem rangeServed (h : PortsKept s t c) (port o n : Nat) : rangeServed t c port o n = rangeServed s c port o n := by
  have hcal : calInForce t c = calInForce s c := by
    rw [calInForce, calInForce, rflag_congr (h.rd_eq _), rget, rget, h.rd_eq, h.cal]
  have hport : ∀ q, portServed t c port q = portServed s c port q := fun q => by
    rw [portServed, portServed, hcal, rflag_congr (h.rd_eq _), h.scrubbing]
  have hdoze : ∀ q, quadDozes t c q = quadDozes s c q := fun q => by rw [quadDozes, quadDozes, dozeOf, dozeOf, h.doze]
  simp only [Machine.rangeServed, hport, hdoze]

theorem spmBadIn (h : PortsKept s t c) (o n : Nat) : spmBadIn (coreOf t c) o n = spmBadIn (coreOf s c) o n := by
  rw [Machine.spmBadIn, Machine.spmBadIn, h.spmBad]

/-- An update of the core that leaves its calendars, its scrub and the marks of its words. -/
theorem modCore {f : Core → Core} (hcal : (f (coreOf s c)).cal = (coreOf s c).cal)
    (hscrub : (f (coreOf s c)).scrubbing = (coreOf s c).scrubbing) (hbad : (f (coreOf s c)).spmBad = (coreOf s c).spmBad) :
    PortsKept s (modCore s c f) c := by
  have hc := coreOf_modCore_same s c f
  exact ⟨rfl, rfl, by rw [hc, hcal], by rw [hc, hscrub], by rw [hc, hbad]⟩

end PortsKept

/-! ### The record of a stream -/

section

variable {s : State} {c n : Nat}

theorem coreOf_setStream (r : Stream) :
    coreOf (setStream s c n r) c = { coreOf s c with streams := kSet (coreOf s c).streams n r } := coreOf_modCore_same _ _ _

@[simp] theorem streamOf_setStream_same (r : Stream) : streamOf (setStream s c n r) c n = r := by
  rw [streamOf, coreOf_setStream]
  exact kGet_kSet_same _ _ _ _

theorem streamOf_setStream_other (r : Stream) {m : Nat} (hm : m ≠ n) : streamOf (setStream s c n r) c m = streamOf s c m := by
  rw [streamOf, coreOf_setStream]
  exact kGet_kSet_other _ _ _ _ _ hm

theorem ctxOf_setStream (r : Stream) (d x : Nat) : ctxOf (setStream s c n r) d x = ctxOf s d x := by
  by_cases hd : d = c
  · rw [hd, ctxOf, coreOf_setStream]
    rfl
  · rw [ctxOf, setStream, coreOf_modCore_other _ _ _ _ hd]
    rfl

theorem portsKept_setStream (r : Stream) : PortsKept s (setStream s c n r) c := .modCore rfl rfl rfl

/-- Of a stream's record alone. -/
theorem setStream_spec (r : Stream) : OnlyCore s (setStream s c n r) c ∧
    coreOf (setStream s c n r) c = { coreOf s c with streams := (coreOf (setStream s c n r) c).streams } ∧
    streamOf (setStream s c n r) c n = r ∧ ∀ m, m ≠ n → streamOf (setStream s c n r) c m = streamOf s c m :=
  ⟨onlyCore_modCore _ _ _, by rw [coreOf_setStream], streamOf_setStream_same r, fun _ hm => streamOf_setStream_other r hm⟩

/-! ### Where a stream stands -/

/-- The operation at which a stream stands. -/
def opOf (r : Stream) : Nat := r.ops.getD r.pos 0

/-- A program stands still at END, TILE and PAGE. -/
theorem soRun_stands {r : Stream} (h : soOp (opOf r) = 0 ∨ soOp (opOf r) = 6 ∨ soOp (opOf r) = 7) (fuel : Nat) :
    soRun fuel r = r := by
  cases fuel with
  | zero => rfl
  | succ fuel => exact if_pos h

theorem streamTileBegin_idle (h : (streamOf s c n).owner = none) : streamTileBegin s c n = s := by
  simp only [streamTileBegin, h]

theorem streamEnd_idle (h : (streamOf s c n).owner = none) : streamEnd s c n = s := by
  simp only [streamEnd, h]

/-- A stream stopped or at END ends once none of its tiles is FILLING (R181). -/
theorem streamEnd_stands {x : Nat} (h : (streamOf s c n).owner = some x)
    (hend : (streamOf s c n).ended = true ∨ soOp (opOf (streamOf s c n)) = 0) : streamEnd s c n =
    if (streamOf s c n).live.all (fun t => tokOf (coreOf s c) t ≠ .filling) then
      setStream s c n { streamOf s c n with owner := none, live := [], ended := true } else s := by
  have hrun : (if (streamOf s c n).ended then streamOf s c n else soRun soFuel (streamOf s c n)) = streamOf s c n := by
    split
    · rfl
    · next hne => exact soRun_stands (.inl (hend.resolve_left hne)) _
  have hstands : ((streamOf s c n).ended || decide (soOp (opOf (streamOf s c n)) = 0)) = true := by simpa using hend
  rw [opOf] at hstands
  simp only [streamEnd, h, hrun, hstands, Bool.true_and]

/-! ### A tile that begins -/

/-- The place of the slot that a stream's next tile uses. -/
def tileSlot (r : Stream) : Nat := r.slotOff + r.tiles % r.ring * r.slotSize

/-- The token that the next tile makes FILLING: of the slot for a LOAD, of the completion for a STORE (R185). -/
def tileTok (r : Stream) : Nat := if r.store then r.compTok + r.tiles % r.ring else r.tok0 + r.tiles % r.ring

/-- The record of a stream that has begun one tile more. -/
def nextTile (k : Core) (r : Stream) : Stream :=
  { r with pos := r.pos + 1, tiles := r.tiles + 1, live := strOpen k r ++ [tileTok r] }

/-- The core once a tile has begun, its data still to come. -/
def tileNoted (k : Core) (r : Stream) : Core :=
  { setTok k (tileTok r) .filling with
    tokRead := smSet false k.tokRead (tileTok r) false
    tokAt := kSet k.tokAt (tileTok r) (if r.store then [] else [(tileSlot r, r.rows * (r.rowLen * 64))])
    tokTile := smSet 0 k.tokTile (tileTok r) (if r.store then 0 else r.rows * (r.rowLen * 64)) }

/-- The state once a tile has begun, its data still to come. -/
def tileBegun (s : State) (c n : Nat) (r : Stream) : State :=
  countCore (countCore (modCore (setStream (setStream s c n r) c n (nextTile (coreOf s c) r)) c (tileNoted · r))
    c 0xAB 1) c 0xAC (r.rows * (r.rowLen * 64))

/-- The state once the data of a tile has moved. -/
def tileMoved (s : State) (c x n : Nat) (r : Stream) (addr pitch : Nat) : State :=
  let own := ownSlots (ctxOf s c x)
  let span := (r.rows - 1) * pitch + r.rowLen * 64
  let u := tileBegun s c n r
  if r.store then
    (List.range r.rows).foldl (fun u j =>
      pourWrite u c x (addr + j * pitch) (spmBytes (coreOf u c) (tileSlot r + j * (r.rowLen * 64)) (r.rowLen * 64))) u
  else modCore (rawDone u own addr span) c (fun k => (List.range r.rows).foldl (fun k j =>
    copyIn (rawView u own addr span) k (tileSlot r + j * (r.rowLen * 64)) (addr + j * pitch) (r.rowLen * 64)) k)

/-- What a tile whose rows begin at `addr` does, once its stream may begin it. -/
def tileStep (s : State) (c x n : Nat) (r : Stream) (addr pitch : Nat) : State :=
  let s0 := setStream s c n r
  let len := r.rowLen * 64
  if r.slotSize < r.rows * len then beginAbort s0 c x 0x08 0
  else
    match (List.range r.rows).find? (fun j =>
      !partReachesRange s0 (((ctxOf s c x).pour.map (·.part)).getD 0) (addr + j * pitch) len) with
    | some j => badAddress s0 c x 2 (addr + j * pitch)
    | none => streamTileBegin.guardStore s0 c x r (tileSlot r) addr pitch len (List.range r.rows) (tileMoved s c x n r addr pitch)

end

/-- What a stream does that has run to a TILE, PAGE or END (R184, R185). -/
def tileAfter (s : State) (c x n : Nat) (r : Stream) : State :=
  if soOp (opOf r) ≠ 6 ∧ soOp (opOf r) ≠ 7 then setStream s c n r
  else if tileSkew r then beginAbort (strErr (setStream s c n r) c n r.pos 7) c x 0x08 0
  else if !strReady (coreOf s c) r then setStream s c n r
  else
    match tileRows (setStream s c n r) c x (((ctxOf s c x).pour.map (·.part)).getD 0) r with
    | .error t => t
    | .ok (addr, pitch) => tileStep s c x n r addr pitch

section

variable {s : State} {c n x : Nat} {r : Stream}

/-- A stream of a pour before its commit point runs its program. -/
theorem streamTileBegin_runs (ho : (streamOf s c n).owner = some x) (he : (streamOf s c n).ended = false)
    (hb : beforeCommit (ctxOf s c x) = true) :
    streamTileBegin s c n = tileAfter s c x n (soRun soFuel (streamOf s c n)) := by
  have howned : streamTileBegin s c n = match (streamOf s c n).owner with
      | none => s
      | some x => if (streamOf s c n).ended || !beforeCommit (ctxOf s c x) then s
        else tileAfter s c x n (soRun soFuel (streamOf s c n)) := rfl
  rw [howned, ho]
  exact if_neg (by simp [he, hb])

/-- A stream that may not begin a tile yet (R185). -/
theorem tileAfter_waits (hskew : tileSkew r = false) (hready : strReady (coreOf s c) r = false) :
    tileAfter s c x n r = setStream s c n r := by
  rw [tileAfter, hskew, hready]
  simp

/-- A skewed TILE (R183). -/
theorem tileAfter_skewed (hop : soOp (opOf r) = 6) (hskew : tileSkew r = true) :
    tileAfter s c x n r = beginAbort (strErr (setStream s c n r) c n r.pos 7) c x 0x08 0 := by
  rw [tileAfter, if_neg (by simp [hop]), if_pos hskew]

/-- A tile whose stream may begin it and whose rows have an address. -/
theorem tileAfter_begins (hop : soOp (opOf r) = 6 ∨ soOp (opOf r) = 7) (hskew : tileSkew r = false)
    (hready : strReady (coreOf s c) r = true) {addr pitch : Nat}
    (hrows : tileRows (setStream s c n r) c x (((ctxOf s c x).pour.map (·.part)).getD 0) r = .ok (addr, pitch)) :
    tileAfter s c x n r = tileStep s c x n r addr pitch := by
  rw [tileAfter, if_neg (by omega), hskew, hready, hrows]
  rfl

end

/-! ### Refusals -/

section

variable {s : State} {c x : Nat}

theorem spm_beginAbort (code : Nat) : (coreOf (beginAbort s c x code 0) c).spm = (coreOf s c).spm := by
  obtain ⟨-, hcore, -⟩ := onlyCtx_beginAbort s c x code
  rw [hcore]

theorem sameMem_beginAbort (code : Nat) : SameMem s (beginAbort s c x code 0) := by
  rw [beginAbort_frame]
  exact fun _ => rfl

theorem logAddrErr_frame (s : State) (c agent x a : Nat) :
    logAddrErr s c agent x a = { s with regs := (logAddrErr s c agent x a).regs } := by
  unfold logAddrErr
  dsimp only
  split <;> rfl

/-- A refused access aborts the pour with BAD_ADDRESS, and no byte changes (R16). -/
theorem badAddress_spec (agent a : Nat) (hb : beforeCommit (ctxOf s c x) = true) :
    ctxOf (badAddress s c x agent a) c x = abortedAt (ctxOf s c x) 0x08 ∧ SameMem s (badAddress s c x agent a) ∧
    (coreOf (badAddress s c x agent a) c).spm = (coreOf s c).spm := by
  have hlog := logAddrErr_frame s c agent x a
  generalize hu : logAddrErr s c agent x a = u at hlog
  have hcores : u.cores = s.cores := by rw [hlog]
  have hctx : ctxOf u c x = ctxOf s c x := ctxOf_congr hcores c x
  have hmem : SameMem s u := by
    rw [hlog]
    exact fun _ => rfl
  rw [badAddress, hu]
  refine ⟨by rw [ctxOf_beginAbort u c x _ (by rw [hctx]; exact hb), hctx], fun b => ?_, ?_⟩
  · exact (sameMem_beginAbort _ b).trans (hmem b)
  · rw [spm_beginAbort, coreOf_congr hcores]

end

/-! ### The rows of a tile -/

section

variable {s : State} {c n x p : Nat} {r : Stream} {addr pitch : Nat}

theorem op_of_tileAt (h : tileAt s p r addr pitch) : soOp (opOf r) = 6 ∨ soOp (opOf r) = 7 := by
  rcases h with ⟨h, -⟩ | ⟨h, -⟩
  · exact .inl h
  · exact .inr h

theorem tileSkew_of_tileAt (h : tileAt s p r addr pitch) : tileSkew r = false := by
  rcases h with ⟨-, haddr, -, halign, -, hpitch⟩ | ⟨hop, -⟩
  · have hrow : ((r.bases.getD (bitsOf (r.ops.getD r.pos 0) 26 25) 0 : Nat) +
        r.a.getD (bitsOf (r.ops.getD r.pos 0) 24 23) 0 : Int) % 64 = 0 := by rw [← haddr]; omega
    simp only [tileSkew, hrow, hpitch, ne_eq, not_true_eq_false, decide_false, Bool.or_self, Bool.and_false]
  · simp only [tileSkew, hop]
    rfl

/-- The rows found at a TILE or PAGE (R182, R183). -/
theorem tileRows_of_tileAt (h : tileAt s p r addr pitch) : tileRows (setStream s c n r) c x p r = .ok (addr, pitch) := by
  rcases h with ⟨hop, haddr, hlt, -, hpitch, -⟩ | ⟨hop, hlo, hhi, hreach, base, hpte, hpitch, haddr⟩
  · rw [tileRows]
    dsimp only
    rw [if_neg (by omega), ← haddr, if_neg (by omega), hpitch]
    rfl
  · have hreach' : partReachesRange (setStream s c n r) p (r.bases.getD (bitsOf (r.ops.getD r.pos 0) 26 25) 0 +
        8 * (r.a.getD (bitsOf (r.ops.getD r.pos 0) 24 23) 0).toNat) 8 = true := hreach
    have hpte' : pteOf (setStream s c n r) p (r.bases.getD (bitsOf (r.ops.getD r.pos 0) 26 25) 0)
        (r.a.getD (bitsOf (r.ops.getD r.pos 0) 24 23) 0).toNat = .ok base := hpte
    rw [tileRows]
    dsimp only
    rw [if_pos hop, if_neg (by omega), hreach', hpte', hpitch, haddr]
    rfl

theorem streamTileBegin_of_tileAt (hr : streamOf s c n = r) (ho : r.owner = some x) (he : r.ended = false)
    (hb : beforeCommit (ctxOf s c x) = true) (hready : strReady (coreOf s c) r = true)
    (hat : tileAt s (((ctxOf s c x).pour.map (·.part)).getD 0) r addr pitch) :
    streamTileBegin s c n = tileStep s c x n r addr pitch := by
  have hop := op_of_tileAt hat
  rw [streamTileBegin_runs (by rw [hr]; exact ho) (by rw [hr]; exact he) hb, hr, soRun_stands (.inr hop),
    tileAfter_begins hop (tileSkew_of_tileAt hat) hready (tileRows_of_tileAt hat)]

/-! ### What stands in the way of a tile -/

/-- A tile larger than its slot (R186). -/
theorem tileStep_large (h : r.slotSize < r.rows * (r.rowLen * 64)) :
    tileStep s c x n r addr pitch = beginAbort (setStream s c n r) c x 0x08 0 := if_pos h

/-- A row out of the partition's reach. -/
theorem tileStep_unreached (h : r.rows * (r.rowLen * 64) ≤ r.slotSize) {j : Nat} (hj : j < r.rows)
    (hreach : partReachesRange s (((ctxOf s c x).pour.map (·.part)).getD 0) (addr + j * pitch) (r.rowLen * 64) = false) :
    ∃ i, tileStep s c x n r addr pitch = badAddress (setStream s c n r) c x 2 (addr + i * pitch) := by
  rw [tileStep]
  rw [if_neg (by omega)]
  split
  · next i _ => exact ⟨i, rfl⟩
  · next hnone =>
    have hreach' : partReachesRange (setStream s c n r) (((ctxOf s c x).pour.map (·.part)).getD 0) (addr + j * pitch)
        (r.rowLen * 64) = false := hreach
    have := List.find?_eq_none.1 hnone j (List.mem_range.2 hj)
    simp [hreach'] at this

/-- A tile whose rows are all within reach meets the guard of its slot. -/
theorem tileStep_guarded (h : r.rows * (r.rowLen * 64) ≤ r.slotSize)
    (hreach : ∀ j, j < r.rows →
      partReachesRange s (((ctxOf s c x).pour.map (·.part)).getD 0) (addr + j * pitch) (r.rowLen * 64) = true) :
    tileStep s c x n r addr pitch = streamTileBegin.guardStore (setStream s c n r) c x r (tileSlot r) addr pitch (r.rowLen * 64)
      (List.range r.rows) (tileMoved s c x n r addr pitch) := by
  have hnone : (List.range r.rows).find? (fun j => !partReachesRange (setStream s c n r)
      (((ctxOf s c x).pour.map (·.part)).getD 0) (addr + j * pitch) (r.rowLen * 64)) = none := by
    refine List.find?_eq_none.2 (fun j hj => ?_)
    have hj' : partReachesRange (setStream s c n r) (((ctxOf s c x).pour.map (·.part)).getD 0) (addr + j * pitch)
        (r.rowLen * 64) = true := hreach j (List.mem_range.1 hj)
    simp [hj']
  rw [tileStep]
  rw [if_neg (by omega), hnone]

section

variable {K : State}

theorem guardStore_waits (h : rangeServed s c 0xA (tileSlot r) (r.rows * (r.rowLen * 64)) = false) :
    streamTileBegin.guardStore (setStream s c n r) c x r (tileSlot r) addr pitch (r.rowLen * 64) (List.range r.rows) K =
      wakeQuads (setStream s c n r) c (quadsOf (tileSlot r) (r.rows * (r.rowLen * 64))) := by
  rw [streamTileBegin.guardStore, List.length_range, (portsKept_setStream r).rangeServed, h]
  rfl

/-- A slot that is served and on, with the words of a STORE or the controllers of a LOAD in order. -/
theorem guardStore_passes (hserved : rangeServed s c 0xA (tileSlot r) (r.rows * (r.rowLen * 64)) = true)
    (hon : rangeOn s c (tileSlot r) (r.rows * (r.rowLen * 64)) = true)
    (hstore : r.store = true → spmBadIn (coreOf s c) (tileSlot r) (r.rows * (r.rowLen * 64)) = false)
    (hload : r.store = false → ∀ j, j < r.rows → tierDownIn s (addr + j * pitch) (r.rowLen * 64) = false) :
    streamTileBegin.guardStore (setStream s c n r) c x r (tileSlot r) addr pitch (r.rowLen * 64) (List.range r.rows) K = K := by
  have hkept : PortsKept s (setStream s c n r) c := portsKept_setStream r
  have hbad : (r.store && spmBadIn (coreOf (setStream s c n r) c) (tileSlot r) (r.rows * (r.rowLen * 64))) = false := by
    rw [hkept.spmBadIn]
    cases hs : r.store with
    | false => rfl
    | true => exact hstore hs
  have hdown : (!r.store && (List.range r.rows).any (fun j =>
      tierDownIn (setStream s c n r) (addr + j * pitch) (r.rowLen * 64))) = false := by
    cases hs : r.store with
    | false =>
      refine List.any_eq_false.2 (fun j hj hd => ?_)
      have hup : tierDownIn (setStream s c n r) (addr + j * pitch) (r.rowLen * 64) = false := hload hs j (List.mem_range.1 hj)
      rw [hup] at hd
      cases hd
    | true => rfl
  rw [streamTileBegin.guardStore, List.length_range, hkept.rangeServed, hserved, hkept.rangeOn, hon, hbad, hdown]
  rfl

end

end

/-! ### The data of a tile -/

/-- Nothing but cores, registers and the trace differs. -/
def CoresCounted (s t : State) : Prop := t = { s with cores := t.cores, regs := t.regs, trc := t.trc }

theorem CoresCounted.trans {s t u : State} (h : CoresCounted s t) (h' : CoresCounted t u) : CoresCounted s u :=
  Eq.trans h' (by rw [h])

theorem coresCounted_countCore (s : State) (c i m : Nat) : CoresCounted s (countCore s c i m) := by
  rw [CoresCounted, countCore, countUp_frame]

section

variable {s : State} {c n x : Nat} {r : Stream} {addr pitch : Nat}

theorem coreOf_tileBegun : coreOf (tileBegun s c n r) c = tileNoted { coreOf s c with
    streams := kSet (kSet (coreOf s c).streams n r) n (nextTile (coreOf s c) r) } r := by
  rw [tileBegun, coreOf_congr (cores_countCore _ _ _ _), coreOf_congr (cores_countCore _ _ _ _), coreOf_modCore_same,
    coreOf_setStream, coreOf_setStream]

theorem coreOf_tileBegun_other {d : Nat} (hd : d ≠ c) : coreOf (tileBegun s c n r) d = coreOf s d := by
  rw [tileBegun, coreOf_congr (cores_countCore _ _ _ _), coreOf_congr (cores_countCore _ _ _ _),
    coreOf_modCore_other _ _ _ _ hd, setStream, coreOf_modCore_other _ _ _ _ hd, setStream, coreOf_modCore_other _ _ _ _ hd]

/-- The start of a tile changes cores and counters alone. -/
theorem tileBegun_frame : CoresCounted s (tileBegun s c n r) :=
  have noted : CoresCounted s (modCore (setStream (setStream s c n r) c n (nextTile (coreOf s c) r)) c (tileNoted · r)) := rfl
  (noted.trans (coresCounted_countCore _ _ _ _)).trans (coresCounted_countCore _ _ _ _)

theorem rd_tileBegun (hc : c < nCores) (hs : regsWf s) {o : Nat} (ho : logReg o = false) :
    rd (tileBegun s c n r) o = rd s o := by
  have hlog := (logged_countCore (modCore (setStream (setStream s c n r) c n (nextTile (coreOf s c) r)) c (tileNoted · r))
    hc (by decide : 0xAB < 512) 1).trans (logged_countCore _ hc (by decide : 0xAC < 512) (r.rows * (r.rowLen * 64)))
  exact hlog.same hs o ho

/-- A core in which a tile of stream `n` has begun, whatever has become of its scratchpad and caches. -/
structure TileNoted (k k' : Core) (n : Nat) (r : Stream) : Prop where
  toks : k'.toks = smSet Tok.empty k.toks (tileTok r) .filling
  streams : k'.streams = kSet (kSet k.streams n r) n (nextTile k r)

theorem tileNoted_begun : TileNoted (coreOf s c) (coreOf (tileBegun s c n r) c) n r := by
  rw [coreOf_tileBegun]
  exact ⟨rfl, rfl⟩

/-- What the record of a tile says of tokens and streams. -/
theorem TileNoted.spec {t : State} (h : TileNoted (coreOf s c) (coreOf t c) n r)
    (htoks : smWf (fun _ => Tok.empty) (coreOf s c).toks = true) :
    (∀ tk, tokOf (coreOf t c) tk = if tk = tileTok r then .filling else tokOf (coreOf s c) tk) ∧
    (streamOf t c n).tiles = r.tiles + 1 ∧ (streamOf t c n).pos = r.pos + 1 ∧
    ∀ m, m ≠ n → streamOf t c m = streamOf s c m := by
  have hsame : streamOf t c n = nextTile (coreOf s c) r := by
    rw [streamOf, h.streams]
    exact kGet_kSet_same _ _ _ _
  refine ⟨fun tk => ?_, by rw [hsame]; rfl, by rw [hsame]; rfl, fun m hm => ?_⟩
  · rw [tokOf, h.toks]
    exact smGet_smSet (fun _ => Tok.empty) _ _ _ _ htoks
  · rw [streamOf, h.streams, kGet_kSet_other _ _ _ _ _ hm, kGet_kSet_other _ _ _ _ _ hm, streamOf]

/-- A LOAD: the rows as a raw read finds them stand in the slot (R184, R186). -/
theorem tileMoved_load (hc : c < nCores) (hs : regsWf s) (hstore : r.store = false)
    (hspm : spmWf (coreOf s c)) :
    let t := tileMoved s c x n r addr pitch
    SameMem s t ∧ TileNoted (coreOf s c) (coreOf t c) n r ∧
    (∀ j q, j < r.rows → q < r.rowLen * 64 → spmByte (coreOf t c) (tileSlot r + j * (r.rowLen * 64) + q) =
      memByte (rawView s (ownSlots (ctxOf s c x)) addr ((r.rows - 1) * pitch + r.rowLen * 64)) (addr + j * pitch + q)) ∧
    (∀ o, (o < tileSlot r ∨ tileSlot r + r.rows * (r.rowLen * 64) ≤ o) → spmByte (coreOf t c) o = spmByte (coreOf s c) o) ∧
    ∀ d, d ≠ c → coreOf t d = coreOf s d := by
  have hnoted : TileNoted (coreOf s c) (coreOf (tileBegun s c n r) c) n r := tileNoted_begun
  have hframe := tileBegun_frame (s := s) (c := c) (n := n) (r := r)
  have hbytes : spmByte (coreOf (tileBegun s c n r) c) = spmByte (coreOf s c) := by
    rw [coreOf_tileBegun]
    rfl
  have hspm' : spmWf (coreOf (tileBegun s c n r) c) := by
    rw [coreOf_tileBegun]
    exact hspm
  have hothers : ∀ d, d ≠ c → coreOf (tileBegun s c n r) d = coreOf s d := fun d hd => coreOf_tileBegun_other hd
  have hview := memByte_rawView_congr (t := tileBegun s c n r) (fun o ho => rd_tileBegun hc hs ho) (by rw [hframe])
    (by rw [hframe]) (by rw [hframe]) (by rw [hframe]) (by rw [hframe]) (ownSlots (ctxOf s c x)) addr
    ((r.rows - 1) * pitch + r.rowLen * 64)
  have hmem : SameMem s (tileBegun s c n r) := by
    rw [hframe]
    exact fun _ => rfl
  rw [tileMoved, hstore]
  dsimp only
  rw [if_neg Bool.false_ne_true]
  generalize tileBegun s c n r = u at *
  have hdone := rawDone_frame u (ownSlots (ctxOf s c x)) addr ((r.rows - 1) * pitch + r.rowLen * 64)
  generalize rawDone u (ownSlots (ctxOf s c x)) addr ((r.rows - 1) * pitch + r.rowLen * 64) = v at hdone ⊢
  have hcores : v.cores = u.cores := by rw [hdone]
  obtain ⟨honly, -, hrows, hkept⟩ := foldl_copyIn (rawView u (ownSlots (ctxOf s c x)) addr ((r.rows - 1) * pitch + r.rowLen * 64))
    hspm' (tileSlot r) (r.rowLen * 64) (fun j => addr + j * pitch) r.rows
  rw [coreOf_modCore_same, coreOf_congr hcores]
  refine ⟨fun a => ?_, ⟨?_, ?_⟩, fun j q hj hq => (hrows j q hj hq).trans (hview _), fun o ho => ?_, fun d hd => ?_⟩
  · refine Eq.trans ?_ (hmem a)
    rw [hdone]
    rfl
  · rw [honly]
    exact hnoted.toks
  · rw [honly]
    exact hnoted.streams
  · rw [hkept o ho, hbytes]
  · rw [coreOf_modCore_other _ _ _ _ hd, coreOf_congr hcores, hothers d hd]

/-- A STORE: the slot's rows stand in memory that takes them (R184, R186). -/
theorem tileMoved_store (hs : Memory.wf s) (hstore : r.store = true) (hpitch : r.rowLen * 64 ≤ pitch)
    (hok : ∀ j, j < r.rows → writeFails s (addr + j * pitch) (r.rowLen * 64) = false) :
    let t := tileMoved s c x n r addr pitch
    TileNoted (coreOf s c) (coreOf t c) n r ∧ (coreOf t c).spm = (coreOf s c).spm ∧
    (∀ j q, j < r.rows → q < r.rowLen * 64 → memByte t (addr + j * pitch + q) =
      spmByte (coreOf s c) (tileSlot r + j * (r.rowLen * 64) + q)) ∧
    (∀ a, (∀ j, j < r.rows → a < addr + j * pitch ∨ addr + j * pitch + r.rowLen * 64 ≤ a) → memByte t a = memByte s a) ∧
    ∀ d, d ≠ c → coreOf t d = coreOf s d := by
  have hnoted : TileNoted (coreOf s c) (coreOf (tileBegun s c n r) c) n r := tileNoted_begun
  have hframe := tileBegun_frame (s := s) (c := c) (n := n) (r := r)
  have hkept : TierKept s (tileBegun s c n r) := by
    rw [hframe]
    exact .of_eq rfl rfl rfl
  have hmem : SameMem s (tileBegun s c n r) := by
    rw [hframe]
    exact fun _ => rfl
  have hrows : ∀ i j, i < j → j < r.rows → addr + i * pitch + r.rowLen * 64 ≤ addr + j * pitch := fun i j hij _ => by
    have := Nat.mul_le_mul_right pitch (Nat.succ_le_of_lt hij)
    rw [Nat.succ_mul] at this
    omega
  obtain ⟨hstores, hin, hout⟩ := foldl_pourWrite (c := c) (x := x) (addr := fun j => addr + j * pitch)
    (off := fun j => tileSlot r + j * (r.rowLen * 64)) (hkept.wf hs) (fun j hj => hkept.writeFails hs (hok j hj)) hrows
  rw [tileMoved, hstore]
  dsimp only
  rw [if_pos rfl]
  refine ⟨⟨?_, ?_⟩, ?_, fun j q hj hq => (hin j q hj hq).trans ?_, fun a ha => (hout a ha).trans (hmem a), fun d hd => ?_⟩
  · rw [hstores.core]
    exact hnoted.toks
  · rw [hstores.core]
    exact hnoted.streams
  · rw [hstores.core, coreOf_tileBegun]
    rfl
  · rw [coreOf_tileBegun]
    rfl
  · rw [hstores.others d hd, coreOf_tileBegun_other hd]

end

/-! ### A skewed tile -/

theorem strErr_fields {s : State} (hs : regsWf s) (c n op : Nat) :
    rget (strErr s c n op 7) (rSTR_ERR c) fSTR_ERR_CAUSE = 7 ∧ rflag (strErr s c n op 7) (rSTR_ERR c) fSTR_ERR_VALID = true ∧
    ∀ o, o ≠ rSTR_ERR c → rd (strErr s c n op 7) o = rd s o := by
  have hword : rd (strErr s c n op 7) (rSTR_ERR c) = BitVec.ofNat 64 (op <<< 12 + n <<< 9 + 7 <<< 4 + 1) :=
    rd_rwr_same s _ _ hs
  simp only [Nat.shiftLeft_eq] at hword
  refine ⟨?_, ?_, fun o ho => rd_rwr_other s _ _ _ hs ho⟩
  · rw [rget, hword, fSTR_ERR_CAUSE, wfld_ofNat _ (by decide)]
    show (op * 2 ^ 12 + n * 2 ^ 9 + 7 * 2 ^ 4 + 1) / 2 ^ 4 % 16 = 7
    omega
  · rw [rflag_iff, rget, hword, fSTR_ERR_VALID, wfld_ofNat _ (by decide)]
    show (op * 2 ^ 12 + n * 2 ^ 9 + 7 * 2 ^ 4 + 1) / 2 ^ 0 % 2 = 1
    omega

/-- A skewed TILE aborts its pour with BAD_ADDRESS and STR_ERR tells why (R183, R195). -/
theorem tile_skewed {s : State} {c n x : Nat} {r : Stream} (hs : regsWf s) (hb : beforeCommit (ctxOf s c x) = true) :
    let t := beginAbort (strErr (setStream s c n r) c n r.pos 7) c x 0x08 0
    ctxOf t c x = abortedAt (ctxOf s c x) 0x08 ∧ SameMem s t ∧ rget t (rSTR_ERR c) fSTR_ERR_CAUSE = 7 ∧
      rflag t (rSTR_ERR c) fSTR_ERR_VALID = true ∧ ∀ o, o ≠ rSTR_ERR c → rd t o = rd s o := by
  have hctx : ctxOf (strErr (setStream s c n r) c n r.pos 7) c x = ctxOf s c x := ctxOf_setStream r c x
  obtain ⟨hcause, hvalid, hrest⟩ := strErr_fields (s := setStream s c n r) hs c n r.pos
  have hregs : ∀ o, rd (beginAbort (strErr (setStream s c n r) c n r.pos 7) c x 0x08 0) o =
      rd (strErr (setStream s c n r) c n r.pos 7) o := fun o => by
    rw [rd, beginAbort_frame]
    rfl
  refine ⟨by rw [ctxOf_beginAbort _ c x _ (by rw [hctx]; exact hb), hctx], fun a => (sameMem_beginAbort _ a).trans rfl, ?_, ?_,
    fun o ho => (hregs o).trans (hrest o ho)⟩
  · rw [rget, hregs]
    exact hcause
  · rw [rflag_congr (hregs _)]
    exact hvalid

end Sys2Proof.Machine

namespace Sys2Proof.Safety

open Sys2Proof Sys2Proof.Machine

theorem streamTiles_holds {s : State} {c n : Nat} (hc : c < nCores) (hcanon : Canon s) (hn : n < 8) : streamTiles s c n := by
  obtain ⟨hmem, hregs⟩ := hcanon
  have hunit : strOk c n = true := by simp [strOk, hc, hn]
  have begins : ∀ {P : State → Prop}, P (streamTileBegin s c n) → Runs (.streamTileBegin c n) s P :=
    fun h => runs_of_onUnit rfl hunit h
  have ends : ∀ {P : State → Prop}, P (streamEnd s c n) → Runs (.streamEnd c n) s P := fun h => runs_of_onUnit rfl hunit h
  unfold streamTiles
  intro r
  refine ⟨fun hnone => ⟨begins (streamTileBegin_idle hnone), ends (streamEnd_idle hnone)⟩, fun x ho hend => ⟨fun hfull => ?_,
    fun tk htk hfill => ?_⟩, fun x ho he hb hskew hready => ?_, fun x ho he hb hop hskew => ?_, fun x addr pitch ho he hb => ?tile⟩
  · refine ends ?_
    rw [streamEnd_stands ho hend, if_pos (by simpa using hfull)]
    exact setStream_spec _
  · refine ends ?_
    rw [streamEnd_stands ho hend, if_neg (by simpa using ⟨tk, htk, hfill⟩)]
  · refine begins ?_
    rw [streamTileBegin_runs ho he hb, tileAfter_waits hskew hready]
    exact setStream_spec _
  · refine begins ?_
    rw [streamTileBegin_runs ho he hb, soRun_stands (.inr (.inl hop)), tileAfter_skewed hop hskew]
    exact tile_skewed hregs hb
  case tile =>
    intro i off len p own span hready hat
    have hstep : streamTileBegin s c n = tileStep s c x n r addr pitch := streamTileBegin_of_tileAt rfl ho he hb hready hat
    have hctx : ctxOf (setStream s c n r) c x = ctxOf s c x := ctxOf_setStream r c x
    have hb0 : beforeCommit (ctxOf (setStream s c n r) c x) = true := by rw [hctx]; exact hb
    have hspm0 : (coreOf (setStream s c n r) c).spm = (coreOf s c).spm := by rw [coreOf_setStream]
    refine ⟨fun hlarge => begins ?_, fun hfits j hj hreach => begins ?_, fun hfits hreach hserved => begins ?_,
      fun hfits hreach hserved hon htoks hspm => ⟨fun hstore hup => begins ?_, fun hstore hclean hpitch hok => begins ?_⟩⟩
    · obtain ⟨⟨hframe, hothers⟩, -, -⟩ := onlyCtx_beginAbort (setStream s c n r) c x 0x08
      rw [hstep, tileStep_large hlarge]
      refine ⟨⟨by rw [hframe]; rfl, fun d hd => (hothers d hd).trans (coreOf_modCore_other _ _ _ _ hd)⟩, ?_,
        (spm_beginAbort _).trans hspm0⟩
      rw [ctxOf_beginAbort _ c x _ hb0, hctx]
    · obtain ⟨m, hm⟩ := tileStep_unreached (n := n) hfits hj hreach
      obtain ⟨habort, hsame, hspm⟩ := badAddress_spec 2 (addr + m * pitch) hb0
      rw [hstep, hm]
      exact ⟨habort.trans (by rw [hctx]), hsame, hspm.trans hspm0⟩
    · rw [hstep, tileStep_guarded hfits hreach, guardStore_waits hserved]
      rfl
    · rw [hstep, tileStep_guarded hfits hreach,
        guardStore_passes hserved hon (fun h => absurd h (by simp [hstore])) (fun _ => hup)]
      obtain ⟨hsame, hnoted, hrows, hkept, hothers⟩ :=
        tileMoved_load (x := x) (n := n) (r := r) (addr := addr) (pitch := pitch) hc hregs hstore hspm
      obtain ⟨htok, htiles, hpos, hstreams⟩ := hnoted.spec htoks
      rw [tileTok, if_neg (by simp [hstore])] at htok
      exact ⟨hsame, hrows, hkept, htok, htiles, hpos, hstreams, hothers⟩
    · rw [hstep, tileStep_guarded hfits hreach, guardStore_passes hserved hon (fun _ => hclean) (fun h => absurd h (by simp [hstore]))]
      obtain ⟨hnoted, hspm, hin, hout, hothers⟩ := tileMoved_store (x := x) (n := n) (c := c) hmem hstore hpitch hok
      obtain ⟨htok, htiles, hpos, hstreams⟩ := hnoted.spec htoks
      rw [tileTok, if_pos hstore] at htok
      exact ⟨hspm, hin, hout, htok, htiles, hpos, hstreams, hothers⟩

end Sys2Proof.Safety
end

section
/-! PROOFS. The commands of a gather (R189, R190). -/

namespace Sys2Proof.Machine

open Sys2Proof Sys2Proof.Safety

theorem onlyCore_trans {s t u : State} {c : Nat} (h : OnlyCore s t c) (h' : OnlyCore t u c) : OnlyCore s u c :=
  have ⟨hst, hother⟩ := h
  have ⟨htu, hother'⟩ := h'
  ⟨htu.trans (by rw [hst]), fun d hd => (hother' d hd).trans (hother d hd)⟩

section

variable {s : State} {c n : Nat}

/-! ### The record of a gather -/

theorem coreOf_setGath (r : Gath) :
    coreOf (setGath s c n r) c = { coreOf s c with gaths := kSet (coreOf s c).gaths n r } := coreOf_modCore_same _ _ _

theorem onlyCore_setGath (r : Gath) : OnlyCore s (setGath s c n r) c := onlyCore_modCore _ _ _

@[simp] theorem gathOf_setGath_same (r : Gath) : gathOf (setGath s c n r) c n = r := by
  rw [gathOf, coreOf_setGath]
  exact kGet_kSet_same _ _ _ _

theorem gathOf_setGath_other (r : Gath) {m : Nat} (hm : m ≠ n) : gathOf (setGath s c n r) c m = gathOf s c m := by
  rw [gathOf, coreOf_setGath]
  exact kGet_kSet_other _ _ _ _ _ hm

theorem gathOf_congr {t : State} (h : (coreOf t c).gaths = (coreOf s c).gaths) (m : Nat) : gathOf t c m = gathOf s c m := by
  rw [gathOf, gathOf, h]

/-! ### GATHER_END -/

theorem gatherEnd_idle (h : (gathOf s c n).owner = none) : gatherEnd s c n = s := by
  simp only [gatherEnd, h]

theorem gatherEnd_visits (h : (gathOf s c n).visit < (gathOf s c n).rows.length) : gatherEnd s c n = s := by
  cases ho : (gathOf s c n).owner with
  | none => exact gatherEnd_idle ho
  | some x =>
    simp only [gatherEnd, ho]
    rw [if_neg (by omega)]

/-- The slots of a list that are FILLING become FULL. -/
def fillFull (k : Core) (l : List Nat) : Core := l.foldl (fun k t => if tokOf k t = .filling then setTok k t .full else k) k

/-- A token that goes FULL keeps its slot's content. -/
theorem setTok_full (k : Core) (t : Nat) : setTok k t .full = { k with toks := smSet Tok.empty k.toks t .full } := rfl

theorem fillFull_spec (k : Core) (l : List Nat) (hk : smWf (fun _ => Tok.empty) k.toks = true) :
    fillFull k l = { k with toks := (fillFull k l).toks } ∧
    ∀ tk, tokOf (fillFull k l) tk = if tk ∈ l ∧ tokOf k tk = .filling then .full else tokOf k tk := by
  induction l generalizing k with
  | nil => exact ⟨rfl, fun tk => by simp [fillFull]⟩
  | cons t l ih =>
    rw [fillFull, List.foldl_cons, ← fillFull]
    split
    · next hfill =>
      obtain ⟨hframe, htok⟩ := ih (setTok k t .full) (by rw [setTok_full]; exact smSet_wf _ _ _ _ hk)
      refine ⟨hframe.trans (by rw [setTok_full]), fun tk => (htok tk).trans ?_⟩
      rw [tokOf_setTok hk]
      by_cases htk : tk = t
      · simp [htk, hfill]
      · simp [htk]
    · next hfill =>
      obtain ⟨hframe, htok⟩ := ih k hk
      refine ⟨hframe, fun tk => (htok tk).trans ?_⟩
      by_cases htk : tk = t
      · simp [htk, hfill]
      · simp [htk]

/-- The record of a gather that has ended. -/
def endedGath (r : Gath) : Gath := { r with owner := none, open_ := false, live := [] }

theorem gatherEnd_ends {x : Nat} (ho : (gathOf s c n).owner = some x) (h : (gathOf s c n).rows.length ≤ (gathOf s c n).visit) :
    gatherEnd s c n = if (gathOf s c n).store then setGath s c n (endedGath (gathOf s c n))
      else modCore (setGath s c n (endedGath (gathOf s c n))) c (fillFull · (gathOf s c n).live) := by
  simp only [gatherEnd, ho]
  exact if_pos h

/-- A gather whose every row is visited ends: the FILLING slots of a LOAD become FULL (R189). -/
theorem gatherEnd_done {x : Nat} (ho : (gathOf s c n).owner = some x) (h : (gathOf s c n).rows.length ≤ (gathOf s c n).visit)
    (htoks : smWf (fun _ => Tok.empty) (coreOf s c).toks = true) :
    let r := gathOf s c n
    let t := gatherEnd s c n
    OnlyCore s t c ∧ coreOf t c = { coreOf s c with gaths := (coreOf t c).gaths, toks := (coreOf t c).toks } ∧
    gathOf t c n = endedGath r ∧ (∀ m, m ≠ n → gathOf t c m = gathOf s c m) ∧
    ∀ tk, tokOf (coreOf t c) tk =
      if r.store = false ∧ tk ∈ r.live ∧ tokOf (coreOf s c) tk = .filling then .full else tokOf (coreOf s c) tk := by
  have hcore := coreOf_setGath (s := s) (c := c) (n := n) (endedGath (gathOf s c n))
  have hfreed := gathOf_setGath_same (s := s) (c := c) (n := n) (endedGath (gathOf s c n))
  have hrest := fun m (hm : m ≠ n) => gathOf_setGath_other (s := s) (c := c) (endedGath (gathOf s c n)) hm
  have honly : OnlyCore s (setGath s c n (endedGath (gathOf s c n))) c := onlyCore_modCore _ _ _
  dsimp only
  rw [gatherEnd_ends ho h]
  by_cases hstore : (gathOf s c n).store = true
  · rw [if_pos hstore]
    exact ⟨honly, by rw [hcore], hfreed, hrest, fun tk => by rw [hcore]; simp [tokOf, hstore]⟩
  · rw [if_neg hstore]
    generalize setGath s c n (endedGath (gathOf s c n)) = u at honly hcore hfreed hrest ⊢
    obtain ⟨hfull, htok⟩ := fillFull_spec (coreOf u c) (gathOf s c n).live (by rw [hcore]; exact htoks)
    have htoku : ∀ tk, tokOf (coreOf u c) tk = tokOf (coreOf s c) tk := fun tk => by
      rw [hcore]
      rfl
    have hsame : coreOf (modCore u c (fillFull · (gathOf s c n).live)) c = fillFull (coreOf u c) (gathOf s c n).live :=
      coreOf_modCore_same _ _ _
    have hgaths : (coreOf (modCore u c (fillFull · (gathOf s c n).live)) c).gaths = (coreOf u c).gaths := by
      rw [hsame, hfull]
    refine ⟨onlyCore_trans honly (onlyCore_modCore _ _ _), by rw [hsame, hfull, hcore], (gathOf_congr hgaths n).trans hfreed,
      fun m hm => (gathOf_congr hgaths m).trans (hrest m hm), fun tk => ?_⟩
    rw [hsame, htok, htoku]
    simp [hstore]

/-! ### A slot that begins -/

/-- The record of a gather whose slot at hand has begun (R185). -/
def begunGath (k : Core) (r : Gath) : Gath :=
  { r with open_ := true, live := gathOpen k r ++ (if r.store then [] else [gathTok r]) }

/-- The state and the record from which a gather makes its next request. -/
def gathStart (s : State) (c n : Nat) : State × Gath :=
  if (gathOf s c n).open_ then (s, gathOf s c n) else gathBegin s c n (gathOf s c n)

/-- What the start of a slot changes of its core: the gathers' records, and what is noted of slots. -/
structure GathStarted (s u : State) (c n : Nat) (r : Gath) : Prop where
  only : OnlyCore s u c
  core : coreOf u c = { coreOf s c with
    gaths := (coreOf u c).gaths, toks := (coreOf u c).toks, tokRead := (coreOf u c).tokRead
    tokAt := (coreOf u c).tokAt, tokTile := (coreOf u c).tokTile }
  rest : ∀ m, m ≠ n → gathOf u c m = gathOf s c m
  record : ∃ l, r = { gathOf s c n with open_ := true, live := l }
  stored : (gathOf s c n).store = true → (coreOf u c).toks = (coreOf s c).toks
  toks : smWf (fun _ => Tok.empty) (coreOf s c).toks = true → (gathOf s c n).store = false → ∀ tk, tokOf (coreOf u c) tk =
    if (gathOf s c n).open_ = false ∧ tk = gathTok (gathOf s c n) then .filling else tokOf (coreOf s c) tk

theorem gathStarted_start : GathStarted s (gathStart s c n).1 c n (gathStart s c n).2 := by
  unfold gathStart
  by_cases hopen : (gathOf s c n).open_ = true
  · rw [if_pos hopen]
    exact ⟨⟨rfl, fun _ _ => rfl⟩, rfl, fun _ _ => rfl, ⟨(gathOf s c n).live, by rw [← hopen]⟩, fun _ => rfl,
      fun _ _ tk => by simp [hopen]⟩
  · rw [if_neg hopen]
    have hopen' : (gathOf s c n).open_ = false := by simpa using hopen
    have hcore := coreOf_setGath (s := s) (c := c) (n := n) (begunGath (coreOf s c) (gathOf s c n))
    have hrest := fun m (hm : m ≠ n) => gathOf_setGath_other (s := s) (c := c) (begunGath (coreOf s c) (gathOf s c n)) hm
    by_cases hstore : (gathOf s c n).store = true
    · have hbegin : gathBegin s c n (gathOf s c n) =
          (setGath s c n (begunGath (coreOf s c) (gathOf s c n)), begunGath (coreOf s c) (gathOf s c n)) := if_pos hstore
      rw [hbegin]
      dsimp only
      exact ⟨onlyCore_setGath _, by rw [hcore], hrest, ⟨_, rfl⟩, fun _ => by rw [hcore], fun _ h => absurd hstore (by simp [h])⟩
    · have hbegin : gathBegin s c n (gathOf s c n) = (_, begunGath (coreOf s c) (gathOf s c n)) := if_neg hstore
      rw [hbegin]
      dsimp only
      refine ⟨onlyCore_trans (onlyCore_modCore _ _ _) (onlyCore_modCore _ _ _), ?_, fun m hm => ?_, ⟨_, rfl⟩, fun h => absurd h hstore,
        fun htoks _ tk => ?_⟩
      · rw [coreOf_modCore_same, coreOf_setGath]
        rfl
      · rw [gathOf, coreOf_modCore_same]
        exact hrest m hm
      · rw [coreOf_modCore_same, coreOf_setGath]
        simp only [hopen', true_and]
        exact tokOf_setTok (k := { coreOf s c with gaths := _ }) htoks (gathTok (gathOf s c n)) .filling tk

end

/-! ### A request -/

section

variable {s : State} {c n x row : Nat}

/-- Where the next request of a gather reads or writes tier memory. -/
def gathAddr (r : Gath) (row : Nat) : Nat := r.base + row * r.stride + r.byteAt

/-- Its bytes: up to the next 256-byte line, and to the end of the row. -/
def gathLen (r : Gath) (row : Nat) : Nat := min (256 - gathAddr r row % 256) (r.rowLen * 64 - r.byteAt)

/-- Its place in the scratchpad. -/
def gathPlace (r : Gath) : Nat :=
  r.slotOff + (r.visit / r.perSlot % r.ring) * (r.perSlot * r.pitch) + (r.visit % r.perSlot) * r.pitch + r.byteAt

/-- The record of a gather after a request. -/
def movedGath (r : Gath) (row : Nat) : Gath :=
  let done := decide (r.rowLen * 64 ≤ r.byteAt + gathLen r row)
  let v := if done then r.visit + 1 else r.visit
  { r with visit := v, byteAt := if done then 0 else r.byteAt + gathLen r row, open_ := !(done && v % r.perSlot = 0) }

/-- The state of a gather that has made its request, the data still to come. -/
def gathCounted (u : State) (c n : Nat) (r : Gath) (row : Nat) : State :=
  setGath (if r.byteAt = 0 then countCore u c 0xAF 1 else u) c n (movedGath r row)

/-- The data of a request. -/
def gathData (s u : State) (c x : Nat) (r : Gath) (row : Nat) : State :=
  if r.store then pourWrite u c x (gathAddr r row) (spmBytes (coreOf u c) (gathPlace r) (gathLen r row))
  else modCore (rawDone u (ownSlots (ctxOf s c x)) (gathAddr r row) (gathLen r row)) c (fun k =>
    copyIn (rawView u (ownSlots (ctxOf s c x)) (gathAddr r row) (gathLen r row)) k (gathPlace r) (gathAddr r row) (gathLen r row))

/-- A request of a row below the bound, from the state and record at which its slot has begun. -/
def gathStep (s : State) (c x n row : Nat) (u : State) (r : Gath) : State :=
  if !partReachesRange u (((ctxOf s c x).pour.map (·.part)).getD 0) (gathAddr r row) (gathLen r row) then
    badAddress u c x 3 (gathAddr r row)
  else if !rangeServed s c (0xB + n) (gathPlace r) (gathLen r row) then wakeQuads s c (quadsOf (gathPlace r) (gathLen r row))
  else if !rangeOn u c (gathPlace r) (gathLen r row) then bankOff u c x (gathPlace r) (gathLen r row) (0xB + n)
  else if r.store && spmBadIn (coreOf u c) (gathPlace r) (gathLen r row) then spmUncorrected u c x (gathPlace r) (gathLen r row)
  else if !r.store && tierDownIn u (gathAddr r row) (gathLen r row) then beginAbort u c x 0x04 0
  else gathData s (gathCounted u c n r row) c x r row

theorem gatherRequest_idle (h : (gathOf s c n).owner = none) : gatherRequest s c n = s := by
  simp only [gatherRequest, h]

/-- A gather that may make its next request (R189, R190). -/
theorem gatherRequest_asks (ho : (gathOf s c n).owner = some x) (hrow : (gathOf s c n).rows[(gathOf s c n).visit]? = some row)
    (hb : beforeCommit (ctxOf s c x) = true)
    (hready : (gathOf s c n).open_ = true ∨ gathReady (coreOf s c) (gathOf s c n) = true) :
    gatherRequest s c n = if (gathOf s c n).bound ≤ row then beginAbort s c x 0x08 0
      else gathStep s c x n row (gathStart s c n).1 (gathStart s c n).2 := by
  have hcases : gatherRequest s c n = match (gathOf s c n).owner with
      | none => s
      | some x =>
        match (gathOf s c n).rows[(gathOf s c n).visit]? with
        | none => s
        | some row =>
          if !beforeCommit (ctxOf s c x) then s
          else if !(gathOf s c n).open_ && !gathReady (coreOf s c) (gathOf s c n) then s
          else if (gathOf s c n).bound ≤ row then beginAbort s c x 0x08 0
          else gathStep s c x n row (gathStart s c n).1 (gathStart s c n).2 := rfl
  have hmay : (!(gathOf s c n).open_ && !gathReady (coreOf s c) (gathOf s c n)) = false := by
    rcases hready with h | h <;> simp [h]
  rw [hcases, ho]
  dsimp only
  rw [hrow]
  dsimp only
  rw [hb, hmay]
  rfl

/-! ### The data of a request -/

/-- The state `v` in which the request of the gather `r` of `s` has been made, its data to come. -/
structure GathAsked (s v : State) (c n : Nat) (r : Gath) (row : Nat) : Prop where
  frame : CoresCounted s v
  same : regsWf s → ∀ o, logReg o = false → rd v o = rd s o
  others : ∀ d, d ≠ c → coreOf v d = coreOf s d
  core : coreOf v c = { coreOf s c with
    gaths := (coreOf v c).gaths, toks := (coreOf v c).toks, tokRead := (coreOf v c).tokRead
    tokAt := (coreOf v c).tokAt, tokTile := (coreOf v c).tokTile }
  visit : (gathOf v c n).visit = if r.rowLen * 64 ≤ r.byteAt + gathLen r row then r.visit + 1 else r.visit
  byteAt : (gathOf v c n).byteAt = if r.rowLen * 64 ≤ r.byteAt + gathLen r row then 0 else r.byteAt + gathLen r row
  rest : ∀ m, m ≠ n → gathOf v c m = gathOf s c m

theorem gathAsked_counted {u : State} {r : Gath} (hc : c < nCores) (h : GathStarted s u c n r) :
    GathAsked s (gathCounted u c n r row) c n (gathOf s c n) row ∧
    (coreOf (gathCounted u c n r row) c).toks = (coreOf u c).toks := by
  obtain ⟨⟨hframe, hothers⟩, hcore, hrest, ⟨l, hr⟩, -, -⟩ := h
  have hcount : ∃ v, (if r.byteAt = 0 then countCore u c 0xAF 1 else u) = v ∧ CoresCounted u v ∧ v.cores = u.cores ∧
      (regsWf u → ∀ o, logReg o = false → rd v o = rd u o) := by
    refine ⟨_, rfl, ?_⟩
    split
    · exact ⟨coresCounted_countCore _ _ _ _, cores_countCore _ _ _ _, (logged_countCore u hc (by decide) 1).same⟩
    · exact ⟨rfl, rfl, fun _ _ _ => rfl⟩
  obtain ⟨v, hv, hcounted, hcores, hsame⟩ := hcount
  have hset := coreOf_setGath (s := v) (c := c) (n := n) (movedGath r row)
  have hregs : u.regs = s.regs := by rw [hframe]
  have hstart : CoresCounted s u := by rw [CoresCounted, hframe]
  have hlen : gathLen r row = gathLen (gathOf s c n) row := by
    rw [hr]
    rfl
  have hmoved : gathOf (gathCounted u c n r row) c n = movedGath r row := by
    rw [gathCounted, hv]
    exact gathOf_setGath_same _
  refine ⟨⟨?_, fun hs o ho => ?_, fun d hd => ?_, ?_, ?_, ?_, fun m hm => ?_⟩, ?_⟩
  · rw [gathCounted, hv]
    exact (hstart.trans hcounted).trans rfl
  · rw [gathCounted, hv]
    exact (hsame (by rw [regsWf, hregs]; exact hs) o ho).trans (by rw [rd, hregs, rd])
  · rw [gathCounted, hv, setGath, coreOf_modCore_other _ _ _ _ hd, coreOf_congr hcores, hothers d hd]
  · rw [gathCounted, hv, hset, coreOf_congr hcores, hcore]
  · rw [hmoved]
    simp only [movedGath, hlen, decide_eq_true_eq]
    rw [hr]
  · rw [hmoved]
    simp only [movedGath, hlen, decide_eq_true_eq]
    rw [hr]
  · rw [gathCounted, hv, gathOf_setGath_other _ hm, gathOf, coreOf_congr hcores]
    exact hrest m hm
  · rw [gathCounted, hv, hset, coreOf_congr hcores]

/-- A LOAD brings the bytes that a raw read finds (R190). -/
theorem gathData_load {v : State} {r : Gath} (hs : regsWf s) (hspm : spmWf (coreOf s c)) (h : GathAsked s v c n (gathOf s c n) row)
    (hstore : r.store = false) :
    let t := gathData s v c x r row
    SameMem s t ∧ (coreOf t c).toks = (coreOf v c).toks ∧ (∀ m, gathOf t c m = gathOf v c m) ∧
    (∀ o, spmByte (coreOf t c) o = if gathPlace r ≤ o ∧ o < gathPlace r + gathLen r row then
      memByte (rawView s (ownSlots (ctxOf s c x)) (gathAddr r row) (gathLen r row)) (gathAddr r row + (o - gathPlace r))
      else spmByte (coreOf s c) o) ∧
    ∀ d, d ≠ c → coreOf t d = coreOf s d := by
  obtain ⟨hframe, hsame, hothers, hcore, -, -, -⟩ := h
  have hview := memByte_rawView_congr (hsame hs) (by rw [hframe]) (by rw [hframe]) (by rw [hframe]) (by rw [hframe])
    (by rw [hframe]) (ownSlots (ctxOf s c x)) (gathAddr r row) (gathLen r row)
  have hbytes : spmByte (coreOf v c) = spmByte (coreOf s c) := by
    rw [hcore]
    rfl
  have hspm' : spmWf (coreOf v c) := by
    rw [hcore]
    exact hspm
  have hmem : SameMem s v := by
    rw [hframe]
    exact fun _ => rfl
  have hdone := rawDone_frame v (ownSlots (ctxOf s c x)) (gathAddr r row) (gathLen r row)
  rw [gathData, if_neg (by simp [hstore])]
  dsimp only
  generalize rawDone v (ownSlots (ctxOf s c x)) (gathAddr r row) (gathLen r row) = u at hdone ⊢
  have hcores : u.cores = v.cores := by rw [hdone]
  obtain ⟨honly, -, hcopy⟩ := copyIn_spec (rawView v (ownSlots (ctxOf s c x)) (gathAddr r row) (gathLen r row)) hspm'
    (gathPlace r) (gathAddr r row) (gathLen r row)
  have hkeeps : (coreOf (modCore u c (fun k => copyIn (rawView v (ownSlots (ctxOf s c x)) (gathAddr r row) (gathLen r row)) k
      (gathPlace r) (gathAddr r row) (gathLen r row))) c) = copyIn (rawView v (ownSlots (ctxOf s c x)) (gathAddr r row)
      (gathLen r row)) (coreOf v c) (gathPlace r) (gathAddr r row) (gathLen r row) := by
    rw [coreOf_modCore_same, coreOf_congr hcores]
  refine ⟨fun a => ?_, by rw [hkeeps, honly], fun m => gathOf_congr (by rw [hkeeps, honly]) m, fun o => ?_, fun d hd => ?_⟩
  · refine Eq.trans ?_ (hmem a)
    rw [hdone]
    rfl
  · rw [hkeeps, hcopy, hbytes, hview]
  · rw [coreOf_modCore_other _ _ _ _ hd, coreOf_congr hcores, hothers d hd]

/-- A STORE takes the bytes to memory that takes them (R190). -/
theorem gathData_store {v : State} {r : Gath} (hs : memWf s = true) (h : GathAsked s v c n (gathOf s c n) row)
    (hstore : r.store = true) (hok : writeFails s (gathAddr r row) (gathLen r row) = false) :
    let t := gathData s v c x r row
    (coreOf t c).spm = (coreOf s c).spm ∧ (coreOf t c).toks = (coreOf v c).toks ∧ (∀ m, gathOf t c m = gathOf v c m) ∧
    (∀ b, (b < gathAddr r row ∨ gathAddr r row + gathLen r row ≤ b) → memByte t b = memByte s b) ∧
    (∀ q, q < gathLen r row → memByte t (gathAddr r row + q) = spmByte (coreOf s c) (gathPlace r + q)) ∧
    ∀ d, d ≠ c → coreOf t d = coreOf s d := by
  obtain ⟨hframe, -, hothers, hcore, -, -, -⟩ := h
  have hlen : (spmBytes (coreOf v c) (gathPlace r) (gathLen r row)).length = gathLen r row := by simp [spmBytes]
  have hbytes : spmByte (coreOf v c) = spmByte (coreOf s c) := by
    rw [hcore]
    rfl
  have hmem : SameMem s v := by
    rw [hframe]
    exact fun _ => rfl
  have hwf : memWf v = true := by
    rw [hframe]
    exact hs
  have hok' : writeFails v (gathAddr r row) (spmBytes (coreOf v c) (gathPlace r) (gathLen r row)).length = false := by
    rw [hlen, hframe]
    exact hok
  rw [gathData, if_pos hstore]
  obtain ⟨hout, hin⟩ := memByte_pourWrite (c := c) (x := x) hok' hwf
  have hunit : UnitStored v (pourWrite v c x (gathAddr r row) (spmBytes (coreOf v c) (gathPlace r) (gathLen r row))) c :=
    unitStored_pourWrite hok'
  rw [hlen] at hout hin
  refine ⟨by rw [hunit.spm, hcore], by rw [hunit.core], fun m => gathOf_congr (by rw [hunit.core]) m,
    fun b hb => (hout b hb).trans (hmem b), fun q hq => (hin q hq).trans ?_, fun d hd => (hunit.others d hd).trans (hothers d hd)⟩
  rw [getD_spmBytes hq, hbytes]

/-- A STORE that memory does not take aborts its pour (R26, R210). -/
theorem gathData_fails {v : State} {r : Gath} (h : CoresCounted s v) (hctx : ctxOf v c x = ctxOf s c x)
    (hb : beforeCommit (ctxOf s c x) = true) (hstore : r.store = true)
    (hfails : writeFails s (gathAddr r row) (gathLen r row) = true) :
    ctxOf (gathData s v c x r row) c x = abortedAt (ctxOf s c x) 0x04 ∧ SameMem s (gathData s v c x r row) := by
  have hfails' : writeFails v (gathAddr r row) (spmBytes (coreOf v c) (gathPlace r) (gathLen r row)).length = true := by
    rw [show (spmBytes (coreOf v c) (gathPlace r) (gathLen r row)).length = gathLen r row by simp [spmBytes], h]
    exact hfails
  have hmem : SameMem s v := by
    rw [h]
    exact fun _ => rfl
  rw [gathData, if_pos hstore, pourWrite, if_pos hfails']
  exact ⟨by rw [ctxOf_beginAbort v c x _ (by rw [hctx]; exact hb), hctx], fun a => (sameMem_beginAbort _ a).trans (hmem a)⟩

/-! ### What stands in the way of a request -/

section

variable {u : State} {r : Gath}

theorem gathStep_unreached
    (h : partReachesRange u (((ctxOf s c x).pour.map (·.part)).getD 0) (gathAddr r row) (gathLen r row) = false) :
    gathStep s c x n row u r = badAddress u c x 3 (gathAddr r row) := if_pos (by simp [h])

theorem gathStep_waits
    (h : partReachesRange u (((ctxOf s c x).pour.map (·.part)).getD 0) (gathAddr r row) (gathLen r row) = true)
    (hserved : rangeServed s c (0xB + n) (gathPlace r) (gathLen r row) = false) :
    gathStep s c x n row u r = wakeQuads s c (quadsOf (gathPlace r) (gathLen r row)) := by
  rw [gathStep, h, hserved]
  rfl

theorem gathStep_passes
    (h : partReachesRange u (((ctxOf s c x).pour.map (·.part)).getD 0) (gathAddr r row) (gathLen r row) = true)
    (hserved : rangeServed s c (0xB + n) (gathPlace r) (gathLen r row) = true)
    (hon : rangeOn u c (gathPlace r) (gathLen r row) = true)
    (hstore : r.store = true → spmBadIn (coreOf u c) (gathPlace r) (gathLen r row) = false)
    (hload : r.store = false → tierDownIn u (gathAddr r row) (gathLen r row) = false) :
    gathStep s c x n row u r = gathData s (gathCounted u c n r row) c x r row := by
  have hbad : (r.store && spmBadIn (coreOf u c) (gathPlace r) (gathLen r row)) = false := by
    cases hs : r.store with
    | false => rfl
    | true => exact hstore hs
  have hdown : (!r.store && tierDownIn u (gathAddr r row) (gathLen r row)) = false := by
    cases hs : r.store with
    | false => exact hload hs
    | true => rfl
  rw [gathStep, h, hserved, hon, hbad, hdown]
  rfl

end

end

end Sys2Proof.Machine

namespace Sys2Proof.Safety

open Sys2Proof Sys2Proof.Machine

theorem gatherSteps_holds {s : State} {c n : Nat} (hc : c < nCores) (hcanon : Canon s) (hn : n < 2) : gatherSteps s c n := by
  obtain ⟨⟨hmem, -⟩, hregs⟩ := hcanon
  have hunit : gathOk c n = true := by simp [gathOk, hc, hn]
  have asks : ∀ {P : State → Prop}, P (gatherRequest s c n) → Runs (.gatherRequest c n) s P :=
    fun h => runs_of_onUnit rfl hunit h
  have ends : ∀ {P : State → Prop}, P (gatherEnd s c n) → Runs (.gatherEnd c n) s P := fun h => runs_of_onUnit rfl hunit h
  unfold gatherSteps
  intro r
  refine ⟨fun hnone => ⟨asks (gatherRequest_idle hnone), ends (gatherEnd_idle hnone)⟩, fun hvisit => ends (gatherEnd_visits hvisit),
    fun x ho hdone htoks => ends (gatherEnd_done ho hdone htoks), fun x row ho hrow hb hready => ?_⟩
  intro p a len off done moves
  have hasks := gatherRequest_asks ho hrow hb hready
  have hstarted : GathStarted s (gathStart s c n).1 c n (gathStart s c n).2 := gathStarted_start
  obtain ⟨⟨hframe, hothers⟩, hcore, -, ⟨l, hrecord⟩, hkeeps, hfills⟩ := id hstarted
  have haddr : gathAddr (gathStart s c n).2 row = a := by rw [hrecord]; rfl
  have hlen : gathLen (gathStart s c n).2 row = len := by rw [hrecord]; rfl
  have hplace : gathPlace (gathStart s c n).2 = off := by rw [hrecord]; rfl
  have hstore : (gathStart s c n).2.store = r.store := by rw [hrecord]
  obtain ⟨hasked, hasktoks⟩ := gathAsked_counted (row := row) hc hstarted
  generalize gathStart s c n = start at *
  obtain ⟨u, r'⟩ := start
  dsimp only at *
  have hports : PortsKept s u c := ⟨by rw [hframe], by rw [hframe], by rw [hcore], by rw [hcore], by rw [hcore]⟩
  have hctx : ctxOf u c x = ctxOf s c x := by
    rw [ctxOf, hcore]
    rfl
  have hctxAsked : ctxOf (gathCounted u c n r' row) c x = ctxOf s c x := by
    rw [ctxOf, hasked.core]
    rfl
  have hreaches : partReachesRange u p a len = partReachesRange s p a len := by
    rw [hframe]
    rfl
  have hdown : tierDownIn u a len = tierDownIn s a len := by
    rw [hframe]
    rfl
  have hmoves : ∀ t, (∀ m, gathOf t c m = gathOf (gathCounted u c n r' row) c m) → (∀ d, d ≠ c → coreOf t d = coreOf s d) →
      moves t := fun t hgath hcores =>
    ⟨by rw [hgath]; exact hasked.visit, by rw [hgath]; exact hasked.byteAt, fun m hm => (hgath m).trans (hasked.rest m hm), hcores⟩
  have below : row < r.bound → gatherRequest s c n = gathStep s c x n row u r' := fun h => hasks.trans (if_neg (Nat.not_le.2 h))
  have passes : row < r.bound → partReachesRange s p a len = true → rangeServed s c (0xB + n) off len = true →
      rangeOn s c off len = true → (r.store = true → spmBadIn (coreOf s c) off len = false) →
      (r.store = false → tierDownIn s a len = false) →
      gatherRequest s c n = gathData s (gathCounted u c n r' row) c x r' row := fun hbound hreach hserved hon hclean hup => by
    rw [below hbound, gathStep_passes] <;> rw [hlen]
    · rw [haddr, hreaches]; exact hreach
    · rw [hplace]; exact hserved
    · rw [hplace, hports.rangeOn]; exact hon
    · rw [hplace, hports.spmBadIn, hstore]; exact hclean
    · rw [haddr, hdown, hstore]; exact hup
  refine ⟨fun hbound => asks ?_, fun hbound hreach => asks ?_, fun hbound hreach hserved => asks ?_,
    fun hbound hreach hserved hon htoks hspm => ⟨fun hload hup => asks ?_, fun hst hclean hfails => asks ?_,
      fun hst hclean hok => asks ?_⟩⟩
  · rw [hasks, if_pos hbound]
    exact aborts_beginAbort 0x08 hb
  · rw [below hbound, gathStep_unreached (by rw [haddr, hlen, hreaches]; exact hreach)]
    obtain ⟨habort, hsame, hspm⟩ := badAddress_spec 3 (gathAddr r' row) (by rw [hctx]; exact hb)
    refine ⟨fun b => (hsame b).trans ?_, habort.trans (by rw [hctx]), hspm.trans (by rw [hcore])⟩
    rw [hframe]
    rfl
  · rw [below hbound, gathStep_waits (by rw [haddr, hlen, hreaches]; exact hreach) (by rw [hplace, hlen]; exact hserved),
      hplace, hlen]
  · obtain ⟨hsame, htok, hgath, hbytes, hcores⟩ := gathData_load (x := x) hregs hspm hasked (hstore.trans hload)
    rw [haddr, hlen, hplace] at hbytes
    rw [passes hbound hreach hserved hon (fun h => absurd h (by simp [hload])) (fun _ => hup)]
    refine ⟨hsame, hmoves _ hgath hcores, hbytes, fun tk => ?_⟩
    rw [tokOf, htok, hasktoks]
    exact hfills htoks hload tk
  · rw [passes hbound hreach hserved hon (fun _ => hclean) (fun h => absurd h (by simp [hst]))]
    exact gathData_fails hasked.frame hctxAsked hb (hstore.trans hst) (by rw [haddr, hlen]; exact hfails)
  · obtain ⟨hspm', htok, hgath, hout, hin, hcores⟩ := gathData_store (x := x) hmem hasked (hstore.trans hst)
      (by rw [haddr, hlen]; exact hok)
    rw [haddr, hlen] at hout
    rw [haddr, hlen, hplace] at hin
    rw [passes hbound hreach hserved hon (fun _ => hclean) (fun h => absurd h (by simp [hst]))]
    exact ⟨hmoves _ hgath hcores, hspm', by rw [htok, hasktoks, hkeeps hst], hout, hin⟩

/-! ### The statement -/

/-- Settles O56: each command of a stream or gather is a list of guards, and past them the start of its tile or slot, which
touches the engine's record and tokens alone, and the copy of its rows. -/
theorem streamsAndGathers : Obligations.StreamsAndGathers := by
  unfold Obligations.StreamsAndGathers
  exact fun s c n hc hcanon => ⟨streamTiles_holds hc hcanon, gatherSteps_holds hc hcanon⟩

end Sys2Proof.Safety
end

section
/-! PROOFS. What counting leaves of the registers (R465, R470), and the state of a tensor word's engine as its effect begins. -/

namespace Sys2Proof.Machine

open Sys2Proof Sys2Proof.Safety

/-! ### Counters alone -/

/-- A register that counting writes. -/
def countedReg (o : Nat) : Prop := isCounterOff o = true ∨ o = rCNT_SAT ∨ o = rTRC_STATUS

/-- Registers stay canonical, and none but those that counting writes differs. -/
structure Counted (s t : State) : Prop where
  wf : regsWf s → regsWf t
  same : regsWf s → ∀ o, ¬ countedReg o → rd t o = rd s o

namespace Counted

variable {s t u : State}

theorem of_regs (h : t.regs = s.regs) : Counted s t :=
  ⟨fun hs => by rw [regsWf, h]; exact hs, fun _ o _ => by rw [rd, h, rd]⟩

theorem trans (h : Counted s t) (h' : Counted t u) : Counted s u :=
  ⟨fun hs => h'.wf (h.wf hs), fun hs o ho => (h'.same (h.wf hs) o ho).trans (h.same hs o ho)⟩

theorem onlyCounters (h : Counted s t) (hs : regsWf s) : OnlyCounters s t :=
  fun o h0 h1 h2 => h.same hs o (by rintro (h | h | h) <;> simp_all)

end Counted

theorem counted_rwr (s : State) {o : Nat} (ho : countedReg o) (v : Word) : Counted s (rwr s o v) :=
  ⟨regsWf_rwr s o v, fun hs j hj => rd_rwr_other s o j v hs (fun e => hj (e ▸ ho))⟩

theorem counted_countRaw (s : State) {off : Nat} (h : isCounterOff off = true) (n : Nat) : Counted s (countRaw s off n) := by
  unfold countRaw
  dsimp only
  split
  · exact (counted_rwr s (.inl h) _).trans (counted_rwr _ (.inl h) _)
  · exact counted_rwr s (.inl h) _

theorem counted_traceRec (s : State) (kind die core part : Nat) (pv : Bool) (w2 w3 : Word) :
    Counted s (traceRec s kind die core part pv w2 w3) := by
  unfold traceRec
  dsimp only
  split
  · exact .of_regs rfl
  · split
    · have lost : ∀ u : State, u.regs = s.regs → Counted s (rset u rTRC_STATUS fTRC_STATUS_LOST) :=
        fun u hu => (Counted.of_regs hu).trans (counted_rwr u (.inr (.inr rfl)) _)
      exact (lost { s with trc := { s.trc with lostMark := true } } rfl).trans
        (counted_countRaw _ (isCounterOff_rCNT_DEV (j := 0x4710) (by omega)) 1)
    · exact .of_regs rfl

theorem counted_countUp (s : State) {off : Nat} (h : isCounterOff off = true) (n : Nat) : Counted s (countUp s off n) := by
  unfold countUp
  dsimp only
  split
  · refine .trans (t := countRaw (if anyOvf s then s else rwr s rCNT_SAT (BitVec.ofNat 64 (counterId off))) off n)
      ?_ (counted_traceRec _ _ _ _ _ _ _ _)
    split
    · exact counted_countRaw s h n
    · exact (counted_rwr s (.inr (.inl rfl)) _).trans (counted_countRaw _ h n)
  · exact counted_countRaw s h n

theorem isCounterOff_rCNT_CORE {c i : Nat} (hc : c < nCores) (hi : i < 512) : isCounterOff (rCNT_CORE c i) = true := by
  simp only [isCounterOff, Bool.or_eq_true, Bool.and_eq_true, decide_eq_true_eq]
  unfold rCNT_CORE
  unfold nCores at hc
  omega

theorem counted_countCore (s : State) {c i : Nat} (hc : c < nCores) (hi : i < 512) (n : Nat) : Counted s (countCore s c i n) :=
  counted_countUp s (isCounterOff_rCNT_CORE hc hi) n

theorem counted_countDev (s : State) {j : Nat} (h : j < 0xE0000) (n : Nat) : Counted s (countDev s j n) :=
  counted_countUp s (isCounterOff_rCNT_DEV h) n

/-! ### A word of an engine -/

section

variable {i : Instr} {s : State} {c x : Nat} {w : Word} {k : Ctx} {pr : Pour} {p : Plan}

/-- The word issues as it is placed, and its effect runs from `taken`. -/
theorem issued_of_taken (h : Issuable s c x w k pr p) (hi : instrWord i = some (c, x, w, true)) (hq : queued w = true)
    {P : State → Prop}
    (hwaits : (coreOf (p.run (taken s c x k w p)) c).unserved = (coreOf (taken s c x k w p) c).unserved)
    (hP : P (p.run (taken s c x k w p))) : Issued i s c x w k p P :=
  have hnone : (coreOf (p.run (taken s c x k w p)) c).unserved = none :=
    hwaits.trans (unserved_taken.trans h.served.none_waits)
  ⟨_, exec_issues h.at_ h.takes h.decodes h.queue h.active h.selecting h.served h.plan h.ready h.late hi hq hnone,
    ⟨_, issuesFrom_taken, rfl⟩, hP⟩

/-- Of a word that no array runs, the issue counts and writes no other register. -/
theorem counted_taken (hc : c < nCores) (hx : x < 4) (hop : arrayOp (wOp w) = false) : Counted s (taken s c x k w p) := by
  have hregs : Counted s (headTaken (placed s c x k w) c x (entryOf k w) p) := .of_regs (by rw [headTaken_placed])
  have hnote : noteLast (countCore (headTaken (placed s c x k w) c x (entryOf k w) p) c (0xA1 + x) 1) c (entryOf k w).word
      p.units = countCore (headTaken (placed s c x k w) c x (entryOf k w) p) c (0xA1 + x) 1 := if_neg (by simp [entryOf, hop])
  rw [taken, takeHead_eq, hnote]
  exact hregs.trans (counted_countCore _ hc (by omega) 1)

theorem coreOf_taken_ne {d : Nat} (hd : d ≠ c) : coreOf (taken s c x k w p) d = coreOf s d := coreOf_taken_other _ hd

/-- The context once its word has left the queue it alone stood in. -/
theorem ctxOf_taken_same (hq : k.queue = []) : ctxOf (taken s c x k w p) c x = { fetchedCtx k with pc := k.pc + 8 } := by
  rw [taken, ctxOf_takeHead, if_pos rfl, ctxOf_placed, hq]
  show ({ fetchedCtx k with pc := k.pc + 8, queue := [] } : Ctx) = _
  rw [← hq]
  rfl

theorem ctxOf_taken_ne {y : Nat} (hy : y ≠ x) : ctxOf (taken s c x k w p) c y = ctxOf s c y := by
  have hfetched : ctxOf (placed s c x k w) c y = ctxOf s c y := by
    rw [placed, ctxOf_setCtx_other _ _ _ _ _ hy, ctxOf_fetched_other _ _ _ _ hy]
  rw [taken, ctxOf_takeHead, if_neg hy, hfetched]

/-! ### Slots read and none written -/

/-- Where a plan fills no slot, the record of what slots hold stays. -/
theorem tokAt_planTokens (k : Core) (p : Plan) (hw : p.writes = []) :
    (planTokens k p).tokAt = k.tokAt := by
  have hreads : ∀ (l : List (Nat × Bool)) (k : Core), (l.foldl readSlot k).tokAt = k.tokAt := fun l k =>
    List.foldlRecOn (motive := fun k' : Core => k'.tokAt = k.tokAt) l _ rfl (fun k' hk' r _ => by
      obtain ⟨t, rel⟩ := r
      cases rel with
      | false => exact hk'
      | true => exact hk')
  rw [planTokens_eq, hw]
  exact hreads _ _

/-- Placing and issuing a word that fills no slot leaves the engines' records and what slots hold. -/
theorem coreOf_taken_reads (hw : p.writes = []) : coreOf (taken s c x k w p) c = { coreOf s c with
    ctxs := (coreOf (taken s c x k w p) c).ctxs, iLines := (coreOf (taken s c x k w p) c).iLines
    lastSeq := (coreOf (taken s c x k w p) c).lastSeq, flights := (coreOf (taken s c x k w p) c).flights
    toks := (coreOf (taken s c x k w p) c).toks, tokRead := (coreOf (taken s c x k w p) c).tokRead
    tokTile := (coreOf (taken s c x k w p) c).tokTile } := by
  have hat : (coreOf (taken s c x k w p) c).tokAt = (coreOf s c).tokAt := by
    rw [taken, coreOf_takeHead_same, issuedCore, tokAt_planTokens _ _ hw, dequeued, coreOf_placed]
  obtain ⟨q, l, y, tk, ta, tr, tt, f, hcore⟩ := coreOf_taken_eq (s := s) (c := c) (x := x) (k := k) (w := w) (p := p)
  rw [hcore] at hat ⊢
  rw [show ta = (coreOf s c).tokAt from hat]

end

/-! ### Starting and stopping an engine (R181, R189) -/

/-- Nothing of the device's state but the cores, the registers, the trace and the free choices differs. -/
def EngineFrame (s t : State) : Prop := t = { s with cores := t.cores, regs := t.regs, trc := t.trc, free := t.free }

theorem EngineFrame.trans {s t u : State} (h : EngineFrame s t) (h' : EngineFrame t u) : EngineFrame s u :=
  Eq.trans h' (by rw [h])

theorem EngineFrame.of_eq {s t : State} {k : KMap Core} {r : KMap Word} {q : Trc}
    (h : t = { s with cores := k, regs := r, trc := q }) : EngineFrame s t := by
  subst h
  rfl

/-- Nothing of a core but its contexts, tokens, flights and the records of its streams and gathers differs. -/
def EngineCore (k l : Core) : Prop := l = { k with
  ctxs := l.ctxs, iLines := l.iLines, lastSeq := l.lastSeq, flights := l.flights, toks := l.toks, tokRead := l.tokRead
  tokTile := l.tokTile, streams := l.streams, gaths := l.gaths }

theorem EngineCore.trans {k l m : Core} (h : EngineCore k l) (h' : EngineCore l m) : EngineCore k m :=
  Eq.trans h' (by rw [h])

theorem EngineCore.of_eq {k l : Core} {q : KMap Ctx} {i : List CLine} {n : Nat} {f : List Flight} {t : SMap Tok} {r : SMap Bool}
    {g : SMap Nat} (h : l = { k with ctxs := q, iLines := i, lastSeq := n, flights := f, toks := t, tokRead := r, tokTile := g }) :
    EngineCore k l := by
  subst h
  rfl

/-- Nothing differs but counters, the word's context, tokens and flights, and the records of streams and gathers. -/
structure EngineOnly (s t : State) (c : Nat) : Prop where
  frame : EngineFrame s t
  counted : OnlyCounters s t
  others : ∀ d, d ≠ c → coreOf t d = coreOf s d
  core : EngineCore (coreOf s c) (coreOf t c)

section

variable {s : State} {c x : Nat} {w : Word} {k : Ctx} {pr : Pour} {p : Plan}

theorem engineOnly_taken (h : Issuable s c x w k pr p) (hop : arrayOp (wOp w) = false) (hw : p.writes = []) :
    EngineOnly s (taken s c x k w p) c := by
  obtain ⟨-, hregs⟩ := h.canon
  refine ⟨?_, (counted_taken h.at_.core h.at_.ctx hop).onlyCounters hregs, fun d hd => coreOf_taken_ne hd, ?_⟩
  · exact .of_eq taken_frame
  · have hcore := coreOf_taken_reads (s := s) (c := c) (x := x) (k := k) (w := w) hw
    exact EngineCore.of_eq hcore

/-- The engines' records are as before the word. -/
theorem streamOf_taken (m : Nat) : streamOf (taken s c x k w p) c m = streamOf s c m := by
  obtain ⟨q, l, y, tk, ta, tr, tt, f, hcore⟩ := coreOf_taken_eq (s := s) (c := c) (x := x) (k := k) (w := w) (p := p)
  rw [streamOf, hcore]
  rfl

theorem gathOf_taken (m : Nat) : gathOf (taken s c x k w p) c m = gathOf s c m := by
  obtain ⟨q, l, y, tk, ta, tr, tt, f, hcore⟩ := coreOf_taken_eq (s := s) (c := c) (x := x) (k := k) (w := w) (p := p)
  rw [gathOf, hcore]
  rfl

namespace EngineOnly

variable {u : State}

/-- A stream's record changes. -/
theorem setStream (h : EngineOnly s u c) (n : Nat) (r : Stream) : EngineOnly s (setStream u c n r) c where
  frame := h.frame.trans (t := u) (rfl : EngineFrame u (Machine.setStream u c n r))
  counted o h0 h1 h2 := (rd_modCore u c _ o).trans (h.counted o h0 h1 h2)
  others d hd := (coreOf_modCore_other _ _ _ _ hd).trans (h.others d hd)
  core := by
    rw [coreOf_setStream]
    exact h.core.trans (l := coreOf u c) rfl

/-- A gather's record changes. -/
theorem setGath (h : EngineOnly s u c) (n : Nat) (r : Gath) : EngineOnly s (setGath u c n r) c where
  frame := h.frame.trans (t := u) (rfl : EngineFrame u (Machine.setGath u c n r))
  counted o h0 h1 h2 := (rd_modCore u c _ o).trans (h.counted o h0 h1 h2)
  others d hd := (coreOf_modCore_other _ _ _ _ hd).trans (h.others d hd)
  core := by
    rw [coreOf_setGath]
    exact h.core.trans (l := coreOf u c) rfl

theorem useFree (h : EngineOnly s u c) : EngineOnly s (useFree u).2 c where
  frame := h.frame.trans (t := u) (rfl : EngineFrame u (Machine.useFree u).2)
  counted := h.counted
  others := h.others
  core := h.core

end EngineOnly

end

end Sys2Proof.Machine
end

section
/-! PROOFS. Starting and stopping streams and gathers (R181, R189, R297): the plan that a passed check makes, and what it
leaves of the engines' records. -/

namespace Sys2Proof.Machine

open Sys2Proof Sys2Proof.Safety

/-! ### What the checks read -/

/-- The words of a program are those that memory holds from its address on. -/
theorem getD_of_soRead {s : State} {pr : Pour} {n a j : Nat} {ops : List Nat} (h : soRead s pr a n = .ok ops)
    (hj : j < ops.length) : ops.getD j 0 = ofBytesLE (memBytes s (a + 4 * j) 4) := by
  induction n generalizing a j ops with
  | zero =>
    cases h
    cases hj
  | succ n ih =>
    unfold soRead at h
    split at h
    · cases h
    split at h
    · cases h
    dsimp only at h
    split at h
    · cases h
      rw [show j = 0 by simpa using hj]
      rfl
    split at h
    · next ws hrest =>
      cases h
      cases j with
      | zero => rfl
      | succ j =>
        rw [List.getD_cons_succ, ih hrest (by simpa using hj)]
        exact congrArg (fun b => ofBytesLE (memBytes s b 4)) (by omega)
    · cases h

/-- A list all of whose entries are there has them in their places. -/
theorem getElem?_of_allSome {α : Type} {l : List (Option α)} {v : List α} (h : allSome l = some v) :
    v.length = l.length ∧ ∀ (j : Nat) (hj : j < v.length), l[j]? = some (some v[j]) := by
  induction l generalizing v with
  | nil =>
    cases h
    exact ⟨rfl, fun j hj => absurd hj (Nat.not_lt_zero j)⟩
  | cons o l ih =>
    cases o with
    | none => cases h
    | some y =>
      obtain ⟨v', hv', rfl⟩ := Option.map_eq_some_iff.1 h
      obtain ⟨hlen, hget⟩ := ih hv'
      refine ⟨by simp [hlen], fun j hj => ?_⟩
      cases j with
      | zero => rfl
      | succ j => simpa using hget j (by simpa using hj)

section

variable {s : State} {c x : Nat} {w : Word} {k : Ctx} {pr : Pour} {p : Plan}

theorem memBytes_placed (a n : Nat) : memBytes (placed s c x k w) a n = memBytes s a n := by
  have hbyte : ∀ b, memByte (placed s c x k w) b = memByte s b := by
    rw [placed_frame]
    exact memByte_congr rfl rfl
  simp only [memBytes, hbyte]

theorem issued_engine {i : Instr} (h : Issuable s c x w k pr p) (hi : instrWord i = some (c, x, w, true))
    (hq : queued w = true) {P : State → Prop} (honly : EngineOnly s (p.run (taken s c x k w p)) c)
    (hP : P (p.run (taken s c x k w p))) : Issued i s c x w k p (fun t => EngineOnly s t c ∧ P t) :=
  issued_of_taken h hi hq ((congrArg Core.unserved honly.core).trans unserved_taken.symm) ⟨honly, hP⟩

theorem gathOf_setStream (m n : Nat) (r : Stream) : gathOf (setStream s c n r) c m = gathOf s c m := by
  rw [gathOf, coreOf_setStream]
  rfl

theorem streamOf_setGath (m n : Nat) (r : Gath) : streamOf (setGath s c n r) c m = streamOf s c m := by
  rw [streamOf, coreOf_setGath]
  rfl

/-! ### STREAM and STREAM_STOP -/

/-- The record that STREAM writes, of the program and the bases given. -/
def startedStream (k : Ctx) (x : Nat) (w : Word) (ops bases : List Nat) : Stream :=
  let d := tdAt k (wfld w 34 29)
  { Stream.reset with
    owner := some x, store := wbit w 50, noalloc := wbit w 49, ops := ops, bases := bases, tok0 := d.tok
    ring := wfld w 22 17 + 1, depth := wfld w 16 14 + 1, compTok := (tdAt k (wfld w 28 23)).tok, slotOff := d.off
    slotSize := d.rows * d.pitch }

/-- Bases beyond those given are free (log entry 42). -/
def fourBases (g : Nat) (given : List Nat) : List Nat :=
  given ++ (List.range (4 - given.length)).map (fun j => (Config.freeWord g j).toNat % 2 ^ 48)

/-- The bases that the word gives. -/
def givenBases (k : Ctx) (pr : Pour) (w : Word) : Option (List Nat) :=
  allSome ((List.range (wfld w 36 35 + 1)).map (fun j => baseOf k pr (wbit w 43) (wfld w 42 37 + j)))

theorem planStream_go (h : AtWord s c x w k pr) (hop : wOp w = 0x1C)
    (hgo : planStream (placed s c x k w) c x (entryOf k w) = .go p) : ∃ ops given,
    soRead (placed s c x k w) pr (gRead k (wfld w 48 44)).toNat 16 = .ok ops ∧ givenBases k pr w = some given ∧
    p.writes = [] ∧ ∀ u, p.run u = setStream (useFree u).2 c (wfld w 53 51)
      (startedStream k x w ops (fourBases (useFree u).1 given)) := by
  have hsrc : srcOf (entryOf k w) 0 = gRead k (wfld w 48 44) := srcOf_entryOf (l := [wfld w 48 44]) (by simp [tensorSrcs, hop]) 0
  rw [planStream, withPour_atWord h] at hgo
  obtain ⟨hchecks, hp⟩ := checked_go.1 hgo
  obtain ⟨hlegal, -⟩ := firstBad_cons.1 hchecks
  have hsome : givenBases k pr w ≠ none := fun hnone => of_check_none hlegal (by
    simp only [Bool.or_eq_true]
    exact .inr (congrArg Option.isNone hnone))
  obtain ⟨given, hgiven⟩ := Option.ne_none_iff_exists'.1 hsome
  rw [hsrc] at hp
  split at hp
  · simp [Issue.bad] at hp
  next ops hops =>
  split at hp
  · cases hp
  · cases hp
    exact ⟨ops, given, hops, hgiven, rfl, fun u => congrArg
      (fun v => setStream (useFree u).2 c (wfld w 53 51) (startedStream k x w ops (fourBases (useFree u).1 v)))
      (congrArg (Option.getD · []) hgiven)⟩

/-- Of four bases the first are those that the word gives. -/
theorem bases_of_given {given : List Nat} (hgiven : givenBases k pr w = some given) (g : Nat) :
    (fourBases g given).length = 4 ∧ ∀ j, j < wfld w 36 35 + 1 →
      baseOf k pr (wbit w 43) (wfld w 42 37 + j) = some ((fourBases g given).getD j 0) := by
  obtain ⟨hlen, hget⟩ := getElem?_of_allSome hgiven
  simp only [List.length_map, List.length_range] at hlen
  have hlt : wfld w 36 35 < 4 := wfld_lt w 36 35
  refine ⟨by simp only [fourBases, List.length_append, List.length_map, List.length_range]; omega, fun j hj => ?_⟩
  have hj' : j < given.length := by omega
  have hbase := hget j hj'
  simp only [List.getElem?_map, List.getElem?_range hj, Option.map_some, Option.some.injEq] at hbase
  rw [hbase, fourBases, List.getD_eq_getElem?_getD, List.getElem?_append_left hj', List.getElem?_eq_getElem hj']
  rfl

theorem planStreamStop_go (h : AtWord s c x w k pr) (hgo : planStreamStop (placed s c x k w) c x (entryOf k w) = .go p) :
    p.writes = [] ∧ ∀ u, p.run u = if (streamOf u c (wfld w 53 51)).owner = some x then
      setStream u c (wfld w 53 51) { streamOf u c (wfld w 53 51) with ended := true } else u := by
  rw [planStreamStop, withPour_atWord h] at hgo
  dsimp only at hgo
  split at hgo
  · simp [Issue.bad] at hgo
  · cases hgo
    exact ⟨rfl, fun _ => rfl⟩

/-! ### GATHER and GATHER_STOP -/

/-- The record that GATHER writes, of the base and the rows that its index slot names. -/
def startedGath (k : Ctx) (x : Nat) (w : Word) (base : Nat) (rows : List Nat) : Gath :=
  let d := tdAt k (wfld w 35 30)
  { Gath.reset with
    owner := some x, bitmap := wbit w 52, store := wbit w 51, noalloc := wbit w 50, base := base
    stride := wfld (gRead k (wfld w 29 25)) 31 0, rowLen := wfld w 10 3 + 1, bound := wfld (gRead k (wfld w 24 20)) 31 0
    rows := rows, tok0 := d.tok, ring := wfld w 19 14 + 1, perSlot := d.rows
    depth := wfld w 13 11 + 1, slotOff := d.off, pitch := d.pitch }

theorem planGather_go (h : AtWord s c x w k pr) (hop : wOp w = 0x34)
    (hgo : planGather (placed s c x k w) c x (entryOf k w) = .go p) : ∃ b,
    baseOf k pr (wbit w 42) (wfld w 41 36) = some b ∧ p.writes = [] ∧ ∀ u, Ready u c →
      p.run u = setGath u c (wfld w 53 53)
        (startedGath k x w b (indexRows (coreOf u c) (tdAt k (wfld w 49 44)) (wbit w 52))) := by
  have hsrc := srcOf_entryOf (k := k) (w := w) (l := [wfld w 29 25, wfld w 24 20]) (by simp [tensorSrcs, hop])
  have hsrc0 : srcOf (entryOf k w) 0 = gRead k (wfld w 29 25) := hsrc 0
  have hsrc1 : srcOf (entryOf k w) 1 = gRead k (wfld w 24 20) := hsrc 1
  rw [planGather, withPour_atWord h, hsrc0, hsrc1] at hgo
  obtain ⟨hchecks, hp⟩ := checked_go.1 hgo
  obtain ⟨hlegal, -⟩ := firstBad_cons.1 hchecks
  have hsome : baseOf k pr (wbit w 42) (wfld w 41 36) ≠ none := fun hnone => of_check_none hlegal (by
    simp only [Bool.or_eq_true]
    exact .inl (.inl (.inl (.inr (congrArg Option.isNone hnone)))))
  obtain ⟨b, hb⟩ := Option.ne_none_iff_exists'.1 hsome
  cases hp
  have heng : wfld w 53 53 < 2 := wfld_lt w 53 53
  refine ⟨b, hb, rfl, fun u hu => (guardRows_ready _ hu (by show 0xB + wfld w 53 53 < 15; omega) _ _ _ _).trans ?_⟩
  exact congrArg
    (fun v => setGath u c (wfld w 53 53) (startedGath k x w v (indexRows (coreOf u c) (tdAt k (wfld w 49 44)) (wbit w 52))))
    (congrArg (Option.getD · 0) hb)

theorem planGatherStop_go (h : AtWord s c x w k pr) (hgo : planGatherStop (placed s c x k w) c x (entryOf k w) = .go p) :
    p.writes = [] ∧ ∀ u, p.run u = if (gathOf u c (wfld w 53 53)).owner = some x then
      setGath u c (wfld w 53 53) { gathOf u c (wfld w 53 53) with rows := cutRows (gathOf u c (wfld w 53 53)) } else u := by
  rw [planGatherStop, withPour_atWord h] at hgo
  dsimp only at hgo
  split at hgo
  · simp [Issue.bad] at hgo
  · cases hgo
    exact ⟨rfl, fun _ => rfl⟩

/-- An index slot is read from the scratchpad alone. -/
theorem indexRows_of_spm {k k' : Core} (h : spmByte k' = spmByte k) (d : TD) (bitmap : Bool) :
    indexRows k' d bitmap = indexRows k d bitmap := by
  simp only [indexRows, spmBytes, h]

end

end Sys2Proof.Machine

namespace Sys2Proof.Safety

open Sys2Proof Sys2Proof.Machine

section

variable {s : State} {c x : Nat} {w : Word} {k : Ctx} {pr : Pour} {p : Plan}

/-- STREAM gives the stream to the context (R181, R297). -/
theorem issued_stream (h : Issuable s c x w k pr p) (hop : wOp w = 0x1C) :
    Issued (.stream c x w) s c x w k p (fun t => EngineOnly s t c ∧
      (∀ m, m ≠ wfld w 53 51 → streamOf t c m = streamOf s c m) ∧ (∀ m, gathOf t c m = gathOf s c m) ∧
      ∃ ops bases, streamOf t c (wfld w 53 51) = startedStream k x w ops bases ∧
        (∀ j, j < ops.length → ops.getD j 0 = ofBytesLE (memBytes s ((gRead k (wfld w 48 44)).toNat + 4 * j) 4)) ∧
        bases.length = 4 ∧
        ∀ j, j < wfld w 36 35 + 1 → baseOf k pr (wbit w 43) (wfld w 42 37 + j) = some (bases.getD j 0)) := by
  obtain ⟨ops, given, hops, hgiven, hwrites, hrun⟩ := planStream_go h.at_ hop (by simpa [planOf, entryOf, hop] using h.plan)
  have honly := ((engineOnly_taken h (by simp [arrayOp, hop]) hwrites).useFree).setStream (wfld w 53 51)
    (startedStream k x w ops (fourBases (useFree (taken s c x k w p)).1 given))
  obtain ⟨hlen, hbases⟩ := bases_of_given hgiven (useFree (taken s c x k w p)).1
  refine issued_engine h (by simp [instrWord, hop]) (by simp [queued, hop]) (by rw [hrun]; exact honly) ?_
  rw [hrun]
  refine ⟨fun m hm => (streamOf_setStream_other _ hm).trans (streamOf_taken m),
    fun m => (gathOf_setStream m _ _).trans (gathOf_taken m), ops, _, streamOf_setStream_same _, fun j hj => ?_, hlen, hbases⟩
  rw [getD_of_soRead hops hj, memBytes_placed]

/-- STREAM_STOP ends a stream of the context's own (R181). -/
theorem issued_streamStop (h : Issuable s c x w k pr p) (hop : wOp w = 0x1D) :
    Issued (.streamStop c x w) s c x w k p (fun t => EngineOnly s t c ∧
      (∀ m, m ≠ wfld w 53 51 → streamOf t c m = streamOf s c m) ∧ (∀ m, gathOf t c m = gathOf s c m) ∧
      streamOf t c (wfld w 53 51) = if (streamOf s c (wfld w 53 51)).owner = some x then
        { streamOf s c (wfld w 53 51) with ended := true } else streamOf s c (wfld w 53 51)) := by
  obtain ⟨hwrites, hrun⟩ := planStreamStop_go h.at_ (by simpa [planOf, entryOf, hop] using h.plan)
  have honly := engineOnly_taken h (by simp [arrayOp, hop]) hwrites
  refine issued_engine h (by simp [instrWord, hop]) (by simp [queued, hop]) ?_ ?_ <;> rw [hrun, streamOf_taken] <;> split
  · exact honly.setStream _ _
  · exact honly
  · exact ⟨fun m hm => (streamOf_setStream_other _ hm).trans (streamOf_taken m),
      fun m => (gathOf_setStream m _ _).trans (gathOf_taken m), streamOf_setStream_same _⟩
  · exact ⟨fun m _ => streamOf_taken m, gathOf_taken, streamOf_taken _⟩

/-- GATHER gives the engine to the context (R189, R299). -/
theorem issued_gather (h : Issuable s c x w k pr p) (hop : wOp w = 0x34) :
    Issued (.gather c x w) s c x w k p (fun t => EngineOnly s t c ∧
      (∀ m, m ≠ wfld w 53 53 → gathOf t c m = gathOf s c m) ∧ (∀ m, streamOf t c m = streamOf s c m) ∧
      ∃ b, baseOf k pr (wbit w 42) (wfld w 41 36) = some b ∧ gathOf t c (wfld w 53 53) =
        startedGath k x w b (indexRows (coreOf s c) (tdAt k (wfld w 49 44)) (wbit w 52))) := by
  obtain ⟨b, hb, hwrites, hrun⟩ := planGather_go h.at_ hop (by simpa [planOf, entryOf, hop] using h.plan)
  have hready : Ready (taken s c x k w p) c := (atIssue_taken h).ready
  have hrun := hrun _ hready
  rw [indexRows_of_spm spmByte_taken] at hrun
  have honly := (engineOnly_taken h (by simp [arrayOp, hop]) hwrites).setGath (wfld w 53 53)
    (startedGath k x w b (indexRows (coreOf s c) (tdAt k (wfld w 49 44)) (wbit w 52)))
  refine issued_engine h (by simp [instrWord, hop]) (by simp [queued, hop]) (by rw [hrun]; exact honly) ?_
  rw [hrun]
  exact ⟨fun m hm => (gathOf_setGath_other _ hm).trans (gathOf_taken m),
    fun m => (streamOf_setGath m _ _).trans (streamOf_taken m), b, hb, gathOf_setGath_same _⟩

/-- GATHER_STOP cuts a gather of the context's own to the slots begun (R189). -/
theorem issued_gatherStop (h : Issuable s c x w k pr p) (hop : wOp w = 0x35) :
    Issued (.gatherStop c x w) s c x w k p (fun t => EngineOnly s t c ∧
      (∀ m, m ≠ wfld w 53 53 → gathOf t c m = gathOf s c m) ∧ (∀ m, streamOf t c m = streamOf s c m) ∧
      gathOf t c (wfld w 53 53) = if (gathOf s c (wfld w 53 53)).owner = some x then
        { gathOf s c (wfld w 53 53) with rows := cutRows (gathOf s c (wfld w 53 53)) } else gathOf s c (wfld w 53 53)) := by
  obtain ⟨hwrites, hrun⟩ := planGatherStop_go h.at_ (by simpa [planOf, entryOf, hop] using h.plan)
  have honly := engineOnly_taken h (by simp [arrayOp, hop]) hwrites
  refine issued_engine h (by simp [instrWord, hop]) (by simp [queued, hop]) ?_ ?_ <;> rw [hrun, gathOf_taken] <;> split
  · exact honly.setGath _ _
  · exact honly
  · exact ⟨fun m hm => (gathOf_setGath_other _ hm).trans (gathOf_taken m),
      fun m => (streamOf_setGath m _ _).trans (streamOf_taken m), gathOf_setGath_same _⟩
  · exact ⟨fun m _ => gathOf_taken m, streamOf_taken, gathOf_taken _⟩

end

end Sys2Proof.Safety
end

section
/-! PROOFS. Sweeps of the update engine (R154–R164): their stores, row by row, and what they leave of a core, of tier memory
and of the context. -/

namespace Sys2Proof.Machine

open Sys2Proof Sys2Proof.Safety

/-! ### The footprint of a sweep's stores -/

/-- The stores of a sweep have changed no scratchpad byte of core `c` outside `B`, no accumulator and no context, and no
byte of tier memory unless `M`; later stores meet no more obstacles than the first. -/
structure Swept (s t : State) (c : Nat) (B : Set Nat) (M : Prop) : Prop extends TierKept s t where
  atCore : AtCore s t c B ∅ ∅
  ctxs : (coreOf t c).ctxs = (coreOf s c).ctxs
  others : ∀ d, d ≠ c → coreOf t d = coreOf s d
  ready : Ready s c → Ready t c
  mem : ¬ M → SameMem s t

namespace Swept

variable {s t u : State} {c x : Nat} {B : Set Nat} {M : Prop}

theorem refl (s : State) (c : Nat) (B : Set Nat) (M : Prop) : Swept s s c B M :=
  ⟨.refl s, (Within.refl s c B ∅ ∅).toAtCore, rfl, fun _ _ => rfl, id, fun _ _ => rfl⟩

theorem trans (h : Swept s t c B M) (h' : Swept t u c B M) : Swept s u c B M :=
  ⟨h.toTierKept.trans h'.toTierKept, h.atCore.then h'.atCore, h'.ctxs.trans h.ctxs,
    fun d hd => (h'.others d hd).trans (h.others d hd), fun hr => h'.ready (h.ready hr),
    fun hm a => (h'.mem hm a).trans (h.mem hm a)⟩

/-- What changes neither cores nor tier memory. -/
theorem of_cores (hc : t.cores = s.cores) (ht : t.tier = s.tier) (hm : t.mem = s.mem) (hb : t.memBad = s.memBad)
    (hu : t.memUndef = s.memUndef) (hready : Ready s c → Ready t c) : Swept s t c B M :=
  ⟨.of_eq ht hm hb, .of_cores hc, by rw [coreOf_congr hc], fun d _ => coreOf_congr hc d, hready,
    fun _ => memByte_congr hm hu⟩

end Swept

section

variable {s : State} {c x : Nat} {B : Set Nat} {M : Prop}

theorem swept_countCore {i : Nat} (hi : i < 512) (n : Nat) : Swept s (countCore s c i n) c B M := by
  refine .of_cores (cores_countCore s c i n) ?_ ?_ ?_ ?_
    (within_countCore (B := ∅) (V := ∅) (A := ∅) hi n).ready <;>
    rw [countCore, countUp_frame]

theorem swept_raiseOvf (hx : x < 4) (g : Nat) : Swept s (raiseOvf s c x g) c B M := by
  refine .of_cores rfl rfl rfl rfl rfl (fun h => h.of_cores rfl rfl (regsWf_rwr _ _ _ h.regs)
    (rd_rwr_other _ _ _ _ h.regs ?_) (rd_rwr_other _ _ _ _ h.regs ?_))
  · unfold rSPM_CTRL rNUM_OVF
    omega
  · unfold rSPM_POWER rNUM_OVF
    omega

theorem swept_ite {p : Prop} [Decidable p] {t u : State} (ht : Swept s t c B M) (hu : Swept s u c B M) :
    Swept s (if p then t else u) c B M := by
  split
  · exact ht
  · exact hu

/-- Storing a unit's bytes leaves the ports of its core open. -/
theorem ready_pourWrite {a : Nat} {bs : List Byte} (h : writeFails s a bs.length = false) (hr : Ready s c) :
    Ready (pourWrite s c x a bs) c := by
  have hlog := logged_memWrite s a bs
  have hmem : Ready (memWrite s a bs) c := hr.of_cores hlog.cores (by rw [hlog.frame]) (hlog.wf hr.regs)
    (hlog.same hr.regs _ ((still_rSPM_CTRL c).logReg hr.core)) (hlog.same hr.regs _ ((still_rSPM_POWER c).logReg hr.core))
  rw [pourWrite_stores h]
  generalize memWrite s a bs = u at hmem ⊢
  exact hmem.modCore rfl rfl hmem.clean hmem.spm hmem.waits

theorem swept_pourWrite (hM : M) {a : Nat} {bs : List Byte} (h : writeFails s a bs.length = false) :
    Swept s (pourWrite s c x a bs) c B M := by
  have hstored : UnitStored s (pourWrite s c x a bs) c := unitStored_pourWrite h
  refine ⟨tierKept_pourWrite h, ⟨?_, fun o _ => ?_, fun j _ => ?_, fun j _ => ?_⟩, ?_, hstored.others, ready_pourWrite h,
    fun hm => absurd hM hm⟩ <;> rw [hstored.core] <;> rfl

theorem swept_spmStore (h : Ready s c) {port : Nat} (hp : port < 15) {o : Nat} {bs : List Byte}
    (hB : Set.Ico o (o + bs.length) ⊆ B) : Swept s (spmStore s c x port o bs) c B M := by
  have hw := within_spmStore h hp (x := x) o bs
  have heq := spmStore_ready h hp (x := x) o bs
  refine ⟨?_, hw.toAtCore.mono hB subset_rfl subset_rfl, ?_, hw.others, hw.ready, fun _ => hw.sameMem⟩ <;> rw [heq]
  · exact .of_eq rfl rfl rfl
  · rw [coreOf_modCore_same, spmPut_frame]

end

/-! ### One row after another -/

section

variable {s : State} {c x : Nat} {B : Set Nat} {M : Prop} {pr : Pour} {b : UBlk} {run : UpdRun}

/-- A unit's store from a state that a sweep has reached. -/
theorem Swept.pourWrite {t : State} (h : Swept s t c B M) (hM : M) (hmem : Memory.wf s) (hok : ∀ a n, writeFails s a n = false)
    (a : Nat) (bs : List Byte) : Swept s (pourWrite t c x a bs) c B M :=
  h.trans (swept_pourWrite hM (h.writeFails hmem (hok a bs.length)))

theorem swept_storeState {a : SweepAcc} (h : Swept s a.st c B M) (hM : M) (hmem : Memory.wf s)
    (hok : ∀ a n, writeFails s a n = false) (v : Int) (r : Nat) (els : List ElOut) (j : Nat) :
    Swept s (storeState c x pr b v r els a j).st c B M := by
  unfold storeState
  split
  · exact h
  · split
    · exact h
    · exact h.pourWrite hM hmem hok _ _

theorem swept_storeUpd {a : SweepAcc} (h : Swept s a.st c B M) (hM : M) (hmem : Memory.wf s)
    (hok : ∀ a n, writeFails s a n = false) (r : Nat) (els : List ElOut) (j : Nat) :
    Swept s (storeUpd c x pr b r els a j).st c B M := by
  unfold storeUpd
  split
  · exact h
  · dsimp only
    split
    · exact h.pourWrite hM hmem hok _ _
    · exact List.foldlRecOn (motive := fun u => Swept s u c B M) _ _ (h.pourWrite hM hmem hok _ _)
        (fun u hu _ _ => hu.pourWrite hM hmem hok _ _)

theorem length_packElems_zero (l : List Nat) : (packElems 0 l).length = 2 * l.length :=
  (length_packElems (by decide) (g := l.length) (by simp [groupOf])).trans (by simp [rowBytes])

theorem swept_storeWork {a : SweepAcc} (h : Swept s a.st c B M) (hr : Ready s c) (r : Nat) (els : List ElOut) (j : Nat)
    (hB : Set.Ico ((tdOf run.dw).off + r * (tdOf run.dw).pitch) ((tdOf run.dw).off + r * (tdOf run.dw).pitch + 2 * els.length) ⊆ B) :
    Swept s (storeWork c x run r els a j).st c B M := by
  refine h.trans (swept_spmStore (h.ready hr) (by decide) ?_)
  simpa only [length_packElems_zero, List.length_map] using hB

theorem exists_of_mem_range_filter {ops : List Nat} {o j : Nat}
    (h : j ∈ List.range (ops.filter (fun w => uOp w = o)).length) : ops.any (fun w => uOp w = o) = true := by
  obtain ⟨w, hw⟩ := List.exists_mem_of_length_pos (Nat.zero_lt_of_lt (List.mem_range.1 h))
  exact List.any_eq_true.2 ⟨w, List.mem_of_mem_filter hw, (List.mem_filter.1 hw).2⟩

/-- The bytes of row `r` of the work slot. -/
def workRow (d : TD) (rowLen r : Nat) : Set Nat := Set.Ico (d.off + r * d.pitch) (d.off + r * d.pitch + 2 * rowLen)

theorem swept_sweepRow {a : SweepAcc} {ops : List Nat} {r : Nat} (h : Swept s a.st c B M) (hr : Ready s c)
    (hmem : Memory.wf s) (hok : ∀ a n, writeFails s a n = false) (hsts : ops.any (fun w => uOp w = 0x1A) = true → M)
    (hupd : ops.any (fun w => uOp w = 0x1B) = true → M)
    (hstw : ops.any (fun w => uOp w = 0x1D) = true → workRow (tdOf run.dw) b.rowLen r ⊆ B) :
    Swept s (sweepRow c x pr b run ops a r).st c B M := by
  unfold sweepRow
  refine List.foldlRecOn (motive := fun a : SweepAcc => Swept s a.st c B M) _ _ ?_ (fun a ha j hj =>
    swept_storeWork ha hr r _ j (by
      rw [List.length_map, List.length_range]
      exact hstw (exists_of_mem_range_filter hj)))
  refine List.foldlRecOn (motive := fun a : SweepAcc => Swept s a.st c B M) _ _ ?_ (fun a ha j hj =>
    swept_storeUpd ha (hupd (exists_of_mem_range_filter hj)) hmem hok r _ j)
  exact List.foldlRecOn (motive := fun a : SweepAcc => Swept s a.st c B M) _ _ h (fun a ha j hj =>
    swept_storeState ha (hsts (exists_of_mem_range_filter hj)) hmem hok _ r _ j)

/-- A sweep keeps the program and the block it was given, and its engine is busy. -/
structure SweepOf (u v : UpdRun) : Prop where
  blk : v.blk = u.blk
  prog : v.prog = u.prog
  opAt : v.opAt = u.opAt
  sweep : v.sweep = u.sweep
  retPc : v.retPc = u.retPc
  inKernel : v.inKernel = false
  busy : v.busy = true

/-- A sweep whose rows read clean: its stores, then its record in the context. -/
theorem runSweep_spec (hx : x < 4) (hr : Ready s c) (hmem : Memory.wf s) (hok : ∀ a n, writeFails s a n = false)
    (hclean : updClean s pr (ublkOf run.blk) (sweepOps run.prog run.opAt) (sweepRows s pr (ublkOf run.blk)) = true)
    (hsts : (sweepOps run.prog run.opAt).any (fun w => uOp w = 0x1A) = true → M)
    (hupd : (sweepOps run.prog run.opAt).any (fun w => uOp w = 0x1B) = true → M)
    (hstw : (sweepOps run.prog run.opAt).any (fun w => uOp w = 0x1D) = true →
      ∀ r ∈ sweepRows s pr (ublkOf run.blk), workRow (tdOf run.dw) (ublkOf run.blk).rowLen r ⊆ B) :
    ∃ t v, runSweep c x pr run s = modCtx t c x (fun k => { k with updRun := some v }) ∧ Swept s t c B M ∧ SweepOf run v := by
  unfold runSweep
  dsimp only
  rw [guardSpans_ready _ hr (by decide), guardSpans_ready _ hr (by decide), ite_self, ite_self, hclean]
  refine ⟨_, _, rfl, ?_, ⟨rfl, rfl, rfl, rfl, rfl, rfl, rfl⟩⟩
  have hrows : ∀ a : SweepAcc, Swept s a.st c B M → Swept s ((sweepRows s pr (ublkOf run.blk)).foldl
      (sweepRow c x pr (ublkOf run.blk) run (sweepOps run.prog run.opAt)) a).st c B M := fun a ha =>
    List.foldlRecOn (motive := fun a : SweepAcc => Swept s a.st c B M) _ _ ha (fun a ha r hmemr =>
      swept_sweepRow ha hr hmem hok hsts hupd (fun hw => hstw hw r hmemr))
  have hcounted := hrows ⟨countCore (countCore s c 0xBC 1) c 0xBD
    (if (ublkOf run.blk).bmv then (sweepRows s pr (ublkOf run.blk)).length else 0), run.mMax, false, run.ssq⟩
    ((swept_countCore (by decide) 1).trans (swept_countCore (by decide) _))
  exact swept_ite (hcounted.trans (swept_raiseOvf hx _)) hcounted

end

end Sys2Proof.Machine
end

section
/-! PROOFS. UPDATE and URESUME (R267, R294): the plan of a passed check, and the sweep that it runs from the issue. -/

namespace Sys2Proof.Machine

open Sys2Proof Sys2Proof.Safety

section

variable {s : State} {c x : Nat} {w : Word} {k : Ctx} {pr : Pour} {p : Plan}

/-! ### What the issue of the word leaves -/

theorem memByte_taken (a : Nat) : memByte (taken s c x k w p) a = memByte s a := by
  rw [taken_frame]
  rfl

theorem memBadIn_taken (a n : Nat) : memBadIn (taken s c x k w p) a n = memBadIn s a n := by
  rw [taken_frame]
  rfl

theorem writeFails_taken (a n : Nat) : writeFails (taken s c x k w p) a n = writeFails s a n := by
  rw [taken_frame]
  rfl

theorem sweepRows_taken (b : UBlk) : sweepRows (taken s c x k w p) pr b = sweepRows s pr b := by
  simp only [sweepRows, memByte_taken]

theorem updClean_taken (b : UBlk) (ops rows : List Nat) :
    updClean (taken s c x k w p) pr b ops rows = updClean s pr b ops rows := by
  simp only [updClean, memBadIn_taken]

theorem uWords_placed (prog : Nat) : uWords (placed s c x k w) pr prog = uWords s pr prog := by
  have hword : uWord (placed s c x k w) prog = uWord s prog := funext (fun i => by rw [uWord, uWord, memBytes_placed])
  rw [uWords, uWords, hword]

/-! ### The plans -/

theorem planUresume_go (h : AtWord s c x w k pr) {r : UpdRun} (hr : k.updRun = some r)
    (hgo : planUresume (placed s c x k w) c x (entryOf k w) = .go p) : ∀ u, p.run u = runSweep c x pr r u := by
  rw [planUresume, withPour_atWord h] at hgo
  change (match k.updRun with | none => _ | some u => _) = _ at hgo
  rw [hr] at hgo
  cases hgo
  exact fun _ => rfl

theorem withKtab_go {b : UBlk} {K : List Word → Issue} (h : withKtab s pr b K = .go p) : ∃ kt, K kt = .go p := by
  unfold withKtab at h
  split at h
  · exact ⟨_, h⟩
  · exact ⟨_, withBlock_reads h⟩

/-- A program that passes its check: its operations up to END. -/
theorem withProg_go {b : UBlk} {K : List Nat → Issue} {n : Nat} (hn : uCheck b (uWords s pr b.prog) 0 [] [] = .ok n)
    (h : withProg s pr c b K = .go p) : K ((uWords s pr b.prog).take n) = .go p := by
  unfold withProg at h
  dsimp only at h
  rw [hn] at h
  split at h
  · simp [Issue.bad] at h
  split at h
  · simp [Issue.bad] at h
  · exact h

/-- The run that UPDATE starts. -/
structure Started (k : Ctx) (ws : List Word) (prog : List Nat) (r : UpdRun) : Prop where
  blk : r.blk = ws
  prog : r.prog = prog
  dw : tdOf r.dw = tdAt k (ublkOf ws).dw
  opAt : r.opAt = 0
  sweep : r.sweep = 0
  retPc : r.retPc = k.pc + 8

theorem planUpdate_go (h : AtWord s c x w k pr) (hop : wOp w = 0x2F) {n : Nat}
    (hn : uCheck (ublkOf (blockAt s (gRead k (wfld w 53 49)).toNat))
      (uWords s pr (ublkOf (blockAt s (gRead k (wfld w 53 49)).toNat)).prog) 0 [] [] = .ok n)
    (hgo : planUpdate (placed s c x k w) c x (entryOf k w) = .go p) :
    let ws := blockAt s (gRead k (wfld w 53 49)).toNat
    let b := ublkOf ws
    let dw := tdAt k b.dw
    (b.wv = true → dw.fmt = 0 ∧ Fits dw b.rows b.rowLen) ∧ ∀ u, Ready u c →
      ∃ r, p.run u = runSweep c x pr r u ∧ Started k ws ((uWords s pr b.prog).take n) r := by
  have hsrc : srcOf (entryOf k w) 0 = gRead k (wfld w 53 49) := srcOf_entryOf (l := [wfld w 53 49]) (by simp [tensorSrcs, hop]) 0
  rw [planUpdate, withPour_atWord h, hsrc] at hgo
  have hgo := withBlock_go hgo
  rw [blockAt_placed] at hgo
  generalize blockAt s (gRead k (wfld w 53 49)).toNat = ws at hn hgo ⊢
  dsimp only at hgo
  split at hgo
  · simp [Issue.bad] at hgo
  obtain ⟨hchecks, hgo⟩ := checked_go.1 hgo
  obtain ⟨kt, hgo⟩ := withKtab_go hgo
  have hgo := withBlock_go hgo
  split at hgo
  · simp [Issue.bad] at hgo
  have hgo := withBlock_reads hgo
  have hgo := withProg_go (by rw [uWords_placed]; exact hn) hgo
  obtain ⟨-, hgo⟩ := checked_go.1 hgo
  rw [uWords_placed] at hgo
  cases hgo
  refine ⟨fun hwv => ?_, fun u hu => ⟨_, guardRows_ready _ hu (by decide) _ _ _ _, ⟨rfl, rfl, rfl, rfl, rfl, rfl⟩⟩⟩
  obtain ⟨-, hchecks⟩ := firstBad_cons.1 hchecks
  obtain ⟨-, hchecks⟩ := firstBad_cons.1 hchecks
  obtain ⟨-, hchecks⟩ := firstBad_cons.1 hchecks
  obtain ⟨hwork, -⟩ := firstBad_cons.1 hchecks
  rw [if_pos hwv] at hwork
  obtain ⟨-, hwork⟩ := firstBad_cons.1 hwork
  obtain ⟨htile, -⟩ := firstBad_cons.1 hwork
  obtain ⟨hfmt, hfits⟩ := tdCheck_none htile
  exact ⟨of_decide_eq_true hfmt, hfits⟩

/-- A program that passes its check stores to the work slot only where the block names one. -/
theorem uCheck_work {b : UBlk} {ws : List Nat} {i n : Nat} {seen written : List Nat} (h : uCheck b ws i seen written = .ok n) :
    i < n ∧ ∀ v ∈ ws.take (n - i), uOp v = 0x1D → b.wv = true := by
  induction ws generalizing i seen written with
  | nil => cases h
  | cons v ws ih =>
    unfold uCheck at h
    split at h
    · cases h
    next written' hop =>
    have hv : uOp v = 0x1D → b.wv = true := by
      intro hstw
      by_contra hwv
      rw [Bool.not_eq_true] at hwv
      simp only [uCheckOp, hstw, uUses, hwv] at hop
      norm_num at hop
      cases hop
    split at h
    · cases h
      refine ⟨by omega, fun v' hv' => ?_⟩
      rw [show i + 1 - i = 0 + 1 by omega, List.take_succ_cons, List.take_zero, List.mem_singleton] at hv'
      rw [hv']
      exact hv
    · obtain ⟨hlt, hrest⟩ := ih h
      refine ⟨by omega, fun v' hv' => ?_⟩
      rw [show n - i = (n - (i + 1)) + 1 by omega, List.take_succ_cons] at hv'
      rcases List.mem_cons.1 hv' with rfl | hv'
      · exact hv
      · exact hrest v' hv'

theorem mem_of_mem_sweepOps {ws : List Nat} {i v : Nat} (h : v ∈ sweepOps ws i) : v ∈ ws :=
  List.mem_of_mem_drop ((List.takeWhile_sublist _).subset h)

theorem mem_sweepRows {b : UBlk} {r : Nat} (h : r ∈ sweepRows s pr b) : r < b.rows := by
  unfold sweepRows at h
  split at h
  · exact List.mem_range.1 (List.mem_of_mem_filter h)
  · exact List.mem_range.1 h

/-- A row of a work slot lies within it. -/
theorem workRow_subset {d : TD} {b : UBlk} {r : Nat} (hfmt : d.fmt = 0) (hfits : Fits d b.rows b.rowLen) (hr : r < b.rows) :
    workRow d b.rowLen r ⊆ Set.Ico d.off (tdEnd d) := by
  have hend := hfits.end_le
  have hmul : r * d.pitch ≤ (b.rows - 1) * d.pitch := Nat.mul_le_mul_right _ (by omega)
  have hlen : rowBytes d.fmt b.rowLen = 2 * b.rowLen := by rw [hfmt]; rfl
  rw [hlen] at hend
  exact Set.Ico_subset_Ico (by omega) (by omega)

end

end Sys2Proof.Machine

namespace Sys2Proof.Safety

open Sys2Proof Sys2Proof.Machine

section

variable {i : Instr} {s : State} {c x : Nat} {w : Word} {k : Ctx} {pr : Pour} {p : Plan}

/-- What a sweep started with `r` leaves: the context's record, the bytes `D` of the work slot where it has an STW, and the
memory where it has an STS or UPD. -/
structure SweepLeft (s t : State) (c x : Nat) (k : Ctx) (r : UpdRun) (D : Set Nat) : Prop where
  accs : SameAccs s t c
  ctxs : ∀ y, y ≠ x → ctxOf t c y = ctxOf s c y
  run : ∃ q, ctxOf t c x = { fetchedCtx k with pc := k.pc + 8, updRun := some q } ∧ SweepOf r q
  cores : ∀ d, d ≠ c → coreOf t d = coreOf s d
  bytes : ∀ o, ¬ ((sweepOps r.prog r.opAt).any (fun v => uOp v = 0x1D) = true ∧ o ∈ D) →
    spmByte (coreOf t c) o = spmByte (coreOf s c) o
  mem : (sweepOps r.prog r.opAt).any (fun v => uOp v = 0x1A) = false →
    (sweepOps r.prog r.opAt).any (fun v => uOp v = 0x1B) = false → SameMem s t

/-- A word whose plan runs a sweep. -/
theorem issued_sweep (h : Issuable s c x w k pr p) (hi : instrWord i = some (c, x, w, true)) (hq : queued w = true) {r : UpdRun}
    {D : Set Nat} (hrun : p.run (taken s c x k w p) = runSweep c x pr r (taken s c x k w p))
    (hclean : updClean s pr (ublkOf r.blk) (sweepOps r.prog r.opAt) (sweepRows s pr (ublkOf r.blk)) = true)
    (hok : ∀ a n, writeFails s a n = false)
    (hstw : (sweepOps r.prog r.opAt).any (fun v => uOp v = 0x1D) = true →
      ∀ n ∈ sweepRows s pr (ublkOf r.blk), workRow (tdOf r.dw) (ublkOf r.blk).rowLen n ⊆ D) :
    Issued i s c x w k p (fun t => SweepLeft s t c x k r D) := by
  have hissue : AtIssue s (taken s c x k w p) c := atIssue_taken h
  obtain ⟨hmem, -⟩ := h.canon
  have hwf : Memory.wf (taken s c x k w p) := by
    rw [taken_frame]
    exact hmem
  obtain ⟨t, v, ht, hswept, hv⟩ := runSweep_spec (run := r)
    (B := {o | (sweepOps r.prog r.opAt).any (fun v => uOp v = 0x1D) = true ∧ o ∈ D})
    (M := (sweepOps r.prog r.opAt).any (fun v => uOp v = 0x1A) = true ∨ (sweepOps r.prog r.opAt).any (fun v => uOp v = 0x1B) = true)
    h.at_.ctx hissue.ready hwf (fun a n => (writeFails_taken a n).trans (hok a n))
    (by rw [sweepRows_taken, updClean_taken]; exact hclean) .inl .inr
    (fun hw n hn o ho => ⟨hw, hstw hw n (by rwa [sweepRows_taken] at hn) ho⟩)
  have hat := hissue.within.toAtCore.trans hswept.atCore
  have hctxs : ∀ y, ctxOf t c y = ctxOf (taken s c x k w p) c y := fun y => by
    rw [ctxOf, ctxOfCore, hswept.ctxs, ctxOf, ctxOfCore]
  have hcore : coreOf (modCtx t c x (fun k => { k with updRun := some v })) c =
    { coreOf t c with ctxs := (coreOf (modCtx t c x (fun k => { k with updRun := some v })) c).ctxs } := by
    rw [modCtx, coreOf_setCtx_same]
  refine issued_of_taken h hi hq ?_ ?_ <;> rw [hrun, ht]
  · rw [hcore]
    exact hswept.atCore.waits
  · refine ⟨fun j a b => ?_, fun y hy => ?_, ⟨v, ?_, hv⟩, fun d hd => ?_, fun o ho => ?_, fun h1 h2 a => ?_⟩
    · rw [hcore]
      exact hat.accVal (by simp) a b
    · rw [ctxOf_modCtx_other _ _ _ hy, hctxs, ctxOf_taken_ne hy]
    · rw [ctxOf_modCtx_same, hctxs, ctxOf_taken_same h.queue]
    · rw [modCtx, coreOf_setCtx_other _ _ _ _ _ hd, hswept.others d hd, coreOf_taken_ne hd]
    · rw [hcore]
      exact hat.bytes o (by simpa using ho)
    · exact (hswept.mem (by simp [h1, h2]) a).trans (memByte_taken a)

theorem SweepLeft.spmOutside {t : State} {r : UpdRun} {lo hi : Nat} (h : SweepLeft s t c x k r (Set.Ico lo hi)) :
    SpmOutside s t c lo hi :=
  ⟨fun o ho => h.bytes o (fun e => by have := Set.mem_Ico.1 e.2; omega), h.cores⟩

theorem SweepLeft.spmKept {t : State} {r : UpdRun} {D : Set Nat} (h : SweepLeft s t c x k r D)
    (hstw : (sweepOps r.prog r.opAt).any (fun v => uOp v = 0x1D) = false) : SpmOutside s t c 0 0 :=
  ⟨fun o _ => h.bytes o (fun e => by simp [hstw] at e), h.cores⟩

/-- UPDATE starts the program of its block at operation 0 (R267, R294). -/
theorem issued_update (h : Issuable s c x w k pr p) (hop : wOp w = 0x2F) {n : Nat}
    (hn : uCheck (ublkOf (blockAt s (gRead k (wfld w 53 49)).toNat))
      (uWords s pr (ublkOf (blockAt s (gRead k (wfld w 53 49)).toNat)).prog) 0 [] [] = .ok n) :
    let ws := blockAt s (gRead k (wfld w 53 49)).toNat
    let b := ublkOf ws
    let dw := tdAt k b.dw
    let prog := (uWords s pr b.prog).take n
    updClean s pr b (sweepOps prog 0) (sweepRows s pr b) = true → (∀ a n, writeFails s a n = false) →
      Issued (.update c x w) s c x w k p (fun t => ∃ r, Started k ws prog r ∧ SweepLeft s t c x k r (Set.Ico dw.off (tdEnd dw))) := by
  intro ws b dw prog hclean hok
  obtain ⟨hwork, hruns⟩ := planUpdate_go h.at_ hop hn (by simpa [planOf, entryOf, hop] using h.plan)
  have hready : Ready (taken s c x k w p) c := (atIssue_taken h).ready
  obtain ⟨r, hrun, hr⟩ := hruns _ hready
  refine issued_mono (issued_sweep h (by simp [instrWord, hop]) (by simp [queued, hop]) hrun
    (D := Set.Ico dw.off (tdEnd dw)) (by rw [hr.blk, hr.prog, hr.opAt]; exact hclean) hok ?_) (fun t ht => ⟨r, hr, ht⟩)
  rw [hr.blk, hr.prog, hr.opAt, hr.dw]
  intro hstw m hm
  obtain ⟨v, hv, hv'⟩ := List.any_eq_true.1 hstw
  have hwv : b.wv = true := (uCheck_work hn).2 v (mem_of_mem_sweepOps hv) (of_decide_eq_true hv')
  obtain ⟨hfmt, hfits⟩ := hwork hwv
  exact workRow_subset hfmt hfits (mem_sweepRows hm)

/-- URESUME goes on with the sweep at hand (R267). -/
theorem issued_uresume (h : Issuable s c x w k pr p) (hop : wOp w = 0x05) {r : UpdRun} (hr : k.updRun = some r)
    (hclean : updClean s pr (ublkOf r.blk) (sweepOps r.prog r.opAt) (sweepRows s pr (ublkOf r.blk)) = true)
    (hok : ∀ a n, writeFails s a n = false) :
    Issued (.uresume c x w) s c x w k p (fun t => SweepLeft s t c x k r Set.univ) :=
  issued_sweep h (by simp [instrWord, hop]) (by simp [queued, hop])
    (planUresume_go h.at_ hr (by simpa [planOf, entryOf, hop] using h.plan) _) hclean hok
    (fun _ _ _ => Set.subset_univ _)

end

end Sys2Proof.Safety
end

section
/-! PROOFS. Bytes cut into packets (R217, R299): the pieces of a payload, and the words that carry them. -/

namespace Sys2Proof.Machine

/-! ### Groups of a list -/

theorem flatten_chunks {α : Type} {n fuel : Nat} {l : List α} (hn : 0 < n) (hl : l.length < fuel) : (chunks n fuel l).flatten = l := by
  induction fuel generalizing l with
  | zero => omega
  | succ fuel ih =>
    cases l with
    | nil => rfl
    | cons y l =>
      rw [chunks, List.flatten_cons, ih (by simp only [List.length_drop, List.length_cons] at hl ⊢; omega), List.take_append_drop]

/-- No group is empty or longer than `n`, and what divides `n` and the list's length divides each group's. -/
theorem length_of_mem_chunks {α : Type} {n m fuel : Nat} {l g : List α} (hn : 0 < n) (hm : m ∣ n) (hl : m ∣ l.length)
    (hg : g ∈ chunks n fuel l) : m ∣ g.length ∧ 0 < g.length ∧ g.length ≤ n := by
  induction fuel generalizing l with
  | zero => cases hg
  | succ fuel ih =>
    cases l with
    | nil => cases hg
    | cons y l =>
      rcases List.mem_cons.1 hg with rfl | hg
      · simp only [List.length_take, List.length_cons] at hl ⊢
        refine ⟨?_, by omega, by omega⟩
        rcases min_choice n (l.length + 1) with h | h <;> rw [h] <;> assumption
      · exact ih (by rw [List.length_drop]; exact Nat.dvd_sub hl hm) hg

theorem chunks_ne_nil {α : Type} {n fuel : Nat} {l : List α} (hl : l ≠ []) : chunks n (fuel + 1) l ≠ [] := by
  cases l with
  | nil => exact absurd rfl hl
  | cons y l => simp [chunks]

/-! ### Payloads -/

/-- Whole flits carry the bytes they are made of. -/
theorem payloadBytes_asPayload {bs : List Byte} (h : 32 ∣ bs.length) : payloadBytes (asPayload bs) = bs := by
  have hpad : bs ++ List.replicate ((32 - bs.length % 32) % 32) 0 = bs := by
    rw [Nat.mod_eq_zero_of_dvd h]
    simp
  have hword : ∀ g ∈ chunks 8 (bs.length + 1) bs, bytesLE 8 (BitVec.ofNat 64 (ofBytesLE g)).toNat = g := fun g hg => by
    obtain ⟨hdvd, hpos, hle⟩ := length_of_mem_chunks (m := 8) (by decide) (dvd_refl 8) (Dvd.dvd.trans (by decide) h) hg
    have hlen : g.length = 8 := Nat.le_antisymm hle (Nat.le_of_dvd hpos hdvd)
    have hlt := ofBytesLE_lt g
    rw [hlen] at hlt
    rw [BitVec.toNat_ofNat, Nat.mod_eq_of_lt (by omega)]
    exact (congrArg (bytesLE · _) hlen.symm).trans (bytesLE_ofBytesLE g)
  rw [asPayload, hpad, asWords, payloadBytes, List.flatMap_map]
  calc (chunks 8 (bs.length + 1) bs).flatMap (fun g => bytesLE 8 (BitVec.ofNat 64 (ofBytesLE g)).toNat)
      = ((chunks 8 (bs.length + 1) bs).map id).flatten := by
        rw [List.flatMap_def, List.map_congr_left hword]
        rfl
    _ = bs := by rw [List.map_id, flatten_chunks (by decide) (Nat.lt_succ_self _)]

theorem flatMap_cutAt {fuel a : Nat} {bs : List Byte} (h : bs.length < fuel) : (cutAt fuel a bs).flatMap (·.2) = bs := by
  induction fuel generalizing a bs with
  | zero => omega
  | succ fuel ih =>
    cases bs with
    | nil => rfl
    | cons y bs =>
      have hlt : a % 256 < 256 := Nat.mod_lt _ (by decide)
      rw [cutAt, List.flatMap_cons, ih (by simp only [List.length_drop, List.length_cons] at h ⊢; omega), List.take_append_drop]
      exact List.cons_ne_nil y bs

/-- Whole flits at an aligned address are cut into whole flits. -/
theorem dvd_of_mem_cutAt {fuel a : Nat} {bs : List Byte} (ha : 32 ∣ a) (h : 32 ∣ bs.length) {q : Nat × List Byte}
    (hq : q ∈ cutAt fuel a bs) : 32 ∣ q.2.length := by
  induction fuel generalizing a bs with
  | zero => cases hq
  | succ fuel ih =>
    cases bs with
    | nil => cases hq
    | cons y bs =>
      have hn : 32 ∣ 256 - a % 256 := by omega
      rcases List.mem_cons.1 hq with rfl | hq
      · simp only [List.length_take]
        rcases min_choice (256 - a % 256) (y :: bs).length with e | e <;> rw [e] <;> assumption
      · exact ih (by omega) (by rw [List.length_drop]; exact Nat.dvd_sub h hn) hq

/-- The numbered pieces, one after another. -/
theorem flatMap_zipIdx_cutAt (a : Nat) (bs : List Byte) : (cutAt (bs.length + 1) a bs).zipIdx.flatMap (fun q => q.1.2) = bs := by
  rw [← List.flatMap_map Prod.fst (fun q : Nat × List Byte => q.2), List.zipIdx_map_fst]
  exact flatMap_cutAt (Nat.lt_succ_self _)

theorem cutAt_ne_nil {fuel a : Nat} {bs : List Byte} (h : bs ≠ []) : cutAt (fuel + 1) a bs ≠ [] := by
  cases bs with
  | nil => exact absurd rfl h
  | cons y bs => simp [cutAt]

theorem length_packedRows (k : Core) (d : TD) : (packedRows k d).length = packedSize d := by
  rw [packedRows, length_flatMap_const (w := tdRowLen d) (fun _ _ => by simp [spmBytes]), List.length_range, packedSize, Nat.mul_comm]

theorem packedRows_of_spm {k k' : Core} (h : spmByte k' = spmByte k) (d : TD) : packedRows k' d = packedRows k d := by
  simp only [packedRows, spmBytes_of_spm h]

end Sys2Proof.Machine
end

section
/-! PROOFS. Requests that a unit sends through the fabric (R214, R218, R225, R249): what leaves the device as it was, and the
requests that now await their responses. -/

namespace Sys2Proof.Machine

open Sys2Proof Sys2Proof.Safety

/-- Nothing differs but the fabric's ports, requests and meters, and counters. -/
structure FabricOnly (s t : State) : Prop where
  frame : t = { s with regs := t.regs, trc := t.trc, erg := t.erg, ergReqs := t.ergReqs, parts := t.parts }
  counted : Counted s t

namespace FabricOnly

variable {s t u : State}

theorem of_regs (h : t.regs = s.regs)
    (hf : t = { s with regs := t.regs, trc := t.trc, erg := t.erg, ergReqs := t.ergReqs, parts := t.parts }) : FabricOnly s t :=
  ⟨hf, .of_regs h⟩

theorem refl (s : State) : FabricOnly s s := of_regs rfl rfl

theorem trans (h : FabricOnly s t) (h' : FabricOnly t u) : FabricOnly s u :=
  ⟨h'.frame.trans (by rw [h.frame]), h.counted.trans h'.counted⟩

theorem cores (h : FabricOnly s t) : t.cores = s.cores := by rw [h.frame]

theorem ctxOf (h : FabricOnly s t) (c x : Nat) : ctxOf t c x = Machine.ctxOf s c x := by
  rw [Machine.ctxOf, coreOf_congr h.cores, Machine.ctxOf]

end FabricOnly

/-! ### Registers of the fabric -/

theorem not_countedReg {o : Nat} (h : 0x2000000 ≤ o) (h' : o < 0x3000000) : ¬ countedReg o := by
  rintro (h1 | rfl | rfl)
  · simp only [isCounterOff, Bool.or_eq_true, Bool.and_eq_true, decide_eq_true_eq] at h1
    omega
  · exact absurd h' (by decide)
  · exact absurd h' (by decide)

section

variable {s t : State} (h : Counted s t) (hs : regsWf s)

include h hs

theorem rd_fabric {o : Nat} (h1 : 0x2000000 ≤ o) (h2 : o < 0x3000000) : rd t o = rd s o := h.same hs o (not_countedReg h1 h2)

theorem nodeId_counted : nodeId t = nodeId s := by
  rw [nodeId, nodeId, rget, rget, rd_fabric h hs (by decide) (by decide)]

theorem fabValid_counted : fabValid t = fabValid s := rflag_congr (rd_fabric h hs (by decide) (by decide)) _

theorem routeOf_counted (dst tc : Nat) : routeOf t dst tc = routeOf s dst tc := by
  have hstate : ∀ q, q < 12 → portState t q = portState s q := fun q hq => by
    rw [portState, portState, rget, rget, rd_fabric h hs] <;> unfold rPORT_STATUS <;> omega
  unfold routeOf
  split
  · rfl
  · next hdst =>
    have hroute : rget t (rROUTE dst) fROUTE_PORTS = rget s (rROUTE dst) fROUTE_PORTS := by
      rw [rget, rget, rd_fabric h hs] <;> unfold rROUTE <;> omega
    simp only [hroute]
    refine if_congr (and_congr_right (fun hq => ?_)) rfl rfl
    rw [hstate _ hq]

theorem mcastLocal_counted (g : Nat) : mcastLocal t g = mcastLocal s g := by
  unfold mcastLocal
  by_cases hg : g < 0x1000
  · rw [rflag_congr (rd_fabric h hs _ _)] <;> unfold rMCAST_PORTS <;> omega
  · simp [hg]

end

/-! ### One request -/

theorem fabricOnly_enq (s : State) (die q : Nat) (k : Packet) :
    FabricOnly s (enq s die q k) ∧ (enq s die q k).ergReqs = s.ergReqs := by
  unfold enq
  dsimp only
  split
  · have hframe := pathsTake_frame s (partOfJob s k.job) (ergPaths die q k)
    have htake : FabricOnly s (pathsTake s (partOfJob s k.job) (ergPaths die q k)) :=
      .of_regs (by rw [hframe]) (by rw [hframe])
    exact ⟨htake.trans (.of_regs rfl rfl), (by rw [hframe] : (pathsTake s (partOfJob s k.job) (ergPaths die q k)).ergReqs = _)⟩
  · exact ⟨.of_regs rfl rfl, rfl⟩

theorem fabricOnly_ergCount (s : State) {q : Nat} (hq : q < 12) (n : Nat) :
    FabricOnly s (ergCount s q 34 n) ∧ (ergCount s q 34 n).ergReqs = s.ergReqs := by
  have hframe := countUp_frame s (rCNT_DEV (0x4000 + 64 * q + 34)) n
  have hcounted := counted_countDev s (j := 0x4000 + 64 * q + 34) (by omega) n
  rw [ergCount]
  rw [countDev] at hcounted ⊢
  exact ⟨⟨by rw [hframe], hcounted⟩, by rw [hframe]⟩

/-- A request to another node that has a route joins the requests that await a response. -/
theorem sendReq_away {s : State} {r : ErgReq} (f : State → Via → Packet → State × Option Packet) (hvalid : fabValid s = true)
    (hroute : routeOf s r.pkt.dst r.pkt.tc ≠ none) :
    FabricOnly s (sendReq f s false r) ∧ (sendReq f s false r).ergReqs = s.ergReqs ++ [r] := by
  obtain ⟨q, hq⟩ := Option.ne_none_iff_exists'.1 hroute
  have hadd : FabricOnly s { s with ergReqs := s.ergReqs ++ [r] } := .of_regs rfl rfl
  obtain ⟨hsent, hreqs⟩ := fabricOnly_enq { s with ergReqs := s.ergReqs ++ [r] } (reqDie r) q r.pkt
  have hsend : sendReq f s false r = enq { s with ergReqs := s.ergReqs ++ [r] } (reqDie r) q r.pkt := by
    rw [sendReq, hvalid, hq]
    rfl
  rw [hsend]
  exact ⟨hadd.trans hsent, hreqs⟩

/-- Requests sent one after another, each of which adds one to those that await a response. -/
theorem foldl_sends {β : Type} {s : State} {step : State → β → State} {P : β → ErgReq → Prop} {l : List β}
    (hstep : ∀ u, FabricOnly s u → ∀ b ∈ l, FabricOnly u (step u b) ∧ ∃ r, (step u b).ergReqs = u.ergReqs ++ [r] ∧ P b r) :
    FabricOnly s (l.foldl step s) ∧ ∃ rs, (l.foldl step s).ergReqs = s.ergReqs ++ rs ∧ List.Forall₂ P l rs := by
  suffices h : ∀ u, FabricOnly s u → ∀ l' : List β, (∀ b ∈ l', b ∈ l) → FabricOnly s (l'.foldl step u) ∧
      ∃ rs, (l'.foldl step u).ergReqs = u.ergReqs ++ rs ∧ List.Forall₂ P l' rs from h s (.refl s) l (fun _ hb => hb)
  intro u hu l' hl'
  induction l' generalizing u with
  | nil => exact ⟨hu, [], (List.append_nil _).symm, .nil⟩
  | cons b l' ih =>
    obtain ⟨hfab, r, hreqs, hr⟩ := hstep u hu b (hl' b List.mem_cons_self)
    obtain ⟨hfab', rs, hreqs', hrs⟩ := ih _ (hu.trans hfab) (fun b' hb' => hl' b' (List.mem_cons_of_mem b hb'))
    refine ⟨hfab', r :: rs, ?_, .cons hr hrs⟩
    rw [List.foldl_cons, hreqs', hreqs, List.append_assoc]
    rfl

end Sys2Proof.Machine
end

section
/-! PROOFS. FWR, FRD and FATOM to another node (R299): the requests that the pieces of a tile's rows make. -/

namespace Sys2Proof.Machine

open Sys2Proof Sys2Proof.Safety

/-! ### Requests of a pour -/

/-- A node of another device, with a route for the class. -/
structure Away (s : State) (node tc : Nat) : Prop where
  named : node ≠ 0xFFFF
  valid : fabValid s = true
  other : node ≠ nodeId s
  route : routeOf s node tc ≠ none

theorem Away.counted {s t : State} {node tc : Nat} (ha : Away s node tc) (h : Counted s t) (hs : regsWf s) : Away t node tc :=
  ⟨ha.named, (fabValid_counted h hs).trans ha.valid, by rw [nodeId_counted h hs]; exact ha.other,
    by rw [routeOf_counted h hs]; exact ha.route⟩

theorem Away.isSelf {s : State} {node tc : Nat} (ha : Away s node tc) : isSelf s node = false := by
  simp [Machine.isSelf, ha.named, ha.other]

/-- A request that context `x` of core `c` sent to one node. -/
def PourReq (s : State) (c x : Nat) (pr : Pour) (ty tc node : Nat) (r : ErgReq) : Prop :=
  r.origin = .pour ∧ r.core = c ∧ r.ctx = x ∧ r.part = pr.part ∧ r.wait = [node] ∧ r.sent = true ∧ r.pkt.ty = ty ∧
    r.pkt.tc = tc ∧ r.pkt.dst = node ∧ r.pkt.src = nodeId s ∧ r.pkt.mc = false

/-- The bytes that requests carry. -/
def carried (rs : List ErgReq) : List Byte := rs.flatMap (fun r => payloadBytes r.pkt.payload)

/-- Requests that each carry a piece of whole flits carry the pieces one after another. -/
theorem carried_pieces {β : Type} {l : List β} {rs : List ErgReq} {piece : β → List Byte} {R : β → ErgReq → Prop}
    (h : List.Forall₂ (fun b r => R b r ∧ r.pkt.payload = asPayload (piece b)) l rs) (hl : ∀ b ∈ l, 32 ∣ (piece b).length) :
    carried rs = l.flatMap piece := by
  induction h with
  | nil => rfl
  | cons hr _ ih =>
    rw [carried, List.flatMap_cons, List.flatMap_cons, hr.2, payloadBytes_asPayload (hl _ List.mem_cons_self)]
    exact congrArg _ (ih (fun b hb => hl b (List.mem_cons_of_mem _ hb)))

/-- Every request that joined has the property of its piece. -/
theorem forall_of_forall₂ {β : Type} {l : List β} {rs : List ErgReq} {R : ErgReq → Prop} {Q : β → ErgReq → Prop}
    (h : List.Forall₂ (fun b r => R r ∧ Q b r) l rs) : ∀ r ∈ rs, R r := by
  induction h with
  | nil => exact fun _ hr => by cases hr
  | cons hr _ ih =>
    intro r hmem
    rcases List.mem_cons.1 hmem with rfl | hmem
    · exact hr.1
    · exact ih r hmem

/-- Requests with the property `R` joined those that await a response, and carry the bytes `bs`. -/
def Sends (s t : State) (R : ErgReq → Prop) (bs : List Byte) : Prop :=
  FabricOnly s t ∧ ∃ rs, rs ≠ [] ∧ t.ergReqs = s.ergReqs ++ rs ∧ (∀ r ∈ rs, R r) ∧ carried rs = bs

/-- One request for each piece of whole flits. -/
theorem sends_pieces {β : Type} {s : State} {step : State → β → State} {R : ErgReq → Prop} {l : List β} {piece : β → List Byte}
    (hl : l ≠ []) (hflits : ∀ b ∈ l, 32 ∣ (piece b).length)
    (hstep : ∀ u, FabricOnly s u → ∀ b ∈ l, FabricOnly u (step u b) ∧
      ∃ r, (step u b).ergReqs = u.ergReqs ++ [r] ∧ R r ∧ r.pkt.payload = asPayload (piece b)) :
    Sends s (l.foldl step s) R (l.flatMap piece) := by
  obtain ⟨hfab, rs, hreqs, hrs⟩ := foldl_sends hstep
  refine ⟨hfab, rs, ?_, hreqs, forall_of_forall₂ hrs, carried_pieces hrs hflits⟩
  rintro rfl
  cases hrs
  exact hl rfl

section

variable {s u : State} {c x node tc : Nat} {pr : Pour}

/-- A running pour's request to another node. -/
theorem pourSend_away (hrun : (ctxOf s c x).st = .running) (ha : Away s node tc) {r : ErgReq}
    (f : State → Via → Packet → State × Option Packet) (hd : r.pkt.dst = node) (htc : r.pkt.tc = tc) :
    FabricOnly s (pourSend c x s (isSelf s node) r f) ∧ (pourSend c x s (isSelf s node) r f).ergReqs = s.ergReqs ++ [r] := by
  have hbefore : beforeCommit (ctxOf s c x) = true := by rw [beforeCommit, hrun]
  rw [pourSend, if_pos hbefore, ha.isSelf]
  exact sendReq_away f ha.valid (by rw [hd, htc]; exact ha.route)

/-- The header of a pour's request to another node, whatever the marks of its packet. -/
theorem pourReq_header (ha : Away s node tc) (hs : regsWf s) (h : FabricOnly s u) {r : ErgReq} {k : Packet} {ty : Nat}
    {addr : Nat} {w3 : Word} {load : List (Word × Bool)} {fill : Option Nat} {at_ : Option (Nat × Nat × Nat × Nat)}
    (hk : { k with token := 0, tokV := false, first := false, last := false } = reqPacket u ty tc node pr.part addr c w3 load)
    (hr : r = pourReq u pr c x k [realNode u node] fill at_) :
    PourReq s c x pr ty tc node r ∧ r.fill = fill ∧ r.pkt.payload = load ∧ r.pkt.addr = addr ∧ r.pkt.w3 = w3 := by
  subst hr
  have hnode : realNode u node = node := if_neg ha.named
  have hdst : (if node = 0xFFFF then nodeId u else node) = node := if_neg ha.named
  have hsrc := nodeId_counted h.counted hs
  obtain ⟨ty', tc', mc, dst, src, tag, job, addr', time, token, tokV, first, last, core, status, w3', load'⟩ := k
  simp only [reqPacket, Packet.mk.injEq] at hk
  obtain ⟨rfl, rfl, rfl, rfl, rfl, rfl, rfl, rfl, rfl, -, -, -, -, rfl, rfl, rfl, rfl⟩ := hk
  exact ⟨⟨rfl, rfl, rfl, rfl, congrArg (fun n => [n]) hnode, rfl, rfl, rfl, hdst, hsrc, rfl⟩, rfl, rfl, rfl, rfl⟩

/-- A pour's request to another node, sent after others. -/
theorem pourSend_step (hrun : (ctxOf s c x).st = .running) (hs : regsWf s) (ha : Away s node tc) (h : FabricOnly s u)
    (f : State → Via → Packet → State × Option Packet) {k : Packet} {ty addr : Nat} {w3 : Word} {load : List (Word × Bool)}
    (fill : Option Nat) (at_ : Option (Nat × Nat × Nat × Nat))
    (hk : { k with token := 0, tokV := false, first := false, last := false } = reqPacket u ty tc node pr.part addr c w3 load) :
    let t := pourSend c x u (isSelf u node) (pourReq u pr c x k [realNode u node] fill at_) f
    FabricOnly u t ∧ ∃ r, t.ergReqs = u.ergReqs ++ [r] ∧
      PourReq s c x pr ty tc node r ∧ r.fill = fill ∧ r.pkt.payload = load ∧ r.pkt.addr = addr ∧ r.pkt.w3 = w3 := by
  have hheader := pourReq_header ha hs h (x := x) (fill := fill) (at_ := at_) hk rfl
  obtain ⟨-, -, -, -, -, -, -, htc, hdst, -, -⟩ := hheader.1
  obtain ⟨hfab, hreqs⟩ := pourSend_away (by rw [h.ctxOf]; exact hrun) (ha.counted h.counted hs) f hdst htc
  exact ⟨hfab, _, hreqs, hheader⟩

/-- The same, of a piece of a payload. -/
theorem pourSend_piece (hrun : (ctxOf s c x).st = .running) (hs : regsWf s) (ha : Away s node tc) (h : FabricOnly s u)
    {f : State → Via → Packet → State × Option Packet} {k : Packet} {ty addr : Nat} {w3 : Word} {bs : List Byte}
    {fill : Option Nat} {at_ : Option (Nat × Nat × Nat × Nat)}
    (hk : { k with token := 0, tokV := false, first := false, last := false } =
      reqPacket u ty tc node pr.part addr c w3 (asPayload bs)) :
    FabricOnly u (pourSend c x u (isSelf u node) (pourReq u pr c x k [realNode u node] fill at_) f) ∧
    ∃ r, (pourSend c x u (isSelf u node) (pourReq u pr c x k [realNode u node] fill at_) f).ergReqs = u.ergReqs ++ [r] ∧
      (PourReq s c x pr ty tc node r ∧ r.fill = fill) ∧ r.pkt.payload = asPayload bs := by
  obtain ⟨hfab, r, hreqs, hr, hfill, hload, -⟩ := pourSend_step hrun hs ha h f fill at_ hk
  exact ⟨hfab, r, hreqs, ⟨hr, hfill⟩, hload⟩

/-! ### FWR -/

theorem sends_sendWrites (hrun : (ctxOf s c x).st = .running) (hs : regsWf s) {w : Word} (ha : Away s node (wfld w 39 37))
    {addr : Nat} (haddr : 32 ∣ addr) {bs : List Byte} (hlen : 32 ∣ bs.length) (hbs : bs ≠ []) (fill : Option Nat) :
    Sends s (sendWrites c x pr w node addr fill bs s) (fun r => PourReq s c x pr 0x09 (wfld w 39 37) node r ∧ r.fill = fill) bs := by
  have hpieces := flatMap_zipIdx_cutAt addr bs
  have hsends := sends_pieces (s := s) (R := fun r => PourReq s c x pr 0x09 (wfld w 39 37) node r ∧ r.fill = fill)
    (l := (cutAt (bs.length + 1) addr bs).zipIdx) (piece := fun q => q.1.2)
    (step := fun u q =>
      let k := { reqPacket u 0x09 (wfld w 39 37) node pr.part q.1.1 c 0 (asPayload q.1.2) with
        token := wfld w 35 26, tokV := wbit w 36, first := q.2 = 0, last := q.2 + 1 = (cutAt (bs.length + 1) addr bs).length }
      pourSend c x u (isSelf u node) (pourReq u pr c x k [realNode u node] fill none) handleReq1)
    (fun h => cutAt_ne_nil hbs (List.zipIdx_eq_nil_iff.1 h))
    (fun q hq => dvd_of_mem_cutAt haddr hlen (List.fst_mem_of_mem_zipIdx hq))
    (fun u hu q _ => pourSend_piece (addr := q.1.1) (w3 := 0) hrun hs ha hu rfl)
  rw [hpieces] at hsends
  exact hsends

theorem sends_sendLeaf (hrun : (ctxOf s c x).st = .running) (hs : regsWf s) (ha : Away s node tc)
    (key mask : Nat) {bs : List Byte} (hlen : 32 ∣ bs.length) (hbs : bs ≠ []) (fill : Option Nat) :
    Sends s (sendLeaf c x pr tc node key mask fill bs s) (fun r => PourReq s c x pr 0x0D tc node r ∧ r.fill = fill) bs := by
  unfold sendLeaf
  dsimp only
  generalize hsize : (if (readGroup s (bitsOf key 46 39)).lfmt = 0 ∨ (readGroup s (bitsOf key 46 39)).lfmt = 1 then 128 else 256) = size
  have hpos : 0 < size ∧ 32 ∣ size := by split at hsize <;> omega
  have hpieces : (chunks size (bs.length + 1) bs).zipIdx.flatMap (fun q => q.1) = bs := by
    rw [List.flatMap_def, List.zipIdx_map_fst]
    exact flatten_chunks hpos.1 (Nat.lt_succ_self _)
  have hsends := sends_pieces (s := s) (R := fun r => PourReq s c x pr 0x0D tc node r ∧ r.fill = fill)
    (l := (chunks size (bs.length + 1) bs).zipIdx) (piece := fun q => q.1)
    (step := fun u q =>
      let k := reqPacket u 0x0D tc node pr.part
        (redKey ((rd s (rNUM_OVF c x)).toNat &&& mask ≠ 0) (bitsOf key 46 39) (bitsOf key 38 19) q.2) c 0 (asPayload q.1)
      pourSend c x u (isSelf u node) (pourReq u pr c x k [realNode u node] fill none)
        (fun u v q => handleRed u v q (some pr.stamp)))
    (fun h => chunks_ne_nil hbs (List.zipIdx_eq_nil_iff.1 h))
    (fun q hq => (length_of_mem_chunks hpos.1 hpos.2 hlen (List.fst_mem_of_mem_zipIdx hq)).1)
    (fun u hu q _ => pourSend_piece
      (addr := redKey ((rd s (rNUM_OVF c x)).toNat &&& mask ≠ 0) (bitsOf key 46 39) (bitsOf key 38 19) q.2) (w3 := 0)
      hrun hs ha hu rfl)
  rw [hpieces] at hsends
  exact hsends

end

end Sys2Proof.Machine
end

section
/-! PROOFS. Multicast writes (R248, R249): the packets that join the retained buffer, and those that the window lets go. -/

namespace Sys2Proof.Machine

open Sys2Proof Sys2Proof.Safety

/-- Requests as they were but for the mark and the time of their sending. -/
def Marked (f : ErgReq → ErgReq) : Prop := ∀ r, ∃ b n, f r = { r with sent := b, sentAt := n }

theorem Marked.comp {f g : ErgReq → ErgReq} (hf : Marked f) (hg : Marked g) : Marked (g ∘ f) := fun r => by
  obtain ⟨b, n, hfr⟩ := hf r
  obtain ⟨b', n', hgr⟩ := hg (f r)
  exact ⟨b', n', hgr.trans (by rw [hfr])⟩

/-- Packets sent: nothing but the fabric and marks of requests differ. -/
def Pumped (s t : State) : Prop := FabricOnly s t ∧ ∃ f, Marked f ∧ t.ergReqs = s.ergReqs.map f

theorem Pumped.refl (s : State) : Pumped s s := ⟨.refl s, id, fun _ => ⟨_, _, rfl⟩, (List.map_id _).symm⟩

theorem Pumped.trans {s t u : State} (h : Pumped s t) (h' : Pumped t u) : Pumped s u := by
  obtain ⟨hfab, f, hf, hreqs⟩ := h
  obtain ⟨hfab', g, hg, hreqs'⟩ := h'
  exact ⟨hfab.trans hfab', g ∘ f, hf.comp hg, by rw [hreqs', hreqs, List.map_map]⟩

theorem lt_of_mem_mcastPorts {s : State} {g q : Nat} (h : q ∈ mcastPorts s g) : q < 12 := by
  unfold mcastPorts at h
  split at h
  · exact List.mem_range.1 (List.mem_of_mem_filter h)
  · cases h

/-- Copies join the queues of ports. -/
theorem fabricOnly_replicate (s : State) (die : Nat) (k : Packet) :
    FabricOnly s (replicate s die k) ∧ (replicate s die k).ergReqs = s.ergReqs := by
  refine List.foldlRecOn (motive := fun u => FabricOnly s u ∧ u.ergReqs = s.ergReqs) _ _ ⟨.refl s, rfl⟩ (fun u hu q hq => ?_)
  obtain ⟨hfab, hreqs⟩ := hu
  split
  · obtain ⟨hfab', hreqs'⟩ := fabricOnly_ergCount u (lt_of_mem_mcastPorts hq) 1
    exact ⟨hfab.trans hfab', hreqs'.trans hreqs⟩
  · obtain ⟨hfab', hreqs'⟩ := fabricOnly_enq u die q k
    exact ⟨hfab.trans hfab', hreqs'.trans hreqs⟩

/-- The mark that sending `r` at time `n` sets. -/
def markSent (r : ErgReq) (n : Nat) (y : ErgReq) : ErgReq := if y = r then { r with sent := true, sentAt := n } else y

theorem marked_markSent (r : ErgReq) (n : Nat) : Marked (markSent r n) := fun y => by
  unfold markSent
  split
  · next h => exact ⟨true, n, by rw [h]⟩
  · exact ⟨_, _, rfl⟩

section

variable {s : State} {g : Nat}

/-- One packet of a group that has no copy here. -/
theorem pumped_mcastSend1 (hs : regsWf s) (hlocal : mcastLocal s g = false) {r : ErgReq} (hr : r.pkt.dst = g) :
    Pumped s (mcastSend1 s r) := by
  have hmark : FabricOnly s { s with ergReqs := s.ergReqs.map (markSent r (now s)) } := .of_regs rfl rfl
  obtain ⟨hfab, hreqs⟩ := fabricOnly_replicate { s with ergReqs := s.ergReqs.map (markSent r (now s)) } (reqDie r) r.pkt
  have hsent := hmark.trans hfab
  have hlocal' := (mcastLocal_counted hsent.counted hs g).trans hlocal
  have hone : mcastSend1 s r = replicate { s with ergReqs := s.ergReqs.map (markSent r (now s)) } (reqDie r) r.pkt := by
    rw [← hr] at hlocal'
    exact if_neg (by rw [Bool.not_eq_true]; exact hlocal')
  rw [hone]
  exact ⟨hsent, _, marked_markSent r (now s), hreqs⟩

theorem pumped_mcastPump (fuel : Nat) (hs : regsWf s) (hlocal : mcastLocal s g = false) : Pumped s (mcastPump g fuel s) := by
  induction fuel generalizing s with
  | zero => exact .refl s
  | succ fuel ih =>
    unfold mcastPump
    split
    · exact .refl s
    · next r hfind =>
      have hmem : r ∈ mcastReqs s g := List.mem_of_find?_eq_some hfind
      have hgroup : r.pkt.dst = g := by
        have := (List.mem_filter.1 hmem).2
        simp only [Bool.and_eq_true, decide_eq_true_eq] at this
        exact this.2
      split
      · have hone := pumped_mcastSend1 hs hlocal hgroup
        exact hone.trans (ih (hone.1.counted.wf hs) ((mcastLocal_counted hone.1.counted hs g).trans hlocal))
      · exact .refl s

theorem pumped_mcastPumpAll (hs : regsWf s) (hlocal : mcastLocal s g = false) : Pumped s (mcastPumpAll s g) := by
  unfold mcastPumpAll
  split
  · exact pumped_mcastPump _ hs hlocal
  · exact .refl s

end

/-- A packet of a multicast write of context `x` of core `c` to the group `g`. -/
def McastReq (c x tc g : Nat) (nodes : List Nat) (fill : Option Nat) (r : ErgReq) : Prop :=
  r.origin = .pour ∧ r.core = c ∧ r.ctx = x ∧ r.wait = nodes ∧ r.fill = fill ∧ r.pkt.ty = 0x0C ∧ r.pkt.mc = true ∧
    r.pkt.dst = g ∧ r.pkt.tc = tc

theorem McastReq.marked {c x tc g : Nat} {nodes : List Nat} {fill : Option Nat} {r : ErgReq} (h : McastReq c x tc g nodes fill r)
    {f : ErgReq → ErgReq} (hf : Marked f) : McastReq c x tc g nodes fill (f r) := by
  obtain ⟨b, n, hfr⟩ := hf r
  rw [hfr]
  exact h

theorem carried_marked {f : ErgReq → ErgReq} (hf : Marked f) (rs : List ErgReq) : carried (rs.map f) = carried rs := by
  rw [carried, List.flatMap_map, carried]
  exact List.flatMap_congr (fun r _ => by
    obtain ⟨b, n, hfr⟩ := hf r
    rw [hfr])

/-- The packets of a multicast write wait or are sent; those of other requests that the window now admits are sent. -/
theorem mcastReqs_sendMcast {s : State} {c x g : Nat} {pr : Pour} {w : Word} (hs : regsWf s) (hlocal : mcastLocal s g = false)
    {nodes : List Nat} (hnodes : mcastMembers s g = some nodes) {addr : Nat} (haddr : 32 ∣ addr) {bs : List Byte}
    (hlen : 32 ∣ bs.length) (hbs : bs ≠ []) (fill : Option Nat) :
    let t := sendMcast c x pr w g addr fill bs s
    FabricOnly s t ∧ ∃ old rs, rs ≠ [] ∧ old.length = s.ergReqs.length ∧ t.ergReqs = old ++ rs ∧
      (∀ r ∈ rs, McastReq c x (wfld w 39 37) g nodes fill r) ∧ carried rs = bs := by
  have hpieces := flatMap_zipIdx_cutAt addr bs
  have hsends := sends_pieces (s := { s with erg := { s.erg with nextXfer := s.erg.nextXfer + 1 } })
    (R := McastReq c x (wfld w 39 37) g nodes fill)
    (l := (cutAt (bs.length + 1) addr bs).zipIdx) (piece := fun q => q.1.2)
    (step := fun u q =>
      let k := { reqPacket u 0x0C (wfld w 39 37) 0 pr.part q.1.1 c 0 (asPayload q.1.2) with
        mc := true, dst := g, token := wfld w 35 26, tokV := wbit w 36, first := q.2 = 0
        last := q.2 + 1 = (cutAt (bs.length + 1) addr bs).length }
      { u with ergReqs := u.ergReqs ++ [⟨k, .pour, pr.part, c, x, nodes, fill, none, now u, false, s.erg.nextXfer⟩] })
    (fun h => cutAt_ne_nil hbs (List.zipIdx_eq_nil_iff.1 h))
    (fun q hq => dvd_of_mem_cutAt haddr hlen (List.fst_mem_of_mem_zipIdx hq))
    (fun u _ q _ => ⟨.of_regs rfl rfl, _, rfl, ⟨rfl, rfl, rfl, rfl, rfl, rfl, rfl, rfl, rfl⟩, rfl⟩)
  rw [hpieces] at hsends
  obtain ⟨hfab, rs, hne, hreqs, hrs, hbytes⟩ := hsends
  have hadd : FabricOnly s { s with erg := { s.erg with nextXfer := s.erg.nextXfer + 1 } } := .of_regs rfl rfl
  have hjoined := hadd.trans hfab
  obtain ⟨hsent, f, hf, hmarks⟩ := pumped_mcastPumpAll (hjoined.counted.wf hs)
    ((mcastLocal_counted hjoined.counted hs g).trans hlocal)
  unfold sendMcast
  rw [hnodes]
  refine ⟨hjoined.trans hsent, s.ergReqs.map f, rs.map f, by simpa using hne, List.length_map _, ?_, fun r hr => ?_,
    (carried_marked hf rs).trans hbytes⟩
  · rw [← List.map_append]
    exact hmarks.trans (congrArg (List.map f) hreqs)
  · obtain ⟨r', hr', rfl⟩ := List.mem_map.1 hr
    exact (hrs r' hr').marked hf

end Sys2Proof.Machine
end

section
/-! PROOFS. The fabric instructions at issue (R299): the plan of a passed check, and the requests that it sends. -/

namespace Sys2Proof.Machine

open Sys2Proof Sys2Proof.Safety

/-! ### FRD and FATOM -/

theorem readPieces_head {fuel a o n : Nat} (hn : 0 < n) : ((readPieces (fuel + 1) a o n).map (·.1)).head? = some a := by
  rw [readPieces, if_neg (by omega)]
  rfl

/-- The first request's address is that of the first piece. -/
theorem head_addr_of_forall₂ {β : Type} {l : List β} {rs : List ErgReq} {f : β → Nat} {Q : ErgReq → Prop}
    (h : List.Forall₂ (fun b r => Q r ∧ r.pkt.addr = f b) l rs) : (rs.map (fun r => r.pkt.addr)).head? = (l.map f).head? := by
  cases h with
  | nil => rfl
  | cons hr _ => exact congrArg some hr.2

section

variable {s : State} {c x : Nat} {pr : Pour}

/-- The pieces of a read, from the address on. -/
theorem reqs_frdRun (hrun : (ctxOf s c x).st = .running) (hs : regsWf s) {e : QEnt}
    (ha : Away s (wfld (srcOf e 0) 63 48) (wfld e.word 42 40)) (t : Ctx)
    (hsize : 0 < packedSize (tdAt t (wfld e.word 53 48))) :
    FabricOnly s (frdRun c x t pr e s) ∧ ∃ rs, (frdRun c x t pr e s).ergReqs = s.ergReqs ++ rs ∧
      (rs.map (fun r => r.pkt.addr)).head? = some (wfld (srcOf e 0) 47 0) ∧
      ∀ r ∈ rs, PourReq s c x pr 0x08 (wfld e.word 42 40) (wfld (srcOf e 0) 63 48) r ∧
        r.fill = some (tdAt t (wfld e.word 53 48)).tok ∧ r.pkt.payload = [] := by
  obtain ⟨hfab, rs, hreqs, hrs⟩ := foldl_sends (s := s)
    (P := fun q r => (PourReq s c x pr 0x08 (wfld e.word 42 40) (wfld (srcOf e 0) 63 48) r ∧
      r.fill = some (tdAt t (wfld e.word 53 48)).tok ∧ r.pkt.payload = []) ∧ r.pkt.addr = q.1)
    (l := readPieces (packedSize (tdAt t (wfld e.word 53 48)) + 1) (wfld (srcOf e 0) 47 0) 0
      (packedSize (tdAt t (wfld e.word 53 48))))
    (step := fun u q =>
      let d := tdAt t (wfld e.word 53 48)
      let node := wfld (srcOf e 0) 63 48
      let k := reqPacket u 0x08 (wfld e.word 42 40) node pr.part q.1 c (BitVec.ofNat 64 ((q.2.2 + 31) / 32)) []
      pourSend c x u (isSelf u node)
        (pourReq u pr c x k [realNode u node] (some d.tok) (some (d.off, d.pitch, tdRowLen d, q.2.1))) handleReq1)
    (fun u hu q _ => by
      obtain ⟨hfab, r, hreqs, hr, hfill, hload, haddr, -⟩ := pourSend_step (pr := pr) (ty := 0x08) (addr := q.1)
        (w3 := BitVec.ofNat 64 ((q.2.2 + 31) / 32)) (load := []) hrun hs ha hu handleReq1
        (k := reqPacket u 0x08 (wfld e.word 42 40) (wfld (srcOf e 0) 63 48) pr.part q.1 c
          (BitVec.ofNat 64 ((q.2.2 + 31) / 32)) [])
        (some (tdAt t (wfld e.word 53 48)).tok)
        (some ((tdAt t (wfld e.word 53 48)).off, (tdAt t (wfld e.word 53 48)).pitch, tdRowLen (tdAt t (wfld e.word 53 48)), q.2.1))
        rfl
      exact ⟨hfab, r, hreqs, ⟨hr, hfill, hload⟩, haddr⟩)
  exact ⟨hfab, rs, hreqs, (head_addr_of_forall₂ hrs).trans (readPieces_head hsize), forall_of_forall₂ hrs⟩

/-- Bits 63 to 61 of the header word of an atomic. -/
theorem wfld_atomic (v : Nat) (hv : v < 8) (b : Bool) : wfld (BitVec.ofNat 64 (v <<< 61 + b2n b <<< 60)) 63 61 = v := by
  have hb : b2n b < 2 := by cases b <;> decide
  rw [wfld_ofNat _ (by decide), Nat.shiftLeft_eq, Nat.shiftLeft_eq]
  omega

end

/-! ### Checks -/

theorem packedSize_pos {d : TD} (h : Fits d 1 1) : 0 < packedSize d := by
  have hone : 0 < rowBytes d.fmt 1 := by
    unfold rowBytes
    split_ifs <;> omega
  exact Nat.mul_pos h.rows (Nat.lt_of_lt_of_le hone (rowBytes_mono d.fmt h.cols))

section

variable {s : State} {c x : Nat} {w : Word} {k : Ctx} {pr : Pour} {p : Plan}

theorem planFwr_go (h : AtWord s c x w k pr) (hop : wOp w = 0x3C)
    (hgo : planFwr (placed s c x k w) c x (entryOf k w) = .go p) :
    let d := tdAt k (wfld w 51 46)
    let ga := gRead k (wfld w 44 40)
    32 ∣ packedSize d ∧ 0 < packedSize d ∧ ∀ u, Ready u c → p.run u =
      if wfld w 53 52 = 0 then
        sendWrites c x pr w (wfld ga 63 48) (wfld ga 47 0) (fwrFill k w) (packedRows (coreOf u c) d) u
      else if wfld w 53 52 = 1 then
        sendMcast c x pr w (wfld ga 63 48) (wfld ga 47 0) (fwrFill k w) (packedRows (coreOf u c) d) u
      else sendLeaf c x pr (wfld w 39 37) (wfld ga 63 48) (wfld ga 47 0) (gRead k (wfld w 18 14)).toNat (fwrFill k w)
        (packedRows (coreOf u c) d) u := by
  have hsrc := srcOf_entryOf (k := k) (w := w) (l := [wfld w 44 40, wfld w 18 14]) (by simp [tensorSrcs, hop])
  have hsrc0 : srcOf (entryOf k w) 0 = gRead k (wfld w 44 40) := hsrc 0
  have hsrc1 : srcOf (entryOf k w) 1 = gRead k (wfld w 18 14) := hsrc 1
  rw [planFwr, withPour_atWord h] at hgo
  obtain ⟨hchecks, hp⟩ := checked_go.1 hgo
  obtain ⟨htile, hchecks⟩ := firstBad_cons.1 hchecks
  obtain ⟨-, hchecks⟩ := firstBad_cons.1 hchecks
  obtain ⟨hsize, -⟩ := firstBad_cons.1 hchecks
  obtain ⟨-, hfits⟩ := tdCheck_none htile
  cases hp
  refine ⟨Nat.dvd_of_mod_eq_zero (not_not.1 (of_check_none hsize)), packedSize_pos hfits,
    fun u hu => (guardRows_ready _ hu (by decide) _ _ _ _).trans ?_⟩
  rw [hsrc0, hsrc1]
  rfl

theorem planFrd_go (h : AtWord s c x w k pr) (hgo : planFrd (placed s c x k w) c x (entryOf k w) = .go p) :
    0 < packedSize (tdAt k (wfld w 53 48)) ∧ ∀ u, p.run u = frdRun c x k pr (entryOf k w) u := by
  rw [planFrd, withPour_atWord h] at hgo
  obtain ⟨hchecks, hp⟩ := checked_go.1 hgo
  obtain ⟨htile, -⟩ := firstBad_cons.1 hchecks
  obtain ⟨-, hfits⟩ := tdCheck_none htile
  cases hp
  exact ⟨packedSize_pos hfits, fun _ => rfl⟩

/-- The request that FATOM sends from `u`. -/
def atomicReq (u : State) (c x : Nat) (k : Ctx) (pr : Pour) (w : Word) : ErgReq :=
  let ga := gRead k (wfld w 36 32)
  let dd := tdAt k (wfld w 42 37)
  let q := reqPacket u 0x0A (wfld w 31 29) (wfld ga 63 48) pr.part (wfld ga 47 0) c
    (BitVec.ofNat 64 (wfld w 53 51 <<< 61 + b2n (wbit w 50) <<< 60))
    (asPayload ((packedRows (coreOf u c) (tdAt k (wfld w 49 44))).take 32))
  pourReq u pr c x q [realNode u (wfld ga 63 48)] (some dd.tok)
    (if wbit w 50 then some (dd.off, dd.pitch, tdRowLen dd, 0) else none)

theorem planFatom_go (h : AtWord s c x w k pr) (hop : wOp w = 0x3E)
    (hgo : planFatom (placed s c x k w) c x (entryOf k w) = .go p) :
    32 ≤ packedSize (tdAt k (wfld w 49 44)) ∧ ∀ u, Ready u c → p.run u =
      pourSend c x u (isSelf u (wfld (gRead k (wfld w 36 32)) 63 48)) (atomicReq u c x k pr w) handleReq1 := by
  have hsrc0 : srcOf (entryOf k w) 0 = gRead k (wfld w 36 32) := srcOf_entryOf (l := [wfld w 36 32]) (by simp [tensorSrcs, hop]) 0
  rw [planFatom, withPour_atWord h] at hgo
  obtain ⟨hchecks, hp⟩ := checked_go.1 hgo
  obtain ⟨-, hchecks⟩ := firstBad_cons.1 hchecks
  obtain ⟨-, hchecks⟩ := firstBad_cons.1 hchecks
  obtain ⟨hsize, -⟩ := firstBad_cons.1 hchecks
  have hsize := of_check_none hsize
  simp only [Bool.or_eq_true, decide_eq_true_eq, not_or, Nat.not_lt] at hsize
  cases hp
  refine ⟨hsize.1, fun u hu => (guardRows_ready _ hu (by decide) _ _ _ _).trans ?_⟩
  rw [hsrc0]
  rfl

end

end Sys2Proof.Machine

namespace Sys2Proof.Safety

open Sys2Proof Sys2Proof.Machine

section

variable {i : Instr} {s t : State} {c x : Nat} {w : Word} {k : Ctx} {pr : Pour} {p : Plan}

/-- Nothing but the word's core, ports, requests, meters and counters differs, and no byte and no accumulator. -/
def FabricOut (s t : State) (c : Nat) : Prop :=
  t = { s with cores := t.cores, regs := t.regs, trc := t.trc, erg := t.erg, ergReqs := t.ergReqs, parts := t.parts } ∧
    OnlyCounters s t ∧ SpmOutside s t c 0 0 ∧ SameAccs s t c

theorem frame_of_fabricOnly {u : State} {a : KMap Core} {b : SMap Word} {q : Trc}
    (hu : u = { s with cores := a, regs := b, trc := q }) (h : FabricOnly u t) :
    t = { s with cores := t.cores, regs := t.regs, trc := t.trc, erg := t.erg, ergReqs := t.ergReqs, parts := t.parts } := by
  subst hu
  have hcores := h.cores
  exact h.frame.trans (by rw [hcores])

theorem fabricOut_of_taken (h : Issuable s c x w k pr p) (hop : arrayOp (wOp w) = false)
    (hfab : FabricOnly (taken s c x k w p) t) : FabricOut s t c := by
  obtain ⟨-, hregs⟩ := h.canon
  have hissue : AtIssue s (taken s c x k w p) c := atIssue_taken h
  have hat : AtCore s t c ∅ ∅ ∅ := hissue.within.toAtCore.then (.of_cores hfab.cores)
  refine ⟨frame_of_fabricOnly taken_frame hfab, ((counted_taken h.at_.core h.at_.ctx hop).trans hfab.counted).onlyCounters hregs,
    ⟨fun o _ => hat.bytes o (Set.notMem_empty o), fun d hd => ?_⟩, hat.sameAccs⟩
  rw [coreOf_congr hfab.cores, coreOf_taken_ne hd]

/-- A word whose effect is on the fabric alone. -/
theorem issued_fabric (h : Issuable s c x w k pr p) (hi : instrWord i = some (c, x, w, true)) (hq : queued w = true)
    (hop : arrayOp (wOp w) = false) {P : State → Prop} (hfab : FabricOnly (taken s c x k w p) (p.run (taken s c x k w p)))
    (hP : P (p.run (taken s c x k w p))) : Issued i s c x w k p (fun t => FabricOut s t c ∧ P t) :=
  issued_of_taken h hi hq (by rw [coreOf_congr hfab.cores]) ⟨fabricOut_of_taken h hop hfab, hP⟩

theorem running_taken (h : Issuable s c x w k pr p) : (ctxOf (taken s c x k w p) c x).st = .running := by
  have hst : (ctxOf s c x).st = .running := running_of_ready h.at_.ready
  rw [h.at_.regs] at hst
  rw [ctxOf_taken_same h.queue]
  exact hst

/-- The members of a group are read as before the word. -/
theorem mcastMembers_taken (hcounted : Counted s (taken s c x k w p)) (hs : regsWf s) {g : Nat} :
    mcastMembers (taken s c x k w p) g = mcastMembers s g := by
  have hnode : nodeAt (taken s c x k w p) = nodeAt s := funext (fun a => by
    simp only [nodeAt, memBadIn_taken, memBytes, memByte_taken])
  unfold mcastMembers
  split
  · rfl
  · next hg =>
    have hlist : rd (taken s c x k w p) (rMCAST_LIST g) = rd s (rMCAST_LIST g) :=
      rd_fabric hcounted hs (by unfold rMCAST_LIST; omega) (by unfold rMCAST_LIST; omega)
    simp only [rget, hlist, hnode]

theorem ergReqs_taken : (taken s c x k w p).ergReqs = s.ergReqs := by rw [taken_frame]

/-- What `Sends` says of the word's own state it says of the state before the word. -/
theorem sends_of_taken (h : Issuable s c x w k pr p) (hop : arrayOp (wOp w) = false) {ty tc node : Nat} {fill : Option Nat}
    {bs : List Byte}
    (hsends : Sends (taken s c x k w p) t (fun r => PourReq (taken s c x k w p) c x pr ty tc node r ∧ r.fill = fill) bs) :
    ∃ rs, rs ≠ [] ∧ t.ergReqs = s.ergReqs ++ rs ∧ (∀ r ∈ rs, PourReq s c x pr ty tc node r ∧ r.fill = fill) ∧ carried rs = bs := by
  obtain ⟨-, hregs⟩ := h.canon
  obtain ⟨-, rs, hne, hreqs, hrs, hbytes⟩ := hsends
  rw [ergReqs_taken] at hreqs
  have hnode := nodeId_counted (counted_taken (k := k) (w := w) (p := p) h.at_.core h.at_.ctx hop) hregs
  simp only [PourReq, hnode] at hrs
  exact ⟨rs, hne, hreqs, hrs, hbytes⟩

end

end Sys2Proof.Safety
end

section
/-! PROOFS. The instructions that start the engines and the fabric's (R181, R189, R267, R294, R297, R299). -/

namespace Sys2Proof.Safety

open Sys2Proof Sys2Proof.Machine

section

variable {s t : State} {c x : Nat} {w : Word} {k : Ctx} {pr : Pour} {p : Plan}

/-! ### FWR -/

/-- A node away from this device is so for the word. -/
theorem away_taken (h : Issuable s c x w k pr p) (hop : arrayOp (wOp w) = false) {node tc : Nat} (ha : Away s node tc) :
    Away (taken s c x k w p) node tc := by
  obtain ⟨-, hregs⟩ := h.canon
  exact ha.counted (counted_taken h.at_.core h.at_.ctx hop) hregs

/-- The packed rows that FWR sends are whole flits, and there are some. -/
theorem flits_packedRows {d : TD} (hdvd : 32 ∣ packedSize d) (hpos : 0 < packedSize d) (l : Core) :
    32 ∣ (packedRows l d).length ∧ packedRows l d ≠ [] := by
  rw [← List.length_pos_iff, length_packedRows]
  exact ⟨hdvd, hpos⟩

/-- FWR to another node, as WR or RED_WR. -/
theorem issued_fwr (h : Issuable s c x w k pr p) (hop : wOp w = 0x3C) (haddr : 32 ∣ wfld (gRead k (wfld w 44 40)) 47 0)
    (ha : Away s (wfld (gRead k (wfld w 44 40)) 63 48) (wfld w 39 37)) {i : Instr} {ty : Nat}
    (hrow : i = .fwrWr c x w ∧ wfld w 53 52 = 0 ∧ ty = 0x09 ∨ i = .fwrRedWr c x w ∧ wfld w 53 52 = 2 ∧ ty = 0x0D) :
    Issued i s c x w k p (fun t => FabricOut s t c ∧ ∃ rs, rs ≠ [] ∧ t.ergReqs = s.ergReqs ++ rs ∧
      (∀ r ∈ rs, PourReq s c x pr ty (wfld w 39 37) (wfld (gRead k (wfld w 44 40)) 63 48) r ∧ r.fill = fwrFill k w) ∧
      carried rs = packedRows (coreOf s c) (tdAt k (wfld w 51 46))) := by
  have harr : arrayOp (wOp w) = false := by simp [arrayOp, hop]
  have hready : Ready (taken s c x k w p) c := (atIssue_taken h).ready
  obtain ⟨hdvd, hpos, hrun⟩ := planFwr_go h.at_ hop (by simpa [planOf, entryOf, hop] using h.plan)
  obtain ⟨hlen, hbs⟩ := flits_packedRows hdvd hpos (coreOf s c)
  have hrun := hrun _ hready
  rw [packedRows_of_spm spmByte_taken] at hrun
  have haway := away_taken h harr ha
  have hsends : Sends (taken s c x k w p) (p.run (taken s c x k w p)) (fun r => PourReq (taken s c x k w p) c x pr ty
      (wfld w 39 37) (wfld (gRead k (wfld w 44 40)) 63 48) r ∧ r.fill = fwrFill k w)
      (packedRows (coreOf s c) (tdAt k (wfld w 51 46))) := by
    rcases hrow with ⟨-, hfn, rfl⟩ | ⟨-, hfn, rfl⟩
    · rw [hrun, if_pos hfn]
      exact sends_sendWrites (running_taken h) hready.regs haway haddr hlen hbs _
    · rw [hrun, if_neg (by omega), if_neg (by omega)]
      exact sends_sendLeaf (running_taken h) hready.regs haway _ _ hlen hbs _
  refine issued_fabric h ?_ (by simp [queued, hop]) harr hsends.1 (sends_of_taken h harr hsends)
  rcases hrow with ⟨rfl, hfn, -⟩ | ⟨rfl, hfn, -⟩ <;> simp [instrWord, hop, hfn]

/-- FWR to a group, as MCAST_WR. -/
theorem issued_fwrMcastWr (h : Issuable s c x w k pr p) (hop : wOp w = 0x3C) (hfn : wfld w 53 52 = 1)
    (haddr : 32 ∣ wfld (gRead k (wfld w 44 40)) 47 0) (hlocal : mcastLocal s (wfld (gRead k (wfld w 44 40)) 63 48) = false)
    {nodes : List Nat} (hnodes : mcastMembers s (wfld (gRead k (wfld w 44 40)) 63 48) = some nodes) :
    Issued (.fwrMcastWr c x w) s c x w k p (fun t => FabricOut s t c ∧ ∃ old rs, rs ≠ [] ∧ old.length = s.ergReqs.length ∧
      t.ergReqs = old ++ rs ∧
      (∀ r ∈ rs, McastReq c x (wfld w 39 37) (wfld (gRead k (wfld w 44 40)) 63 48) nodes (fwrFill k w) r) ∧
      carried rs = packedRows (coreOf s c) (tdAt k (wfld w 51 46))) := by
  have harr : arrayOp (wOp w) = false := by simp [arrayOp, hop]
  obtain ⟨-, hregs⟩ := h.canon
  have hready : Ready (taken s c x k w p) c := (atIssue_taken h).ready
  have hcounted : Counted s (taken s c x k w p) := counted_taken h.at_.core h.at_.ctx harr
  obtain ⟨hdvd, hpos, hrun⟩ := planFwr_go h.at_ hop (by simpa [planOf, entryOf, hop] using h.plan)
  obtain ⟨hlen, hbs⟩ := flits_packedRows hdvd hpos (coreOf s c)
  have hrun := hrun _ hready
  rw [packedRows_of_spm spmByte_taken, if_neg (by omega), if_pos hfn] at hrun
  obtain ⟨hfab, old, rs, hne, hold, hreqs, hrs, hbytes⟩ := mcastReqs_sendMcast (c := c) (x := x) (pr := pr) hready.regs
    ((mcastLocal_counted hcounted hregs _).trans hlocal) ((mcastMembers_taken hcounted hregs).trans hnodes) haddr hlen hbs
    (fwrFill k w)
  rw [ergReqs_taken] at hold
  refine issued_fabric h (by simp [instrWord, hop, hfn]) (by simp [queued, hop]) harr ?_ ?_ <;> rw [hrun]
  · exact hfab
  · exact ⟨old, rs, hne, hold, hreqs, hrs, hbytes⟩

/-! ### FRD and FATOM -/

theorem issued_frd (h : Issuable s c x w k pr p) (hop : wOp w = 0x3D)
    (ha : Away s (wfld (gRead k (wfld w 47 43)) 63 48) (wfld w 42 40)) :
    Issued (.frd c x w) s c x w k p (fun t => FabricOut s t c ∧ ∃ rs, t.ergReqs = s.ergReqs ++ rs ∧
      (rs.map (fun r => r.pkt.addr)).head? = some (wfld (gRead k (wfld w 47 43)) 47 0) ∧
      ∀ r ∈ rs, PourReq s c x pr 0x08 (wfld w 42 40) (wfld (gRead k (wfld w 47 43)) 63 48) r ∧
        r.fill = some (tdAt k (wfld w 53 48)).tok ∧ r.pkt.payload = []) := by
  have harr : arrayOp (wOp w) = false := by simp [arrayOp, hop]
  obtain ⟨-, hregs⟩ := h.canon
  have hready : Ready (taken s c x k w p) c := (atIssue_taken h).ready
  have hsrc0 : srcOf (entryOf k w) 0 = gRead k (wfld w 47 43) := srcOf_entryOf (l := [wfld w 47 43]) (by simp [tensorSrcs, hop]) 0
  obtain ⟨hpos, hrun⟩ := planFrd_go h.at_ (by simpa [planOf, entryOf, hop] using h.plan)
  have hsent := reqs_frdRun (e := entryOf k w) (pr := pr) (running_taken h) hready.regs
    (by rw [hsrc0]; exact away_taken h harr ha) k hpos
  rw [hsrc0, ergReqs_taken] at hsent
  obtain ⟨hfab, rs, hreqs, hhead, hrs⟩ := hsent
  simp only [PourReq, nodeId_counted (counted_taken (k := k) (w := w) (p := p) h.at_.core h.at_.ctx harr) hregs] at hrs
  refine issued_fabric h (by simp [instrWord, hop]) (by simp [queued, hop]) harr ?_ ?_ <;> rw [hrun]
  · exact hfab
  · exact ⟨rs, hreqs, hhead, hrs⟩

theorem issued_fatom (h : Issuable s c x w k pr p) (hop : wOp w = 0x3E)
    (ha : Away s (wfld (gRead k (wfld w 36 32)) 63 48) (wfld w 31 29)) :
    Issued (.fatom c x w) s c x w k p (fun t => FabricOut s t c ∧ ∃ r, t.ergReqs = s.ergReqs ++ [r] ∧
      PourReq s c x pr 0x0A (wfld w 31 29) (wfld (gRead k (wfld w 36 32)) 63 48) r ∧
      r.pkt.addr = wfld (gRead k (wfld w 36 32)) 47 0 ∧ wfld r.pkt.w3 63 61 = wfld w 53 51 ∧
      r.fill = some (tdAt k (wfld w 42 37)).tok ∧
      payloadBytes r.pkt.payload = (packedRows (coreOf s c) (tdAt k (wfld w 49 44))).take 32) := by
  have harr : arrayOp (wOp w) = false := by simp [arrayOp, hop]
  obtain ⟨-, hregs⟩ := h.canon
  have hready : Ready (taken s c x k w p) c := (atIssue_taken h).ready
  obtain ⟨hsize, hrun⟩ := planFatom_go h.at_ hop (by simpa [planOf, entryOf, hop] using h.plan)
  have hrun := hrun _ hready
  have hsent := pourSend_step (pr := pr) (ty := 0x0A) (addr := wfld (gRead k (wfld w 36 32)) 47 0)
    (w3 := BitVec.ofNat 64 (wfld w 53 51 <<< 61 + b2n (wbit w 50) <<< 60))
    (load := asPayload ((packedRows (coreOf (taken s c x k w p) c) (tdAt k (wfld w 49 44))).take 32)) (running_taken h) hready.regs (away_taken h harr ha) (.refl _) handleReq1
    (some (tdAt k (wfld w 42 37)).tok) (atomicReq (taken s c x k w p) c x k pr w).spmAt
    (k := (atomicReq (taken s c x k w p) c x k pr w).pkt) rfl
  obtain ⟨hfab, r, hreqs, hr, hfill, hload, haddr, hw3⟩ := hsent
  rw [ergReqs_taken] at hreqs
  simp only [PourReq, nodeId_counted (counted_taken (k := k) (w := w) (p := p) h.at_.core h.at_.ctx harr) hregs] at hr
  refine issued_fabric h (by simp [instrWord, hop]) (by simp [queued, hop]) harr ?_ ?_ <;> rw [hrun]
  · exact hfab
  · refine ⟨r, hreqs, hr, haddr, ?_, hfill, ?_⟩
    · rw [hw3]
      exact wfld_atomic _ (wfld_lt w 53 51) _
    · rw [hload, packedRows_of_spm spmByte_taken, payloadBytes_asPayload]
      rw [List.length_take, length_packedRows, Nat.min_eq_left hsize]

/-! ### The sweeps, as the statement has them -/

theorem sweepLeft_parts {r : UpdRun} {D : Set Nat} (h : SweepLeft s t c x k r D) {Q : UpdRun → Prop} (hQ : ∀ q, SweepOf r q → Q q) :
    SameAccs s t c ∧ (∀ y, y ≠ x → ctxOf t c y = ctxOf s c y) ∧
    (∃ q, ctxOf t c x = { fetchedCtx k with pc := k.pc + 8, updRun := some q } ∧ q.inKernel = false ∧ q.busy = true ∧ Q q) ∧
    ((sweepOps r.prog r.opAt).any (fun v => uOp v = 0x1D) = false → SpmOutside s t c 0 0) ∧
    ((sweepOps r.prog r.opAt).any (fun v => uOp v = 0x1A) = false →
      (sweepOps r.prog r.opAt).any (fun v => uOp v = 0x1B) = false → SameMem s t) := by
  obtain ⟨q, hctx, hq⟩ := h.run
  exact ⟨h.accs, h.ctxs, ⟨q, hctx, hq.inKernel, hq.busy, hQ q hq⟩, h.spmKept, h.mem⟩

end

/-- Settles O59: each start is a plan's effect from the state in which its word has left the queue. -/
theorem enginesStart : Obligations.EnginesStart := by
  unfold Obligations.EnginesStart
  intro s c x w k pr p h
  refine ⟨fun hop => ?stream, fun hop => ?streamStop, fun hop => ?gather, fun hop => ?gatherStop,
    ⟨fun hop n hn hclean hok => ?update, fun hop r hr hclean hok => ?uresume⟩,
    fun hop haddr => ⟨fun ⟨hnamed, hvalid, hother, hroute⟩ => ?fwr, fun hfn hlocal nodes hnodes => ?mcast⟩,
    fun hop ⟨hnamed, hvalid, hother, hroute⟩ => ?frd, fun hop ⟨hnamed, hvalid, hother, hroute⟩ => ?fatom⟩
  case stream =>
    refine issued_mono (issued_stream h hop) (fun t ht => ?_)
    obtain ⟨⟨hframe, hcounted, hothers, hcore⟩, hstreams, hgaths, ops, bases, hstream, hops, hlen, hbases⟩ := ht
    refine ⟨⟨hframe, hcounted, hothers, hcore⟩, hstreams, hgaths, ?_⟩
    rw [hstream]
    exact ⟨rfl, hops, hlen, hbases⟩
  case streamStop =>
    refine issued_mono (issued_streamStop h hop) (fun t ht => ?_)
    obtain ⟨⟨hframe, hcounted, hothers, hcore⟩, hengines⟩ := ht
    exact ⟨⟨hframe, hcounted, hothers, hcore⟩, hengines⟩
  case gather =>
    refine issued_mono (issued_gather h hop) (fun t ht => ?_)
    obtain ⟨⟨hframe, hcounted, hothers, hcore⟩, hengines⟩ := ht
    exact ⟨⟨hframe, hcounted, hothers, hcore⟩, hengines⟩
  case gatherStop =>
    refine issued_mono (issued_gatherStop h hop) (fun t ht => ?_)
    obtain ⟨⟨hframe, hcounted, hothers, hcore⟩, hengines⟩ := ht
    exact ⟨⟨hframe, hcounted, hothers, hcore⟩, hengines⟩
  case update =>
    refine issued_mono (issued_update h hop hn hclean hok) (fun t ht => ?_)
    obtain ⟨r, hr, hleft⟩ := ht
    have hparts := sweepLeft_parts hleft (fun q hq => (⟨hq.blk.trans hr.blk, hq.prog.trans hr.prog, hq.opAt.trans hr.opAt,
      hq.sweep.trans hr.sweep, hq.retPc.trans hr.retPc, hleft.spmOutside⟩ : _ ∧ _ ∧ _ ∧ _ ∧ _ ∧ _))
    rw [hr.prog, hr.opAt] at hparts
    exact hparts
  case uresume =>
    refine issued_mono (issued_uresume h hop hr hclean hok) (fun t ht => ?_)
    exact sweepLeft_parts ht (fun q hq => ⟨hq.blk, hq.prog, hq.opAt, hq.sweep, hq.retPc⟩)
  case fwr =>
    have hdvd := Nat.dvd_of_mod_eq_zero haddr
    exact ⟨fun hfn => issued_fwr h hop hdvd ⟨hnamed, hvalid, hother, hroute⟩ (.inl ⟨rfl, hfn, rfl⟩),
      fun hfn => issued_fwr h hop hdvd ⟨hnamed, hvalid, hother, hroute⟩ (.inr ⟨rfl, hfn, rfl⟩)⟩
  case mcast =>
    refine issued_mono (issued_fwrMcastWr h hop hfn (Nat.dvd_of_mod_eq_zero haddr) hlocal hnodes) (fun t ht => ?_)
    obtain ⟨hout, old, rs, hne, hold, hreqs, hrs, hbytes⟩ := ht
    refine ⟨hout, rs, hne, ?_, ?_, hrs, hbytes⟩
    · rw [hreqs, List.length_append, hold]
    · rw [hreqs, ← hold, List.drop_left]
  case frd => exact issued_frd h hop ⟨hnamed, hvalid, hother, hroute⟩
  case fatom => exact issued_fatom h hop ⟨hnamed, hvalid, hother, hroute⟩

end Sys2Proof.Safety
end

section
/-! PROOFS. Calendars, refresh and temperature of a tier controller (R206, R208, R209): what each command changes of the
controller's registers, of the controller and of its channels. -/

namespace Sys2Proof.Machine

/-! ### Fields of a register just written -/

section

variable {s : State} {o : Nat} {f : Fld}

theorem rget_rput_same (v : Nat) (hs : regsWf s) (h1 : f.lo ≤ f.hi) (h2 : f.hi < 64) :
    rget (rput s o f v) o f = v % 2 ^ (f.hi + 1 - f.lo) := by
  rw [rget, rd_rput_same s o f v hs, wfld_wput_same _ _ _ _ h1 h2]

/-- A field that lies below the field replaced. -/
theorem rget_rput_below {g : Fld} (v : Nat) (hs : regsWf s) (h1 : g.lo ≤ g.hi) (h2 : g.hi < 64) (h : f.hi < g.lo) :
    rget (rput s o g v) o f = rget s o f := by
  rw [rget, rget, rd_rput_same s o g v hs, wfld_wput_below _ _ _ _ _ _ h1 h2 h]

/-- A field that lies above the field replaced. -/
theorem rget_rput_above {g : Fld} (v : Nat) (hs : regsWf s) (h1 : g.lo ≤ g.hi) (h2 : g.hi < 64) (h : g.hi < f.lo) :
    rget (rput s o g v) o f = rget s o f := by
  rw [rget, rget, rd_rput_same s o g v hs, wfld_wput_above _ _ _ _ _ _ h1 h2 h]

/-- A field in which a word has no 1 holds only 1s in the word's complement. -/
theorem wfld_not_of_zero {w : Word} {hi lo : Nat} (h : wfld w hi lo = 0) (h1 : lo ≤ hi) (h2 : hi < 64) :
    wfld (~~~w) hi lo = 2 ^ (hi + 1 - lo) - 1 := by
  rw [wfld_eq_extract] at h ⊢
  have hzero : w.extractLsb' lo (hi + 1 - lo) = 0#(hi + 1 - lo) := BitVec.eq_of_toNat_eq (by simpa using h)
  have hnot : (~~~w).extractLsb' lo (hi + 1 - lo) = ~~~(w.extractLsb' lo (hi + 1 - lo)) := by
    ext i hi'
    simp [show lo + i < 64 by omega]
  rw [hnot, hzero, BitVec.not_zero, BitVec.toNat_allOnes]

/-- A write keeps a field none of whose bits takes the value written or is cleared by a 1 (R6). -/
theorem rget_regSet_kept (v : Word) (hs : regsWf s) (h1 : f.lo ≤ f.hi) (h2 : f.hi < 64)
    (hset : wfld (BitVec.ofNat 64 (regMask (fun a => a = .rw || a = .rws) o)) f.hi f.lo = 0)
    (hclr : wfld (BitVec.ofNat 64 (regMask (fun a => a = .w1c) o)) f.hi f.lo = 0) :
    rget (regSet s o v) o f = rget s o f := by
  have hnone : wfld (v &&& BitVec.ofNat 64 (regMask (fun a => a = .w1c) o)) f.hi f.lo = 0 := by
    rw [wfld_and, hclr, Nat.and_zero]
  have hall : ∀ w : Word, wfld w f.hi f.lo &&& (2 ^ (f.hi + 1 - f.lo) - 1) = wfld w f.hi f.lo := fun w =>
    (Nat.and_two_pow_sub_one_eq_mod _ _).trans (Nat.mod_eq_of_lt (wfld_lt w _ _))
  rw [rget, regSet, rd_rwr_same _ _ _ hs]
  simp only [wfld_and, wfld_or, hset, wfld_not_of_zero hset h1 h2, wfld_not_of_zero hnone h1 h2, Nat.and_zero,
    Nat.or_zero, hall, rget]

end

/-! ### The registers of a calendar -/

/-- NEXT alone of TIER_CAL_CTRL takes the value written, and BAD is cleared by a 1 (R212). -/
theorem regMask_rTIER_CAL_CTRL : ∀ n, n < 32 → regMask (fun a => a = .rw || a = .rws) (rTIER_CAL_CTRL n) = 2 ∧
    regMask (fun a => a = .w1c) (rTIER_CAL_CTRL n) = 0x80 := by
  decide +kernel

/-- A write of TIER_CAL_CTRL leaves the calendar in force (R206). -/
theorem calActive_regSet {s : State} {n : Nat} (hn : n < 32) (v : Word) (hs : regsWf s) :
    calActive (regSet s (rTIER_CAL_CTRL n) v) n = calActive s n := by
  obtain ⟨hset, hclr⟩ := regMask_rTIER_CAL_CTRL n hn
  exact rget_regSet_kept v hs (by decide) (by decide) (by rw [hset]; decide) (by rw [hclr]; decide)

theorem rTIER_CAL_ne_rTIER_CAL_CTRL (n st i : Nat) : rTIER_CAL n st i ≠ rTIER_CAL_CTRL n := by
  unfold rTIER_CAL rTIER_CAL_CTRL
  omega

theorem rTIER_CAL_LEN_ne_rTIER_CAL_CTRL (n st : Nat) : rTIER_CAL_LEN n st ≠ rTIER_CAL_CTRL n := by
  unfold rTIER_CAL_LEN rTIER_CAL_CTRL
  omega

/-- The check of R206 reads nothing of TIER_CAL_CTRL. -/
theorem tierCalOk_regSet {s : State} (n st : Nat) (v : Word) (hs : regsWf s) :
    tierCalOk (regSet s (rTIER_CAL_CTRL n) v) n st = tierCalOk s n st := by
  have hentry : tierEntry (regSet s (rTIER_CAL_CTRL n) v) n st = tierEntry s n st := by
    funext i
    rw [tierEntry, tierEntry, rd_regSet_other v hs (rTIER_CAL_ne_rTIER_CAL_CTRL n st _)]
  have hframe : tierF (regSet s (rTIER_CAL_CTRL n) v) n st = tierF s n st := by
    rw [tierF, tierF, rget, rget, rd_regSet_other v hs (rTIER_CAL_LEN_ne_rTIER_CAL_CTRL n st)]
  rw [tierCalOk, tierCalOk, hentry, hframe]

/-! ### Arming a calendar -/

/-- The store that an ARM with NEXT names: the one that is not in force, store A where none is (R206). -/
def armTarget (s : State) (n : Nat) : Nat := if calActive s n = 1 then 2 else 1

/-- The state in which calendar `m` is armed. -/
def tierCalArmed (s : State) (n m : Nat) : State :=
  rput (modTctl s n (fun t => { t with armed := some m })) (rTIER_CAL_CTRL n) fTIER_CAL_CTRL_PENDING 1

/-- An ARM without NEXT arms the default calendar (R206). -/
theorem tierCalWrite_default (s : State) (n : Nat) {w : Word} (harm : wbit w 0 = true) (hnext : wbit w 1 = false) :
    tierCalWrite s n w = tierCalArmed (regSet s (rTIER_CAL_CTRL n) w) n 0 := by
  simp [tierCalWrite, harm, hnext, tierCalArmed]

/-- An ARM with NEXT arms the store that is not in force, or sets BAD where the store fails its check (R206). -/
theorem tierCalWrite_store {s : State} {n : Nat} {w : Word} (hn : n < 32) (harm : wbit w 0 = true) (hnext : wbit w 1 = true)
    (hs : regsWf s) : tierCalWrite s n w =
      if tierCalOk s n (armTarget s n - 1) then tierCalArmed (regSet s (rTIER_CAL_CTRL n) w) n (armTarget s n)
      else rset (regSet s (rTIER_CAL_CTRL n) w) (rTIER_CAL_CTRL n) fTIER_CAL_CTRL_BAD := by
  have htarget : (if calActive s n = 1 then 2 else 1) = armTarget s n := rfl
  have hne : armTarget s n ≠ 0 := by unfold armTarget; split <;> decide
  simp only [tierCalWrite, harm, hnext, calActive_regSet hn _ hs, tierCalOk_regSet _ _ _ hs, Bool.not_true, Bool.false_eq_true,
    if_false, htarget, tierCalArmed]
  cases tierCalOk s n (armTarget s n - 1) <;> simp [hne]

/-- What stands once a calendar is armed. -/
theorem tierCalArmed_spec {s : State} (n m : Nat) (hs : regsWf s) : (tctlOf (tierCalArmed s n m) n).armed = some m ∧
    rflag (tierCalArmed s n m) (rTIER_CAL_CTRL n) fTIER_CAL_CTRL_PENDING = true ∧
    (∀ o, o ≠ rTIER_CAL_CTRL n → rd (tierCalArmed s n m) o = rd s o) := by
  refine ⟨?_, rflag_rset_same _ _ _ hs rfl (by decide), fun o ho => rd_rput_other _ _ o _ 1 hs ho⟩
  exact congrArg TCtl.armed (tctlOf_modTctl_same s n (fun t => { t with armed := some m }))

/-! ### A calendar that comes into force -/

/-- A controller whose armed calendar has come into force: none is armed, and slots count from 0. -/
def tierCalTaken (t : TCtl) : TCtl := { t with armed := none, chans := t.chans.map (fun (c, k) => (c, { k with slot := 0 })) }

theorem chanOf_tierCalTaken (t : TCtl) (c : Nat) : chanOf (tierCalTaken t) c = { chanOf t c with slot := 0 } :=
  kGet_map TChan.reset (fun k => { k with slot := 0 }) rfl t.chans c

/-- TIER_CAL_CTRL and its controller as calendar `m` comes into force. -/
def tierCalInForce (s : State) (n m : Nat) : State :=
  rput (rput (modTctl s n tierCalTaken) (rTIER_CAL_CTRL n) fTIER_CAL_CTRL_PENDING 0) (rTIER_CAL_CTRL n) fTIER_CAL_CTRL_ACTIVE m

theorem tierCalActivate_idle {s : State} {n : Nat} (h : (tctlOf s n).armed = none) : tierCalActivate s n = s := by
  simp [tierCalActivate, h]

/-- An armed calendar comes into force, which is traced (R206, R470). -/
theorem tierCalActivate_armed {s : State} {n m : Nat} (h : (tctlOf s n).armed = some m) :
    tierCalActivate s n = traceRec (tierCalInForce s n m) 7 (ctlDie n) 0xFF 0 false (BitVec.ofNat 64 (tierBase n)) (BitVec.ofNat 64 m) := by
  simp only [tierCalActivate, h]
  rfl

theorem tierCalInForce_fields {s : State} (n : Nat) {m : Nat} (hm : m < 3) (hs : regsWf s) :
    calActive (tierCalInForce s n m) n = m ∧ rget (tierCalInForce s n m) (rTIER_CAL_CTRL n) fTIER_CAL_CTRL_PENDING = 0 := by
  have hcleared : regsWf (rput (modTctl s n tierCalTaken) (rTIER_CAL_CTRL n) fTIER_CAL_CTRL_PENDING 0) := regsWf_rput _ _ _ _ hs
  rw [calActive, tierCalInForce]
  constructor
  · rw [rget_rput_same m hcleared (by decide) (by decide)]
    exact Nat.mod_eq_of_lt (show m < 4 by omega)
  · rw [rget_rput_above m hcleared (by decide) (by decide) (by decide),
      rget_rput_same (s := modTctl s n tierCalTaken) 0 hs (by decide) (by decide)]
    rfl

/-- What stands once the armed calendar is in force. -/
theorem tierCalActivate_spec {s : State} {n m : Nat} (hn : n < 32) (hm : m < 3) (h : (tctlOf s n).armed = some m) (hs : regsWf s) :
    calActive (tierCalActivate s n) n = m ∧ tctlOf (tierCalActivate s n) n = tierCalTaken (tctlOf s n) ∧
    rflag (tierCalActivate s n) (rTIER_CAL_CTRL n) fTIER_CAL_CTRL_PENDING = false ∧
    ∀ a, memByte (tierCalActivate s n) a = memByte s a := by
  rw [tierCalActivate_armed h]
  have hlog := logged_traceRec (tierCalInForce s n m) 7 (ctlDie n) 0xFF 0 false (BitVec.ofNat 64 (tierBase n)) (BitVec.ofNat 64 m)
  have hwf : regsWf (tierCalInForce s n m) := regsWf_rput _ _ _ _ (regsWf_rput _ _ _ _ hs)
  have hreg := hlog.same hwf (rTIER_CAL_CTRL n) (logReg_tierBase hn (by omega))
  obtain ⟨hactive, hpending⟩ := tierCalInForce_fields n hm hs
  refine ⟨?_, ?_, ?_, fun a => ?_⟩
  · rw [calActive, rget, hreg]
    exact hactive
  · rw [tctlOf_congr hlog.tier]
    exact tctlOf_modTctl_same s n tierCalTaken
  · rw [rflag_congr hreg, rflag, hpending]
    rfl
  · rw [memByte_congr (s := tierCalInForce s n m) (by rw [traceRec_frame]) (by rw [traceRec_frame])]
    rfl

/-! ### Refresh -/

/-- A channel whose refresh debt has risen by one, to 8 at most (R208). -/
def indebted (k : TChan) : TChan := { k with debt := min 8 (k.debt + 1) }

/-- The debt at which a channel refreshes at once (R208). -/
def debtThreshold (s : State) (n : Nat) : Int := if calActive s n = 0 then 1 else 8

/-- A channel that does not doze gains debt, and below the threshold nothing else happens (R208). -/
theorem debtTick_gains {s : State} {n c : Nat} (hdoze : dozeOf s (chanUnit n c) = DozeUnit.reset)
    (h : ¬ debtThreshold s n ≤ (indebted (chanOf (tctlOf s n) c)).debt) :
    debtTick s n c = modTctl s n (fun t => setChan t c (indebted (chanOf (tctlOf s n) c))) := by
  simp only [debtThreshold, indebted] at h
  simp [debtTick, hdoze, DozeUnit.reset, h, indebted]

/-- The state in which a channel has gained debt and refreshed its next bank for it. -/
def refreshedAtOnce (s : State) (n c : Nat) : State :=
  modTctl s n (fun t => setChan t c (refreshBank n (indebted (chanOf (tctlOf s n) c))))

theorem chanOf_refreshedAtOnce (s : State) (n c : Nat) :
    chanOf (tctlOf (refreshedAtOnce s n c) n) c = refreshBank n (indebted (chanOf (tctlOf s n) c)) := by
  rw [refreshedAtOnce, tctlOf_modTctl_same, chanOf_setChan_same]

/-- At the threshold the next bank of the rotation is refreshed, which is counted while a calendar is in force (R208). -/
theorem debtTick_refreshes {s : State} {n c : Nat} (hdoze : dozeOf s (chanUnit n c) = DozeUnit.reset)
    (h : debtThreshold s n ≤ (indebted (chanOf (tctlOf s n) c)).debt) :
    debtTick s n c = if calActive s n = 0 then refreshedAtOnce s n c else chanCount (refreshedAtOnce s n c) n c 4 := by
  simp only [debtThreshold, indebted] at h
  simp [debtTick, hdoze, DozeUnit.reset, h, indebted, refreshedAtOnce]

theorem memByte_chanCount (s : State) (n c k a : Nat) : memByte (chanCount s n c k) a = memByte s a :=
  memByte_congr (by rw [chanCount_frame]) (by rw [chanCount_frame]) a

/-- What a refresh at the threshold leaves: the channel with its bank refreshed, and memory as it was. -/
theorem debtTick_refreshes_spec {s : State} {n c : Nat} (hdoze : dozeOf s (chanUnit n c) = DozeUnit.reset)
    (h : debtThreshold s n ≤ (indebted (chanOf (tctlOf s n) c)).debt) :
    chanOf (tctlOf (debtTick s n c) n) c = refreshBank n (indebted (chanOf (tctlOf s n) c)) ∧
    ∀ a, memByte (debtTick s n c) a = memByte s a := by
  rw [debtTick_refreshes hdoze h]
  split
  · exact ⟨chanOf_refreshedAtOnce s n c, fun a => rfl⟩
  · exact ⟨by rw [tctlOf_chanCount, chanOf_refreshedAtOnce], fun a => memByte_chanCount _ n c 4 a⟩

/-- The bank that a refresh takes is busy after it. -/
theorem refreshBank_busy (n : Nat) (k : TChan) : ∃ w, (k.nextBank, w) ∈ (refreshBank n k).busy :=
  ⟨_, List.mem_append_right _ (List.mem_singleton.2 rfl)⟩

/-! ### Temperature -/

/-- The rate after a reading is one of the three of R209. -/
theorem rateAfter_lt (old t : Nat) : rateAfter old t < 4 := by
  unfold rateAfter
  split_ifs <;> omega

/-- The thresholds of 85 and 95 degrees with the hysteresis of 82 and 92 (R209). -/
theorem rateAfter_cases (old t : Nat) :
    (95 ≤ t → rateAfter old t = 2) ∧ (t < 82 → rateAfter old t = 0) ∧ (85 ≤ t → t ≤ 92 → rateAfter old t = 1) ∧
    (92 < t → t < 95 → rateAfter old t = if old = 2 then 2 else 1) ∧
    (82 < t → t < 85 → rateAfter old t = if 1 ≤ old then 1 else 0) := by
  unfold rateAfter
  refine ⟨?_, ?_, ?_, ?_, ?_⟩ <;> intros <;> split_ifs <;> omega

/-- TEMP and RATE after a reading. -/
theorem stackTemp_fields {s : State} (n : Nat) {t : Nat} (ht : t < 256) (hs : regsWf s) :
    rget (stackTemp s n t) (rTIER_TEMP n) fTIER_TEMP_TEMP = t ∧
    rget (stackTemp s n t) (rTIER_TEMP n) fTIER_TEMP_RATE = rateAfter (rget s (rTIER_TEMP n) fTIER_TEMP_RATE) t := by
  have hstored : regsWf (rput s (rTIER_TEMP n) fTIER_TEMP_TEMP t) := regsWf_rput s _ _ _ hs
  have hrate := rateAfter_lt (rget s (rTIER_TEMP n) fTIER_TEMP_RATE) t
  rw [stackTemp, Nat.mod_eq_of_lt ht]
  constructor
  · rw [rget_rput_below _ hstored (by decide) (by decide) (by decide), rget_rput_same t hs (by decide) (by decide)]
    exact Nat.mod_eq_of_lt ht
  · rw [rget_rput_same _ hstored (by decide) (by decide)]
    exact Nat.mod_eq_of_lt hrate

theorem rTIER_TEMP_ne_rTIER_ERR (n : Nat) : rTIER_TEMP n ≠ rTIER_ERR n := by
  unfold rTIER_TEMP rTIER_ERR
  omega

/-- RATE and TEMP_LOST of a stack whose temperature cannot be read (R209). -/
theorem stackTempLost_fields {s : State} (n : Nat) (hs : regsWf s) :
    rget (stackTempLost s n) (rTIER_TEMP n) fTIER_TEMP_RATE = 2 ∧
    rflag (stackTempLost s n) (rTIER_ERR n) fTIER_ERR_TEMP_LOST = true := by
  have hrated : regsWf (rput s (rTIER_TEMP n) fTIER_TEMP_RATE 2) := regsWf_rput s _ _ _ hs
  refine ⟨?_, rflag_rset_same _ _ _ hrated rfl (by decide)⟩
  rw [stackTempLost, rget, rd_rset_other _ _ _ _ hrated (rTIER_TEMP_ne_rTIER_ERR n)]
  exact rget_rput_same 2 hs (by decide) (by decide)

end Sys2Proof.Machine

namespace Sys2Proof.Safety

open Sys2Proof Sys2Proof.Machine

/-- NEXT of the word that TIER_CAL_ARM writes. -/
theorem wbit_next_arm (v : Word) : wbit (v ||| 1) 1 = wbit v 1 := by
  rw [wbit, wbit, wfld_or_one v (by omega)]

/-! ### Commands that write registers alone -/

/-- A write of a register among those listed. -/
theorem onlyRegs_rwr (s : State) {o : Nat} {offs : List Nat} (v : Word) (ho : o ∈ offs) (hs : regsWf s) : OnlyRegs s (rwr s o v) offs :=
  ⟨rfl, fun j hj => rd_rwr_other s o j v hs (fun e => hj (e ▸ ho))⟩

theorem OnlyRegs.trans {s t u : State} {offs : List Nat} (h : OnlyRegs s t offs) (h' : OnlyRegs t u offs) : OnlyRegs s u offs :=
  ⟨h'.1.trans (by rw [h.1]), fun o ho => (h'.2 o ho).trans (h.2 o ho)⟩

/-- An ARM refused writes TIER_CAL_CTRL alone (R206). -/
theorem onlyRegs_armRefused {s : State} (n : Nat) (v : Word) (hs : regsWf s) :
    OnlyRegs s (rset (regSet s (rTIER_CAL_CTRL n) v) (rTIER_CAL_CTRL n) fTIER_CAL_CTRL_BAD) [rTIER_CAL_CTRL n] :=
  (onlyRegs_rwr s _ List.mem_cons_self hs).trans (onlyRegs_rwr _ _ List.mem_cons_self (regsWf_regSet _ v hs))

theorem onlyRegs_stackTemp {s : State} (n t : Nat) (hs : regsWf s) : OnlyRegs s (stackTemp s n t) [rTIER_TEMP n] :=
  (onlyRegs_rwr s _ List.mem_cons_self hs).trans (onlyRegs_rwr _ _ List.mem_cons_self (regsWf_rput s _ _ _ hs))

theorem onlyRegs_stackTempLost {s : State} (n : Nat) (hs : regsWf s) :
    OnlyRegs s (stackTempLost s n) [rTIER_TEMP n, rTIER_ERR n] :=
  (onlyRegs_rwr s _ List.mem_cons_self hs).trans
    (onlyRegs_rwr _ _ (List.mem_cons_of_mem _ List.mem_cons_self) (regsWf_rput s _ _ _ hs))

/-- Settles O26: each command by the lemmas that say what it does to the calendar, the refresh debt and the rate. -/
theorem tierCalendarRefreshTemperature : Obligations.TierCalendarRefreshTemperature := by
  unfold Obligations.TierCalendarRefreshTemperature
  intro s n c hn hc hcanon
  obtain ⟨-, hregs⟩ := hcanon
  have hunit : decide (n < 32) = true := decide_eq_true hn
  refine ⟨fun v hv => ?armDefault, fun v hv => ⟨fun hok => ?armStore, fun hbad => ?armRefused⟩, fun hnone => ?nothingArmed,
    fun m hm harmed => ?activate, fun hdoze => ⟨fun hcal hlow => ?gains, fun hdue => ?refreshes⟩, fun deg hdeg => ?reading, ?lost⟩
  case armDefault =>
    refine runs_of_onUnit (t := tierCalWrite s n (v ||| 1)) rfl hunit ?_
    rw [tierCalWrite_default s n (wbit_or_one v) ((wbit_next_arm v).trans hv)]
    obtain ⟨harmed, hpending, hothers⟩ := tierCalArmed_spec n 0 (regsWf_regSet (rTIER_CAL_CTRL n) (v ||| 1) hregs)
    exact ⟨harmed, hpending, fun o ho => (hothers o ho).trans (rd_regSet_other _ hregs ho), rfl⟩
  case armStore =>
    refine runs_of_onUnit (t := tierCalWrite s n (v ||| 1)) rfl hunit ?_
    rw [(tierCalWrite_store hn (wbit_or_one v) ((wbit_next_arm v).trans hv) hregs).trans (if_pos hok)]
    obtain ⟨harmed, hpending, -⟩ := tierCalArmed_spec n (armTarget s n) (regsWf_regSet (rTIER_CAL_CTRL n) (v ||| 1) hregs)
    exact ⟨harmed, hpending, fun a => rfl⟩
  case armRefused =>
    refine runs_of_onUnit (t := tierCalWrite s n (v ||| 1)) rfl hunit ?_
    rw [(tierCalWrite_store hn (wbit_or_one v) ((wbit_next_arm v).trans hv) hregs).trans (if_neg (Bool.eq_false_iff.1 hbad))]
    exact ⟨onlyRegs_armRefused n _ hregs, rflag_rset_same _ _ _ (regsWf_regSet _ _ hregs) rfl (by decide)⟩
  case nothingArmed => exact runs_of_onUnit (t := tierCalActivate s n) rfl hunit (tierCalActivate_idle hnone)
  case activate =>
    refine runs_of_onUnit (t := tierCalActivate s n) rfl hunit ?_
    obtain ⟨hactive, htctl, hpending, hbytes⟩ := tierCalActivate_spec hn hm harmed hregs
    rw [htctl]
    exact ⟨hactive, rfl, fun ch => congrArg TChan.slot (chanOf_tierCalTaken _ ch), hpending, hbytes⟩
  case gains =>
    refine runs_of_onUnit (t := debtTick s n c) rfl (by simp [tierOk, hn, hc]) ?_
    have hdebt : min 8 ((chanOf (tctlOf s n) c).debt + 1) = (chanOf (tctlOf s n) c).debt + 1 := min_eq_right (le_of_lt hlow)
    rw [debtTick_gains hdoze (by rw [debtThreshold, if_neg hcal, indebted, hdebt]; exact not_le.2 hlow), tctlOf_modTctl_same,
      chanOf_setChan_same, indebted, hdebt]
    exact ⟨rfl, rfl⟩
  case refreshes =>
    refine runs_of_onUnit (t := debtTick s n c) rfl (by simp [tierOk, hn, hc]) ?_
    obtain ⟨hchan, hbytes⟩ := debtTick_refreshes_spec hdoze hdue
    rw [hchan]
    exact ⟨rfl, rfl, refreshBank_busy n _, hbytes⟩
  case reading =>
    refine runs_of_onUnit (t := stackTemp s n deg) rfl hunit ?_
    obtain ⟨htemp, hrate⟩ := stackTemp_fields n hdeg hregs
    rw [htemp, hrate]
    exact ⟨onlyRegs_stackTemp n deg hregs, rfl, rateAfter_cases _ deg⟩
  case lost =>
    exact runs_of_onUnit (t := stackTempLost s n) rfl hunit ⟨onlyRegs_stackTempLost n hregs, stackTempLost_fields n hregs⟩

end Sys2Proof.Safety
end

section
/-! PROOFS. What counting at an Erg port leaves of the registers, whether or not their map is in canonical form (R465,
R469). -/

namespace Sys2Proof.Safety

open Sys2Proof Sys2Proof.Machine

/-! ### Writes of a value other than the reset value -/

/-- In any map, writing a value other than the default leaves what the other keys read as. -/
theorem smGet_smSet_other_of_ne {α : Type} [DecidableEq α] {dflt d v : α} (hv : v ≠ dflt) {k j : Nat} (hj : j ≠ k) (m : SMap α) :
    smGet d (smSet dflt m k v) j = smGet d m j := by
  induction m with
  | nil => simp [smSet, hv, smGet, hj]
  | cons hd t ih =>
    obtain ⟨a, x⟩ := hd
    by_cases hka : k = a
    · subst hka
      simp [smSet, hv, smGet, hj]
    · by_cases hlt : k < a
      · by_cases hjk : j < k
        · simp [smSet, hv, hka, hlt, smGet, hj, hjk, show j ≠ a by omega, show j < a by omega]
        · simp [smSet, hv, hka, hlt, smGet, hj, hjk]
      · simp [smSet, hka, hlt, smGet, ih]

/-- A field that is not 0 makes a word that is not 0. -/
theorem wput_ne_zero {w : Word} {hi lo v : Nat} (h1 : lo ≤ hi) (h2 : hi < 64) (hv : v % 2 ^ (hi + 1 - lo) ≠ 0) :
    wput w hi lo v ≠ 0 := fun h => by
  have hfld := wfld_wput_same w hi lo v h1 h2
  rw [h] at hfld
  exact hv (hfld.symm.trans (by simp [wfld, bitsOf]))

theorem OnlyCounters.trans {s t u : State} (h : OnlyCounters s t) (h' : OnlyCounters t u) : OnlyCounters s u :=
  fun o h0 h1 h2 => (h' o h0 h1 h2).trans (h o h0 h1 h2)

theorem OnlyCounters.of_regs {s t : State} (h : t.regs = s.regs) : OnlyCounters s t := fun o _ _ _ => by rw [rd, h, rd]

/-- A register that counting writes, whose reset value is 0. -/
def plainCounter (o : Nat) : Prop := countedReg o ∧ regReset o = 0

theorem plainCounter_rCNT_SAT : plainCounter rCNT_SAT := ⟨.inr (.inl rfl), by decide +kernel⟩
theorem plainCounter_rTRC_STATUS : plainCounter rTRC_STATUS := ⟨.inr (.inr rfl), by decide +kernel⟩
theorem plainCounter_traceDrops : plainCounter (rCNT_DEV 0x4710) := ⟨.inl (by decide), by decide +kernel⟩

/-- The counters of packets that an Erg port drops (R469). -/
def dropCounters : List Nat := [29, 30, 31, 32, 34, 35]

theorem plainCounter_ergCount {p k : Nat} (hp : p < 12) (hk : k ∈ dropCounters) : plainCounter (rCNT_DEV (0x4000 + 64 * p + k)) := by
  have hreset : ∀ p, p < 12 → ∀ k ∈ dropCounters, k < 36 ∧ regReset (rCNT_DEV (0x4000 + 64 * p + k)) = 0 := by decide +kernel
  obtain ⟨hlt, hzero⟩ := hreset p hp k hk
  exact ⟨.inl (isCounterOff_rCNT_DEV (by omega)), hzero⟩

theorem onlyCounters_rwr (s : State) {o : Nat} (ho : plainCounter o) {v : Word} (hv : v ≠ 0) : OnlyCounters s (rwr s o v) := by
  intro j h0 h1 h2
  refine smGet_smSet_other_of_ne (by rw [ho.2]; exact hv) (fun e => ?_) s.regs
  subst e
  rcases ho.1 with h | h | h <;> simp_all

theorem onlyCounters_rput (s : State) {o : Nat} (ho : plainCounter o) {f : Fld} {v : Nat} (h1 : f.lo ≤ f.hi) (h2 : f.hi < 64)
    (hv : v % 2 ^ (f.hi + 1 - f.lo) ≠ 0) : OnlyCounters s (rput s o f v) :=
  onlyCounters_rwr s ho (wput_ne_zero h1 h2 hv)

/-! ### Counting -/

theorem onlyCounters_countRaw (s : State) {off : Nat} (h : plainCounter off) : OnlyCounters s (countRaw s off 1) := by
  have hcount : min (rget s off fCNT_CORE_COUNT + 1) 0xFFFFFFFFFFFF % 2 ^ 48 ≠ 0 := by omega
  unfold countRaw
  dsimp only
  split
  · exact (onlyCounters_rput s h (by decide) (by decide) hcount).trans (onlyCounters_rput _ h (by decide) (by decide) (by decide))
  · exact onlyCounters_rput s h (by decide) (by decide) hcount

theorem onlyCounters_traceRec (s : State) (kind die core part : Nat) (pv : Bool) (w2 w3 : Word) :
    OnlyCounters s (traceRec s kind die core part pv w2 w3) := by
  unfold traceRec
  dsimp only
  split
  · exact .of_regs rfl
  · split
    · have lost : OnlyCounters s { s with trc := { s.trc with lostMark := true } } := .of_regs rfl
      exact (lost.trans (onlyCounters_rput _ plainCounter_rTRC_STATUS (by decide) (by decide) (by decide))).trans
        (onlyCounters_countRaw _ plainCounter_traceDrops)
    · exact .of_regs rfl

theorem onlyCounters_countUp (s : State) {off : Nat} (h : plainCounter off) (hid : BitVec.ofNat 64 (counterId off) ≠ 0) :
    OnlyCounters s (countUp s off 1) := by
  unfold countUp
  dsimp only
  split
  · refine .trans (t := countRaw (if anyOvf s then s else rwr s rCNT_SAT (BitVec.ofNat 64 (counterId off))) off 1)
      ?_ (onlyCounters_traceRec _ _ _ _ _ _ _ _)
    split
    · exact onlyCounters_countRaw s h
    · exact (onlyCounters_rwr s plainCounter_rCNT_SAT hid).trans (onlyCounters_countRaw _ h)
  · exact onlyCounters_countRaw s h

theorem counterId_rCNT_DEV_ne_zero {j : Nat} (h : j < 0xE0000) : BitVec.ofNat 64 (counterId (rCNT_DEV j)) ≠ 0 := by
  have hid : counterId (rCNT_DEV j) = 0x100000 + j := by
    unfold counterId rCNT_DEV
    rw [if_neg (by omega)]
    omega
  rw [hid, Ne, ← BitVec.toNat_inj]
  simp
  omega

/-- Nothing differs but counters and the trace. -/
def Counts (s t : State) : Prop := t = { s with regs := t.regs, trc := t.trc } ∧ OnlyCounters s t

/-- A packet dropped at an Erg port is counted, and nothing else. -/
theorem counts_ergCount (s : State) {p k : Nat} (hp : p < 12) (hk : k ∈ dropCounters) : Counts s (ergCount s p k 1) := by
  have hlt : ∀ k ∈ dropCounters, k < 36 := by decide
  have hk' := hlt k hk
  exact ⟨countDev_frame s _ 1, onlyCounters_countUp s (plainCounter_ergCount hp hk) (counterId_rCNT_DEV_ne_zero (by omega))⟩

end Sys2Proof.Safety
end

section
/-! PROOFS. What a port does with a packet that arrives (R213, R214, R219, R223, R225, R232, R248). -/

namespace Sys2Proof.Safety

open Sys2Proof Sys2Proof.Machine

/-! ### Copies -/

theorem regs_enq (s : State) (die q : Nat) (k : Packet) : (enq s die q k).regs = s.regs := by
  unfold enq
  dsimp only
  split
  · rw [joinPort, pathsTake_frame]
    rfl
  · rfl

theorem onlyCounters_replicate (s : State) (die : Nat) (k : Packet) : OnlyCounters s (replicate s die k) :=
  List.foldlRecOn (motive := OnlyCounters s) _ _ (.of_regs rfl) (fun u hu q hq => by
    split
    · exact hu.trans (counts_ergCount u (lt_of_mem_mcastPorts hq) (by decide)).2
    · exact hu.trans (.of_regs (regs_enq u die q k)))

/-- No counter tells whether a group has a copy for this device (R248). -/
theorem mcastLocal_of_onlyCounters {s t : State} (h : OnlyCounters s t) (g : Nat) : mcastLocal t g = mcastLocal s g := by
  unfold mcastLocal
  by_cases hg : g < 0x1000
  · have hcnt : isCounterOff (rMCAST_PORTS g) = false := by
      simp only [isCounterOff, Bool.or_eq_false_iff, Bool.and_eq_false_iff, decide_eq_false_iff_not]
      unfold rMCAST_PORTS
      omega
    rw [rflag_congr (h _ hcnt (by unfold rMCAST_PORTS rCNT_SAT; omega) (by unfold rMCAST_PORTS rTRC_STATUS; omega))]
  · simp [hg]

/-! ### Arrival -/

section

variable {s : State} {p : Nat} {q : Packet} (here : State → State)

theorem arrive_notUp (hup : portState s p ≠ 2) : arrive here s p q = s := if_pos hup

section

variable (hup : portState s p = 2)

include hup

/-- Before FAB_NODE.VALID a packet is dropped and counted (R213). -/
theorem arrive_noNode (hvalid : fabValid s = false) : arrive here s p q = ergCount (takeRx s p q) p 35 1 := by
  have hvalid' : fabValid (takeRx s p q) = false := hvalid
  simp [arrive, hup, hvalid']

/-- A packet to the reserved node is dropped and counted (R213). -/
theorem arrive_reserved (hvalid : fabValid s = true) (hdst : q.dst = 0xFFFF) :
    arrive here s p q = ergCount (takeRx s p q) p 29 1 := by
  have hvalid' : fabValid (takeRx s p q) = true := hvalid
  simp [arrive, hup, hvalid', hdst]

end

/-- A packet of a known type that its UP port does not drop for want of a node or for its destination. -/
structure Accepted (s : State) (p : Nat) (q : Packet) : Prop where
  up : portState s p = 2
  valid : fabValid s = true
  known : knownType q.ty = true
  dst : q.dst ≠ 0xFFFF

section

variable (h : Accepted s p q)

include h

theorem arrive_aged (haged : aged s q = true) : arrive here s p q = ergCount (takeRx s p q) p 30 1 := by
  have hvalid' : fabValid (takeRx s p q) = true := h.valid
  have haged' : aged (takeRx s p q) q = true := haged
  simp [arrive, h.up, hvalid', h.known, h.dst, haged']

variable (haged : aged s q = false)

include haged

/-- A multicast packet goes to the ports of its group, and to this device where LOCAL is set (R248). -/
theorem arrive_mcast (hmc : q.mc = true) (hdst : q.dst < 0x1000) :
    arrive here s p q = if mcastLocal s q.dst then here (replicate (takeRx s p q) (4 + p / 6) q)
      else replicate (takeRx s p q) (4 + p / 6) q := by
  have hvalid' : fabValid (takeRx s p q) = true := h.valid
  have haged' : aged (takeRx s p q) q = false := haged
  have hlocal : mcastLocal (replicate (takeRx s p q) (4 + p / 6) q) q.dst = mcastLocal s q.dst :=
    mcastLocal_of_onlyCounters (s := s) (onlyCounters_replicate (takeRx s p q) (4 + p / 6) q) q.dst
  simp [arrive, h.up, hvalid', h.known, h.dst, haged', hmc, hdst, hlocal]

theorem arrive_here (hmc : q.mc = false) (hdst : q.dst = nodeId s) : arrive here s p q = here (takeRx s p q) := by
  have hvalid' : fabValid (takeRx s p q) = true := h.valid
  have haged' : aged (takeRx s p q) q = false := haged
  have hdst' : q.dst = nodeId (takeRx s p q) := hdst
  have hnode := h.dst
  simp only [arrive, h.up, hvalid', h.known, haged', hmc]
  rw [hdst'] at hnode ⊢
  simp [hnode]

theorem arrive_transit (hmc : q.mc = false) (hdst : q.dst ≠ nodeId s) : arrive here s p q = transit (takeRx s p q) p q := by
  have hvalid' : fabValid (takeRx s p q) = true := h.valid
  have haged' : aged (takeRx s p q) q = false := haged
  have hdst' : q.dst ≠ nodeId (takeRx s p q) := hdst
  simp [arrive, h.up, hvalid', h.known, h.dst, haged', hmc, hdst']

end

/-- A unicast packet in transit that has a route joins its port's queue (R225). -/
theorem transit_route {o : Nat} (hmc : q.mc = false) (hroute : routeOf s q.dst q.tc = some o) :
    transit s p q = enq s (4 + p / 6) o q := by simp [transit, hmc, hroute]

/-- One without is answered UNREACHABLE where it is a request, and else counted (R226). -/
theorem transit_noRoute (hmc : q.mc = false) (hroute : routeOf s q.dst q.tc = none) :
    transit s p q = if isRequest q.ty then sendFree s (p / 6) (answerOf s q 6 [] 0) else ergCount s p 31 1 := by
  simp [transit, hmc, hroute]

/-- A response that answers no request of this device is counted (R232). -/
theorem respHere_unknown (hreq : reqFor s q = none) : respHere p q s = ergCount s p 32 1 := by simp [respHere, hreq]

/-- A request is answered once it has been performed. -/
theorem serve_spec (s : State) (p : Nat) (q : Packet) (v : State) :
    (∀ a, handleAny s (.port p) q = (v, some a) → serve s p q = sendFree v (p / 6) a) ∧
    (handleAny s (.port p) q = (v, none) → serve s p q = v) := by
  constructor
  · intro a ha
    simp [serve, ha]
  · intro hn
    simp [serve, hn]

end

/-! ### The rows of packets -/

/-- What the device does with a packet for it: a request is performed, a response completes a request. -/
def hereOf (req : Bool) (p : Nat) (q : Packet) : State → State := if req then fun u => serve u p q else respHere p q

section

variable {i : Instr} {s : State} {p ty : Nat} {k : Packet} {req : Bool}

/-- Each row is the arrival of a packet of its type. -/
theorem exec_arrival (h : arrival i = some (p, k, ty, req)) (s : State) : ∃ name, Machine.exec i s =
    onUnit (portKnown p) name (.next (arrive (hereOf req p { k with ty := ty }) s p { k with ty := ty })) := by
  unfold arrival at h
  split at h <;> cases h <;> exact ⟨_, rfl⟩

/-- The type of a row is one that is forwarded. -/
theorem ty_of_arrival (h : arrival i = some (p, k, ty, req)) : knownType ty = true ∧ ty ≠ 0x00 ∧ ty ≠ 0x01 ∧ ty ≠ 0x12 := by
  unfold arrival at h
  split at h <;> cases h <;> decide

theorem runs_arrival (h : arrival i = some (p, k, ty, req)) (hp : p < 12) {P : State → Prop}
    (hP : P (arrive (hereOf req p { k with ty := ty }) s p { k with ty := ty })) : Runs i s P := by
  obtain ⟨name, hexec⟩ := exec_arrival h s
  exact runs_of_onUnit hexec (decide_eq_true hp) hP

theorem runs_packetForward {q : Packet} (hp : p < 12) (hown : ownCommand s q = false) {P : State → Prop}
    (hP : P (arrive (fun u => u) s p q)) : Runs (.packetForward p q) s P :=
  runs_of_onUnit (t := if ownCommand s q then s else arrive (fun u => u) s p q) rfl (decide_eq_true hp)
    (by rwa [if_neg (by rw [hown]; decide)])

/-- A packet whose type is forwarded has its own command only where it is for this device. -/
theorem ownCommand_of_arrival (h : arrival i = some (p, k, ty, req))
    (haway : (if k.mc then mcastLocal s k.dst else decide (k.dst = nodeId s)) = false) :
    ownCommand s { k with ty := ty } = false := by
  obtain ⟨-, h0, h1, h12⟩ := ty_of_arrival h
  simp [ownCommand, h0, h1, h12, haway]

end

/-- Settles O30: each case of the statement is one case of an arrival. -/
theorem packetsArrive : Obligations.PacketsArrive := by
  unfold Obligations.PacketsArrive
  intro i s p k ty req harr hp q s0 counts served
  have run : ∀ {P : State → Prop}, P (arrive (hereOf req p q) s p q) → Runs i s P := runs_arrival harr hp
  have forward : ∀ {P : State → Prop}, ownCommand s q = false → P (arrive (fun u => u) s p q) → Runs (.packetForward p q) s P :=
    fun hown hP => runs_packetForward hp hown hP
  have drops : ∀ {t n}, n ∈ dropCounters → t = ergCount s0 p n 1 → counts t := fun hn ht => ht ▸ counts_ergCount s0 hp hn
  have accepted : portState s p = 2 → fabValid s = true → k.dst ≠ 0xFFFF → Accepted s p q :=
    fun hup hvalid hdst => ⟨hup, hvalid, (ty_of_arrival harr).1, hdst⟩
  refine ⟨fun hup => ⟨run (arrive_notUp _ hup), ?notUp⟩, fun hup hvalid => ⟨run ?noNode, ?noNodeForward⟩,
    fun hup hvalid hdst => run (drops (by decide) (arrive_reserved _ hup hvalid hdst)),
    fun hup hvalid hdst => ⟨fun haged => run (drops (by decide) (arrive_aged _ (accepted hup hvalid hdst) haged)),
      fun haged hmc haway => ⟨fun o hroute => ?route, fun hroute => ?noRoute⟩, fun haged hmc hself hreq => run ?request,
      fun haged hmc hself hreq hnone => run ?response, fun haged hmc hgroup => ⟨fun hlocal => ?copies, fun hlocal hreq => run ?copyHere⟩⟩⟩
  case notUp =>
    refine runs_of_onUnit (t := if ownCommand s q then s else arrive (fun u => u) s p q) rfl (decide_eq_true hp) ?_
    rw [arrive_notUp _ hup, ite_self]
  case noNode => exact drops (by decide) (arrive_noNode _ hup hvalid)
  case noNodeForward =>
    exact forward (by simp [ownCommand, hvalid]) (drops (by decide) (arrive_noNode _ hup hvalid))
  case route =>
    have harrive : ∀ here, arrive here s p q = enq s0 (4 + p / 6) o q := fun here =>
      (arrive_transit here (accepted hup hvalid hdst) haged hmc haway).trans (transit_route hmc hroute)
    exact ⟨run (harrive _), forward (ownCommand_of_arrival harr (by simp [hmc, haway])) (harrive _)⟩
  case noRoute =>
    have harrive : ∀ here, arrive here s p q =
        if isRequest ty then sendFree s0 (p / 6) (answerOf s0 q 6 [] 0) else ergCount s0 p 31 1 := fun here =>
      (arrive_transit here (accepted hup hvalid hdst) haged hmc haway).trans (transit_noRoute hmc hroute)
    have back : ∀ here, if isRequest ty = true then arrive here s p q = sendFree s0 (p / 6) (answerOf s0 q 6 [] 0)
        else counts (arrive here s p q) := fun here => by
      rw [harrive here]
      split
      · rfl
      · exact drops (by decide) rfl
    exact ⟨run (back _), forward (ownCommand_of_arrival harr (by simp [hmc, haway])) (back _)⟩
  case request =>
    rw [arrive_here _ (accepted hup hvalid hdst) haged hmc hself, hereOf, if_pos hreq]
    exact serve_spec s0 p q
  case response =>
    rw [arrive_here _ (accepted hup hvalid hdst) haged hmc hself, hereOf, if_neg (by simp [hreq])]
    exact drops (by decide) (respHere_unknown hnone)
  case copies =>
    have harrive : ∀ here, arrive here s p q = replicate s0 (4 + p / 6) q := fun here =>
      (arrive_mcast here (accepted hup hvalid hdst) haged hmc hgroup).trans (if_neg (by simp [q, hlocal]))
    exact ⟨run (harrive _), forward (ownCommand_of_arrival harr (by simp [hmc, hlocal])) (harrive _)⟩
  case copyHere =>
    rw [(arrive_mcast _ (accepted hup hvalid hdst) haged hmc hgroup).trans (if_pos hlocal), hereOf, if_pos hreq]
    exact serve_spec (replicate s0 (4 + p / 6) q) p q

end Sys2Proof.Safety
end

section
/-! PROOFS. What the operations of an Erg port change (R221–R223, R236–R238): the port itself, counters and monitor inputs. -/

namespace Sys2Proof.Machine

open Sys2Proof Sys2Proof.Safety

/-! ### Ports -/

@[simp] theorem eportOf_modEport_same (s : State) (p : Nat) (f : EPort → EPort) : eportOf (modEport s p f) p = f (eportOf s p) := by
  simp [eportOf, modEport]

theorem eportOf_modEport_other (s : State) {p q : Nat} (f : EPort → EPort) (h : q ≠ p) : eportOf (modEport s p f) q = eportOf s q := by
  simp [eportOf, modEport, kGet_kSet_other _ _ _ _ _ h]

theorem eportOf_congr {s t : State} (h : t.erg = s.erg) (q : Nat) : eportOf t q = eportOf s q := by rw [eportOf, eportOf, h]

/-- PORT_STATUS is no counter. -/
theorem portState_counted {s t : State} (h : Counted s t) (hs : regsWf s) {p : Nat} (hp : p < 12) : portState t p = portState s p := by
  rw [portState, portState, rget, rget, rd_fabric h hs] <;> unfold rPORT_STATUS <;> omega

/-- Nothing differs but port `p`, which has become `e`, counters and monitor inputs. -/
structure PortBecomes (s t : State) (p : Nat) (e : EPort) : Prop where
  frame : t = { s with erg := t.erg, regs := t.regs, trc := t.trc, flt := t.flt }
  others : ∀ q, q ≠ p → eportOf t q = eportOf s q
  port : eportOf t p = e
  counted : Counted s t

namespace PortBecomes

variable {s t u : State} {p : Nat} {e e' : EPort}

theorem trans (h : PortBecomes s t p e) (h' : PortBecomes t u p e') : PortBecomes s u p e' :=
  ⟨h'.frame.trans (by rw [h.frame]), fun q hq => (h'.others q hq).trans (h.others q hq), h'.port, h.counted.trans h'.counted⟩

theorem refl (s : State) (p : Nat) : PortBecomes s s p (eportOf s p) := ⟨rfl, fun _ _ => rfl, rfl, .of_regs rfl⟩

/-- What leaves the ports as they were. -/
theorem untouched (h : PortBecomes s t p e) (herg : u.erg = t.erg)
    (hf : u = { t with erg := u.erg, regs := u.regs, trc := u.trc, flt := u.flt }) (hc : Counted t u) : PortBecomes s u p e :=
  h.trans ⟨hf, fun q _ => eportOf_congr herg q, (eportOf_congr herg p).trans h.port, hc⟩

theorem modEport (h : PortBecomes s t p e) (f : EPort → EPort) : PortBecomes s (modEport t p f) p (f e) :=
  h.trans ⟨rfl, fun _ hq => eportOf_modEport_other t f hq, by rw [eportOf_modEport_same, h.port], .of_regs rfl⟩

/-- A count at a port. -/
theorem ergCount (h : PortBecomes s t p e) (hp : p < 12) {k : Nat} (hk : k < 64) (n : Nat) : PortBecomes s (ergCount t p k n) p e := by
  have hframe := countDev_frame t (0x4000 + 64 * p + k) n
  exact h.untouched (by rw [Machine.ergCount, hframe]) (by rw [Machine.ergCount, hframe]) (counted_countDev t (by omega) n)

/-- A frame resent is a monitor input (R347). -/
theorem monEvent (h : PortBecomes s t p e) (i n : Nat) : PortBecomes s (monEvent t i n) p e :=
  h.untouched rfl rfl (.of_regs rfl)

/-- A count of an overrun slot of a class (R238). -/
theorem overrun (h : PortBecomes s t p e) (hp : p < 12) {c x : Nat} (hc : c < 8) (hx : x < 3) : PortBecomes s (overrun t p c x) p e :=
  h.ergCount hp (by omega) 1

theorem replaySlot (h : PortBecomes s t p e) (hp : p < 12) : PortBecomes s (replaySlot t p) p e := by
  unfold Machine.replaySlot
  split
  · next hwaits =>
    simp only [slotWaits, Bool.and_eq_true, decide_eq_true_eq] at hwaits
    exact h.overrun hp hwaits.1.2 (by decide)
  · exact h

theorem putFrame (h : PortBecomes s t p e) (hp : p < 12) (f : Frame) :
    PortBecomes s (putFrame t p f) p { e with slot := e.slot + 1, tx := some f } := (h.modEport _).ergCount hp (by decide) 1

theorem portState (h : PortBecomes s t p e) (hs : regsWf s) (hp : p < 12) : portState t p = Machine.portState s p :=
  portState_counted h.counted hs hp

end PortBecomes

/-! ### No packet waits at a DOWN port -/

theorem portFlush_of_notDown {s : State} {p : Nat} (h : portState s p ≠ 0) : portFlush s p = s := by simp [portFlush, h]

theorem portFlush_of_empty {s : State} {p : Nat} (h : portWaiting s p = []) : portFlush s p = s := by simp [portFlush, h]

/-- What waits for a port depends on its queues and on the tuyeres. -/
theorem portWaiting_congr {s t : State} {p : Nat} (htxq : (eportOf t p).txq = (eportOf s p).txq)
    (hmet : t.erg.metered = s.erg.metered) : portWaiting t p = portWaiting s p := by
  rw [portWaiting, htxq, hmet, portWaiting]

/-! ### Wakes -/

theorem counted_wakeUnit (s : State) {u : Nat} (hu : u < 0x10000) : Counted s (wakeUnit s u) := by
  unfold wakeUnit
  dsimp only
  split
  · refine .trans ?_ (counted_countDev _ (j := 0x10000 + 8 * u) (by omega) 1)
    exact .of_regs rfl
  · exact .of_regs rfl

theorem erg_wakeUnit (s : State) (u : Nat) : (wakeUnit s u).erg = s.erg := by rw [wakeUnit_frame]

/-! ### Frames sent -/

section

variable {s : State} {p : Nat}

/-- A port whose lanes are not looped sends, and takes nothing of what it sends. -/
theorem frameSlot_of_notLooped (hloop : looped s p = false) : frameSlot s p = frameSend s p := by simp [frameSlot, hloop]

theorem frameSend_down (hup : portState s p ≠ 2) (htrain : portState s p ≠ 1) :
    frameSend s p = modEport s p (fun e => { e with slot := e.slot + 1, tx := none }) := by simp [frameSend, hup, htrain]

theorem frameSend_training (htrain : portState s p = 1) :
    frameSend s p = putFrame s p (mkFrame 2 0 (eportOf s p).link.rxLast [trainFlit (nodeId s) p (fabValid s)]) := by
  simp [frameSend, htrain]

theorem frameSend_dozes (hup : portState s p = 2) (hdoze : portDozes s p = true) : frameSend s p =
    modEport (if slotWaits s p then wakeUnit s (3040 + p) else s) p (fun e => { e with slot := e.slot + 1, tx := none }) := by
  simp [frameSend, hup, hdoze]

theorem frameSend_up (hup : portState s p = 2) (hdoze : portDozes s p = false) : frameSend s p = frameUp s p := by
  simp [frameSend, hup, hdoze]

/-- A retry request that is owed goes first (R221). -/
theorem frameUp_retryOwed (hp : p < 12) (howed : (eportOf s p).link.retryOwed = true) :
    PortBecomes s (frameUp s p) p { eportOf s p with
      link := { (eportOf s p).link with retryOwed := false }, slot := (eportOf s p).slot + 1
      tx := some (mkFrame 1 (((eportOf s p).link.rxLast + 1) % 512) (eportOf s p).link.rxLast []) } := by
  simp only [frameUp, howed, if_true]
  exact (((PortBecomes.refl s p).replaySlot hp).modEport _).putFrame hp _

/-- Then the frames to be resent. -/
theorem frameUp_resends (hp : p < 12) (howed : (eportOf s p).link.retryOwed = false) {q : Nat} {fl : List (BitVec 320)}
    (hresend : (eportOf s p).link.resend = some q) (hfind : (eportOf s p).link.replay.find? (fun r => r.1 = q) = some (q, fl)) :
    ∃ more, PortBecomes s (frameUp s p) p { eportOf s p with
      link := { (eportOf s p).link with resend := more }, slot := (eportOf s p).slot + 1
      tx := some (mkFrame 0 q (eportOf s p).link.rxLast fl) } := by
  refine ⟨if (eportOf s p).link.replay.any (fun r => r.1 = (q + 1) % 512) then some ((q + 1) % 512) else none, ?_⟩
  unfold frameUp
  dsimp only
  rw [if_neg (by rw [howed]; decide), hresend, Option.bind_some, hfind]
  exact ((((((PortBecomes.refl s p).replaySlot hp).modEport _).putFrame hp _).ergCount hp (k := 25) (by decide) 1).monEvent 7 1)

section

variable (howed : (eportOf s p).link.retryOwed = false) (hresend : (eportOf s p).link.resend = none)

include howed hresend

/-- With 256 frames unacknowledged an idle frame goes out (log entry 93). -/
theorem frameUp_full (hp : p < 12) (hfull : 256 ≤ (eportOf s p).link.replay.length) :
    PortBecomes s (frameUp s p) p { eportOf s p with slot := (eportOf s p).slot + 1
                                                     tx := some (mkFrame 0 (((eportOf s p).link.nextSeq + 255) % 512) (eportOf s p).link.rxLast []) } := by
  simp only [frameUp, howed, hresend, Option.bind_none, hfull, Bool.false_eq_true, if_false, if_true]
  exact ((PortBecomes.refl s p).replaySlot hp).putFrame hp _

theorem frameUp_new (hroom : (eportOf s p).link.replay.length < 256) : frameUp s p = sendNew s p := by
  simp [frameUp, howed, hresend, Nat.not_le.2 hroom]

end

end

/-! ### A new frame -/

/-- The frame under construction fits, and of the port it leaves the slot's number and has taken credits alone. -/
structure Built (e : EPort) (b : Fill) : Prop where
  fits : b.flits.length ≤ 16
  slot : b.e.slot = e.slot
  credit : ∀ cl, b.e.credit.getD cl 0 ≤ e.credit.getD cl 0

/-- A class that pays loses credits, and no other gains. -/
theorem getD_set_sub_le (l : List Nat) (i n cl : Nat) : (l.set i (l.getD i 0 - n)).getD cl 0 ≤ l.getD cl 0 := by
  simp only [List.getD_eq_getElem?_getD, List.getElem?_set]
  split
  · next h =>
    subst h
    split
    · exact Nat.sub_le _ _
    · exact Nat.zero_le _
  · exact le_rfl

theorem built_placeCarry (entry : Nat) (e : EPort) : Built e (placeCarry entry e) := by
  unfold placeCarry
  split
  · exact ⟨Nat.zero_le _, rfl, fun _ => le_rfl⟩
  · exact ⟨List.length_take_le _ _, rfl, fun _ => le_rfl⟩

/-- Packets placed one after another are cut at the frame's end. -/
theorem Built.placePacket {e : EPort} {b : Fill} (h : Built e b) (entry : Nat) (k : Packet) : Built e (placePacket entry b k) where
  fits := by
    have := h.fits
    simp only [Machine.placePacket, List.length_append, List.length_take, fillRoom]
    omega
  slot := h.slot
  credit := h.credit

/-- A class pays for a packet. -/
theorem Built.pays {e e' : EPort} {b : Fill} (h : Built e b) (c n : Nat) (hslot : e'.slot = b.e.slot)
    (hcredit : e'.credit = b.e.credit.set c (b.e.credit.getD c 0 - n)) : Built e { b with e := e' } where
  fits := h.fits
  slot := hslot.trans h.slot
  credit cl := by
    rw [hcredit]
    exact (getD_set_sub_le _ _ _ _).trans (h.credit cl)

theorem Built.placeBeacon {e : EPort} {b : Fill} (h : Built e b) (s : State) (p entry : Nat) : Built e (placeBeacon s p entry b) := by
  unfold Machine.placeBeacon
  split
  · exact (h.placePacket entry (beaconPacket s p)).pays 7 1 rfl rfl
  · exact h

theorem Built.placeLink {e : EPort} {b : Fill} (h : Built e b) (s : State) : Built e (placeLink s b) := by
  unfold Machine.placeLink
  split
  · next hroom =>
    obtain ⟨-, hpos⟩ := Bool.and_eq_true_iff.1 hroom
    have hfree : 0 < 16 - b.flits.length := of_decide_eq_true hpos
    have hone : (packetFlits (linkPacket s b.e)).length = 1 := rfl
    refine ⟨?_, h.slot, h.credit⟩
    rw [List.length_append, hone]
    omega
  · exact h

theorem Built.placeQueued {e : EPort} (entry fuel : Nat) {b : Fill} (h : Built e b) : Built e (placeQueued entry fuel b) := by
  induction fuel generalizing b with
  | zero => exact h
  | succ fuel ih =>
    unfold Machine.placeQueued
    split
    · exact h
    · split
      · exact h
      · next c k _ => 
        let e1 := { b.e with
          txq := kSet b.e.txq c ((kGet [] b.e.txq c).drop 1)
          credit := b.e.credit.set c (b.e.credit.getD c 0 - pktFlits k) }
        exact ih ((h.pays (e' := e1) c (pktFlits k) rfl rfl).placePacket entry k)

theorem built_buildFrame (s : State) (p entry : Nat) : Built (eportOf s p) (buildFrame s p entry) := by
  have hcarry := built_placeCarry entry (eportOf s p)
  unfold buildFrame
  dsimp only
  split
  · exact ((hcarry.placeBeacon s p entry).placeLink s).placeQueued entry 16
  · exact hcarry

/-- A port without a packet sends an empty frame. -/
theorem buildFrame_idle {s : State} {p : Nat} (entry : Nat) (hq : (eportOf s p).txq = []) (hcarry : (eportOf s p).carry = none)
    (hdue : (eportOf s p).due = List.replicate 8 0) (hbeacon : (eportOf s p).beaconDue = false) :
    (buildFrame s p entry).flits = [] := by
  have hnext : ∀ l, nextPacket (eportOf s p) l = none := fun l => by
    simp [nextPacket, hq, kGet]
  have hc : placeCarry entry (eportOf s p) = ⟨eportOf s p, [], false⟩ := by simp [placeCarry, hcarry]
  have hb : placeBeacon s p entry ⟨eportOf s p, [], false⟩ = ⟨eportOf s p, [], false⟩ := by simp [placeBeacon, hbeacon]
  have hl : placeLink s ⟨eportOf s p, [], false⟩ = ⟨eportOf s p, [], false⟩ := by simp [placeLink, hdue]
  unfold buildFrame
  simp only [hc, hb, hl]
  split
  · simp [placeQueued, fillRoom, hnext]
  · rfl

/-- A new data frame is kept in the replay buffer under its number (R221, R236). -/
theorem sendNew_spec (s : State) {p : Nat} (hp : p < 12) : PortBecomes s (sendNew s p) p
    { (buildFrame s p (slotEntry s p)).e with
      link := { (buildFrame s p (slotEntry s p)).e.link with
        nextSeq := ((eportOf s p).link.nextSeq + 1) % 512
        replay := (eportOf s p).link.replay ++ [((eportOf s p).link.nextSeq, (buildFrame s p (slotEntry s p)).flits)] }
      slot := (eportOf s p).slot + 1
      tx := some (mkFrame 0 (eportOf s p).link.nextSeq (eportOf s p).link.rxLast (buildFrame s p (slotEntry s p)).flits) } := by
  rw [← (built_buildFrame s p (slotEntry s p)).slot]
  unfold sendNew
  dsimp only
  refine (PortBecomes.modEport (e := eportOf s p) ?_ _).putFrame hp _
  split
  · next hwaits =>
    simp only [slotWaits, Bool.and_eq_true, decide_eq_true_eq] at hwaits
    exact (PortBecomes.refl s p).overrun hp hwaits.1.1.2 (by split <;> decide)
  · exact .refl s p

end Sys2Proof.Machine
end

section
/-! PROOFS. Frames that a port receives, retry requests and the loss of a port after the ninth (R217, R221–R223, R226). -/

namespace Sys2Proof.Machine

open Sys2Proof Sys2Proof.Safety

/-! ### Frames received -/

section

variable {s : State} {p : Nat} {f : Frame}

theorem frameReceive_down (hdown : portState s p = 0) (a : Option Frame) (fixed : Bool) : frameReceive s p a fixed = s := by
  simp [frameReceive, hdown]

/-- A signal that meets a port in doze wakes it, and is not taken (R403, R405). -/
theorem frameReceive_dozes (hup : portState s p = 2) (hdoze : portDozes s p = true) (hloop : looped s p = false) (a : Option Frame)
    (fixed : Bool) : frameReceive s p a fixed = wakeUnit s (3040 + p) := by simp [frameReceive, hup, hdoze, hloop]

theorem frameReceive_awake (hup : portState s p = 2) (hdoze : portDozes s p = false) (hloop : looped s p = false) (a : Option Frame) :
    frameReceive s p a false = frameTake s p a := by simp [frameReceive, hup, hdoze, hloop]

/-- A port in TRAINING learns its partner from training frames, and takes no other (R223). -/
theorem frameReceive_training (htrain : portState s p = 1) (hloop : looped s p = false) : frameReceive s p (some f) false =
    if frameKind f = 2 then modEport s p (fun e => { e with peer := some (trainPeer f) }) else s := by
  simp [frameReceive, htrain, hloop, frameTake]

/-- An acknowledgement leaves the number received. -/
theorem ackFrames_rxLast {α : Type} (l : Link α) (ack : Nat) : (ackFrames l ack).rxLast = l.rxLast := by
  unfold ackFrames
  split <;> rfl

theorem portBecomes_frameFailed {k : Nat} (hp : p < 12) (hk : k < 64) : PortBecomes s (frameFailed (ergCount s p k 1) p) p
    { eportOf s p with link := { (eportOf s p).link with retryOwed := true } } :=
  ((PortBecomes.refl s p).ergCount hp hk 1).modEport _

/-- An uncorrectable frame owes a retry. -/
theorem frameTake_uncorrectable (hp : p < 12) (hup : portState s p = 2) : PortBecomes s (frameTake s p none) p
    { eportOf s p with link := { (eportOf s p).link with retryOwed := true } } := by
  rw [frameTake, if_pos hup]
  exact portBecomes_frameFailed hp (by decide)

theorem frameTake_data (hup : portState s p = 2) (hkind : frameKind f = 0) : frameTake s p (some f) = dataFrame s p f := by
  simp [frameTake, hup, hkind]

/-- A good frame in order delivers its packets. -/
theorem dataFrame_inOrder (hseq : frameSeq f = ((eportOf s p).link.rxLast + 1) % 512) {part : Option (Packet × Nat)} {ks : List Packet}
    (hread : readPackets (eportOf s p).rxPart f.flits = (part, ks, true)) : PortBecomes s (dataFrame s p f) p { eportOf s p with
      link := { ackFrames (eportOf s p).link (frameAck f) with rxLast := frameSeq f, retryOwed := false }
      rxPart := part, rxq := (eportOf s p).rxq ++ ks } := by
  simp only [dataFrame, hread]
  rw [if_neg (not_not.2 hseq), if_neg (by decide)]
  exact (PortBecomes.refl s p).modEport _

/-- A header that fails HCRC owes a retry. -/
theorem dataFrame_bad (hp : p < 12) (hseq : frameSeq f = ((eportOf s p).link.rxLast + 1) % 512)
    (hread : (readPackets (eportOf s p).rxPart f.flits).2.2 = false) : PortBecomes s (dataFrame s p f) p
    { eportOf s p with link := { (eportOf s p).link with retryOwed := true } } := by
  unfold dataFrame
  dsimp only
  rw [if_neg (not_not.2 hseq), hread]
  exact portBecomes_frameFailed hp (by decide)

/-- A frame out of order only acknowledges. -/
theorem dataFrame_outOfOrder (hseq : frameSeq f ≠ ((eportOf s p).link.rxLast + 1) % 512) : PortBecomes s (dataFrame s p f) p
    { eportOf s p with link := ackFrames (eportOf s p).link (frameAck f) } := by
  unfold dataFrame
  dsimp only
  rw [if_pos hseq]
  exact (PortBecomes.refl s p).modEport _

/-! ### Retry requests -/

/-- The failures in succession of frame `n`, with this one. -/
def failuresAfter (l : Link (BitVec 320)) (n : Nat) : Nat := if l.failSeq = n ∧ 0 < l.fails then l.fails + 1 else 1

theorem retryRequest_notUp (hup : portState s p ≠ 2) (n : Nat) : retryRequest s p n = s := if_pos hup

section

variable (hup : portState s p = 2) {n : Nat}

include hup

theorem retryRequest_unknown (hnone : ∀ f ∈ (eportOf s p).link.replay, f.1 ≠ n) : retryRequest s p n = s := by
  have hany : (eportOf s p).link.replay.any (fun f => f.1 = n) = false := by simpa using hnone
  simp only [retryRequest, hup, hany]
  rfl

variable {fl : List (BitVec 320)} (hmem : (n, fl) ∈ (eportOf s p).link.replay)

include hmem

/-- A request for a frame in the replay buffer resends from it, until its ninth in succession (R221). -/
theorem retryRequest_known : retryRequest s p n = if 8 < failuresAfter (eportOf s p).link n then portDown s p 3 else
    modEport s p (fun e => { e with
      link := { e.link with resend := some n, failSeq := n, fails := failuresAfter (eportOf s p).link n } }) := by
  have hany : (eportOf s p).link.replay.any (fun f => f.1 = n) = true := List.any_eq_true.2 ⟨_, hmem, by simp⟩
  simp only [retryRequest, hup, hany]
  rfl

theorem retryRequest_resends {m : Nat} (hfails : failuresAfter (eportOf s p).link n = m) (hm : m ≤ 8) :
    PortBecomes s (retryRequest s p n) p
      { eportOf s p with link := { (eportOf s p).link with resend := some n, failSeq := n, fails := m } } := by
  rw [retryRequest_known hup hmem, if_neg (by omega), hfails]
  exact (PortBecomes.refl s p).modEport _

end

/-! ### Loss of a port -/

/-- PORT_STATUS is none of the registers that records write. -/
theorem logReg_rPORT_STATUS (hp : p < 12) : logReg (rPORT_STATUS p) = false := by
  simp only [logReg, isCounterOff, Bool.or_eq_false_iff, Bool.and_eq_false_iff, decide_eq_false_iff_not]
  unfold rPORT_STATUS rCNT_SAT rTRC_STATUS rFLT_CPER_PTR rFLT_CPER_HEAD rCQ_STATUS
  omega

/-- PORT_STATUS of a port that has gone DOWN. -/
def downStatus (s : State) (p cause : Nat) : State :=
  rput (rset (rput (rput s (rPORT_STATUS p) fPORT_STATUS_STATE 0) (rPORT_STATUS p) fPORT_STATUS_DOWN_CAUSE cause)
    (rPORT_STATUS p) fPORT_STATUS_DOWN_EVENT) (rPORT_STATUS p) fPORT_STATUS_LANES_LOCKED 0

theorem downStatus_fields {cause : Nat} (hcause : cause < 16) (hs : regsWf s) : regsWf (downStatus s p cause) ∧
    portState (downStatus s p cause) p = 0 ∧ rget (downStatus s p cause) (rPORT_STATUS p) fPORT_STATUS_DOWN_CAUSE = cause := by
  have hstate := regsWf_rput s (rPORT_STATUS p) fPORT_STATUS_STATE 0 hs
  have hcaused := regsWf_rput _ (rPORT_STATUS p) fPORT_STATUS_DOWN_CAUSE cause hstate
  have hevent := regsWf_rset _ (rPORT_STATUS p) fPORT_STATUS_DOWN_EVENT hcaused
  refine ⟨regsWf_rput _ _ _ _ hevent, ?_, ?_⟩
  · rw [portState, downStatus, rget_rput_below _ hevent (by decide) (by decide) (by decide), rset,
      rget_rput_below _ hcaused (by decide) (by decide) (by decide),
      rget_rput_below _ hstate (by decide) (by decide) (by decide), rget_rput_same _ hs (by decide) (by decide)]
    rfl
  · rw [downStatus, rget_rput_below _ hevent (by decide) (by decide) (by decide), rset,
      rget_rput_above _ hcaused (by decide) (by decide) (by decide), rget_rput_same _ hstate (by decide) (by decide)]
    exact Nat.mod_eq_of_lt hcause

/-- A port that has lost its link. -/
def unlinked (e : EPort) : EPort :=
  { e with link := Link.reset, carry := none, tx := none, rxPart := none, peer := none, beaconDue := false }

/-- An UP port that goes DOWN delivers PORT_DOWN (R223). -/
theorem portDown_up (hup : portState s p = 2) (cause : Nat) : portDown s p cause =
    raiseDev (modEport (downStatus s p cause) p unlinked) 0x04 0xFF
      [BitVec.ofNat 64 p, rd (modEport (downStatus s p cause) p unlinked) (rPORT_STATUS p)] := by
  unfold portDown
  dsimp only
  rw [if_neg (by rw [hup]; decide), if_pos hup]
  rfl

/-- What stands once an UP port has gone DOWN: its queues are as before, and its state and cause are recorded (R223). -/
theorem portDown_spec {cause : Nat} (hp : p < 12) (hcause : cause < 16) (hs : regsWf s) (hup : portState s p = 2) :
    regsWf (portDown s p cause) ∧ portState (portDown s p cause) p = 0 ∧
    rget (portDown s p cause) (rPORT_STATUS p) fPORT_STATUS_DOWN_CAUSE = cause ∧
    portWaiting (portDown s p cause) p = portWaiting s p := by
  obtain ⟨hwf, hstate, hrecorded⟩ := downStatus_fields (p := p) hcause hs
  rw [portDown_up hup]
  generalize [BitVec.ofNat 64 p, rd (modEport (downStatus s p cause) p unlinked) (rPORT_STATUS p)] = w
  have hport := eportOf_modEport_same (downStatus s p cause) p unlinked
  have hlog := logged_raiseDev (modEport (downStatus s p cause) p unlinked) 0x04 0xFF w
  have hstatus := hlog.same hwf _ (logReg_rPORT_STATUS hp)
  have herg : (raiseDev (modEport (downStatus s p cause) p unlinked) 0x04 0xFF w).erg =
      (modEport (downStatus s p cause) p unlinked).erg := by rw [hlog.frame]
  refine ⟨hlog.wf hwf, ?_, ?_, portWaiting_congr ?_ (by rw [herg]; rfl)⟩
  · rw [portState, rget, hstatus]
    exact hstate
  · rw [rget, hstatus]
    exact hrecorded
  · rw [eportOf_congr herg, hport]
    rfl

/-- What is no request is dropped and counted (R226, R248). -/
theorem counted_strand (hp : p < 12) {k : Packet} (hk : k.mc = true ∨ isRequest k.ty = false) (u : State) : Counted u (strand u p k) := by
  unfold strand
  by_cases hmc : k.mc = true
  · rw [if_pos hmc]
    exact counted_countDev u (by omega) 1
  · rw [if_neg hmc, if_pos (by simpa [hmc] using hk)]
    exact counted_countDev u (by omega) 1

/-- Where no request waits, what waits at a DOWN port is only counted. -/
theorem counted_portFlush (hp : p < 12) (hnone : noRequestWaits s p) : Counted s (portFlush s p) := by
  unfold portFlush
  dsimp only
  split
  · exact .of_regs rfl
  · exact List.foldlRecOn (motive := Counted s) _ _ (.of_regs rfl) (fun u hu k hk => hu.trans (counted_strand hp (hnone k hk) u))

/-- The ninth request for one frame in succession takes the port DOWN with cause 3 (R221, R223). -/
theorem retryRequest_ninth (hp : p < 12) (hs : regsWf s) (hup : portState s p = 2) {n : Nat} {fl : List (BitVec 320)}
    (hmem : (n, fl) ∈ (eportOf s p).link.replay) (hfails : 8 < failuresAfter (eportOf s p).link n) (hnone : noRequestWaits s p) :
    portState (portFlush (retryRequest s p n) p) p = 0 ∧
    rget (portFlush (retryRequest s p n) p) (rPORT_STATUS p) fPORT_STATUS_DOWN_CAUSE = 3 := by
  rw [retryRequest_known hup hmem, if_pos hfails]
  obtain ⟨hwf, hstate, hcause, hwaiting⟩ := portDown_spec hp (cause := 3) (by decide) hs hup
  have hcounted := counted_portFlush hp (s := portDown s p 3) (by rw [noRequestWaits, hwaiting]; exact hnone)
  rw [portState_counted hcounted hwf hp, rget, rd_fabric hcounted hwf (by unfold rPORT_STATUS; omega) (by unfold rPORT_STATUS; omega)]
  exact ⟨hstate, hcause⟩

end

/-! ### LINK -/

section

variable {s : State} {p : Nat}

theorem linkCredits_notUp (hup : portState s p ≠ 2) (credits : List Nat) : linkCredits s p credits = s := if_pos hup

/-- The input buffer without the LINK packet that is performed. -/
def linkTaken (l : List Packet) : List Packet :=
  match l.find? (fun k => k.ty = 0x01) with
  | some k => l.erase k
  | none => l

/-- Credits return, up to 1,024 of each class (R222). -/
theorem linkCredits_valid (hup : portState s p = 2) (hvalid : fabValid s = true) (credits : List Nat) :
    PortBecomes s (linkCredits s p credits) p { eportOf s p with
      rxq := linkTaken (eportOf s p).rxq
      credit := (List.range 8).map (fun c => min 1024 ((eportOf s p).credit.getD c 0 + credits.getD c 0)) } := by
  have hlink : linkCredits s p credits = modEport (modEport s p (fun e => { e with rxq := linkTaken e.rxq })) p (fun e => { e with
      credit := (List.range 8).map (fun c => min 1024 (e.credit.getD c 0 + credits.getD c 0)) }) := by
    have hvalid' : fabValid (modEport s p (fun e => { e with rxq := linkTaken e.rxq })) = true := hvalid
    unfold linkCredits
    dsimp only
    rw [if_neg (not_not.2 hup), if_neg (by rw [hvalid]; decide)]
    rfl
  rw [hlink]
  exact ((PortBecomes.refl s p).modEport _).modEport _

/-- Before FAB_NODE.VALID the packet is dropped and counted (R213). -/
theorem linkCredits_noNode (hp : p < 12) (hup : portState s p = 2) (hvalid : fabValid s = false) (credits : List Nat) :
    PortBecomes s (linkCredits s p credits) p { eportOf s p with rxq := linkTaken (eportOf s p).rxq } := by
  have hlink : linkCredits s p credits = ergCount (modEport s p (fun e => { e with rxq := linkTaken e.rxq })) p 35 1 := by
    unfold linkCredits
    dsimp only
    rw [if_neg (not_not.2 hup)]
    exact if_pos (by show (!fabValid s) = true; rw [hvalid]; rfl)
  rw [hlink]
  exact ((PortBecomes.refl s p).modEport _).ergCount hp (by decide) 1

end

end Sys2Proof.Machine
end

section
/-! PROOFS. The statement about the link layer of an Erg port (R213, R216, R221–R223, R236, R403). -/

namespace Sys2Proof.Safety

open Sys2Proof Sys2Proof.Machine

section

variable {s : State} {p : Nat} (hp : p < 12)

include hp

theorem runs_link (credits : List Nat) {P : State → Prop} (hP : P (linkCredits s p credits)) : Runs (.link p credits) s P :=
  runs_of_onUnit (t := linkCredits s p credits) rfl (decide_eq_true hp) hP

theorem runs_ergFrameSend {P : State → Prop} (hP : P (portFlush (frameSlot s p) p)) : Runs (.ergFrameSend p) s P :=
  runs_of_onUnit (t := portFlush (frameSlot s p) p) rfl (decide_eq_true hp) hP

theorem runs_ergFrameReceive {a : Option Frame} {fixed : Bool} {P : State → Prop}
    (hP : P (portFlush (frameReceive s p a fixed) p)) : Runs (.ergFrameReceive p ⟨a, fixed⟩) s P :=
  runs_of_onUnit (t := portFlush (frameReceive s p a fixed) p) rfl (decide_eq_true hp) hP

theorem runs_ergRetryRequest (hawake : portState s p = 2 → portDozes s p = false) {n : Nat} {P : State → Prop}
    (hP : P (portFlush (retryRequest s p n) p)) : Runs (.ergRetryRequest p n) s P := by
  refine runs_of_onUnit (t := if portState s p = 2 && portDozes s p then wakeUnit s (3040 + p) else portFlush (retryRequest s p n) p)
    rfl (decide_eq_true hp) ?_
  rw [if_neg]
  · exact hP
  · simpa using hawake

theorem runs_ergRetryRequest_dozes (hup : portState s p = 2) (hdoze : portDozes s p = true) (n : Nat) :
    Runs (.ergRetryRequest p n) s (fun t => t = wakeUnit s (3040 + p)) :=
  runs_of_onUnit (t := if portState s p = 2 && portDozes s p then wakeUnit s (3040 + p) else portFlush (retryRequest s p n) p)
    rfl (decide_eq_true hp) (if_pos (by simp [hup, hdoze]))

variable (hs : regsWf s) (hnotDown : portState s p ≠ 0) {e : EPort}

include hs hnotDown

/-- A port that is not DOWN keeps what waits for it. -/
theorem portFlush_of_becomes {t : State} (h : PortBecomes s t p e) : portFlush t p = t :=
  portFlush_of_notDown (by rw [h.portState hs hp]; exact hnotDown)

theorem runs_send (hloop : looped s p = false) (h : PortBecomes s (frameSend s p) p e) {P : State → Prop}
    (hP : P (frameSend s p)) : Runs (.ergFrameSend p) s P :=
  runs_ergFrameSend hp (by rwa [frameSlot_of_notLooped hloop, portFlush_of_becomes hp hs hnotDown h])

theorem runs_receive {a : Option Frame} {fixed : Bool} (h : PortBecomes s (frameReceive s p a fixed) p e) {P : State → Prop}
    (hP : P (frameReceive s p a fixed)) : Runs (.ergFrameReceive p ⟨a, fixed⟩) s P :=
  runs_ergFrameReceive hp (by rwa [portFlush_of_becomes hp hs hnotDown h])

end

/-- A DOWN port without packets sends nothing (R223). -/
theorem portFlush_frameSlot_down {s : State} {p : Nat} (hdown : portState s p = 0) (hnone : portWaiting s p = []) :
    portFlush (frameSlot s p) p = modEport s p (fun e => { e with slot := e.slot + 1, tx := none }) := by
  have hsend := frameSend_down (s := s) (p := p) (by rw [hdown]; decide) (by rw [hdown]; decide)
  have hport := eportOf_modEport_same s p (fun e => { e with slot := e.slot + 1, tx := none })
  have hslot : frameSlot s p = frameSend s p := by
    unfold frameSlot
    dsimp only
    rw [hsend, hport]
    split <;> rfl
  rw [hslot, hsend]
  refine portFlush_of_empty (.trans (portWaiting_congr ?_ ?_) hnone)
  · rw [hport]
  · rfl

/-- A dozing port whose class waits begins its wake, and nothing else of it changes. -/
theorem wokenForSlot_spec {s : State} {p : Nat} (hp : p < 12) :
    Counted s (if slotWaits s p then wakeUnit s (3040 + p) else s) ∧
    eportOf (if slotWaits s p then wakeUnit s (3040 + p) else s) p = eportOf s p := by
  split
  · exact ⟨counted_wakeUnit s (by omega), eportOf_congr (erg_wakeUnit s _) p⟩
  · exact ⟨.of_regs rfl, rfl⟩

/-- Settles O29: each clause by what its command makes of the port (`PortBecomes`). -/
theorem ergLinkLayer : Obligations.ErgLinkLayer := by
  unfold Obligations.ErgLinkLayer
  intro s p hp hcanon e l same
  obtain ⟨-, hs⟩ := hcanon
  have becomes : ∀ {t : State} {e' : EPort}, PortBecomes s t p e' → same t := fun h => ⟨h.frame, h.others⟩
  refine ⟨fun hup n credits => ⟨?linkNotUp, fun hwait => ?retryNotUp⟩, fun hdown hnone => ⟨?sendDown, fun f fixed => ?receiveDown⟩,
    fun htrain hloop => ⟨?sendTraining, fun f hkind => ?learnsPeer, fun f hkind => ?takesNoData⟩,
    fun hup hdoze hloop => ⟨?sendDozing, fun f fixed => ?receiveDozing, runs_ergRetryRequest_dozes hp hup hdoze⟩,
    fun hup hdoze hloop => ?awake⟩
  case linkNotUp => exact runs_link hp credits (linkCredits_notUp hup credits)
  case retryNotUp =>
    refine runs_ergRetryRequest hp (fun h => absurd h hup) ?_
    rw [retryRequest_notUp hup]
    by_cases hdown : portState s p = 0
    · exact portFlush_of_empty (hwait hdown)
    · exact portFlush_of_notDown hdown
  case sendDown =>
    refine runs_ergFrameSend hp ?_
    rw [portFlush_frameSlot_down hdown hnone]
    have hbecomes := (PortBecomes.refl s p).modEport (fun e => { e with slot := e.slot + 1, tx := none })
    exact ⟨becomes hbecomes, hbecomes.port⟩
  case receiveDown =>
    refine runs_ergFrameReceive hp ?_
    rw [frameReceive_down hdown]
    exact portFlush_of_empty hnone
  case sendTraining =>
    have hbecomes := (PortBecomes.refl s p).putFrame hp (mkFrame 2 0 l.rxLast [trainFlit (nodeId s) p (fabValid s)])
    rw [← frameSend_training htrain] at hbecomes
    refine runs_send hp hs (by rw [htrain]; decide) hloop hbecomes ⟨becomes hbecomes, ?_⟩
    rw [hbecomes.port]
    exact ⟨rfl, rfl⟩
  case learnsPeer =>
    have hbecomes := (PortBecomes.refl s p).modEport (fun e => { e with peer := some (trainPeer f) })
    rw [← (frameReceive_training htrain hloop).trans (if_pos hkind)] at hbecomes
    exact runs_receive hp hs (by rw [htrain]; decide) hbecomes ⟨becomes hbecomes, hbecomes.port⟩
  case takesNoData =>
    have hsame : frameReceive s p (some f) false = s := (frameReceive_training htrain hloop).trans (if_neg hkind)
    exact runs_receive hp hs (by rw [htrain]; decide) (by rw [hsame]; exact .refl s p) hsame
  case sendDozing =>
    obtain ⟨hcounted, hport⟩ := wokenForSlot_spec (s := s) hp
    have hstay : portState (frameSend s p) p = 2 := by
      rw [frameSend_dozes hup hdoze]
      exact (portState_counted hcounted hs hp).trans hup
    refine runs_ergFrameSend hp ?_
    rw [frameSlot_of_notLooped hloop, portFlush_of_notDown (by rw [hstay]; decide), frameSend_dozes hup hdoze,
      eportOf_modEport_same, hport]
    exact ⟨rfl, rfl, rfl⟩
  case receiveDozing =>
    refine runs_ergFrameReceive hp ?_
    rw [frameReceive_dozes hup hdoze hloop]
    refine portFlush_of_notDown ?_
    rw [portState_counted (counted_wakeUnit s (by omega)) hs hp, hup]
    decide
  case awake =>
    have hnotDown : portState s p ≠ 0 := by rw [hup]; decide
    have sends : ∀ {e' : EPort} {P : State → Prop}, PortBecomes s (frameUp s p) p e' → P (frameUp s p) → Runs (.ergFrameSend p) s P := by
      intro e' P h hP
      rw [← frameSend_up hup hdoze] at h hP
      exact runs_send hp hs hnotDown hloop h hP
    have receives : ∀ {a : Option Frame} {e' : EPort} {P : State → Prop}, PortBecomes s (frameTake s p a) p e' →
        P (frameTake s p a) → Runs (.ergFrameReceive p ⟨a, false⟩) s P := by
      intro a e' P h hP
      rw [← frameReceive_awake hup hdoze hloop] at h hP
      exact runs_receive hp hs hnotDown h hP
    have retries : ∀ {n : Nat} {P : State → Prop}, P (portFlush (retryRequest s p n) p) → Runs (.ergRetryRequest p n) s P :=
      runs_ergRetryRequest hp (fun _ => hdoze)
    have resends : ∀ {n m : Nat} {fl : List (BitVec 320)}, (n, fl) ∈ l.replay → failuresAfter l n = m → m ≤ 8 →
        Runs (.ergRetryRequest p n) s (fun t => same t ∧
          eportOf t p = { e with link := { l with resend := some n, failSeq := n, fails := m } }) := by
      intro n m fl hmem hfails hm
      have h := retryRequest_resends hup hmem hfails hm
      refine retries ?_
      rw [portFlush_of_becomes hp hs hnotDown h]
      exact ⟨becomes h, h.port⟩
    refine ⟨fun howed => ?retry, fun howed q fl hresend hfind => ?resent, fun howed hresend hroom => ?new,
      fun howed hresend hfull => ?full, ?uncorrectable, fun f hkind => ⟨fun part ks hseq hread => ?inOrder,
        fun hseq hread => ?badHeader, fun hseq => ?outOfOrder⟩, fun n hnone => ?unknown, fun n fl hmem =>
        ⟨fun hfirst => resends hmem (if_neg (by omega)) (by decide), fun hsame hpos hlt => resends hmem (if_pos ⟨hsame, hpos⟩) hlt,
          fun hsame hge hnone => ?ninth⟩, fun credits hvalid => ?credits, fun credits hvalid => ?noNode⟩
    case retry =>
      have h := frameUp_retryOwed hp howed
      refine sends h ⟨becomes h, ?_⟩
      rw [h.port]
      exact ⟨rfl, rfl, rfl⟩
    case resent =>
      obtain ⟨more, h⟩ := frameUp_resends hp howed hresend hfind
      refine sends h ⟨becomes h, ?_⟩
      rw [h.port]
      exact ⟨rfl, rfl, rfl⟩
    case new =>
      have h := sendNew_spec s hp
      have hbuilt := built_buildFrame s p (slotEntry s p)
      rw [← frameUp_new howed hresend hroom] at h
      refine sends h ⟨becomes h, (buildFrame s p (slotEntry s p)).flits, ?_⟩
      rw [h.port]
      exact ⟨rfl, hbuilt.fits, rfl, rfl, rfl, hbuilt.credit, buildFrame_idle _⟩
    case full =>
      have h := frameUp_full howed hresend hp hfull
      refine sends h ⟨becomes h, ?_⟩
      rw [h.port]
      exact ⟨rfl, rfl, rfl⟩
    case uncorrectable =>
      have h := frameTake_uncorrectable hp hup
      exact receives h ⟨becomes h, h.port⟩
    case inOrder =>
      have h := dataFrame_inOrder hseq hread
      rw [← frameTake_data hup hkind] at h
      refine receives h ⟨becomes h, ?_⟩
      rw [h.port]
      exact ⟨rfl, rfl, rfl, rfl⟩
    case badHeader =>
      have h := dataFrame_bad hp hseq hread
      rw [← frameTake_data hup hkind] at h
      exact receives h ⟨becomes h, h.port⟩
    case outOfOrder =>
      have h := dataFrame_outOfOrder hseq
      rw [← frameTake_data hup hkind] at h
      refine receives h ⟨becomes h, ?_⟩
      rw [h.port]
      exact ⟨rfl, ackFrames_rxLast _ _⟩
    case unknown =>
      refine retries ?_
      rw [retryRequest_unknown hup hnone]
      exact portFlush_of_notDown hnotDown
    case ninth =>
      have hfails : failuresAfter l n = l.fails + 1 := if_pos ⟨hsame, by omega⟩
      exact retries (retryRequest_ninth hp hs hup hmem (by rw [hfails]; omega) hnone)
    case credits =>
      have h := linkCredits_valid hup hvalid credits
      refine runs_link hp credits ⟨becomes h, ?_⟩
      rw [h.port]
      refine ⟨rfl, fun cl hcl => ?_⟩
      simp [List.getD_eq_getElem?_getD, hcl, e]
    case noNode =>
      have h := linkCredits_noNode hp hup hvalid credits
      refine runs_link hp credits ⟨becomes h, ?_⟩
      rw [h.port]

end Sys2Proof.Safety
end

section
/-! PROOFS. What a response or a timeout does to the request it names (R229, R232–R235, R330). -/

namespace Sys2Proof.Machine

open Sys2Proof Sys2Proof.Safety

section

variable {s : State} {p : Nat} {q : Packet} {r : ErgReq}

/-! ### Which request a response answers -/

theorem respHere_known (hreq : reqFor s q = some r) : respHere p q s = respFor s r (asAwaited r q) := by simp [respHere, hreq]

/-- The response to a unicast request of a pour, an engine, a notice or a quench. -/
theorem respFor_unicast (hmc : r.pkt.mc = false) (hckpt : ∀ h, r.origin ≠ .ckpt h) (hcar : r.origin ≠ .caravan) (q : Packet) :
    respFor s r q = respBase s r q := by
  unfold respFor
  split
  · next hub h => exact absurd h (hckpt hub)
  · next h => exact absurd h hcar
  · simp [hmc]

theorem asAwaited_one {n : Nat} (hwait : r.wait = [n]) (q : Packet) : asAwaited r q = { q with src := n } := by simp [asAwaited, hwait]

/-- Whoever answers, the status is the packet's. -/
theorem status_asAwaited (r : ErgReq) (q : Packet) : (asAwaited r q).status = q.status := by
  unfold asAwaited
  split <;> rfl

/-! ### Requests that end -/

/-- The state without a request that is over. -/
def ended (s : State) (r : ErgReq) : State := { s with ergReqs := s.ergReqs.erase r }

theorem reqGone_noSlot (hfill : r.fill = none) : reqGone s r = ended s r := by
  rw [reqGone, hfill]
  rfl

/-- The slot of a request goes FULL where no other request fills it (R233). -/
theorem reqGone_slot {tok : Nat} (hfill : r.fill = some tok) (halone : ∀ x ∈ s.ergReqs.erase r, x.core = r.core → x.fill ≠ some tok) :
    reqGone s r = modCore (ended s r) r.core (fun k => if tokOf k tok = .filling then setTok k tok .full else k) := by
  have hany : (s.ergReqs.erase r).any (fun q => q.core = r.core && q.fill = some tok) = false :=
    List.any_eq_false.2 (fun x hx => by simpa using halone x hx)
  simp only [reqGone, hfill, hany]
  rfl

/-- The one node awaited has answered. -/
theorem waitLess_last {n : Nat} (hwait : r.wait = [n]) : waitLess s r n = ended s r := by simp [waitLess, hwait, ended]

/-! ### Pours (R233) -/

/-- An abort with FABRIC_ERROR. -/
theorem beginAbort_fabric {c x : Nat} (h : beforeCommit (ctxOf s c x) = true) :
    beginAbort s c x 0x14 0 = setCtx s c x (abortedCtx (ctxOf s c x) 0x14 0) := by
  simp [beginAbort, h, startCode, abortedCtx]

/-- A response that reports an error aborts the pour. -/
theorem respPour_error (hstatus : q.status ≠ 0) (hcommit : beforeCommit (ctxOf s r.core r.ctx) = true) :
    respPour s r q = setCtx (ended s r) r.core r.ctx (abortedCtx (ctxOf s r.core r.ctx) 0x14 0) := by
  rw [respPour, if_pos hstatus, beginAbort_fabric hcommit]
  rfl

section

variable {n : Nat} (hwait : r.wait = [n]) (hstatus : q.status = 0) (hgood : payloadBad q.payload = false)

include hwait hstatus hgood

/-- A good response whose payload goes nowhere. -/
theorem respPour_unplaced (hspm : r.spmAt = none) : respPour s r { q with src := n } = reqGone s r := by
  simp [respPour, hstatus, hgood, hwait, hspm]

/-- The payload of a good response lands in the scratchpad where no access waits and no quad is off. -/
theorem respPour_placed {off pitch len : Nat} (hspm : r.spmAt = some (off, pitch, len, 0))
    (hruns : packedRuns off pitch len (payloadBytes q.payload).length 0 (payloadBytes q.payload) = [(off, payloadBytes q.payload)])
    (hserved : extWaits s [(r.core, off)] (payloadBytes q.payload).length = false)
    (hon : rangeOn s r.core off (payloadBytes q.payload).length = true) (hclean : (coreOf s r.core).spmBad = []) :
    respPour s r { q with src := n } = reqGone (modCore s r.core (fun k => spmWrite k off (payloadBytes q.payload))) r := by
  have hplace : placeRuns s r.core r.ctx [(off, payloadBytes q.payload)] =
      .ok (modCore s r.core (fun k => spmWrite k off (payloadBytes q.payload))) := by
    have hfind : (partCodewords off (payloadBytes q.payload).length).find? (fun j => smGet false (coreOf s r.core).spmBad j) = none :=
      List.find?_eq_none.2 (fun j _ => by simp [hclean, smGet])
    simp [placeRuns, hon, hfind]
  simp [respPour, hstatus, hgood, hwait, hspm, hruns, hserved, hplace]

end

/-- Bytes that fit one row are one run. -/
theorem packedRuns_oneRow (off pitch : Nat) {len : Nat} {bs : List Byte} (hne : bs ≠ []) (hlen : bs.length ≤ len) :
    packedRuns off pitch len bs.length 0 bs = [(off, bs)] := by
  cases bs with
  | nil => exact absurd rfl hne
  | cons b bs =>
    have hpos : 0 / len = 0 ∧ 0 % len = 0 := ⟨Nat.zero_div _, Nat.zero_mod _⟩
    have htake : (b :: bs).take len = b :: bs := List.take_of_length_le hlen
    have hdrop : (b :: bs).drop len = [] := List.drop_eq_nil_of_le hlen
    have hnil : ∀ fuel o, packedRuns off pitch len fuel o [] = [] := fun fuel o => by cases fuel <;> rfl
    simp only [List.length_cons, packedRuns, hpos, Nat.sub_zero, htake, hdrop, hnil]
    simp

/-- A response's payload in the row of its slot, which is FULL. -/
theorem landed_spec {off tok : Nat} {bs : List Byte} (htoks : smWf (fun _ => Tok.empty) (coreOf s r.core).toks = true)
    (hspm : spmWf (coreOf s r.core)) (hfilling : tokOf (coreOf s r.core) tok = .filling) (hfill : r.fill = some tok)
    (halone : ∀ x ∈ s.ergReqs.erase r, x.core = r.core → x.fill ≠ some tok) :
    let t := reqGone (modCore s r.core (fun k => spmWrite k off bs)) r
    t.ergReqs = s.ergReqs.erase r ∧ tokOf (coreOf t r.core) tok = .full ∧
    (∀ j, j < bs.length → spmByte (coreOf t r.core) (off + j) = bs.getD j 0) ∧
    SpmOutside s t r.core off (off + bs.length) ∧ SameMem s t := by
  have hgone := reqGone_slot (s := modCore s r.core (fun k => spmWrite k off bs)) hfill halone
  have hstored : coreOf (ended (modCore s r.core (fun k => spmWrite k off bs)) r) r.core = spmWrite (coreOf s r.core) off bs :=
    coreOf_modCore_same s r.core (fun k => spmWrite k off bs)
  have hsame : (spmWrite (coreOf s r.core) off bs).toks = (coreOf s r.core).toks := by rw [spmWrite, spmPut_frame]
  have hcore : coreOf (reqGone (modCore s r.core (fun k => spmWrite k off bs)) r) r.core =
      setTok (spmWrite (coreOf s r.core) off bs) tok .full := by
    rw [hgone, coreOf_modCore_same, hstored, if_pos (by rw [tokOf, hsame]; exact hfilling)]
  have hbyte : ∀ j, spmByte (setTok (spmWrite (coreOf s r.core) off bs) tok .full) j =
      if off ≤ j ∧ j < off + bs.length then bs.getD (j - off) 0 else spmByte (coreOf s r.core) j :=
    spmByte_spmWrite hspm off bs
  dsimp only
  refine ⟨?_, ?_, fun j hj => ?_, ⟨fun j hj => ?_, fun d hd => ?_⟩, ?_⟩
  · rw [hgone]
    rfl
  · rw [hcore, tokOf_setTok (by rw [hsame]; exact htoks), if_pos rfl]
  · rw [hcore, hbyte, if_pos (by omega), Nat.add_sub_cancel_left]
  · rw [hcore, hbyte, if_neg (by omega)]
  · rw [hgone, coreOf_modCore_other _ _ _ _ hd]
    exact coreOf_modCore_other s r.core d (fun k => spmWrite k off bs) hd
  · rw [hgone]
    exact fun _ => rfl

/-! ### Quenches (R235) -/

/-- An OK acknowledgement counted. -/
def quenchCounted (s : State) (hub : Nat) : State :=
  rput s (rFAB_QSTATUS hub) fFAB_QSTATUS_OK (rget s (rFAB_QSTATUS hub) fFAB_QSTATUS_OK + 1)

section

variable {hub : Nat} (hs : regsWf s)

theorem respQuench_ok (hbusy : rflag s (rFAB_QSTATUS hub) fFAB_QSTATUS_BUSY = true) : respQuench s hub 0 =
    if rget (quenchCounted s hub) (rFAB_QSTATUS hub) fFAB_QSTATUS_EXPECTED ≤ quenchAcks (quenchCounted s hub) hub then
      quenchEnd (quenchCounted s hub) hub false
    else quenchCounted s hub := by
  simp only [respQuench, hbusy]
  rfl

include hs

/-- What the count changes: OK alone. -/
theorem quenchCounted_spec (hroom : rget s (rFAB_QSTATUS hub) fFAB_QSTATUS_OK < 0xFFFF) :
    rget (quenchCounted s hub) (rFAB_QSTATUS hub) fFAB_QSTATUS_OK = rget s (rFAB_QSTATUS hub) fFAB_QSTATUS_OK + 1 ∧
    rget (quenchCounted s hub) (rFAB_QSTATUS hub) fFAB_QSTATUS_EXPECTED = rget s (rFAB_QSTATUS hub) fFAB_QSTATUS_EXPECTED ∧
    rflag (quenchCounted s hub) (rFAB_QSTATUS hub) fFAB_QSTATUS_BUSY = rflag s (rFAB_QSTATUS hub) fFAB_QSTATUS_BUSY ∧
    quenchAcks (quenchCounted s hub) hub = quenchAcks s hub + 1 := by
  have hok : rget (quenchCounted s hub) (rFAB_QSTATUS hub) fFAB_QSTATUS_OK = rget s (rFAB_QSTATUS hub) fFAB_QSTATUS_OK + 1 :=
    (rget_rput_same _ hs (by decide) (by decide)).trans (Nat.mod_eq_of_lt (show _ < 2 ^ 16 by omega))
  have hcount : rd (quenchCounted s hub) (rFAB_QCOUNT hub) = rd s (rFAB_QCOUNT hub) :=
    rd_rput_other s _ _ _ _ hs (by unfold rFAB_QCOUNT rFAB_QSTATUS; omega)
  refine ⟨hok, rget_rput_above _ hs (by decide) (by decide) (by decide), rflag_rput_below _ _ _ _ _ hs (by decide) (by decide) (by decide), ?_⟩
  rw [quenchAcks, hok, quenchAcks]
  simp only [rget, hcount]
  omega

section

variable (hbusy : rflag s (rFAB_QSTATUS hub) fFAB_QSTATUS_BUSY = true) (hroom : rget s (rFAB_QSTATUS hub) fFAB_QSTATUS_OK < 0xFFFF)

include hbusy hroom

/-- While more acknowledgements are expected, one is only counted. -/
theorem respQuench_more (hmore : quenchAcks s hub + 1 < rget s (rFAB_QSTATUS hub) fFAB_QSTATUS_EXPECTED) :
    respQuench s hub 0 = quenchCounted s hub := by
  obtain ⟨-, hexpected, -, hacks⟩ := quenchCounted_spec hs hroom
  rw [respQuench_ok hbusy, hexpected, hacks, if_neg (not_le.2 hmore)]

/-- The last acknowledgement ends the quench. -/
theorem respQuench_last (hlast : rget s (rFAB_QSTATUS hub) fFAB_QSTATUS_EXPECTED ≤ quenchAcks s hub + 1) :
    respQuench s hub 0 = quenchEnd (quenchCounted s hub) hub false := by
  obtain ⟨-, hexpected, -, hacks⟩ := quenchCounted_spec hs hroom
  rw [respQuench_ok hbusy, hexpected, hacks, if_pos hlast]

end

theorem rd_postRec_other {q : Nat} (r : Rec) {o : Nat} (ho : o ≠ rCQ_STATUS q) : rd (postRec s q r) o = rd s o := by
  unfold postRec
  dsimp only
  split
  · rfl
  · split
    · rfl
    · have hmark : regsWf (modRecq s q (fun k => { k with lostMark := true })) := hs
      split
      · exact (rd_rput_other _ _ _ _ _ (regsWf_rset _ _ _ hmark) ho).trans (rd_rset_other _ _ _ _ hmark ho)
      · exact rd_rset_other _ _ _ _ hmark ho

/-- A hub that has no quench. -/
def quenchOver (s : State) (hub : Nat) : State :=
  { rput s (rFAB_QSTATUS hub) fFAB_QSTATUS_BUSY 0 with ergReqs := s.ergReqs.filter (fun r => r.origin ≠ .quench hub) }

/-- A quench that ends is not BUSY; its counts stay, and memory is as before. -/
theorem quenchEnd_spec : rflag (quenchEnd s hub false) (rFAB_QSTATUS hub) fFAB_QSTATUS_BUSY = false ∧
    rget (quenchEnd s hub false) (rFAB_QSTATUS hub) fFAB_QSTATUS_OK = rget s (rFAB_QSTATUS hub) fFAB_QSTATUS_OK ∧
    SameMem s (quenchEnd s hub false) := by
  have hpart := wfld_lt (rd s (rFAB_QSEND hub)) fFAB_QSEND_PART.hi fFAB_QSEND_PART.lo
  have hstatus : rd (quenchEnd s hub false) (rFAB_QSTATUS hub) = rd (rput s (rFAB_QSTATUS hub) fFAB_QSTATUS_BUSY 0) (rFAB_QSTATUS hub) := by
    refine rd_postRec_other (s := quenchOver s hub) (regsWf_rput s _ _ _ hs) _ ?_
    simp only [fFAB_QSEND_PART] at hpart
    unfold rFAB_QSTATUS rCQ_STATUS
    split
    · simp only [rget, fFAB_QSEND_PART]
      omega
    · omega
  refine ⟨?_, ?_, ?_⟩
  · rw [rflag, rget, hstatus]
    have := rget_rput_same (f := fFAB_QSTATUS_BUSY) (o := rFAB_QSTATUS hub) 0 hs (by decide) (by decide)
    rw [rget] at this
    simp [this]
  · rw [rget, hstatus]
    exact rget_rput_above 0 hs (by decide) (by decide) (by decide)
  · intro a
    rw [quenchEnd, raisePart, postRec_frame]
    rfl

end

/-! ### Timeouts (R232, R330) -/

theorem requestTimeout_unknown {tag : Nat} (h : ∀ r ∈ s.ergReqs, r.pkt.tag ≠ tag) : requestTimeout s tag = s := by
  have hfind : s.ergReqs.find? (fun r => r.pkt.tag = tag) = none := List.find?_eq_none.2 (by simpa using h)
  simp [requestTimeout, hfind]

theorem forwardTimeout_unknown {tag : Nat} (h : ∀ r ∈ s.ergReqs, r.pkt.tag ≠ tag) : forwardTimeout s tag = s := by
  have hfind : s.ergReqs.find? (fun r => r.pkt.tag = tag && r.origin = .caravan) = none :=
    List.find?_eq_none.2 (fun r hr => by simp [h r hr])
  rw [forwardTimeout, hfind]

theorem requestTimeout_unicast {tag : Nat} (hfind : s.ergReqs.find? (fun r => r.pkt.tag = tag) = some r) (hmc : r.pkt.mc = false) :
    requestTimeout s tag = reqTimeout s r := by simp [requestTimeout, hfind, hmc]

theorem forwardTimeout_known {tag : Nat} (hfind : s.ergReqs.find? (fun r => r.pkt.tag = tag && r.origin = .caravan) = some r) :
    forwardTimeout s tag = reqTimeout s r := by rw [forwardTimeout, hfind]

/-- A forwarded request that has had no response is answered TIMEOUT. -/
theorem reqTimeout_caravan (horigin : r.origin = .caravan) : reqTimeout s r = answerFwd (ended s r) r.pkt.tag 0xF [] := by
  rw [reqTimeout, horigin]
  rfl

/-- A pour whose request has had no response aborts with FABRIC_ERROR. -/
theorem reqTimeout_pour (horigin : r.origin = .pour) (hcommit : beforeCommit (ctxOf s r.core r.ctx) = true) :
    reqTimeout s r = setCtx (ended s r) r.core r.ctx (abortedCtx (ctxOf s r.core r.ctx) 0x14 0) := by
  rw [reqTimeout, horigin]
  exact beginAbort_fabric (s := ended s r) hcommit

/-- The pour of a request aborts, and nothing else differs but that the request is over. -/
theorem abortsEnded_spec (s : State) (r : ErgReq) :
    let t := setCtx (ended s r) r.core r.ctx (abortedCtx (ctxOf s r.core r.ctx) 0x14 0)
    t = { s with cores := t.cores, ergReqs := s.ergReqs.erase r } ∧
    (∀ c, c ≠ r.core → coreOf t c = coreOf s c) ∧
    coreOf t r.core = { coreOf s r.core with ctxs := (coreOf t r.core).ctxs } ∧
    ctxOf t r.core r.ctx = abortedCtx (ctxOf s r.core r.ctx) 0x14 0 ∧
    ∀ y, y ≠ r.ctx → ctxOf t r.core y = ctxOf s r.core y := by
  refine ⟨rfl, fun c hc => coreOf_setCtx_other (ended s r) _ _ c _ hc, ?_, ctxOf_setCtx_same _ _ _ _, fun y hy => ctxOf_setCtx_other (ended s r) _ _ y _ hy⟩
  rw [coreOf_setCtx_same]
  rfl

theorem cportOf_modCport_same (s : State) (k : Nat) (f : CPort → CPort) : cportOf (modCport s k f) k = f (cportOf s k) := by
  simp [cportOf, modCport]

/-- A forwarded request that the control node waits for is answered on its port. -/
theorem answerFwd_one {f : CFwd} {tag : Nat} (hfwd : s.ctl.fwd = [f]) (htag : f.ergTag = tag)
    (hopen : f.tag ∈ (cportOf s f.port).open_) (status : Nat) : ∃ m : CMsg,
    (cportOf (answerFwd s tag status []) f.port).txq = (cportOf s f.port).txq ++ [m] ∧ m.tag = f.tag ∧ m.status = status ∧
    m.ty = (if f.isRead then 0x23 else 0x22) ∧ m.payload = [] ∧
    answerFwd s tag status [] = { s with ctl := (answerFwd s tag status []).ctl } ∧ (answerFwd s tag status []).ctl.fwd = [] := by
  have hanswer : answerFwd s tag status [] = answerMsg { s with ctl := { s.ctl with fwd := [] } } f.port f.tag
      (if f.isRead then 0x23 else 0x22) status 0 [] := by
    simp [answerFwd, hfwd, htag]
  have hopen' : (cportOf { s with ctl := { s.ctl with fwd := [] } } f.port).open_.contains f.tag = true := by
    rw [List.contains_iff_mem]
    exact hopen
  rw [hanswer, answerMsg, if_pos hopen']
  exact ⟨_, by rw [cportOf_modCport_same, sendMsg, cportOf_modCport_same]; rfl, rfl, rfl, rfl, rfl, rfl, rfl⟩

end

end Sys2Proof.Machine
end

section
/-! PROOFS. The statement about responses and timeouts (R229, R232–R235, R330). -/

namespace Sys2Proof.Safety

open Sys2Proof Sys2Proof.Machine

/-- A response that reaches this device's UP port and answers a request completes it. -/
theorem runs_response {i : Instr} {s : State} {p ty : Nat} {k : Packet} {r : ErgReq} (harr : arrival i = some (p, k, ty, false))
    (hp : p < 12) (hup : portState s p = 2) (hvalid : fabValid s = true) (hreserved : k.dst ≠ 0xFFFF)
    (hyoung : aged s { k with ty := ty } = false) (hmc : k.mc = false) (hdst : k.dst = nodeId s)
    (hreq : reqFor (takeRx s p { k with ty := ty }) { k with ty := ty } = some r) {P : State → Prop}
    (hP : P (respFor (takeRx s p { k with ty := ty }) r (asAwaited r { k with ty := ty }))) : Runs i s P := by
  have haccepted : Accepted s p { k with ty := ty } := ⟨hup, hvalid, (ty_of_arrival harr).1, hreserved⟩
  refine runs_arrival harr hp ?_
  rw [arrive_here _ haccepted hyoung hmc hdst, hereOf, if_neg (by decide), respHere_known hreq]
  exact hP

section

variable {s : State} {r : ErgReq} {q : Packet} (hmc : r.pkt.mc = false)

include hmc

theorem respFor_pour (horigin : r.origin = .pour) (q : Packet) : respFor s r q = respPour s r q := by
  rw [respFor_unicast hmc (by simp [horigin]) (by simp [horigin]), respBase, horigin]

/-- A response that reports an error aborts the pour with FABRIC_ERROR (R233). -/
theorem respFor_error (horigin : r.origin = .pour) (hcommit : beforeCommit (ctxOf s r.core r.ctx) = true) (hstatus : q.status ≠ 0) :
    respFor s r (asAwaited r q) = setCtx (ended s r) r.core r.ctx (abortedCtx (ctxOf s r.core r.ctx) 0x14 0) := by
  rw [respFor_pour hmc horigin]
  exact respPour_error (by rwa [status_asAwaited]) hcommit

variable {n : Nat} (hwait : r.wait = [n]) (hstatus : q.status = 0)

include hwait hstatus

/-- An OK response ends an engine's or a notice's request, and a pour's that fills nothing (R233, R234). -/
theorem respFor_ends (hkind : (r.origin = .pour ∧ r.spmAt = none ∧ r.fill = none ∧ payloadBad q.payload = false) ∨
    (∃ g, r.origin = .engine g) ∨ (∃ a b st, r.origin = .notice a b st)) : respFor s r (asAwaited r q) = ended s r := by
  rw [asAwaited_one hwait]
  obtain ⟨horigin, hspm, hfill, hgood⟩ | ⟨g, horigin⟩ | ⟨a, b, st, horigin⟩ := hkind
  · rw [respFor_pour hmc horigin]
    exact (respPour_unplaced hwait hstatus hgood hspm).trans (reqGone_noSlot hfill)
  · rw [respFor_unicast hmc (by simp [horigin]) (by simp [horigin]), respBase, horigin]
    simp [waitLess_last hwait, hstatus]
  · rw [respFor_unicast hmc (by simp [horigin]) (by simp [horigin]), respBase, horigin]
    simp [respNotice, hstatus, ended]

/-- An OK acknowledgement of a quench is counted, its request over (R235). -/
theorem respFor_quench {hub : Nat} (horigin : r.origin = .quench hub) :
    respFor s r (asAwaited r q) = respQuench (ended s r) hub 0 := by
  rw [asAwaited_one hwait, respFor_unicast hmc (by simp [horigin]) (by simp [horigin]), respBase, horigin]
  simp [waitLess_last hwait, hstatus]

/-- The words of an OK RD_RSP, in the row of its slot (R233). -/
theorem respFor_lands (horigin : r.origin = .pour) (hgood : payloadBad q.payload = false) {off pitch len : Nat}
    (hspm : r.spmAt = some (off, pitch, len, 0)) (hne : payloadBytes q.payload ≠ []) (hlen : (payloadBytes q.payload).length ≤ len)
    (hserved : rangeServed s r.core 0xD off (payloadBytes q.payload).length = true)
    (hon : rangeOn s r.core off (payloadBytes q.payload).length = true) (hext : ∀ h ∈ s.erg.ext, r.core ∉ h.cores)
    (hclean : (coreOf s r.core).spmBad = []) :
    respFor s r (asAwaited r q) = reqGone (modCore s r.core (fun k => spmWrite k off (payloadBytes q.payload))) r := by
  have hwaits : extWaits s [(r.core, off)] (payloadBytes q.payload).length = false := by simpa [extWaits, hserved] using hext
  rw [asAwaited_one hwait, respFor_pour hmc horigin]
  exact respPour_placed hwait hstatus hgood hspm (packedRuns_oneRow off pitch hne hlen) hwaits hon hclean

end

/-- Settles O32: a response that answers a request runs its completion from the state in which the packet has left the input
buffer (`runs_response`), and a timeout runs what the request's origin says. -/
theorem responsesAndTimeouts : Obligations.ResponsesAndTimeouts := by
  unfold Obligations.ResponsesAndTimeouts
  intro s p k hp hcanon hup hvalid hmc hdst hreserved hyoung
  obtain ⟨-, hs⟩ := hcanon
  refine ⟨?response, fun tag hnone => ⟨?timeoutUnknown, ?forwardUnknown⟩,
    fun tag r hfind horigin hunicast hcommit => ?timeoutPour, ?forwarded⟩
  case response =>
    intro i ty harr q s0 r hreq hunicast
    have run : ∀ {P : State → Prop}, P (respFor s0 r (asAwaited r q)) → Runs i s P := fun hP =>
      runs_response harr hp hup hvalid hreserved (hyoung ty) hmc hdst hreq hP
    refine ⟨run rfl, fun n hstatus hwait hkind => run (respFor_ends (q := q) hunicast hwait hstatus hkind),
      fun horigin _ _ hcommit hstatus => run ?error, ?lands,
      fun n hub _ hstatus hwait horigin hbusy hroom => ⟨fun hmore => run ?counted, fun hlast => run ?last⟩⟩
    case error =>
      rw [respFor_error (s := s0) (q := q) hunicast horigin hcommit hstatus]
      exact abortsEnded_spec s0 r
    case lands =>
      intro n off pitch len tok hstatus hwait horigin hgood hspmAt hfill htoks hspm hclean bs hne hlen hserved hon hext hfilling halone
      refine run ?_
      rw [respFor_lands (s := s0) (q := q) hunicast hwait hstatus horigin hgood hspmAt hne hlen hserved hon hext hclean]
      exact landed_spec (s := s0) htoks hspm hfilling hfill halone
    case counted =>
      obtain ⟨hok, -, hstays, -⟩ := quenchCounted_spec (s := ended s0 r) (hub := hub) hs hroom
      rw [respFor_quench (q := q) hunicast hwait hstatus horigin, respQuench_more (s := ended s0 r) hs hbusy hroom hmore]
      exact ⟨onlyRegs_rwr (ended s0 r) _ List.mem_cons_self hs, hok, hstays.trans hbusy⟩
    case last =>
      obtain ⟨hok, -, -, -⟩ := quenchCounted_spec (s := ended s0 r) (hub := hub) hs hroom
      obtain ⟨hidle, hkept, hbytes⟩ := quenchEnd_spec (s := quenchCounted (ended s0 r) hub) (hub := hub) (regsWf_rput _ _ _ _ hs)
      rw [respFor_quench (q := q) hunicast hwait hstatus horigin, respQuench_last (s := ended s0 r) hs hbusy hroom hlast]
      exact ⟨hidle, hkept.trans hok, hbytes⟩
  case timeoutUnknown => exact ⟨_, rfl, requestTimeout_unknown hnone⟩
  case forwardUnknown => exact ⟨_, rfl, forwardTimeout_unknown hnone⟩
  case timeoutPour =>
    obtain ⟨hframe, hcores, -, hctx, hctxs⟩ := abortsEnded_spec s r
    refine ⟨requestTimeout s tag, rfl, ?_⟩
    rw [requestTimeout_unicast hfind hunicast, reqTimeout_pour horigin hcommit]
    exact ⟨hctx, hctxs, hcores, hframe⟩
  case forwarded =>
    intro tag r f hreqs htag horigin hunicast hfwd hergTag hport hopen done
    obtain ⟨m, htxq, hmtag, hmstatus, hmty, hmload, hframe, hnone⟩ := answerFwd_one (s := ended s r) hfwd hergTag hopen 0xF
    have hdone : done (reqTimeout s r) := by
      rw [reqTimeout_caravan horigin, htag]
      refine ⟨?_, hnone, by rw [hframe]; rfl, by rw [hframe]; rfl, m, htxq, hmtag, hmstatus, hmty, hmload⟩
      rw [hframe]
      simp [ended, hreqs]
    refine ⟨⟨forwardTimeout s tag, rfl, ?_⟩, ⟨requestTimeout s tag, rfl, ?_⟩⟩
    · rwa [forwardTimeout_known (r := r) (by simp [hreqs, htag, horigin])]
    · rwa [requestTimeout_unicast (r := r) (by simp [hreqs, htag]) hunicast]

end Sys2Proof.Safety
end
